-- ==== Sys2Proof/Word.lean ====
section
/-!
DEFINITION. The words of the BZ9600 and the shape of a sparse table.
-/
namespace Sys2Proof

/-- A 64-bit word: a scalar register, an instruction word, a register of the register space (R133, R165, R552). -/
abbrev Word := BitVec 64

/-- A byte of a memory. -/
abbrev Byte := BitVec 8

/-- A sparse table: (key, value) pairs with keys strictly rising; a key that is not listed has the table's default. -/
abbrev SMap (α : Type) := List (Nat × α)

/-- A memory as its listed bytes: addresses strictly rising, no listed byte equal to 0; an unlisted address reads 0. -/
abbrev Memory := List (Nat × Byte)

end Sys2Proof
end

