-- ==== Sys2Proof/Syntax.lean ====
section
/-!
DEFINITION. The commands of the block: one constructor for each row of the opcode table. The table gives no operand fields;
a command's operands are what the neighbour or the engine that makes the step decides (which core, which thread, which data
arrives from outside).
-/
namespace Sys2Proof

/-! Records that commands carry: what the ROM and Grizor read from the boot flash, which is outside the chip. -/

/-- A component of a firmware set (R502): type, LEVEL and VERSION. -/
structure FwComp where
  type : Nat
  level : Nat
  version : Nat
  deriving DecidableEq, Repr

/-- A firmware set (R502); good: its signatures and hashes verify (R503). -/
structure FwSet where
  good : Bool
  setver : Nat
  fwrev : Nat
  comps : List FwComp
  deriving DecidableEq, Repr

/-- A boot header (R500); good: its CHK is correct. -/
structure BootHeader where
  good : Bool
  seq : Nat
  active : Nat
  trial : Bool
  tries : Nat
  setverA : Nat
  setverB : Nat
  deriving DecidableEq, Repr

/-- A region of I0 that the configuration image maps: number, IPA, size, type (0 STACK, 1 COMP, else SEQ: R313), target, R, W. -/
structure CfgRegion where
  no : Nat
  ipa : Nat
  size : Nat
  type : Nat
  target : Nat
  r : Bool
  w : Bool
  deriving DecidableEq, Repr

/-- A ring of I0 (R410): its number, its context, and its registers CTL, CMDBASE, CPLBASE, WLINE, SLINE. -/
structure CfgRing where
  no : Nat
  ctx : Nat
  ctl : Nat
  cmdbase : Nat
  cplbase : Nat
  wline : Nat
  sline : Nat
  deriving DecidableEq, Repr

/-- A configuration image (R509): good says that it is valid but for the check of CSEQ (R510). regs: offsets in the register space
and values; rows: slot and failed physical row; journal: primary, mirror, then the spares. -/
structure CfgImage where
  good : Bool
  cseq : Nat
  regs : List (Nat × Nat)
  slots : List Nat
  rows : List (Nat × Nat)
  journal : List (Nat × Nat)
  save : List (Nat × Nat)
  firmware : List (Nat × Nat)
  i0Stacks : Nat
  i0Quota : Nat
  i0Mirror : Bool
  i0Frames : List (List Nat)
  i0Regions : List CfgRegion
  i0Rings : List CfgRing
  dpdCtx : Option Nat
  dpdMax : Nat
  erase : Nat
  deriving DecidableEq, Repr

/-- A device record (R512): TYPE, RVER, DSEQ, subject and body as numbers; good: its signature verifies. -/
structure DevRec where
  good : Bool
  type : Nat
  rver : Nat
  dseq : Nat
  subject : Nat
  body : List Nat
  deriving DecidableEq, Repr

/-- What a CONFIG.request declares (R417, R419, R423, R424, R427, R430): numerology 0, 1, 3 for 15, 30, 120 kHz, FDD, bandwidth in
MHz, antennas, layers, HARQ pool in bytes, neural model, T1a_max_up and TA4MAX in ns, flow entries (port, index, bits 63:0, bits
127:64), windows and sub-port shapers (port, sub-port, register word). -/
structure CellCfg where
  mu : Nat
  fdd : Bool
  bw : Nat
  ant : Nat
  dl : Nat
  ul : Nat
  pool : Nat
  model : Option Nat
  t1a : Nat
  ta4 : Nat
  flows : List (Nat × Nat × Nat × Nat)
  wins : List (Nat × Nat × Nat)
  shapers : List (Nat × Nat × Nat)
  deriving DecidableEq, Repr

/-- A turn of a stack program (R240, R243): the stack, the number of the request, and how many units of it run. -/
structure SeqTurn where
  stack : Nat
  id : Nat
  units : Nat
  deriving DecidableEq, Repr

/-- What a CCL port brings when it comes up (R297): its good lanes, and the base of the register space in the companion's address space. -/
structure CclUp where
  lanes : Nat
  base : Nat
  deriving DecidableEq, Repr

/-- What Grizor reads at a module's insertion (R382, R401): bytes 129 to 192 of upper page 00h as eight words, and the host settings of the
lanes. -/
structure ModulePages where
  words : List Nat
  eq : List Nat
  deriving DecidableEq, Repr

/-- What a periodic read of a module finds (R402): its state and its laser age. -/
structure ModuleRead where
  state : Nat
  age : Nat
  deriving DecidableEq, Repr

/-- A section of a U-plane frame (R388, R392): udCompMeth and width as its udCompHdr carries them, and the bytes of its PRBs. -/
structure FhSection where
  meth : Nat
  width : Nat
  prbs : List (List Nat)
  deriving DecidableEq, Repr

/-- A PTP message (R365, R366): type (0 Sync, 8 Follow_Up, 9 Delay_Resp, 11 Announce), domain, sequence number, master, two-step flag, its
time in ns, its correction in units of 2^-16 ns; an Announce's data set as numbers in the order in which the profile compares them. -/
structure PtpMsg where
  domain : Nat
  quality : List Nat
  type : Nat
  seq : Nat
  master : Nat
  twoStep : Bool
  time : Nat
  corr : Int
  deriving DecidableEq, Repr

/-- A received fronthaul frame, by the fields that R388 checks: sub-port, FCS good, length, destination MAC (first octet in bits 7:0),
EtherType, VLAN ID, eCPRI revision, size consistent, message type, E bit, PCID, sequence number, the time fields of its first
symbol, sections, first 128 bytes, the PTP message of a time frame, and the quality level of an ESMC frame. The places of these fields in the frame are those of IEEE
802.3, eCPRI, O-RAN WG4 and IEEE 1588. -/
structure FhRx where
  sub : Nat
  fcs : Bool
  len : Nat
  dst : Nat
  etype : Nat
  vid : Nat
  rev : Nat
  sized : Bool
  mtype : Nat
  ebit : Bool
  pcid : Nat
  seq : Nat
  frame : Nat
  subframe : Nat
  slot : Nat
  symbol : Nat
  sections : List FhSection
  head : List Nat
  ptp : Option PtpMsg
  ssm : Option Nat
  deriving DecidableEq, Repr

/-- The boot flash (R500) with its counters (R499); idok: the PUF secret is reconstructed from its helper data and gives the device's public key
devpub (R504); cntok: the counters authenticate (R499). -/
structure Flash where
  h0 : BootHeader
  h1 : BootHeader
  slotA : FwSet
  slotB : FwSet
  cfg0 : CfgImage
  cfg1 : CfgImage
  minver : Nat
  mincseq : Nat
  idok : Bool
  cntok : Bool
  devpub : Nat
  records : List DevRec
  deriving DecidableEq, Repr

/-- Header of a Withy transaction (R450): target and source device, hops taken, group tag, TID, Withy address bits 47:0, ORD, RANK. -/
structure WyHdr where
  dst : Nat
  src : Nat
  hops : Nat
  group : Nat
  tid : Nat
  addr : Nat
  ord : Bool
  rank : Bool
  deriving DecidableEq, Repr

/-- A LINK message: HOPS of its header, on CLAIM traffic (R450, R468); its body (R468): ORIGIN, SUBJECT, WITNESS, RESULT, RUN, WINDOW, COUNT,
INSERV, KEY, its group tag, WINNER; and what the spec places in no byte (DESIGN CHOICE, log 32): the joiner's GCTL_ARITHREV, with COUNT
whether it was expelled for health since its last cold reset, in an ADMIT token (R489), and the score of SUBJECT and the lowest candidate
of the present lap with its score in a BUDGET token (R483). -/
structure WlMsg where
  hops : Nat
  origin : Nat
  subject : Nat
  witness : Nat
  result : Nat
  run : List Nat
  window : Nat
  count : Nat
  inserv : Nat
  key : Nat
  group : Nat
  winner : Nat
  arith : Nat
  score : Nat
  best : Nat
  bestScore : Nat
  deriving DecidableEq, Repr


/-- The commands. Operands: p a physical core slot, i an issuer (0 to 15 an SU thread, 16 + s plait slot s), n an instance,
r a ring, m a stack, w a port, q a queue or queue pair. -/
inductive Instr where
  /-- COLD_RESET (R545) -/
  | coldReset (pwr : Bool)
  /-- COLD_START (R506) -/
  | coldStart (straps : List Bool) (flash : Option Flash)
  /-- GRIZOR_START (R506) -/
  | grizorStart (rver : Nat)
  /-- SELF_TEST_COMPLETE (R256) -/
  | selfTestComplete (slots : List Nat) (rows : List (Nat × Nat)) (stackSet : List Nat) (x0 : Bool)
  /-- CONFIGURATION_APPLY (R511) -/
  | configurationApply
  /-- BOOT_LATE (R506) -/
  | bootLate
  /-- RECOVERY_POLL (R507) -/
  | recoveryPoll (set : FwSet)
  /-- WARM_RESET (R545) -/
  | warmReset (pin : Bool)
  /-- WARM_RESET_REQUEST (R558) -/
  | warmResetRequest (v : Nat)
  /-- GRIZOR_RESTART (R508) -/
  | grizorRestart (rver : Nat)
  /-- MP_WATCHDOG (R522) -/
  | mpWatchdog
  /-- MP_LOAD_WINDOW (R521) -/
  | mpLoadWindow (load : Nat)
  /-- TAMPER (R239) -/
  | tamper (source : Nat)
  /-- SEAL (R556) -/
  | seal
  /-- REGISTER_WRITE (R555) -/
  | registerWrite (off : Nat) (size : Nat) (v : Nat)
  /-- TIME_SEC_READ (R380) -/
  | timeSecRead (n : Nat)
  /-- IM_ACCT_LATCH (R293) -/
  | imAcctLatch (v : Nat)
  /-- TLB_INVALIDATE (R314) -/
  | tlbInvalidate (n : Nat)
  /-- TLB_INVALIDATE_DONE (R314) -/
  | tlbInvalidateDone (n : Nat)
  /-- RING_ENABLE (R305) -/
  | ringEnable (n : Nat) (r : Nat) (v : Nat)
  /-- DIGEST_LOG_ENABLE (R344) -/
  | digestLogEnable (n : Nat) (v : Nat)
  /-- QUEUE_PAIR_ENABLE (R418) -/
  | queuePairEnable (q : Nat) (v : Nat)
  /-- FH_PORT_ENABLE (R396) -/
  | fhPortEnable (p : Nat) (v : Nat)
  /-- FLOW_STAGING_WRITE (R387) -/
  | flowStagingWrite (p : Nat) (f : Nat) (v : Nat) (grizor : Bool)
  /-- FLOW_ENTRY_REPLACE (R387) -/
  | flowEntryReplace (p : Nat) (f : Nat) (v : Nat) (grizor : Bool)
  /-- MSI_UNMASK (R310) -/
  | msiUnmask (v : Nat) (w : Nat)
  /-- RADIO_SWITCH (R368) -/
  | radioSwitch (active : Nat)
  /-- APPOFS_WRITE (R380) -/
  | appofsWrite (v : Nat)
  /-- REPROBE (R479) -/
  | reprobe (v : Nat)
  /-- REPROBE_TIMEOUT (R479) -/
  | reprobeTimeout (hops : Nat)
  /-- ADMISSION (R488) -/
  | admission (v : Nat)
  /-- ADMISSION_PHASE_COMPLETE (R488) -/
  | admissionPhaseComplete (pass : Bool)
  /-- CLAIM_SEND (R486) -/
  | claimSend (v : Nat)
  /-- EVENT_TIMER_TICK (R563) -/
  | eventTimerTick
  /-- BEAT_START (R371) -/
  | beatStart
  /-- BEAT_BOUNDARY (R266) -/
  | beatBoundary (avg : Nat) (alert : Bool)
  /-- DL_ABORT (R274) -/
  | dlAbort (p : Nat)
  /-- CORE_WAKE_COMPLETE (R528) -/
  | coreWakeComplete (p : Nat)
  /-- PLAN_PREPARATION (R260) -/
  | planPreparation (first : Nat) (beats : List (List (Nat × Nat))) (excess : List (Nat × Nat)) (drop : List Nat)
  /-- PLAN_LATCH (R261) -/
  | planLatch
  /-- LOCK_LEASE_EXPIRY (R180) -/
  | lockLeaseExpiry (p : Nat) (n : Nat)
  /-- FIXED_LEASE_END (R319) -/
  | fixedLeaseEnd (n : Nat)
  /-- HOLD_TIMEOUT (R174) -/
  | holdTimeout (p : Nat) (t : Nat)
  /-- BORROW_REQUEST (R269) -/
  | borrowRequest (p : Nat) (no : Nat)
  /-- STOP_ISSUE_COMPLETE (R148) -/
  | stopIssueComplete (p : Nat)
  /-- ME_DRAIN_COMPLETE (R99) -/
  | meDrainComplete (p : Nat) (stops : List Nat)
  /-- BANK_SWITCH_COMPLETE (R24) -/
  | bankSwitchComplete (p : Nat)
  /-- RADIO_DISPATCH_COMPLETE (R270) -/
  | radioDispatchComplete (p : Nat)
  /-- WEIGHT_RELOAD_COMPLETE (R101) -/
  | weightReloadComplete (p : Nat)
  /-- SPILL_COMPLETE (R282) -/
  | spillComplete (p : Nat)
  /-- ZEROING_COMPLETE (R282) -/
  | zeroingComplete (p : Nat)
  /-- RESTORE_COMPLETE (R282) -/
  | restoreComplete (p : Nat)
  /-- KNOWN_ANSWER_TEST_COMPLETE (R106) -/
  | knownAnswerTestComplete (p : Nat) (rows : List Nat)
  /-- CORE_FAILED (R17) -/
  | coreFailed (p : Nat)
  /-- SPARE_SUBSTITUTION (R17) -/
  | spareSubstitution (l : Nat)
  /-- DIE_FAIL (R255) -/
  | dieFail (d : Nat)
  /-- DESCRIPTOR_FETCH (R306) -/
  | descriptorFetch (n : Nat) (r : Nat)
  /-- DESCRIPTOR_CHECK (R154) -/
  | descriptorCheck (n : Nat) (r : Nat)
  /-- JOURNAL_RECORD_DURABLE (R249) -/
  | journalRecordDurable (comp : List Nat)
  /-- JOURNAL_SLOT_FREED (R250) -/
  | journalSlotFreed
  /-- KERNEL (R158) -/
  | kernel (n : Nat) (r : Nat)
  /-- COPY (R161) -/
  | copy (n : Nat) (r : Nat) (data : List Nat) (comp : List Nat)
  /-- BARRIER (R162) -/
  | barrier (n : Nat) (r : Nat) (comp : List Nat)
  /-- BARRIER_RELEASE (R353) -/
  | barrierRelease (n : Nat) (r : Nat)
  /-- SYNCHRONISED_START (R353) -/
  | synchronisedStart (n : Nat) (r : Nat)
  /-- FENCE (R163) -/
  | fence (n : Nat) (r : Nat)
  /-- FENCE_COMPLETE (R163) -/
  | fenceComplete (n : Nat) (r : Nat)
  /-- SIGNAL (R323) -/
  | signal (n : Nat) (r : Nat) (comp : List Nat)
  /-- CREATE (R317) -/
  | create (n : Nat) (cores : List Nat) (frames : List (List Nat))
  /-- CREATE_COMPLETE (R317) -/
  | createComplete (n : Nat)
  /-- RESIZE (R318) -/
  | resize (n : Nat) (cores : List Nat) (frames : List (List Nat))
  /-- FIXLEASE (R319) -/
  | fixlease (n : Nat) (cores : List Nat)
  /-- SETW (R316) -/
  | setw (n : Nat)
  /-- MAP (R313) -/
  | map (n : Nat)
  /-- UNMAP (R316) -/
  | unmap (n : Nat)
  /-- QUIESCE (R317) -/
  | quiesce (n : Nat)
  /-- QUIESCE_COMPLETE (R317) -/
  | quiesceComplete (n : Nat)
  /-- RESUME (R317) -/
  | resume (n : Nat)
  /-- RESET (R321) -/
  | reset (n : Nat)
  /-- REMOVE (R321) -/
  | remove (n : Nat)
  /-- SCRATCHPAD_UNCORRECTABLE_ERROR (R186) -/
  | scratchpadUncorrectableError (p : Nat) (n : Nat) (kind : Nat) (i : Nat)
  /-- SCRATCHPAD_SCRUB (R187) -/
  | scratchpadScrub (p : Nat) (n : Nat) (bad : Nat)
  /-- MMT (R74) -/
  | mmt (p : Nat) (i : Nat)
  /-- MMT_COMPLETE (R97) -/
  | mmtComplete (p : Nat) (k : Nat) (id : Nat)
  /-- MWL (R82) -/
  | mwl (p : Nat) (i : Nat)
  /-- WEIGHT_PASS_COMPLETE (R82) -/
  | weightPassComplete (p : Nat) (k : Nat)
  /-- MDR (R92) -/
  | mdr (p : Nat) (i : Nat)
  /-- MDR_COMPLETE (R92) -/
  | mdrComplete (p : Nat) (k : Nat) (id : Nat)
  /-- ADD (R167) -/
  | add (p : Nat) (i : Nat)
  /-- SUB (R167) -/
  | sub (p : Nat) (i : Nat)
  /-- MUL (R167) -/
  | mul (p : Nat) (i : Nat)
  /-- AND (R167) -/
  | andS (p : Nat) (i : Nat)
  /-- OR (R167) -/
  | orS (p : Nat) (i : Nat)
  /-- XOR (R167) -/
  | xorS (p : Nat) (i : Nat)
  /-- SLL (R167) -/
  | sll (p : Nat) (i : Nat)
  /-- SRA (R167) -/
  | sra (p : Nat) (i : Nat)
  /-- BFX (R167) -/
  | bfx (p : Nat) (i : Nat)
  /-- ADDI (R167) -/
  | addi (p : Nat) (i : Nat)
  /-- LI (R167) -/
  | li (p : Nat) (i : Nat)
  /-- LIH (R167) -/
  | lih (p : Nat) (i : Nat)
  /-- BEQ (R167) -/
  | beq (p : Nat) (i : Nat)
  /-- BNE (R167) -/
  | bne (p : Nat) (i : Nat)
  /-- BLT (R167) -/
  | blt (p : Nat) (i : Nat)
  /-- BGE (R167) -/
  | bge (p : Nat) (i : Nat)
  /-- BLTU (R167) -/
  | bltu (p : Nat) (i : Nat)
  /-- BGEU (R167) -/
  | bgeu (p : Nat) (i : Nat)
  /-- JMP (R167) -/
  | jmp (p : Nat) (i : Nat)
  /-- JR (R160) -/
  | jr (p : Nat) (i : Nat)
  /-- LD (R137) -/
  | ld (p : Nat) (i : Nat)
  /-- ST (R137) -/
  | st (p : Nat) (i : Nat)
  /-- LOAD_DATA_RETURN (R121) -/
  | loadDataReturn (p : Nat) (i : Nat) (n : Nat)
  /-- FADD (R167) -/
  | fadd (p : Nat) (i : Nat)
  /-- FSUB (R167) -/
  | fsub (p : Nat) (i : Nat)
  /-- FMUL (R167) -/
  | fmul (p : Nat) (i : Nat)
  /-- FFMA (R167) -/
  | ffma (p : Nat) (i : Nat)
  /-- FCVTIF (R167) -/
  | fcvtif (p : Nat) (i : Nat)
  /-- FCVTFI (R167) -/
  | fcvtfi (p : Nat) (i : Nat)
  /-- FORK (R134) -/
  | fork (p : Nat) (i : Nat)
  /-- HALT (R134) -/
  | halt (p : Nat) (i : Nat)
  /-- WAITE (R136) -/
  | waite (p : Nat) (i : Nat)
  /-- WAITE_RETURN (R136) -/
  | waiteReturn (p : Nat) (t : Nat)
  /-- NPB (R173) -/
  | npb (p : Nat) (i : Nat)
  /-- NPE (R173) -/
  | npe (p : Nat) (i : Nat)
  /-- LKACQ (R178) -/
  | lkacq (p : Nat) (i : Nat)
  /-- LKREL (R179) -/
  | lkrel (p : Nat) (i : Nat)
  /-- RDCTR (R167) -/
  | rdctr (p : Nat) (i : Nat)
  /-- VADD (R114) -/
  | vadd (p : Nat) (i : Nat)
  /-- VSUB (R114) -/
  | vsub (p : Nat) (i : Nat)
  /-- VSHL (R572) -/
  | vshl (p : Nat) (i : Nat)
  /-- VADDS (R571) -/
  | vadds (p : Nat) (i : Nat)
  /-- VSUBS (R571) -/
  | vsubs (p : Nat) (i : Nat)
  /-- VMUL (R571) -/
  | vmul (p : Nat) (i : Nat)
  /-- VFMA (R113) -/
  | vfma (p : Nat) (i : Nat)
  /-- VDOT (R113) -/
  | vdot (p : Nat) (i : Nat)
  /-- VSRA (R572) -/
  | vsra (p : Nat) (i : Nat)
  /-- VAND (R170) -/
  | vand (p : Nat) (i : Nat)
  /-- VOR (R170) -/
  | vor (p : Nat) (i : Nat)
  /-- VXOR (R170) -/
  | vxor (p : Nat) (i : Nat)
  /-- VMIN (R571) -/
  | vmin (p : Nat) (i : Nat)
  /-- VMAX (R571) -/
  | vmax (p : Nat) (i : Nat)
  /-- VCMP (R568) -/
  | vcmp (p : Nat) (i : Nat)
  /-- VSEL (R170) -/
  | vsel (p : Nat) (i : Nat)
  /-- VCVT (R569) -/
  | vcvt (p : Nat) (i : Nat)
  /-- VCMAC (R115) -/
  | vcmac (p : Nat) (i : Nat)
  /-- VBF4 (R130) -/
  | vbf4 (p : Nat) (i : Nat)
  /-- VBEX (R131) -/
  | vbex (p : Nat) (i : Nat)
  /-- VMOVA (R132) -/
  | vmova (p : Nat) (i : Nat)
  /-- VPERM4 (R573) -/
  | vperm4 (p : Nat) (i : Nat)
  /-- VRED (R127) -/
  | vred (p : Nat) (i : Nat)
  /-- VSCAN (R127) -/
  | vscan (p : Nat) (i : Nat)
  /-- VRCP (R116) -/
  | vrcp (p : Nat) (i : Nat)
  /-- VRSQ (R116) -/
  | vrsq (p : Nat) (i : Nat)
  /-- VEXP2 (R116) -/
  | vexp2 (p : Nat) (i : Nat)
  /-- VLOG2 (R116) -/
  | vlog2 (p : Nat) (i : Nat)
  /-- VCNI (R128) -/
  | vcni (p : Nat) (i : Nat)
  /-- VCNU (R128) -/
  | vcnu (p : Nat) (i : Nat)
  /-- VCNO (R128) -/
  | vcno (p : Nat) (i : Nat)
  /-- VLD (R123) -/
  | vld (p : Nat) (i : Nat)
  /-- VST (R123) -/
  | vst (p : Nat) (i : Nat)
  /-- VLDS (R570) -/
  | vlds (p : Nat) (i : Nat)
  /-- VSTS (R570) -/
  | vsts (p : Nat) (i : Nat)
  /-- VGTH (R570) -/
  | vgth (p : Nat) (i : Nat)
  /-- VSCT (R570) -/
  | vsct (p : Nat) (i : Nat)
  /-- VATOM (R125) -/
  | vatom (p : Nat) (i : Nat)
  /-- VSID (R142) -/
  | vsid (p : Nat) (i : Nat)
  /-- VBCST (R170) -/
  | vbcst (p : Nat) (i : Nat)
  /-- IF (R144) -/
  | ifP (p : Nat) (i : Nat)
  /-- ELSE (R144) -/
  | elseP (p : Nat) (i : Nat)
  /-- ENDIF (R144) -/
  | endifP (p : Nat) (i : Nat)
  /-- LOOP (R144) -/
  | loopP (p : Nat) (i : Nat)
  /-- BRK (R144) -/
  | brkP (p : Nat) (i : Nat)
  /-- CONT (R144) -/
  | contP (p : Nat) (i : Nat)
  /-- ENDLOOP (R144) -/
  | endloopP (p : Nat) (i : Nat)
  /-- EXIT (R145) -/
  | exitP (p : Nat) (i : Nat)
  /-- SKB (R146) -/
  | skb (p : Nat) (i : Nat)
  /-- SKB_RELEASE (R146) -/
  | skbRelease (p : Nat) (n : Nat)
  /-- CPQ (R171) -/
  | cpq (p : Nat) (i : Nat)
  /-- LIN (R195) -/
  | lin (p : Nat) (k : Nat) (e : Nat)
  /-- RECT (R195) -/
  | rect (p : Nat) (k : Nat) (e : Nat)
  /-- BOX (R195) -/
  | box (p : Nat) (k : Nat) (e : Nat)
  /-- GATHER (R196) -/
  | gather (p : Nat) (k : Nat) (e : Nat)
  /-- FILL (R197) -/
  | fill (p : Nat) (k : Nat) (e : Nat)
  /-- TRANSACTION_ISSUE (R201) -/
  | transactionIssue (p : Nat) (k : Nat) (e : Nat) (write : Bool) (comp : List Nat)
  /-- WEAVE_TRANSACTION_COMPLETE (R203) -/
  | weaveTransactionComplete (p : Nat) (k : Nat) (e : Nat) (id : Nat) (data : List Nat)
  /-- COPY_DESCRIPTOR_COMPLETE (R203) -/
  | copyDescriptorComplete (p : Nat) (k : Nat) (e : Nat)
  /-- WEAVE_REQUEST (R216) -/
  | weaveRequest (pt : Nat) (rank : Nat) (who : Nat) (flits : Nat) (txn : Option (Nat × Nat)) (sent : Nat)
  /-- ARBITRATION_ROUND (R215) -/
  | arbitrationRound (pt : Nat)
  /-- HOLD_CUTOFF (R216) -/
  | holdCutoff (pt : Nat) (sent : Nat)
  /-- WINDOW_START (R214) -/
  | windowStart
  /-- STACK_ROW_ACCESS_COMPLETE (R234) -/
  | stackRowAccessComplete (pa : Nat) (syms : Nat)
  /-- STACK_REFRESH (R231) -/
  | stackRefresh (m : Nat) (ch : Nat) (bank : Nat)
  /-- REFRESH_COMPLETE (R231) -/
  | refreshComplete (m : Nat) (ch : Nat) (bank : Nat)
  /-- STACK_SCRUB (R236) -/
  | stackScrub (m : Nat) (ch : Nat) (syms : Nat)
  /-- FRAME_CLEAR_COMPLETE (R229) -/
  | frameClearComplete (m : Nat) (f : Nat)
  /-- SEQUENCER_REQUEST (R241) -/
  | sequencerRequest (p : Nat) (k : Nat) (e : Nat) (id : Nat)
  /-- GATHER_PROGRAM (R242) -/
  | gatherProgram (x : SeqTurn) (words : List Nat) (data : List Nat)
  /-- SCATTER (R242) -/
  | scatter (x : SeqTurn) (words : List Nat) (data : List Nat)
  /-- KVWALK (R242) -/
  | kvwalk (x : SeqTurn) (words : List Nat) (data : List Nat)
  /-- SCATADD (R242) -/
  | scatadd (x : SeqTurn) (words : List Nat) (data : List Nat)
  /-- HARQ (R242) -/
  | harq (x : SeqTurn) (words : List Nat) (data : List Nat)
  /-- JOURNAL_WRITE (R249) -/
  | journalWrite
  /-- STACK_PROGRAM_COMPLETE (R245) -/
  | stackProgramComplete (m : Nat) (id : Nat)
  /-- CHANNEL_MIGRATION (R253) -/
  | channelMigration (m : Nat) (ch : Nat) (command : Bool)
  /-- MIGRATION_COMPLETE (R253) -/
  | migrationComplete (m : Nat)
  /-- CHANNEL_FAIL (R254) -/
  | channelFail (m : Nat) (ch : Nat)
  /-- MIRROR_REBUILD_COMPLETE (R254) -/
  | mirrorRebuildComplete (m : Nat)
  /-- STACK_LOST (R255) -/
  | stackLost (m : Nat)
  /-- JOURNAL_REBUILD_COMPLETE (R252) -/
  | journalRebuildComplete
  /-- CCL_PORT_UP (R297) -/
  | cclPortUp (i : Nat) (up : CclUp)
  /-- CCL_PORT_DOWN (R298) -/
  | cclPortDown (i : Nat) (lanes : Nat)
  /-- CCL_RETRY (R296) -/
  | cclRetry (i : Nat)
  /-- SNPINV (R301) -/
  | snpinv (a : Nat)
  /-- LINE_DATA_RETURN (R301) -/
  | lineDataReturn (j : Nat) (data : List Nat)
  /-- WRITE_ACKNOWLEDGE (R310) -/
  | writeAcknowledge (j : Nat)
  /-- WATCHED_LINE_REREAD (R301) -/
  | watchedLineReread
  /-- TIME_BASE_LOCK (R364) -/
  | timeBaseLock (n : Nat)
  /-- TIME_BASE_UNLOCK (R364) -/
  | timeBaseUnlock (n : Nat)
  /-- HOLDOVER (R364) -/
  | holdover (n : Nat)
  /-- PPS_EDGE (R373) -/
  | ppsEdge (i : Nat) (frac : Nat)
  /-- TIME_OF_DAY_MESSAGE (R374) -/
  | timeOfDayMessage (cs : List Nat)
  /-- TOD_MESSAGE_TIMEOUT (R373) -/
  | todMessageTimeout (i : Nat)
  /-- PPS_MISSING (R373) -/
  | ppsMissing (i : Nat)
  /-- FREQUENCY_WINDOW (R375) -/
  | frequencyWindow (src : Nat) (ppb : Int)
  /-- DELAY_REQ_SEND (R366) -/
  | delayReqSend (n : Nat)
  /-- PPS_OUT_PULSE (R376) -/
  | ppsOutPulse
  /-- PPS_OUT_PULSE_END (R376) -/
  | ppsOutPulseEnd
  /-- BEAT_TRACE_PULSE_END (R562) -/
  | beatTracePulseEnd
  /-- INGRESS_FRAME (R388) -/
  | ingressFrame (p : Nat) (f : FhRx) (frac : Nat)
  /-- EGRESS_FRAME_QUEUE (R398) -/
  | egressFrameQueue (p : Nat) (cls : Nat) (flow : Nat) (len : Nat) (earliest : Nat) (latest : Nat) (slot : Nat) (prbs : List (List Int))
  /-- EGRESS_FRAME_START (R398) -/
  | egressFrameStart (p : Nat) (sub : Nat)
  /-- EGRESS_FRAME_END (R398) -/
  | egressFrameEnd (p : Nat) (sub : Nat)
  /-- EGRESS_FRAME_LATE (R398) -/
  | egressFrameLate (p : Nat) (id : Nat)
  /-- REFILL (R397) -/
  | refill (p : Nat)
  /-- SUBPORT_UP (R383) -/
  | subportUp (p : Nat) (sub : Nat)
  /-- SUBPORT_DOWN (R383) -/
  | subportDown (p : Nat) (sub : Nat)
  /-- MODULE_INSERTION (R401) -/
  | moduleInsertion (p : Nat) (ident : Nat) (cmis : Nat) (age : Nat) (pages : ModulePages) (ready : Bool)
  /-- MODULE_READY_TIMEOUT (R401) -/
  | moduleReadyTimeout (p : Nat)
  /-- MODULE_INTERRUPT (R402) -/
  | moduleInterrupt (p : Nat) (state : Nat) (age : Nat)
  /-- MODULE_PERIODIC_READ (R402) -/
  | modulePeriodicRead (p : Nat) (read : ModuleRead)
  /-- PE_WATCHDOG_EXPIRY (R404) -/
  | peWatchdogExpiry (p : Nat)
  /-- PE_RESTART_COMPLETE (R404) -/
  | peRestartComplete (p : Nat)
  /-- PARAM_REQUEST (R417) -/
  | paramRequest (q : Nat) (seq : Nat) (len : Nat) (phy : Nat)
  /-- CONFIG_REQUEST (R428) -/
  | configRequest (q : Nat) (seq : Nat) (len : Nat) (phy : Nat) (cfg : CellCfg)
  /-- START_REQUEST (R417) -/
  | startRequest (q : Nat) (seq : Nat) (len : Nat) (phy : Nat)
  /-- CELL_START (R417) -/
  | cellStart (phy : Nat)
  /-- STOP_REQUEST (R417) -/
  | stopRequest (q : Nat) (seq : Nat) (len : Nat) (phy : Nat)
  /-- DL_TTI_REQUEST (R425) -/
  | dlTtiRequest (q : Nat) (seq : Nat) (len : Nat) (phy : Nat) (slot : Nat)
  /-- UL_TTI_REQUEST (R425) -/
  | ulTtiRequest (q : Nat) (seq : Nat) (len : Nat) (phy : Nat) (slot : Nat) (pusch : Nat) (uci : Nat) (prbs : Nat)
  /-- UL_DCI_REQUEST (R424) -/
  | ulDciRequest (q : Nat) (seq : Nat) (len : Nat) (phy : Nat) (slot : Nat)
  /-- TX_DATA_REQUEST (R424) -/
  | txDataRequest (q : Nat) (seq : Nat) (len : Nat) (phy : Nat) (slot : Nat)
  /-- MODEL_LOAD_REQUEST (R430) -/
  | modelLoadRequest (q : Nat) (seq : Nat) (len : Nat) (phy : Nat) (no : Nat) (size : Nat) (adders : List Nat) (clean : Bool) (signed : Bool)
  /-- DPD_TRAIN_REQUEST (R432) -/
  | dpdTrainRequest (q : Nat) (seq : Nat) (len : Nat) (phy : Nat) (chain : Nat) (orders : List Nat) (samples : Nat) (coeffs : Nat)
  /-- DPD_TRAIN_COMPLETE (R433) -/
  | dpdTrainComplete (phy : Nat) (chain : Nat) (capture : List Nat)
  /-- DPD_TRAIN_TIMEOUT (R434) -/
  | dpdTrainTimeout (phy : Nat) (chain : Nat)
  /-- SLOT_START (R417) -/
  | slotStart (mu : Nat)
  /-- CONTEXT_HALT (R436) -/
  | contextHalt (g : Nat)
  /-- CE_FALLBACK_END (R431) -/
  | ceFallbackEnd (phy : Nat)
  /-- INDICATION_DISCARD (R416) -/
  | indicationDiscard (q : Nat)
  /-- CABLE_DETECTED (R443) -/
  | cableDetected (w : Nat)
  /-- CABLE_IDENTITY_READ_COMPLETE (R461) -/
  | cableIdentityReadComplete (w : Nat) (record : List Nat) (serial : Nat) (mates : Nat) (hours : Nat) (signed : Bool)
  /-- LINK_UP (R443) -/
  | linkUp (w : Nat) (peer : Nat) (lr : Bool) (lanes : Nat) (fofs : Int)
  /-- RETRAIN (R444) -/
  | retrain (w : Nat) (lock : Bool) (lanes : Nat)
  /-- FLIT_CRC_ERROR (R450) -/
  | flitCrcError (w : Nat) (after : Nat)
  /-- NAK (R450) -/
  | nak (w : Nat) (good : Nat) (credits : Nat)
  /-- WR (R456) -/
  | wr (w : Nat) (h : WyHdr) (data : List Nat) (comp : List Nat)
  /-- RD (R455) -/
  | rd (w : Nat) (h : WyHdr) (len : Nat) (comp : List Nat) (data : List Nat)
  /-- RDDATA (R459) -/
  | rddata (w : Nat) (h : WyHdr) (data : List Nat)
  /-- ACK (R456) -/
  | ack (w : Nat) (h : WyHdr)
  /-- NACK (R457) -/
  | nack (w : Nat) (h : WyHdr) (cause : Nat)
  /-- TRANSACTION_TIMEOUT (R459) -/
  | transactionTimeout (tid : Nat)
  /-- RING_TIME_EXCHANGE (R447) -/
  | ringTimeExchange (w : Nat)
  /-- TIME (R447) -/
  | time (w : Nat) (kind : Nat) (n : Nat) (ts : Nat) (frac : Nat)
  /-- LANE_HOUR_TICK (R462) -/
  | laneHourTick (w : Nat) (l : Nat)
  /-- LEDGER_COPY (R462) -/
  | ledgerCopy
  /-- HEARTBEAT_SEND (R469) -/
  | heartbeatSend
  /-- HB (R470) -/
  | hb (x : Nat) (score : Nat)
  /-- HEARTBEAT_MISS_WINDOW (R469) -/
  | heartbeatMissWindow (x : Nat)
  /-- SUSPECT (R469) -/
  | suspect (x : Nat)
  /-- DEATH (R471) -/
  | death (x : Nat) (m : WlMsg)
  /-- PROBE (R471) -/
  | probe (w : Nat) (prober : Nat)
  /-- PROBE_ACK (R471) -/
  | probeAck (w : Nat) (prober : Nat)
  /-- WITNESS_PROBE_TIMEOUT (R471) -/
  | witnessProbeTimeout (subject : Nat)
  /-- DREPLY (R474) -/
  | dreply (x : Nat) (m : WlMsg)
  /-- COMMIT (R475) -/
  | commit (x : Nat) (m : WlMsg)
  /-- FENCE_NOTICE (R477) -/
  | fenceNotice (w : Nat)
  /-- BUDGET (R483) -/
  | budget (x : Nat) (m : WlMsg)
  /-- BUDGET_TOKEN_TIMEOUT (R484) -/
  | budgetTokenTimeout
  /-- HEALTH_UPDATE (R480) -/
  | healthUpdate
  /-- EXPULSION_CANDIDATE (R481) -/
  | expulsionCandidate
  /-- ADMIT (R489) -/
  | admitMessage (x : Nat) (m : WlMsg)
  /-- CLAIM (R486) -/
  | claim (w : Nat) (m : WlMsg)
  /-- CLAIM_RES (R486) -/
  | claimRes (w : Nat) (m : WlMsg)
  /-- EVENT_RECORD_EMIT (R493) -/
  | eventRecordEmit
  /-- ATTEST (R515) -/
  | attest
  /-- FW_WRITE (R516) -/
  | fwWrite (set : FwSet)
  /-- FLASH_PROGRAM_COMPLETE (R516) -/
  | flashProgramComplete (ok : Bool)
  /-- FW_ACTIVATE (R517) -/
  | fwActivate
  /-- ACTIVATION_STEP_COMPLETE (R517) -/
  | activationStepComplete (ok : Bool)
  /-- FW_COMMIT (R519) -/
  | fwCommit
  /-- FW_REVERT (R519) -/
  | fwRevert
  /-- CFG_WRITE (R511) -/
  | cfgWrite (img : CfgImage) (ok : Bool)
  /-- CFG_COMMIT (R519) -/
  | cfgCommit
  /-- SENSOR_SAMPLE (R533) -/
  | sensorSample (u : Nat) (k : Nat) (temp : Nat)
  /-- AVS_TIMEOUT (R531) -/
  | avsTimeout
  /-- AVS_ANSWER (R531) -/
  | avsAnswer
  /-- BYPASS (R547) -/
  | bypass
  /-- IDCODE (R547) -/
  | idcode
  /-- SAMPLE_PRELOAD (R547) -/
  | samplePreload (bits : List Bool)
  /-- EXTEST (R547) -/
  | extest
  /-- EXTEST_PULSE (R547) -/
  | extestPulse
  /-- EXTEST_TRAIN (R547) -/
  | extestTrain
  /-- ILLEGAL_INSTRUCTION (R183) -/
  | illegalInstruction (p : Nat) (i : Nat)
  /-- INSTRUCTION_FETCH_FAULT (R160) -/
  | instructionFetchFault (p : Nat) (i : Nat)
  /-- ILLEGAL_COPY_DESCRIPTOR (R204) -/
  | illegalCopyDescriptor (p : Nat) (k : Nat) (e : Nat)
  /-- WARM_RESET_END (R437) -/
  | warmResetEnd
  deriving DecidableEq, Repr

end Sys2Proof
end

