-- ==== Sys2Proof/Machine/Crc.lean ====
section
/-!
DEFINITION. CRC-64 (R340).
-/
namespace Sys2Proof

/-- One step of a reflected CRC: shift right, and exclusive-or the polynomial when a 1 falls out. -/
def crcStep (poly : Nat) : Nat → Nat → Nat
  | 0, c => c
  | n + 1, c => crcStep poly n (if c % 2 = 1 then c / 2 ^^^ poly else c / 2)

/-- crc64_byte of R340. -/
def crc64Byte (c : Nat) (b : Byte) : Nat := crcStep 0xC96C5795D7870F42 8 (c ^^^ b.toNat)

/-- Running state after a list of bytes. -/
def crc64Run (c : Nat) (bs : List Byte) : Nat := bs.foldl crc64Byte c

/-- CRC-64 of bytes (R340). -/
def crc64 (bs : List Byte) : Nat := crc64Run (2 ^ 64 - 1) bs ^^^ (2 ^ 64 - 1)

end Sys2Proof
end

