-- ==== Sys2Proof/Machine/Maps.lean ====
section
/-!
DEFINITION. Reading and writing sparse tables and memories, in canonical form.
-/
namespace Sys2Proof

/-- The value under key k, d where k is not listed. -/
def SMap.get {α : Type} (d : α) : SMap α → Nat → α
  | [], _ => d
  | (j, a) :: m, k => if j = k then a else SMap.get d m k

/-- The table without key k. -/
def SMap.erase {α : Type} : SMap α → Nat → SMap α
  | [], _ => []
  | (j, a) :: m, k => if j = k then SMap.erase m k else (j, a) :: SMap.erase m k

/-- The table with a listed under k, kept in rising order of keys. -/
def SMap.insert {α : Type} : SMap α → Nat → α → SMap α
  | [], k, a => [(k, a)]
  | (j, b) :: m, k, a =>
    if k < j then (k, a) :: (j, b) :: m
    else if j = k then (k, a) :: m
    else (j, b) :: SMap.insert m k a

/-- Write a under k; a value equal to the default is not listed. -/
def SMap.put {α : Type} [DecidableEq α] (d : α) (m : SMap α) (k : Nat) (a : α) : SMap α :=
  if a = d then SMap.erase m k else SMap.insert m k a

/-- Update the value under k. -/
def SMap.modify {α : Type} [DecidableEq α] (d : α) (m : SMap α) (k : Nat) (f : α → α) : SMap α :=
  SMap.put d m k (f (SMap.get d m k))

/-- A table of optional entries: look up, none when absent. -/
def SMap.find? {α : Type} : SMap α → Nat → Option α
  | [], _ => none
  | (j, a) :: m, k => if j = k then some a else SMap.find? m k

/-- The listed keys. -/
def SMap.keys {α : Type} (m : SMap α) : List Nat := m.map Prod.fst

/-- The byte at an address; an unlisted address reads 0. -/
def Memory.byte (m : Memory) (a : Nat) : Byte := SMap.get 0 m a

/-- Write one byte; 0 is not listed. -/
def Memory.setByte (m : Memory) (a : Nat) (b : Byte) : Memory := SMap.put 0 m a b

/-- Bytes a to a + n - 1, lowest address first. -/
def Memory.read (m : Memory) (a n : Nat) : List Byte := (List.range n).map fun i => m.byte (a + i)

/-- Write bytes at a, a + 1, ... -/
def Memory.write (m : Memory) : Nat → List Byte → Memory
  | _, [] => m
  | a, b :: bs => Memory.write (m.setByte a b) (a + 1) bs

/-- n bytes of zero at a: the listed bytes of the range are removed. -/
def Memory.clear (m : Memory) (a n : Nat) : Memory := m.filter fun c => !(decide (a ≤ c.1) && decide (c.1 < a + n))

/-- The value of bytes, little-endian (R5). -/
def leNat : List Byte → Nat
  | [] => 0
  | b :: bs => b.toNat + 256 * leNat bs

/-- The n bytes of a value, little-endian (R5). -/
def leBytes : Nat → Nat → List Byte
  | 0, _ => []
  | n + 1, v => BitVec.ofNat 8 v :: leBytes n (v / 256)

/-- A little-endian value of n bytes at a. -/
def Memory.readLE (m : Memory) (a n : Nat) : Nat := leNat (m.read a n)

/-- Write a value as n little-endian bytes at a. -/
def Memory.writeLE (m : Memory) (a n v : Nat) : Memory := m.write a (leBytes n v)

/-- Addresses rise strictly and no listed byte is 0. -/
def Memory.wf : Memory → Bool
  | [] => true
  | [(_, b)] => decide (b ≠ 0)
  | (a, b) :: (a', b') :: m => decide (b ≠ 0) && decide (a < a') && Memory.wf ((a', b') :: m)

end Sys2Proof
end

