-- ==== Sys2Proof/Machine/BootTypes.lean ====
section
/-!
DEFINITION. State of the boot, configuration, security and firmware-update unit (R498 to R523).
-/
namespace Sys2Proof.Machine

def FwSet.none : FwSet := { good := false, setver := 0, fwrev := 0, comps := [] }

def BootHeader.none : BootHeader := { good := false, seq := 0, active := 0, trial := false, tries := 0, setverA := 0, setverB := 0 }

def CfgImage.none : CfgImage :=
  { good := false, cseq := 0, regs := [], slots := [], rows := [], journal := [], save := [], firmware := [], i0Stacks := 0, i0Quota := 0,
    i0Mirror := false, i0Frames := [], i0Regions := [], i0Rings := [], dpdCtx := Option.none, dpdMax := 0, erase := 10 }

def Flash.empty : Flash :=
  { h0 := BootHeader.none, h1 := BootHeader.none, slotA := FwSet.none, slotB := FwSet.none, cfg0 := CfgImage.none, cfg1 := CfgImage.none,
    minver := 0, mincseq := 0, idok := false, cntok := false, devpub := 0, records := [] }

/-- An activation in progress (R517): its step 1 to 6 and the instance being loaded, the set and its slot, whether it is a revert, and
the cycle at which the instance was started. -/
structure Activation where
  step : Nat
  inst : Nat
  set : FwSet
  slot : Nat
  revert : Bool
  at_ : Nat
  deriving DecidableEq, Repr

/-- A device request under way (R514): its OP and the RIDX and TAG of its request; the set or image it writes. -/
structure DevWork where
  op : Nat
  ridx : Nat
  tag : Nat
  deriving DecidableEq, Repr

structure BootState where
  /-- PWRGOOD is high, COLDRST_N is high, and the cold start has begun -/
  started : Bool
  straps : List Bool
  /-- the boot flash, outside the chip: what the ROM last read of it and the device has written since (log 6) -/
  flash : Flash
  /-- Grizor runs; recovery: in recovery mode (R507) -/
  grizor : Bool
  recovery : Bool
  /-- a restart of Grizor is under way: 0 after a watchdog expiry, 1 after a warm reset, 2 in an update (R508, R517, R522); recover: the
  journal has not been read since a warm reset -/
  restart : Option Nat
  recover : Bool
  /-- the running set, the components loaded (type, instance, LEVEL, VERSION), the configuration image in force -/
  running : FwSet
  comps : List (Nat × Nat × Nat × Nat)
  cfg : CfgImage
  /-- the record version that the running set uses (R513) -/
  rver : Nat
  /-- repair map in force: slot and failed physical row (R106, R112) -/
  rows : List (Nat × Nat)
  /-- BOOT_LATE has been written -/
  late : Bool
  /-- cycles of the latest read of MP_RECOVERY and of the end of the latest load window (R507, R521) -/
  polledAt : Nat
  loadAt : Nat
  /-- the set that FW_WRITE is programming into the inactive slot (R516) -/
  staged : Option FwSet
  act : Option Activation
  /-- step and instance of the update record (R517) -/
  update : Option (Nat × Nat)
  work : Option DevWork
  /-- Grizor's own snapshot set (R293): instance, GTC and the six counters of its latest latch, empty before the first -/
  snap : List Nat
  /-- cycle of a scheduled warm reset (R558); a warm reset is under way (R545) -/
  warmAt : Option Nat
  warm : Bool
  deriving DecidableEq, Repr

def BootState.off : BootState :=
  { started := false, straps := [false, false, false, false], flash := Flash.empty, grizor := false, recovery := false, restart := none, recover := false,
    running := FwSet.none, comps := [], cfg := CfgImage.none, rver := 1, rows := [], late := false, polledAt := 0, loadAt := 0,
    staged := none, act := none, update := none, work := none, snap := [], warmAt := none, warm := false }

/-! ## Power, thermal and JTAG (R524 to R547) -/

/-- The TAP instruction in force (R547). -/
inductive TapInstr where
  | bypass
  | idcode
  | samplePreload
  | extest
  | extestPulse
  | extestTrain
  deriving DecidableEq, Repr

/-- Power and thermal state beyond the registers. Temperatures in units of 0.25 degrees C; dies 0 to 7 C0 to C7, 8 X0, 9 X1. -/
structure PowerState where
  /-- highest sample of each die in the present beat, and latest sample -/
  top : SMap Nat
  /-- consecutive samples at or above 105 degrees C, by sensor -/
  trips : SMap Nat
  /-- at the latest sample above WARN (of a DRAM die: above 85 degrees), at or above CRIT (above 95), by sensor: 64 * unit + sensor, units
  16 + m being base die M with its DRAM dies -/
  warm : SMap Bool
  crit : SMap Bool
  /-- a DRAM die of a stack attached to the die is above 95 degrees C -/
  dram : SMap Bool
  /-- PWRALERT_N asserted at the latest boundary; THERMALERT_N and THERMTRIP_N asserted -/
  alert : Bool
  /-- AVS_FAULT has been written, and no answer has come since (R531) -/
  avsFault : Bool
  thermalert : Bool
  thermtrip : Bool
  /-- the TAP (R547): its instruction, the bits of its data register, the boundary register, and what it drives on the lands -/
  tap : TapInstr
  tapData : Nat
  boundary : List Bool
  driven : Option (List Bool)
  deriving DecidableEq, Repr

def PowerState.reset : PowerState :=
  { top := [], trips := [], warm := [], crit := [], dram := [], alert := false, avsFault := false, thermalert := false, thermtrip := false,
    tap := .idcode, tapData := 0x1960025B, boundary := [], driven := none }

end Sys2Proof.Machine
end

