-- ==== Sys2Proof/Machine/FhTypes.lean ====
section
/-!
DEFINITION. State of the fronthaul ports beyond their registers (R381 to R407).
-/
namespace Sys2Proof.Machine

/-- An egress frame: its class (1 PTP, 2 eCPRI type 5 response, 3 C-plane, 4 U-plane), its sub-port, its flow, its length in bytes, its
earliest and latest times in ns of TBR (R398), the slot that it serves, its PRBs as sent (R392, R394), the time base of a PTP
message; the receive timestamp that a type 5 response answers, and the transmit timestamp of a frame of the first two classes (R399). -/
structure FhFrame where
  id : Nat
  cls : Nat
  sub : Nat
  flow : Nat
  len : Nat
  earliest : Nat
  latest : Nat
  slot : Nat
  wire : List (List Byte)
  tb : Nat
  /-- it carries section type 0: nothing is sent in its slot (R422, R425) -/
  idle : Bool
  got : Option Rat
  sent : Option Rat
  deriving DecidableEq, Repr

/-- Why a packet engine is stopped (R403, R404). -/
inductive PeStop where
  | watchdog
  | update
  | reset
  deriving DecidableEq, Repr

structure FhPort where
  /-- staging word: entry and value (R387) -/
  staging : Option (Nat × Nat)
  /-- rates of the flows and the sub-ports, refill period and OVH in force since the last refill (R396) -/
  rates : SMap Nat
  subRates : SMap Nat
  period : Nat
  ovh : Nat
  /-- credits of egress flows and sub-ports and tokens of ingress flows, in bytes with 8 fraction bits (R395, R397) -/
  credits : SMap Int
  subCredits : SMap Int
  tokens : SMap Nat
  /-- cycle of the last refill, + 1 -/
  refilled : Nat
  queue : List FhFrame
  /-- frame on the line of each sub-port -/
  line : SMap (Option FhFrame)
  /-- flow that sent last, + 1, by 8 * sub-port + class -/
  turn : SMap Nat
  /-- last sequence number of an ingress flow, + 1 -/
  seqs : SMap Nat
  /-- CI16 values that the latest frame of each flow has delivered -/
  iq : SMap (List Int)
  stop : Option PeStop
  /-- cycle of a module's insertion while it is not ready; of its last periodic read; FH_LASER has been written -/
  inserted : Option Nat
  readAt : Nat
  laser : Bool
  /-- transmit equaliser of each lane, from the host settings that the module advertises (R382) -/
  txEq : List Nat
  nextId : Nat
  deriving DecidableEq, Repr

def FhPort.reset : FhPort :=
  { staging := none, rates := [], subRates := [], period := 0x12, ovh := 0x14, credits := [], subCredits := [], tokens := [], refilled := 0,
    queue := [], line := [], turn := [], seqs := [], iq := [], stop := none, inserted := none, readAt := 0, laser := false, txEq := [],
    nextId := 0 }

end Sys2Proof.Machine
end

