-- ==== Sys2Proof/Config.lean ====
section
/-!
DEFINITION. What the spec leaves open: free values with no body. Nothing in Lean can evaluate one or prove a value of it.
-/
namespace Sys2Proof

/-- Free value number n: read where the spec says a value is drawn from entropy or is unspecified and the machine goes on
(stochastic rounding bits, R172; detection beyond the correction limit, R233). Log entry 3. -/
opaque Config.freeBits : Nat → Word

/-- The upper 32 bits of a scalar register after an FP32 instruction, by its word and the registers that it names: R167 states the low 32
bits alone, and equal runs give equal bits (R328). Log entry 3. -/
opaque Config.fpHigh : Word → List Word → BitVec 32

/-- The bank of its channel that holds a granule row (R227 names one for each granule, not which). Log entry 3. -/
opaque Config.bankOf : Nat → Nat

/-- Bytes that overlapping copies leave where the order of the copied bytes is open (R199). Log entry 3. -/
opaque Config.freeByte : Nat → Byte

/-- Which of two operands that compare equal but have different signs of zero a floating-point minimum or maximum writes:
the spec states none (R47, R571). Log entry 9. -/
opaque Config.zeroPick : BitVec 32 → BitVec 32 → Bool

/-- The bytes of a FAPI message of a type, for a cell, with contents given as numbers: SCF 222 defines them, outside the spec (R415,
R417). Log entry 25. -/
opaque Config.fapiBytes : Nat → Nat → List Nat → List Byte

/-- The coefficients and the residual that the fit of R433 gives for a capture and its orders: the spec fixes the method and that
equal requests give equal bits, but not every order of operations. Log entry 26. -/
opaque Config.dpdFit : List Nat → List Nat → List Nat

/-- SM3 of an item named by numbers, and the SM2 signature by the device key over bytes (R515): GB/T 32905 and 32918 define them, outside
the spec, over bytes and keys that no command carries. Log 36. -/
opaque Config.sm3 : List Nat → List Byte
opaque Config.sm2Sign : List Byte → List Byte

end Sys2Proof
end

