-- ==== Sys2Proof/Machine/Formats.lean ====
section
/-!
DEFINITION. Number formats and arithmetic rules (chapter 02): encodings, rounding, saturation, poison and conversions.
-/
namespace Sys2Proof.Machine

/-- Format codes of R36. -/
inductive Fmt where
  | int2 | int4 | int8 | int16 | uint8 | ci8 | ci16 | bfp4 | bfp8 | bfp12 | e4m3 | e5m2 | fp16 | bf16 | fp32
  deriving DecidableEq, Repr

/-- The format named by a 4-bit code; code 0 names none (R36). -/
def Fmt.ofCode : Nat → Option Fmt
  | 1 => some .int2 | 2 => some .int4 | 3 => some .int8 | 4 => some .int16 | 5 => some .uint8
  | 6 => some .ci8 | 7 => some .ci16 | 8 => some .bfp4 | 9 => some .bfp8 | 10 => some .bfp12
  | 11 => some .e4m3 | 12 => some .e5m2 | 13 => some .fp16 | 14 => some .bf16 | 15 => some .fp32
  | _ => none

/-- Bits of one element; for BFP the mantissa width (R36, R42). -/
def Fmt.bits : Fmt → Nat
  | .int2 => 2 | .int4 => 4 | .int8 => 8 | .int16 => 16 | .uint8 => 8 | .ci8 => 16 | .ci16 => 32
  | .bfp4 => 4 | .bfp8 => 8 | .bfp12 => 12 | .e4m3 => 8 | .e5m2 => 8 | .fp16 => 16 | .bf16 => 16 | .fp32 => 32

def Fmt.isInt : Fmt → Bool
  | .int2 | .int4 | .int8 | .int16 | .uint8 => true
  | _ => false

def Fmt.isComplex : Fmt → Bool
  | .ci8 | .ci16 => true
  | _ => false

def Fmt.isBfp : Fmt → Bool
  | .bfp4 | .bfp8 | .bfp12 => true
  | _ => false

def Fmt.isFp8 : Fmt → Bool
  | .e4m3 | .e5m2 => true
  | _ => false

def Fmt.isFloat : Fmt → Bool
  | .e4m3 | .e5m2 | .fp16 | .bf16 | .fp32 => true
  | _ => false

/-- Bytes of a BFP record of 32 elements (R42). -/
def Fmt.recordBytes : Fmt → Nat
  | .bfp4 => 17 | .bfp8 => 33 | .bfp12 => 49 | _ => 0

/-! ## Flags (R55) -/

/-- Arithmetic flags as CORE_AFLAGS holds them: SAT 1, OVF 2, INV 4, SHIFT 8, POISON 16. -/
abbrev Flags := Nat
def fSAT : Flags := 1
def fOVF : Flags := 2
def fINV : Flags := 4
def fSHIFT : Flags := 8
def fPOISON : Flags := 16

/-- The arithmetic mode of a side (R55). -/
structure AMode where
  ashift : Bool
  inf32 : Bool
  inf16 : Bool
  deriving DecidableEq, Repr

/-! ## Integers -/

/-- Two's complement value of the low w bits of n. -/
def signed (w n : Nat) : Int :=
  let u := n % 2 ^ w
  if u < 2 ^ (w - 1) then (u : Int) else (u : Int) - (2 ^ w : Nat)

/-- The low w bits of v. -/
def unsignedOf (w : Nat) (v : Int) : Nat := (v % ((2 ^ w : Nat) : Int)).toNat

/-- Right shift with round half up (R49). -/
def shiftRound (v : Int) (s : Nat) : Int :=
  if s = 0 then v else (v + ((2 ^ (s - 1) : Nat) : Int)) / ((2 ^ s : Nat) : Int)

/-- Shift by s: right under R49 when s > 0, left when s < 0 (R68). -/
def shiftBy (v : Int) (s : Int) : Int :=
  if 0 ≤ s then shiftRound v s.toNat else v * ((2 ^ (-s).toNat : Nat) : Int)

/-- Clamp to lo..hi; SAT when the value lay outside (R51). -/
def satTo (lo hi v : Int) : Int × Flags :=
  if v < lo then (lo, fSAT) else if hi < v then (hi, fSAT) else (v, 0)

/-- Symmetric range of a w-bit two's complement output (R41). -/
def symLim (w : Nat) : Int := ((2 ^ (w - 1) - 1 : Nat) : Int)

/-- Saturate to the symmetric range of w bits (R41, R51). -/
def satSym (w : Nat) (v : Int) : Int × Flags := satTo (-(symLim w)) (symLim w) v

/-- Output range of a real integer format (R41). -/
def Fmt.range : Fmt → Int × Int
  | .int2 => (-1, 1) | .int4 => (-7, 7) | .int8 => (-127, 127) | .int16 => (-32767, 32767) | .uint8 => (0, 254)
  | .ci8 => (-127, 127) | .ci16 => (-32767, 32767)
  | _ => (0, 0)

/-- Bits of one part of an integer or complex format. -/
def Fmt.partBits : Fmt → Nat
  | .ci8 => 8 | .ci16 => 16 | f => f.bits

/-- Poison marker of one integer part (R41). -/
def Fmt.marker : Fmt → Nat
  | .uint8 => 0xFF
  | f => 2 ^ (f.partBits - 1)

/-- Poison marker of a whole element: both parts for a complex format (R41). -/
def Fmt.poison (f : Fmt) : Nat :=
  if f.isComplex then f.marker + 2 ^ f.partBits * f.marker else f.marker

/-- Saturate an integer into one part of a format (R51). -/
def Fmt.sat (f : Fmt) (v : Int) : Nat × Flags :=
  let r := satTo f.range.1 f.range.2 v
  (unsignedOf f.partBits r.1, r.2)

/-- Value of one integer part (R39, R41: on input every code reads as its ordinary value). -/
def Fmt.intVal (f : Fmt) (n : Nat) : Int :=
  if f = .uint8 then ((n % 256 : Nat) : Int) else signed f.partBits n

/-! ## Exact real values -/

/-- An exact value read from a floating-point or BFP element: n / d with d > 0 for a finite nonzero value (R43, R46). -/
inductive FVal where
  | nan
  | inf (neg : Bool)
  | zero (neg : Bool)
  | fin (n : Int) (d : Nat)
  deriving DecidableEq, Repr

/-- n / d, zero with the given sign when n = 0. -/
def FVal.ofRatio (negZero : Bool) (n : Int) (d : Nat) : FVal := if n = 0 then .zero negZero else .fin n d

def FVal.ofInt (v : Int) : FVal := FVal.ofRatio false v 1

/-- n * 2^e as a ratio. -/
def scaleRatio (n : Int) (d : Nat) (e : Int) : Int × Nat :=
  if 0 ≤ e then (n * ((2 ^ e.toNat : Nat) : Int), d) else (n, d * 2 ^ (-e).toNat)

/-- Multiply by 2^e. -/
def FVal.scale (x : FVal) (e : Int) : FVal :=
  match x with
  | .fin n d => let r := scaleRatio n d e; .fin r.1 r.2
  | y => y

def FVal.neg : FVal → FVal
  | .nan => .nan
  | .inf s => .inf (!s)
  | .zero s => .zero (!s)
  | .fin n d => .fin (-n) d

/-- Sign of a value that is not a NaN. -/
def FVal.isNeg : FVal → Bool
  | .nan => false
  | .inf s => s
  | .zero s => s
  | .fin n _ => decide (n < 0)

/-- Exact sum; opposite infinities are invalid (R53). An exact zero sum is -0 only when both operands are -0 (DEDUCED, log 9). -/
def FVal.add : FVal → FVal → FVal
  | .nan, _ => .nan
  | _, .nan => .nan
  | .inf s, .inf t => if s = t then .inf s else .nan
  | .inf s, _ => .inf s
  | _, .inf s => .inf s
  | .zero s, .zero t => .zero (s && t)
  | .zero _, y => y
  | x, .zero _ => x
  | .fin n d, .fin m e => FVal.ofRatio false (n * e + m * d) (d * e)

/-- Exact product; 0 × ∞ is invalid (R53). -/
def FVal.mul : FVal → FVal → FVal
  | .nan, _ => .nan
  | _, .nan => .nan
  | .inf _, .zero _ => .nan
  | .zero _, .inf _ => .nan
  | .inf s, y => .inf (s != y.isNeg)
  | x, .inf s => .inf (x.isNeg != s)
  | .zero s, y => .zero (s != y.isNeg)
  | x, .zero s => .zero (x.isNeg != s)
  | .fin n d, .fin m e => .fin (n * m) (d * e)

/-- x < y for values that are not NaNs; -0 equals +0 (R568). -/
def FVal.lt : FVal → FVal → Bool
  | .nan, _ => false
  | _, .nan => false
  | .inf s, y => s && decide (y ≠ .inf true)
  | x, .inf s => !s && decide (x ≠ .inf false)
  | .zero _, .zero _ => false
  | .zero _, .fin m _ => decide (0 < m)
  | .fin n _, .zero _ => decide (n < 0)
  | .fin n d, .fin m e => decide (n * e < m * d)

/-- Equal values; false for a NaN (R568). -/
def FVal.eqv (x y : FVal) : Bool := decide (x ≠ .nan) && decide (y ≠ .nan) && !x.lt y && !y.lt x

/-- floor of log2 (n / d), for n > 0. -/
def floorLog2 (n d : Nat) : Int :=
  let k : Int := (Nat.log2 n : Int) - (Nat.log2 d : Int)
  let fits : Bool := if 0 ≤ k then decide (d * 2 ^ k.toNat ≤ n) else decide (d ≤ n * 2 ^ (-k).toNat)
  if fits then k else k - 1

/-- Round n / d to an integer, half up (R48). -/
def roundHalfUp (n : Int) (d : Nat) : Int := (2 * n + d) / (2 * (d : Int))

/-- A way of rounding n / d to an integer: half up (R48), or stochastic under the V flag (R172). -/
abbrev Rounding := Int → Nat → Int

/-- Stochastic rounding: one of the two neighbours of an inexact value, by one drawn bit (R172). -/
def roundDrawn (up : Bool) : Rounding := fun n d =>
  if n % (d : Int) = 0 then n / (d : Int) else if up then n / (d : Int) + 1 else n / (d : Int)

/-- Round (n / d) * 2^e to an integer. -/
def roundScaledR (rnd : Rounding) (n : Int) (d : Nat) (e : Int) : Int := let r := scaleRatio n d e; rnd r.1 r.2

/-- Round (n / d) * 2^e to an integer, half up. -/
def roundScaled (n : Int) (d : Nat) (e : Int) : Int := roundScaledR roundHalfUp n d e

/-! ## Floating-point encodings (R46) -/

/-- Layout of a floating-point format. -/
structure FLayout where
  exp : Nat
  frac : Nat
  bias : Nat
  maxCode : Nat
  nan : Nat
  hasInf : Bool

def Fmt.layout : Fmt → FLayout
  | .e4m3 => ⟨4, 3, 7, 0x7E, 0x7F, false⟩
  | .e5m2 => ⟨5, 2, 15, 0x7B, 0x7E, true⟩
  | .fp16 => ⟨5, 10, 15, 0x7BFF, 0x7E00, true⟩
  | .bf16 => ⟨8, 7, 127, 0x7F7F, 0x7FC0, true⟩
  | _ => ⟨8, 23, 127, 0x7F7FFFFF, 0x7FC00000, true⟩

/-- Value of a code of a floating-point format (R46). -/
def Fmt.fval (f : Fmt) (w : Nat) : FVal :=
  let l := f.layout
  let neg := decide (w / 2 ^ (l.exp + l.frac) % 2 = 1)
  let ex := w / 2 ^ l.frac % 2 ^ l.exp
  let fr := w % 2 ^ l.frac
  let sgn (m : Nat) : Int := if neg then -(m : Int) else m
  if l.hasInf && decide (ex = 2 ^ l.exp - 1) then (if fr = 0 then .inf neg else .nan)
  else if !l.hasInf && decide (ex = 2 ^ l.exp - 1) && decide (fr = 2 ^ l.frac - 1) then .nan
  else if ex = 0 then
    (if fr = 0 then .zero neg else (FVal.fin (sgn fr) 1).scale (1 - (l.bias : Int) - l.frac))
  else (FVal.fin (sgn (2 ^ l.frac + fr)) 1).scale ((ex : Int) - l.bias - l.frac)

/-- ±∞ may be written: FP16 with INF16, FP32 with INF32 (R52). -/
def AMode.allowsInf (a : AMode) : Fmt → Bool
  | .fp16 => a.inf16
  | .fp32 => a.inf32
  | _ => false

def signBit (l : FLayout) (neg : Bool) : Nat := if neg then 2 ^ (l.exp + l.frac) else 0

/-- Code of infinity. -/
def FLayout.infCode (l : FLayout) : Nat := (2 ^ l.exp - 1) * 2 ^ l.frac

/-- Write an exact value into a floating-point format: R47, R48, R50, R52, R53. -/
def Fmt.encodeR (rnd : Rounding) (f : Fmt) (a : AMode) (x : FVal) : Nat × Flags :=
  let l := f.layout
  match x with
  | .nan => (l.nan, fINV)
  | .inf s => if a.allowsInf f then (signBit l s + l.infCode, 0) else (signBit l s + l.maxCode, fOVF)
  | .zero s => (signBit l s, 0)
  | .fin n d =>
    let neg := decide (n < 0)
    let qmin : Int := 1 - (l.bias : Int) - l.frac
    let q : Int := max qmin (floorLog2 n.natAbs d - l.frac)
    let m := (roundScaledR rnd n d (-q)).natAbs
    let code := (q - qmin).toNat * 2 ^ l.frac + m
    if code ≤ l.maxCode then (signBit l neg + code, 0)
    else if a.allowsInf f then (signBit l neg + l.infCode, fOVF)
    else (signBit l neg + l.maxCode, fOVF)

/-- The same with the rounding of R48. -/
def Fmt.encode (f : Fmt) (a : AMode) (x : FVal) : Nat × Flags := f.encodeR roundHalfUp a x

/-- Write an exact value into an integer part, multiplied by 2^shift (R68: round, saturate; R53: NaN gives the marker). -/
def Fmt.encodeInt (rnd : Rounding) (f : Fmt) (shift : Int) (x : FVal) : Nat × Flags :=
  match x with
  | .nan => (f.marker, fINV)
  | .inf s => (unsignedOf f.partBits (if s then f.range.1 else f.range.2), fSAT)
  | .zero _ => (0, 0)
  | .fin n d => f.sat (roundScaledR rnd n d shift)

/-! ## Block floating point (R42 to R45) -/

/-- Largest magnitude of a list of exact values, as a ratio. -/
def maxMag : List FVal → Nat × Nat
  | [] => (0, 1)
  | .fin n d :: xs => let r := maxMag xs; if r.1 * d < n.natAbs * r.2 then (n.natAbs, d) else r
  | _ :: xs => maxMag xs

/-- Mantissas of a block at block exponent k. -/
def mantissas (m : Nat) (k : Int) (xs : List FVal) : List Int :=
  xs.map fun x => match x with
    | .fin n d => roundScaled n d ((m : Int) - 2 - k)
    | _ => 0

/-- A quantised block: stored exponent byte, mantissas, overflow; poisoned blocks have exponent 255. -/
structure Block where
  e : Nat
  q : List Int
  ovf : Bool
  deriving DecidableEq, Repr

/-- Some input is a NaN or an infinity. -/
def anyNonFinite (xs : List FVal) : Bool := xs.any fun x => match x with
  | .nan => true
  | .inf _ => true
  | _ => false

/-- bfp_quantise of R45 over finite inputs. -/
def bfpQuantise (m : Nat) (xs : List FVal) : Block :=
  let a := maxMag xs
  if a.1 = 0 then ⟨0, xs.map fun _ => 0, false⟩
  else
    let lim := symLim m
    let k0 := max (-126) (floorLog2 a.1 a.2)
    let fits (k : Int) : Bool := (mantissas m k xs).all fun q => decide ((q.natAbs : Int) ≤ lim)
    let k := if fits k0 then k0 else k0 + 1
    if 127 < k then ⟨254, (mantissas m 127 xs).map fun q => (satTo (-lim) lim q).1, true⟩
    else ⟨(k + 127).toNat, mantissas m k xs, false⟩

/-- Value of element q of a block with exponent byte e and mantissa width m (R43). -/
def bfpVal (m e : Nat) (q : Int) : FVal :=
  if e = 0 then .zero false
  else if e = 255 then .nan
  else if q = 0 then .zero false
  else (FVal.fin q 1).scale ((e : Int) - 127 - ((m : Int) - 2))

/-- Mantissa i of a record given as its bytes after the exponent, as one little-endian number (R42: the packings of the
three widths are all element i at bits m*i, as R42's byte layouts place them). -/
def recordMantissa (m i : Nat) (body : Nat) : Int := signed m (body / 2 ^ (m * i))

/-- Body of a record: mantissas packed with no gaps (R42). -/
def packMantissas (m : Nat) : List Int → Nat
  | [] => 0
  | q :: qs => unsignedOf m q + 2 ^ m * packMantissas m qs

/-! ## One element: reading, writing, converting (R68) -/

/-- An element's value: a real integer, a complex integer, or a floating-point or BFP value. -/
inductive Elem where
  | int (v : Int)
  | cplx (re im : Int)
  | flt (x : FVal)
  deriving DecidableEq, Repr

/-- Value of an element's code in a format that stores elements one by one. -/
def Fmt.elem (f : Fmt) (w : Nat) : Elem :=
  if f.isComplex then .cplx (signed f.partBits w) (signed f.partBits (w / 2 ^ f.partBits))
  else if f.isFloat then .flt (f.fval w)
  else .int (f.intVal w)

/-- The exact value of a real element, for conversion into floating point or BFP. -/
def Elem.real : Elem → FVal
  | .int v => FVal.ofInt v
  | .cplx r _ => FVal.ofInt r
  | .flt x => x

/-- Shift of R68 with a given rounding of the right shift. -/
def shiftByR (rnd : Rounding) (v : Int) (s : Int) : Int :=
  if 0 < s then rnd v (2 ^ s.toNat) else v * ((2 ^ (-s).toNat : Nat) : Int)

/-- Convert an element to a destination format other than BFP, under R68 with shift s. Complex to real is illegal (R69) and
is refused by the callers. -/
def convertR (rnd : Rounding) (a : AMode) (dst : Fmt) (s : Int) (x : Elem) : Nat × Flags :=
  if dst.isComplex then
    match x with
    | .cplx r i =>
      let p := dst.sat (shiftByR rnd r s); let q := dst.sat (shiftByR rnd i s)
      (p.1 + 2 ^ dst.partBits * q.1, p.2 ||| q.2)
    | .int v => dst.sat (shiftByR rnd v s)
    | .flt .nan => (dst.poison, fINV)
    | .flt y => Fmt.encodeInt rnd dst s y
  else if dst.isFloat then Fmt.encodeR rnd dst a x.real
  else match x with
    | .int v => dst.sat (shiftByR rnd v s)
    | .cplx r _ => dst.sat (shiftByR rnd r s)
    | .flt y => Fmt.encodeInt rnd dst s y

/-- The same with the rounding of R48 and R49. -/
def convert (a : AMode) (dst : Fmt) (s : Int) (x : Elem) : Nat × Flags := convertR roundHalfUp a dst s x

/-! ## Correctly rounded functions (R116) -/

/-- Integer square root by bits: the largest r with r * r ≤ n, built from bit b - 1 down. -/
def isqrtAux (n : Nat) : Nat → Nat → Nat
  | 0, r => r
  | b + 1, r => if (r + 2 ^ b) * (r + 2 ^ b) ≤ n then isqrtAux n b (r + 2 ^ b) else isqrtAux n b r

def isqrt (n : Nat) : Nat := isqrtAux n (Nat.log2 n / 2 + 1) 0

/-- Fraction bits of the fixed-point evaluation of base-2 exponentials and logarithms. -/
def gBits : Nat := 256

/-- Terms z^(2k+1) / (2k+1), k = 0, 1, ..., of atanh z at gBits fraction bits; p is the current power. -/
def atanhAux (z2 : Nat) : Nat → Nat → Nat → Nat
  | 0, _, _ => 0
  | t + 1, k, p => p / (2 * k + 1) + atanhAux z2 t (k + 1) (p * z2 / 2 ^ gBits)

/-- ln ((a + b) / (a - b)) = 2 atanh (b / a), at gBits fraction bits. -/
def lnRatio (a b : Nat) : Nat :=
  let z := b * 2 ^ gBits / a
  2 * atanhAux (z * z / 2 ^ gBits) 90 0 z

/-- ln 2 at gBits fraction bits. -/
def ln2Fix : Nat := lnRatio 3 1

/-- Terms of exp y at gBits fraction bits, for 0 ≤ y < 1. -/
def expAux (y : Nat) : Nat → Nat → Nat → Nat
  | 0, _, _ => 0
  | t + 1, k, p => p + expAux y t (k + 1) (p * y / 2 ^ gBits / (k + 1))

/-- 2^f for a fraction f = n / d, 0 ≤ f < 1, at gBits fraction bits. -/
def exp2Frac (n d : Nat) : Nat := expAux (n * ln2Fix / d) 80 0 (2 ^ gBits)

/-- The exact reciprocal. -/
def recipVal : FVal → FVal
  | .nan => .nan
  | .inf s => .zero s
  | .zero s => .inf s
  | .fin n d => if n < 0 then .fin (-(d : Int)) n.natAbs else .fin d n.natAbs

/-- FP32 code and flags of 1 / x, rounded once (R116). -/
def fp32Recip (a : AMode) (x : FVal) : Nat × Flags := Fmt.encode .fp32 a (recipVal x)

/-- FP32 code and flags of 1 / sqrt x, rounded once (R116). -/
def fp32Rsqrt (a : AMode) (x : FVal) : Nat × Flags :=
  match x with
  | .zero s => Fmt.encode .fp32 a (.inf s)
  | .inf false => Fmt.encode .fp32 a (.zero false)
  | .fin n d =>
    if n < 0 then Fmt.encode .fp32 a .nan
    else
      -- 1/sqrt(n/d) = sqrt(d/n); N = floor (y / 2^q + 1/2), y squared = d/n
      let k : Int := floorLog2 d n.natAbs / 2
      let q : Int := k - 23
      let r := scaleRatio (4 * (d : Int)) n.natAbs (-2 * q)
      let m := (1 + isqrt (r.1.natAbs / r.2)) / 2
      Fmt.encode .fp32 a ((FVal.fin m 1).scale q)
  | _ => Fmt.encode .fp32 a .nan

/-- FP32 code and flags of 2^x, rounded once (R116). The value is held with 256 fraction bits where it is irrational
(DEDUCED, log 10: no FP32 argument brings it closer than that to a rounding boundary). -/
def fp32Exp2 (a : AMode) (x : FVal) : Nat × Flags :=
  match x with
  | .nan => Fmt.encode .fp32 a .nan
  | .inf true => Fmt.encode .fp32 a (.zero false)
  | .inf false => Fmt.encode .fp32 a (.inf false)
  | .zero _ => Fmt.encode .fp32 a (.fin 1 1)
  | .fin n d =>
    let i := n / (d : Int)
    let f := (n % (d : Int)).toNat
    if i < -152 then (0, 0)
    else if 129 < i then Fmt.encode .fp32 a ((FVal.fin 1 1).scale 200)
    else if f = 0 then Fmt.encode .fp32 a ((FVal.fin 1 1).scale i)
    else Fmt.encode .fp32 a ((FVal.fin (exp2Frac f d) (2 ^ gBits)).scale i)

/-- FP32 code and flags of log2 x, rounded once (R116). -/
def fp32Log2 (a : AMode) (x : FVal) : Nat × Flags :=
  match x with
  | .nan => Fmt.encode .fp32 a .nan
  | .inf s => Fmt.encode .fp32 a (if s then .nan else .inf false)
  | .zero _ => Fmt.encode .fp32 a (.inf true)
  | .fin n d =>
    if n < 0 then Fmt.encode .fp32 a .nan
    else
      let k := floorLog2 n.natAbs d
      let r := scaleRatio n d (-k)      -- 1 ≤ r < 2
      let lnm := lnRatio (r.1.natAbs + r.2) (r.1.natAbs - r.2)
      let l2 := lnm * 2 ^ gBits / ln2Fix
      Fmt.encode .fp32 a (FVal.ofRatio false (k * ((2 ^ gBits : Nat) : Int) + l2) (2 ^ gBits))

/-- Sum, product and fused product-sum in a floating-point format: one rounding (R48). -/
def fAdd (f : Fmt) (a : AMode) (x y : Nat) : Nat × Flags := f.encode a ((f.fval x).add (f.fval y))
def fSub (f : Fmt) (a : AMode) (x y : Nat) : Nat × Flags := f.encode a ((f.fval x).add (f.fval y).neg)
def fMul (f : Fmt) (a : AMode) (x y : Nat) : Nat × Flags := f.encode a ((f.fval x).mul (f.fval y))
def fFma (f : Fmt) (a : AMode) (x y z : Nat) : Nat × Flags :=
  f.encode a (((f.fval x).mul (f.fval y)).add (f.fval z))

/-- Minimum (or maximum) of two codes: a NaN operand gives the canonical NaN and INV (R53); of equal values of unlike zero
signs a free choice is written (log 9). -/
def fMinMax (f : Fmt) (a : AMode) (wantMax : Bool) (x y : Nat) : Nat × Flags :=
  let u := f.fval x; let v := f.fval y
  if u = .nan ∨ v = .nan then f.encode a .nan
  else if u.lt v then f.encode a (if wantMax then v else u)
  else if v.lt u then f.encode a (if wantMax then u else v)
  else if x = y then f.encode a u
  else f.encode a (if Config.zeroPick (BitVec.ofNat 32 x) (BitVec.ofNat 32 y) then u else v)

end Sys2Proof.Machine
end

