-- ==== Sys2Proof/Machine/CoreTypes.lean ====
section
/-!
DEFINITION. The state of one core (chapters 03 to 06, 08): engines, threads, plaits, queues, scratchpad.
-/
namespace Sys2Proof.Machine

/-- Owner of work on a core: a tenant instance, or a cell-group context of I0 (R34, R149). -/
inductive Ctx where
  | tenant (n : Nat)
  | cg (g : Nat)
  deriving DecidableEq, Repr

/-- Coding of CORE_ME_FAULT.CTX (R112). -/
def Ctx.code : Ctx → Nat
  | .tenant n => n % 128
  | .cg g => 128 + g % 128

/-- Instance that a context belongs to; cell-group contexts belong to I0. -/
def Ctx.inst : Ctx → Nat
  | .tenant n => n
  | .cg _ => 0

/-- A source of instructions: an SU thread or a plait slot (R120). -/
inductive Issuer where
  | thread (t : Nat)
  | plait (slot : Nat)
  deriving DecidableEq, Repr

/-- One vector register bank, or one plait's allocation (R117, R138): v of 64 x 32 bits, va of 64 x 80 bits, k masks. -/
structure VBank where
  v : SMap (BitVec 2048)
  va : SMap (BitVec 5120)
  k : SMap (BitVec 64)
  deriving DecidableEq, Repr

def VBank.zero : VBank := ⟨[], [], []⟩

/-- Where an outstanding load or atomic returns its data (R121, R122). -/
inductive LoadDest where
  | scalar (rd : Nat)
  | vector (d : Nat)
  deriving DecidableEq, Repr

/-- An outstanding load: its destination and the data read; lanes names the lanes of a vector load that are written. -/
structure Load where
  dest : LoadDest
  data : Nat
  lanes : BitVec 64
  deriving DecidableEq, Repr

/-- What opened a thread's non-pre-emptible region (R173). -/
inductive Region where
  | npb
  | lock (n : Nat)
  deriving DecidableEq, Repr

/-- Queue named by WAITE (R136): 0 ME, 1 CE0, 2 CE1, and the number of entries that may remain. -/
structure Waite where
  q : Nat
  n : Nat
  deriving DecidableEq, Repr

/-- An SU control thread (R133, R134). Registers s1 to s31; s0 reads 0. -/
structure Thread where
  running : Bool
  pc : Nat
  s : SMap Word
  ctx : Ctx
  cmd : Nat
  region : Option Region
  hold : Nat
  wait : Option Waite
  loads : List Load
  deriving DecidableEq, Repr

def Thread.idle : Thread :=
  { running := false, pc := 0, s := [], ctx := .tenant 0, cmd := 0, region := none, hold := 0, wait := none, loads := [] }

/-- An entry of a plait's reconvergence stack (R144). -/
inductive Recon where
  /-- IF: the mask at the IF and the lanes it took -/
  | cond (saved taken : BitVec 64)
  /-- LOOP: the mask at the LOOP, the lanes still in the loop, and the address of the first instruction of the body -/
  | loop (saved inLoop : BitVec 64) (body : Nat)
  deriving DecidableEq, Repr

/-- A resident plait (R138, R144 to R146). -/
structure Plait where
  cmd : Nat
  ctx : Ctx
  skein : Nat
  index : Nat
  nreg : Nat
  bank : VBank
  pc : Nat
  live : BitVec 64
  active : BitVec 64
  stack : List Recon
  arrived : Bool
  loads : List Load
  localBase : Nat
  sharedBase : Nat
  deriving DecidableEq, Repr

def Plait.idle : Plait :=
  { cmd := 0, ctx := .tenant 0, skein := 0, index := 0, nreg := 0, bank := .zero, pc := 0, live := 0, active := 0,
    stack := [], arrived := false, loads := [], localBase := 0, sharedBase := 0 }

/-- Strand-launch parameters (R139). -/
structure Launch where
  strands : Nat
  kp : Nat
  nreg : Nat
  localBytes : Nat
  sharedBytes : Nat
  pentry : Nat
  deriving DecidableEq, Repr

/-- A command resident on the core (R158 to R160): its code region, its place in the core set, its strands. -/
structure Resident where
  cmd : Nat
  ctx : Ctx
  side : Nat
  code : Nat
  codeLen : Nat
  index : Nat
  count : Nat
  step : Word
  launch : Option Launch
  /-- next unstarted skein of this core (R140) -/
  nextSkein : Nat
  /-- those of its flags that its matrix-engine partitions have set on this core (R56) -/
  meFlags : Flags
  /-- cycle at which the command started (R273) -/
  began : Nat
  /-- flags that its instructions have set on this core (R55, R56) -/
  flags : Flags
  /-- a core of its set has no room for one of its skeins: its context faults before a strand runs (R141) -/
  refused : Bool
  deriving DecidableEq, Repr

/-! ## Matrix engine -/

structure MmtOp where
  part : Nat
  af : Fmt
  planes : Nat
  m : Nat
  asrc : Nat
  astride : Nat
  arow : Nat
  acc : Bool
  swap : Bool
  c : Int
  deriving DecidableEq, Repr

structure MwlOp where
  part : Nat
  wf : Fmt
  link : Bool
  wsrc : Nat
  wstride : Nat
  deriving DecidableEq, Repr

structure MdrOp where
  row0 : Nat
  nrows : Nat
  cols : Nat
  df : Fmt
  dig : Bool
  sh : Nat
  dst : Nat
  dstride : Nat
  sr : Nat
  shdst : Nat
  useShdst : Bool
  deriving DecidableEq, Repr

inductive MeOp where
  | mmt (o : MmtOp)
  | mwl (o : MwlOp)
  | mdr (o : MdrOp)
  deriving DecidableEq, Repr

/-- Where a tile is: in the shadow buffer, active in the array, or replaced in the array while in-flight MMTs still use it. -/
inductive TilePlace where
  | shadow
  | active
  | old
  deriving DecidableEq, Repr

/-- A weight tile (R81 to R84): the number of the MWL that loads it, the partition it was loaded for, its side, its context and
command, its format and source, where it is, whether its pass has ended, the columns' bytes, and the fault cause of R108 that
its load found (0 none). -/
structure Tile where
  id : Nat
  part : Nat
  side : Nat
  ctx : Ctx
  cmd : Nat
  wf : Fmt
  src : Nat
  stride : Nat
  place : TilePlace
  loaded : Bool
  cols : List (List Byte)
  bad : Nat
  deriving DecidableEq, Repr

/-- Where an entry of the ME queue stands: waiting in the queue; issued and waiting for its weight pass (an MWL); in progress
(an MMT or MDR in flight, an MWL in a pass); stopped at an activation-vector or accumulator-row boundary (R99, R100). -/
inductive MePhase where
  | waiting
  | issued
  | running
  | stopped
  deriving DecidableEq, Repr

/-- An entry of the ME queue of a side (R135). -/
structure MeEntry where
  id : Nat
  thread : Nat
  ctx : Ctx
  cmd : Nat
  op : MeOp
  phase : MePhase
  /-- number of the tile in use, from the issue of an MMT -/
  tile : Nat
  /-- next activation vector (R100), or next accumulator row of an MDR -/
  next : Nat
  deriving DecidableEq, Repr

/-- An entry of the row feeders (R85, R87): vector vec of MMT mmt of the ME queue, fetched for its partition. Each row of the partition holds
its own element of the vector in one entry of its feeder; data are the vector's bytes, bad says that the fetch met an uncorrectable word. -/
structure FeedEnt where
  mmt : Nat
  part : Nat
  vec : Nat
  data : List Byte
  bad : Bool
  deriving DecidableEq, Repr

/-! ## Copy engines -/

/-- A copy descriptor (R192), its fields as numbers. -/
structure CopyDesc where
  op : Nat
  ord : Bool
  notify : Bool
  sspace : Nat
  dspace : Nat
  conv : Bool
  idxw : Nat
  sf : Nat
  df : Nat
  shift : Int
  saddr : Nat
  daddr : Nat
  len0 : Nat
  cnt1 : Nat
  cnt2 : Nat
  sstr1 : Int
  sstr2 : Int
  dstr1 : Int
  dstr2 : Int
  idxaddr : Nat
  nidx : Nat
  naddr : Nat
  nval : Nat
  /-- some reserved bit or byte is not 0 -/
  dirty : Bool
  deriving DecidableEq, Repr

/-- The remote end of a Weave transaction (R193), from the issue of the transaction: an address in the instance's stack memory
(which placement turns into a physical address, R226), a companion physical address, a scratchpad address of another core slot,
an address at another device, an offset in a sequencer port. -/
inductive Place where
  | stack (a : Nat)
  | comp (pa : Nat)
  | peer (slot addr : Nat)
  | withy (dev addr : Nat)
  | seq (m offset : Nat)
  deriving DecidableEq, Repr

/-- A Weave transaction of a copy engine: at most 4 KiB within one 4 KiB granule (R201). -/
structure Txn where
  id : Nat
  write : Bool
  place : Place
  /-- piece of the descriptor that it serves, and byte offset in the piece's source or destination -/
  piece : Nat
  offset : Nat
  len : Nat
  /-- staged data of a write -/
  data : List Byte
  /-- arbitration points that its data have still to enter, in the order of its route (R211, R212), and whether it has entered one -/
  path : List Nat
  went : Bool
  deriving DecidableEq, Repr

/-- A piece of a descriptor's work: some elements of one row, staged together (R200, R201). -/
structure Piece where
  no : Nat
  src : Nat
  slen : Nat
  dst : Nat
  dlen : Nat
  elems : Nat
  /-- position of the piece in its row, in bytes (FILL repeats its pattern from the row's start) -/
  pos : Nat
  /-- source transactions not yet issued: offset in the piece, length -/
  reads : List (Nat × Nat)
  /-- arrived source data: offset, bytes -/
  got : List (Nat × List Byte)
  /-- destination bytes, once every source byte has arrived -/
  out : Option (List Byte)
  /-- destination transactions not yet issued -/
  writes : List (Nat × Nat)
  deriving DecidableEq, Repr

/-- An entry of a copy-engine queue (R135, R161, R202). -/
structure CeEntry where
  id : Nat
  /-- issuing thread; none for a COPY command -/
  thread : Option Nat
  ctx : Ctx
  cmd : Nat
  desc : CopyDesc
  /-- logical cores that peer indices name (R194) -/
  peers : List Nat
  started : Bool
  /-- next row, next element of the row, next piece -/
  row : Nat
  elem : Nat
  next : Nat
  pieces : List Piece
  inflight : List Txn
  deriving DecidableEq, Repr

/-- One copy-engine queue of a side (R135, R205). -/
structure CeQueue where
  entries : List CeEntry
  paused : Bool
  deriving DecidableEq, Repr

def CeQueue.empty : CeQueue := ⟨[], false⟩

/-- Progress of a stop of a side (R148, R175, R267): issuing; the 64-cycle stop-issue step; waiting for open regions; the ME
drain; stopped. -/
inductive Stop where
  | run
  | stopIssue
  | regionWait
  | drain
  | stopped
  deriving DecidableEq, Repr

/-- One side of the core: tenant (0) or radio (1); on a stake core the two groups of threads (R24, R134). -/
structure Side where
  /-- accumulator bank: row * 256 + column, and the scale tag of each row (R89, R90) -/
  acc : SMap Int
  tags : SMap Int
  bank : VBank
  meQ : List MeEntry
  ce0 : CeQueue
  ce1 : CeQueue
  /-- bytes folded into the running digest (R342) -/
  folded : Nat
  stop : Stop
  deriving DecidableEq, Repr

def Side.zero : Side :=
  { acc := [], tags := [], bank := .zero, meQ := [], ce0 := .empty, ce1 := .empty, folded := 0, stop := .run }

/-- A borrow in progress (R269 to R271). -/
inductive BorrowPhase where
  /-- stop-issue, region wait and ME drain of the tenant side -/
  | stopping
  | bankSwitch
  | dispatch
  | radio
  | switchBack
  | reload
  deriving DecidableEq, Repr

structure Borrow where
  phase : BorrowPhase
  ctx : Ctx
  cmd : Nat
  /-- cycle of the request from which held-off time runs, and the instance that it is charged to, 0 for none -/
  at_ : Nat
  charged : Nat
  deriving DecidableEq, Repr

/-- A take-over of the core by another instance (R281 to R286). -/
inductive TakePhase where
  | stopping
  | spill
  | zero
  | restore
  deriving DecidableEq, Repr

structure TakeOver where
  phase : TakePhase
  from_ : Nat
  to_ : Nat
  /-- ROLE of the previous entry, and the boundary at which the take-over began -/
  role : Nat
  since : Nat
  /-- cycle at which the spill began (R218, R289) -/
  spillAt : Nat
  /-- save slot that receives the spilled image; none when the state is discarded -/
  slot : Option Nat
  /-- image to be restored, if the new owner has one -/
  restore : Option Nat
  deriving DecidableEq, Repr

/-- Check state of a scratchpad word (R186). An unlisted word is good. -/
inductive Check where
  | good
  | single
  | double
  deriving DecidableEq, Repr

/-- One physical core slot. -/
structure Core where
  sp : Memory
  spCheck : SMap Check
  threads : SMap Thread
  /-- side 0, side 1 -/
  t : Side
  r : Side
  tiles : List Tile
  /-- shadow tiles that the second pass after a return reloads (R101) -/
  reload : List Nat
  /-- row feeders, in the order of their fetches (R85) -/
  feed : List FeedEnt
  plaits : SMap Plait
  residents : List Resident
  /-- side whose state the engines use: false tenant, true radio (R24) -/
  radio : Bool
  /-- partitions poisoned and not re-armed (R109), as quadrant bits -/
  poisoned : Nat
  borrow : Option Borrow
  takeover : Option TakeOver
  /-- radio commands waiting for the core (R269): context and command -/
  radioQ : List (Ctx × Nat)
  /-- a radio command runs one further beat (R274): 1 in the extension, 2 at its end -/
  extension : Nat
  /-- cycle of the latest borrow request (R272) -/
  req : Nat
  throttled : Bool
  /-- wake in progress (R528) -/
  waking : Bool
  /-- found failed in service (R17), or failed at self-test -/
  failed : Bool
  /-- an in-service known-answer test is scheduled or running (R106) -/
  testing : Bool
  nextId : Nat
  deriving DecidableEq, Repr

def Core.zero : Core :=
  { sp := [], spCheck := [], threads := [], t := .zero, r := .zero, tiles := [], reload := [], feed := [], plaits := [],
    residents := [], radio := false, poisoned := 0, borrow := none, takeover := none, radioQ := [],
    extension := 0, req := 0, throttled := false, waking := false, failed := false, testing := false, nextId := 0 }

end Sys2Proof.Machine
end

