-- ==== Sys2Proof/Machine/InstTypes.lean ====
section
/-!
DEFINITION. Instances, rings, commands, the CCL, the beat sequencer and save images (chapters 05, 08, 09, 10).
-/
namespace Sys2Proof.Machine

/-! ## Commands (R152 to R164, R322 to R326) -/

structure KernelBody where
  code : Nat
  codeLen : Nat
  entry : Nat
  pentry : Nat
  first : Nat
  count : Nat
  strands : Nat
  kp : Nat
  nreg : Nat
  localBytes : Nat
  sharedBytes : Nat
  args : List Word
  deriving DecidableEq, Repr

structure CopyBody where
  dlist : Nat
  dcount : Nat
  engine : Nat
  first : Nat
  deriving DecidableEq, Repr

/-- A TB2 release time in the form of R360: low 32 bits of the seconds, ns, sub-ns (R162). -/
structure BarrierBody where
  scope : Nat
  waddr : Nat
  wval : Nat
  sec : Nat
  ns : Nat
  subns : Nat
  deriving DecidableEq, Repr

structure SignalBody where
  op : Nat
  saddr : Nat
  sval : Nat
  msivec : Nat
  deriving DecidableEq, Repr

inductive CmdBody where
  | kernel (b : KernelBody)
  | copy (b : CopyBody)
  | barrier (b : BarrierBody)
  | fence (comp withy : Bool)
  | signal (b : SignalBody)
  deriving DecidableEq, Repr

/-- Where an accepted command stands: waiting to start, running, ended with its COMMIT not yet durable, committed. -/
inductive CmdPhase where
  | waiting
  | running
  | ended
  | committed
  deriving DecidableEq, Repr

/-- Common fields of a descriptor (R152) and its body. -/
structure Descr where
  stepb : Bool
  irq : Bool
  launch : Bool
  dlog : Bool
  amode : Nat
  dur : Nat
  tag : Nat
  step : Nat
  cg : Nat
  body : CmdBody
  deriving DecidableEq, Repr

/-- An accepted, uncompleted command. -/
structure Cmd where
  inst : Nat
  ring : Nat
  ridx : Nat
  d : Descr
  phase : CmdPhase
  /-- order of acceptance (R162) -/
  order : Nat
  /-- logical cores of its positions, from its first start (R159), and those where it has not ended -/
  cores : List Nat
  left : List Nat
  /-- logical cores where it has not begun -/
  todo : List Nat
  /-- lease of the instance as mapped when a COPY starts (R194) -/
  peers : List Nat
  /-- copy descriptors of a COPY fetched so far, and completed -/
  fetched : Nat
  copied : Nat
  ovr : Nat
  rerun : Nat
  /-- a re-run of a command that holds a COMMIT: completion effects are suppressed (R326) -/
  silent : Bool
  flags : Flags
  result : Nat
  /-- final digests by core-set position, and bytes folded over all cores (R343, R344) -/
  digests : SMap Nat
  folded : Nat
  /-- STATUS and CAUSE of the completion record, once ended -/
  status : Nat
  cause : Nat
  /-- companion address of a BARRIER's word, and the word last seen there (R162) -/
  waddr : Option Nat
  word : Option Nat
  /-- stack address of a SIGNAL's word, once translated (R323) -/
  saddr : Option Nat
  /-- state of TB2 in the cycle in which it reached the TREL of a BARRIER, and whether its other conditions held then (R355) -/
  atTrel : Option (Nat × Bool)
  deriving DecidableEq, Repr

/-- Key of a command: instance, ring and RIDX. -/
structure CmdKey where
  inst : Nat
  ring : Nat
  ridx : Nat
  deriving DecidableEq, Repr

def Cmd.key (c : Cmd) : CmdKey := ⟨c.inst, c.ring, c.ridx⟩

/-! ## Rings (R304 to R309) -/

/-- A descriptor that has been requested: its two lines once they have arrived, whether it is the last of its fetch (R309), and
its TAG and STEP once its journal record has been started. -/
structure Fetched where
  ridx : Nat
  lo : Option (List Byte)
  hi : Option (List Byte)
  last : Bool
  checked : Bool
  tag : Nat
  step : Nat
  /-- lease size against which it is checked, where a RESIZE shrinks the lease (R318) -/
  limit : Option Nat
  deriving DecidableEq, Repr

/-- A request taken from the management or device ring (R316, R477). -/
structure Req where
  ridx : Nat
  bytes : List Byte
  deriving DecidableEq, Repr

/-- A command ring; the management and device rings have the same structure (R316, R477). -/
structure Ring where
  prod : Nat
  ccons : Nat
  cmdcons : Nat
  cplprod : Nat
  /-- next RIDX to fetch -/
  next : Nat
  fetched : List Fetched
  /-- RIDX of completion records posted and not yet counted by CPLPROD -/
  posted : List Nat
  /-- STEP of the previous accepted command (R156) and the RIDX of the step start (R325) -/
  prevStep : Option Nat
  stepStart : Option Nat
  /-- highest CPLPROD whose status-line write has been acknowledged (R324) -/
  acked : Nat
  /-- status-line writes made, and the number of the latest acknowledged one (R310) -/
  lines : Nat
  lineAcked : Nat
  /-- cycle at which the next command is due to start after a SCOPE 1 barrier (R353) -/
  due : Option Nat
  /-- the watched line is held in state S (R301); its last PROD and CCONS are prod and ccons -/
  shared : Bool
  /-- PROD is to be taken as the start when the watched line returns (R305) -/
  enabling : Bool
  deriving DecidableEq, Repr

def Ring.empty : Ring :=
  { prod := 0, ccons := 0, cmdcons := 0, cplprod := 0, next := 0, fetched := [], posted := [],
    prevStep := none, stepStart := none, acked := 0, lines := 0, lineAcked := 0, due := none, shared := false, enabling := false }

/-! ## The Companion Coherent Link (R299, R309, R310) -/

/-- What an outgoing CCL transaction is for. -/
inductive CclPurpose where
  /-- RDS of a watched line of a ring -/
  | watched (inst ring : Nat)
  /-- RDC of a descriptor -/
  | descriptor (inst ring ridx : Nat)
  /-- RDC of a BARRIER's word, of a SIGNAL's word -/
  | barrierWord (k : CmdKey)
  | signalRead (k : CmdKey)
  /-- completion record, SIGNAL write, status line, digest record, log record, MSI, engine write -/
  | completion (k : CmdKey)
  | signalWrite (k : CmdKey)
  | status (inst ring cmdcons cplprod line : Nat)
  | digest (inst : Nat)
  | logRecord (seq : Nat)
  | msi (v : Nat)
  | engine (inst ring : Nat)
  /-- RDC of a copy engine's read: core slot, side, engine, number of the transaction -/
  | engineRead (p k e txn : Nat)
  /-- watched lines of queue pairs, and their messages -/
  | queuePair (q : Nat) (out : Bool)
  | indication (q : Nat)
  | qpStatus (q : Nat) (irq : Bool)
  | recovery
  | other
  deriving DecidableEq, Repr

inductive CclKind where
  | rds | rdc | wrl | wrp
  deriving DecidableEq, Repr

/-- A transaction issued and not yet answered. -/
structure CclTxn where
  kind : CclKind
  addr : Nat
  data : List Byte
  port : Nat
  purpose : CclPurpose
  deriving DecidableEq, Repr

/-- An MSI that waits until the completion's writes have been acknowledged (R310): the vector, the completion, and the number of the first
status-line write of its ring that follows the completion record. -/
structure MsiWait where
  vec : Nat
  key : CmdKey
  line : Nat
  deriving DecidableEq, Repr

/-- The sender of a port (R296): number of the next flit, the first unacknowledged one, the flits that the latest retry repeated, and whether
lanes have failed, so that the port trains at 8 (R297). -/
structure CclLink where
  next : Nat
  first : Nat
  replay : List Nat
  narrow : Bool
  deriving DecidableEq, Repr

def CclLink.zero : CclLink := ⟨0, 0, [], false⟩

structure CclState where
  out : List CclTxn
  msis : List MsiWait
  /-- cycle of the latest re-read of every watched line (R301) -/
  rereadAt : Nat
  links : SMap CclLink
  /-- base of the register space in the companion's address space, once assigned (R297) -/
  base : Option Nat
  /-- lines whose SNPINV is being acknowledged (R299) -/
  acks : List Nat
  /-- companion lines held in state S in the line cache (R299, R300) -/
  cache : List Nat
  deriving DecidableEq, Repr

def CclState.empty : CclState := { out := [], msis := [], rereadAt := 0, links := [], base := none, acks := [], cache := [] }

/-! ## Instances (R303, R311 to R321) -/

inductive RegionType where
  | stack | comp | seq
  deriving DecidableEq, Repr

/-- An entry of the region table (R313). -/
structure RegionEnt where
  ipa : Nat
  size : Nat
  type : RegionType
  target : Nat
  r : Bool
  w : Bool
  deriving DecidableEq, Repr

/-- The six accounting counters (R291). -/
structure Acct where
  qwait : Nat
  npre : Nat
  held : Nat
  array : Nat
  bytes : Nat
  ovr : Nat
  deriving DecidableEq, Repr

def Acct.zero : Acct := ⟨0, 0, 0, 0, 0, 0⟩

/-- A management request being run for an instance (R317), with the RIDX of its request. -/
inductive MgmtOp where
  | create
  | resize (cores q : Nat)
  | fixlease (term : Nat)
  | quiesce
  | reset
  | remove
  deriving DecidableEq, Repr

structure MgmtWork where
  op : MgmtOp
  ridx : Nat
  tag : Nat
  deriving DecidableEq, Repr

/-- A stack frame: stack and frame number. -/
abbrev Frame := Nat × Nat

/-- A cached stage-1 translation: the IPA page of a VA page, and whether every level of the walk allowed writes (R312, R314). -/
structure TlbEnt where
  ipa : Nat
  w : Bool
  deriving DecidableEq, Repr

structure Instance where
  /-- logical cores of the lease in position order; yielded ones among them (R277) -/
  lease : List Nat
  yielded : List Nat
  stackSet : List Nat
  mirror : Bool
  quota : Nat
  /-- fr[k][i] of R226, the slots of the mirror copies included (R228) -/
  frames : List (List Frame)
  regions : SMap (Option RegionEnt)
  /-- cached stage-1 translations by VA page -/
  tlb : SMap (Option TlbEnt)
  /-- IW_S1ROOT as translations use it: its value at the latest invalidation (R314) -/
  root : BitVec 64
  acct : Acct
  /-- beats left of a fixed lease; none while it has not begun or there is none (R319) -/
  fixedLeft : Option Nat
  fixedTerm : Nat
  work : Option MgmtWork
  /-- descriptors are checked against this lease size while it shrinks (R318) -/
  sizeLimit : Option Nat
  deriving DecidableEq, Repr

def Instance.absent : Instance :=
  { lease := [], yielded := [], stackSet := [], mirror := false, quota := 0, frames := [], regions := [], tlb := [], root := 0,
    acct := .zero, fixedLeft := none, fixedTerm := 0, work := none, sizeLimit := none }

/-! ## The beat sequencer (R258 to R266) and save images (R281, R283) -/

/-- A committed period plan: number of its first beat, and per beat the 32-bit entry of each logical core (R260, R262). -/
structure PeriodPlan where
  first : Nat
  beats : List (SMap Nat)
  deriving DecidableEq, Repr

structure BeatState where
  started : Bool
  /-- the first boundary has not come yet; boundary is its GTC (R371) -/
  first : Bool
  /-- GTC of the current boundary, and length of the current beat -/
  boundary : Nat
  length : Nat
  plans : List PeriodPlan
  /-- entries latched for the next beat; none when none was latched or the plan was refused -/
  latched : Option (SMap Nat)
  /-- the latch point of the next beat has passed -/
  latchDone : Bool
  /-- the plan of the next beat was refused (R263) -/
  refused : Bool
  /-- entries of cores that were not awake in time, by logical core (R528) -/
  late : SMap Nat
  /-- save frames (R283) -/
  saveFrames : List Frame
  deriving DecidableEq, Repr

def BeatState.stopped : BeatState :=
  { started := false, first := false, boundary := 0, length := 56250, plans := [], latched := none, latchDone := false, refused := false, late := [],
    saveFrames := (List.range 12).map fun m => (m, 126) }

/-- A save image (R281): whose it is, of which logical core, taken under which ROLE, the tenant state, locks 0 to 47, and the
arithmetic registers and the digest state of the side. -/
structure Image where
  inst : Nat
  lcore : Nat
  role : Nat
  core : Core
  locks : List Word
  arith : List Word
  deriving DecidableEq, Repr

end Sys2Proof.Machine
end

