-- ==== Sys2Proof/Machine/LinkTypes.lean ====
section
/-!
DEFINITION. State of the Weave's arbitration points (R212 to R219) and of the Withy links (R440 to R464).
-/
namespace Sys2Proof.Machine

/-! ## Weave -/

/-- A request pending at an arbitration point: rank, requester (an instance number, 65 the system), flits, the core slot whose
copy engine made it (none for others) and the number of its transaction, and its request cycle (R213, R215); of a grant the cycle at which it
began, and its flits charged so far (R214). -/
structure WvReq where
  rank : Nat
  who : Nat
  flits : Nat
  slot : Option Nat
  txn : Nat
  at_ : Nat
  since : Nat
  sent : Nat
  deriving DecidableEq, Repr

/-- A requester's credit, age and activity at a point (R214, R215). -/
structure WvReqr where
  credit : Int
  age : Nat
  /-- a request was pending, or was served, in the current window -/
  active : Bool
  deriving DecidableEq, Repr

def WvReqr.zero : WvReqr := ⟨0, 0, false⟩

/-- An arbitration point: requesters by 128 * rank + number, pending requests, the granted request, and the rank-0
flits of the window. -/
structure WvPoint where
  reqrs : SMap WvReqr
  pending : List WvReq
  grant : Option WvReq
  rank0 : Nat
  deriving DecidableEq, Repr

def WvPoint.zero : WvPoint := ⟨[], [], none, 0⟩

/-- The Weave: its points, the cycle of the last window start (R214), and the configuration words in force since it (R219). -/
structure WeaveState where
  points : SMap WvPoint
  winAt : Option Nat
  cfg : BitVec 64
  rbudget : BitVec 64
  sysw : BitVec 64
  weights : SMap Nat
  deriving DecidableEq, Repr

/-! ## Withy -/

/-- A transaction that this device has sent and that waits for its answer (R459), with the copy-engine transaction behind it; at_
is the cycle of its latest sending. -/
structure WyTxn where
  tid : Nat
  dst : Nat
  group : Nat
  ord : Bool
  rank : Nat
  write : Bool
  addr : Nat
  len : Nat
  data : List Byte
  ctx : Ctx
  cmd : Nat
  slot : Nat
  side : Nat
  eng : Nat
  txn : Nat
  attempts : Nat
  at_ : Nat
  deriving DecidableEq, Repr

/-- What is handed to a Withy port: a data transaction with its header (R450), a NAK, a replay of flits, a link-control message by
type and bytes 7 to 11, a LINK transaction by type and body (R468). -/
inductive WyMsg where
  | wr (h : WyHdr) (data : List Byte)
  | rd (h : WyHdr) (len : Nat)
  | rddata (h : WyHdr) (data : List Byte)
  | ack (h : WyHdr)
  | nack (h : WyHdr) (cause : Nat)
  | nak (seq : Nat)
  | replay (seqs : List Nat)
  | control (type : Nat) (fields : List Nat)
  | link (type : Nat) (m : WlMsg)
  deriving DecidableEq, Repr

/-- 64-byte slots that a message fills: half a slot of header, counted whole, and its data (R449). -/
def WyMsg.slots : WyMsg → Nat
  | .wr _ d | .rddata _ d => 1 + (d.length + 63) / 64
  | .rd _ _ | .ack _ | .nack _ _ => 1
  | .link _ _ => 2
  | _ => 0

/-- Flits of a message: a transaction has flits of its own (DESIGN CHOICE, log 78); a NAK or a link-control message rides in one flit; a
replay repeats flits sent before. -/
def WyMsg.flits (m : WyMsg) : Nat :=
  match m with
  | .replay _ => 0
  | .nak _ | .control _ _ => 1
  | _ => (m.slots + 3) / 4

/-- The message is of rank 1 (R450, R468). -/
def WyMsg.low : WyMsg → Bool
  | .wr h _ | .rd h _ | .rddata h _ | .ack h | .nack h _ => h.rank
  | _ => false

/-- A Withy port's link controller beyond its registers. -/
structure WyPort where
  /-- a cable is present, inserted since its record was last read; its serial number and declared life in mating cycles and
  lane-hours (R461); the notes of R462 have been written -/
  cable : Bool
  fresh : Bool
  serial : Option Nat
  lifeMates : Nat
  lifeHours : Nat
  notedMates : Bool
  notedHours : Bool
  /-- CRC errors in the present ms (R444) -/
  crcMs : Nat
  /-- cycle of the latest ring-time exchange that this end started (R447) -/
  exch : Nat
  /-- flits sent since the alignment of the link, and those acknowledged; the flits between them are in the replay buffer (R450) -/
  seq : Nat
  first : Nat
  /-- slots of rank 0 and of rank 1 sent whose credits have not come back (R449, R450) -/
  used0 : Nat
  used1 : Nat
  /-- flits received since the alignment -/
  got : Nat
  deriving DecidableEq, Repr

def WyPort.zero : WyPort :=
  { cable := false, fresh := false, serial := none, lifeMates := 0, lifeHours := 0, notedMates := false, notedHours := false,
    crcMs := 0, exch := 0, seq := 0, first := 0, used0 := 0, used1 := 0, got := 0 }

structure WithyState where
  next : Nat
  held : List WyTxn
  /-- last completed TIDs of each source device, newest first, at most 4,096 (R459) -/
  completed : SMap (List Nat)
  ports : SMap WyPort
  /-- messages handed to the ports since the last tick: port and message -/
  out : List (Nat × WyMsg)
  /-- the ledger: insertions and lane-hours by serial number (R462) -/
  ledger : SMap (Nat × Nat)
  /-- ring time (R447, R448): hop count of the latest upstream message; t1 of the latest SYNC in units of 2^-4 ns with t2 and t3 in
  ns of TB2 -/
  hops : Option Nat
  sync : Option (Nat × Rat × Rat)
  /-- transactions that have arrived and that the target could not apply yet, as the companion did not answer: an ORD transaction waits for
  those before it (R458) -/
  stalled : List WyHdr
  deriving DecidableEq, Repr

def WithyState.reset : WithyState := { next := 0, held := [], completed := [], ports := [], out := [], ledger := [], hops := none, sync := none, stalled := [] }

end Sys2Proof.Machine
end

