-- ==== Sys2Proof/Machine/LogTypes.lean ====
section
/-!
DEFINITION. Event records and the log unit's state (R377, R492 to R494).
-/
namespace Sys2Proof.Machine

/-- A record held by the log unit: cycle of detection, source number, severity, class, payload (R492). -/
structure EvRec where
  gtc : Nat
  source : Nat
  sev : Nat
  cls : Nat
  payload : Nat
  deriving DecidableEq, Repr

/-- An emitted record: its sequence number and the device number at that time (R492). -/
structure EvOut where
  ev : EvRec
  seq : Nat
  devid : Nat
  deriving DecidableEq, Repr

/-- The log unit (R493, R494). -/
structure LogState where
  /-- records not yet delivered by their sources, in order of detection (at most 16 a source) -/
  queued : List EvRec
  /-- records delivered and held until 1,024 cycles after their GTC, in the order of R377 -/
  held : List EvRec
  /-- records dropped since the last EV_LOST, by source -/
  dropped : SMap Nat
  nextSeq : Nat
  /-- the on-chip ring: slot SEQ mod 16,384 -/
  ring : SMap (Option EvOut)
  /-- sequence number of the next record to be written to companion memory -/
  compNext : Nat
  deriving DecidableEq, Repr

def LogState.empty : LogState := { queued := [], held := [], dropped := [], nextSeq := 0, ring := [], compNext := 0 }

end Sys2Proof.Machine
end

