-- ==== Sys2Proof/Machine/RadioTypes.lean ====
section
/-!
DEFINITION. State of the radio layer-1 service (R408 to R439): cells, contexts, FAPI queue pairs, models, DPD training.
-/
namespace Sys2Proof.Machine

/-- P5 state of a cell (R417). -/
inductive CellPhase where
  | configured
  | running
  deriving DecidableEq, Repr

/-- A slot accepted for processing (R425): its number in the hyperframe, downlink or uplink, the PUSCH and the UCI that it expects, and
its uplink PRBs: expected and received (R438). -/
structure SlotWork where
  no : Nat
  dl : Bool
  pusch : Nat
  uci : Nat
  prbs : Nat
  got : Nat
  deriving DecidableEq, Repr

/-- A cell in CONFIGURED or RUNNING; a cell that is not listed is IDLE. mu: 0, 1, 3 for 15, 30, 120 kHz. -/
structure Cell where
  ctx : Nat
  phase : CellPhase
  mu : Nat
  /-- cost units of R427, the neural estimator's adder included while it is selected -/
  cost : Nat
  /-- bytes of its HARQ pool (R423) -/
  pool : Nat
  model : Option Nat
  /-- slots on the classical estimator, counted from 1,001 down to 1 (R431); 0 while it is not forced -/
  fallback : Nat
  /-- its flow entries: port and index (R386, R417) -/
  flows : List (Nat × Nat)
  /-- sub-ports whose reception window and shaper it has set: port and sub-port -/
  wins : List (Nat × Nat)
  shapers : List (Nat × Nat)
  /-- GTC from which a START.request takes effect (R417) -/
  start : Option Nat
  /-- a STOP.request has been read: the cell stops after its accepted slots (R417) -/
  stopping : Bool
  accepted : List SlotWork
  deriving DecidableEq, Repr

/-- A FAPI message that the device sends: message type, cell, and its contents as numbers. -/
structure Fapi where
  type : Nat
  phy : Nat
  fields : List Nat
  deriving DecidableEq, Repr

/-- A FAPI queue pair beyond its registers (R414 to R416). -/
structure Qp where
  inProd : Nat
  inCons : Nat
  inSeq : Nat
  outProd : Nat
  outCons : Nat
  outSeq : Nat
  /-- watched lines still awaited after EN went to 1 -/
  enabling : Nat
  /-- messages held while the outbound ring is full, with the GTC at which each was ready, oldest first -/
  held : List (Nat × Fapi)
  discarded : Nat
  deriving DecidableEq, Repr

def Qp.off : Qp :=
  { inProd := 0, inCons := 0, inSeq := 0, outProd := 0, outCons := 0, outSeq := 0, enabling := 0, held := [], discarded := 0 }

/-- A cell-group context's fault state (R435 to R437). -/
structure RCtx where
  /-- cycle of the teardown, until it is re-created; a warm reset's teardown is marked -/
  down : Option Nat
  warm : Bool
  /-- cycles of its teardowns that count toward HALTED -/
  recent : List Nat
  halted : Bool
  /-- soft buffers that work under way has touched, with the cycle of the touch, and those that lost work has touched: invalid -/
  harqTouched : List (Nat × Nat)
  harqBad : List Nat
  deriving DecidableEq, Repr

def RCtx.up : RCtx := { down := none, warm := false, recent := [], halted := false, harqTouched := [], harqBad := [] }

/-- A DPD training in progress (R432 to R434): queue pair, cell, chain, and the cycle of its request. -/
structure DpdJob where
  qp : Nat
  phy : Nat
  chain : Nat
  /-- K, M, C of R432 and the number of coefficients -/
  orders : List Nat
  len : Nat
  at_ : Nat
  deriving DecidableEq, Repr

/-- A message that Grizor handles as management work (R417), and one that waits for it: its queue pair and cell. -/
inductive P5Msg where
  | param
  | config (cfg : CellCfg)
  | start
  | stop
  | modelLoad (no size : Nat) (adders : List Nat) (clean signed : Bool)
  | dpdTrain (chain : Nat) (orders : List Nat) (samples coeffs : Nat)
  deriving DecidableEq, Repr

structure P5Work where
  qp : Nat
  phy : Nat
  msg : P5Msg
  deriving DecidableEq, Repr

structure RadioState where
  /-- messages that wait for Grizor, in order (R417) -/
  p5 : List P5Work
  /-- by PHYID -/
  cells : SMap (Option Cell)
  qps : SMap Qp
  ctxs : SMap RCtx
  /-- context of each of I0's rings (R410); 127 when it has none -/
  ringCtx : SMap Nat
  /-- loaded models (R430): cost adder of each by row of the cost table -/
  models : SMap (Option (List Nat))
  /-- boundary of the latest slot start handled, + 1, by numerology -/
  slotMark : SMap Nat
  /-- contexts with a radio command that ran past its beat (R436), and the context and slot of U-plane frames missed since -/
  overrun : SMap Bool
  missed : List (Nat × Nat)
  /-- context of DPD training (R434) and its DPD_TMAX in cycles -/
  dpdCtx : Option Nat
  dpdMax : Nat
  dpd : List DpdJob
  /-- capacity in cores when it was last reported (R429) -/
  capCores : Nat
  /-- erasure threshold in percent (R438) -/
  erase : Nat
  deriving DecidableEq, Repr

def RadioState.reset : RadioState :=
  { p5 := [], cells := [], qps := [], ctxs := [], ringCtx := [], models := [], slotMark := [], overrun := [], missed := [], dpdCtx := none, dpdMax := 360000000, dpd := [],
    capCores := 128, erase := 10 }

end Sys2Proof.Machine
end

