-- ==== Sys2Proof/Machine/Regs.lean ====
section
/-!
DEFINITION. The registers of the register space (R551, R552): one constructor of Reg for each register of the
spec's register tables, with the fields, access codes and reset values of those tables (R6, R7).
-/
namespace Sys2Proof.Machine

/-- A bit field hi:lo of a register (R5: bit 0 is the least significant). -/
structure Fld where
  hi : Nat
  lo : Nat
  deriving DecidableEq, Repr

/-- Access codes of R7. -/
inductive Access where
  | ro | rw | wo | w1c | rws | rwl
  deriving DecidableEq, Repr

/-- One row of a register table: the field, its access code and its value after cold reset (R6). -/
structure FieldRow where
  fld : Fld
  acc : Access
  rst : Nat
  deriving DecidableEq, Repr

/-- The registers, by the names of the register tables. The arguments are the indices the tables give: p a physical slot or
a fronthaul port, n an instance or a time base, m a stack, w a Withy port, q a queue pair or a sub-port, and so on. -/
inductive Reg where
  | coreAmode (p : Nat) (i : Nat)
  | coreAflags (p : Nat) (i : Nat)
  | coreMeSpare (p : Nat) (i : Nat)
  | coreMeStatus (p : Nat)
  | coreMeFault (p : Nat)
  | coreMeFstall (p : Nat)
  | coreMeWstall (p : Nat)
  | coreVeStatus (p : Nat)
  | coreVeFault (p : Nat)
  | coreVeStall (p : Nat)
  | coreCqNp (p : Nat)
  | coreCqNplimit (p : Nat)
  | coreCqPlan (p : Nat)
  | coreCqPre (p : Nat)
  | coreCqLock (p : Nat) (i : Nat)
  | coreCeStatus (p : Nat)
  | coreCeFault (p : Nat)
  | coreCeRestart (p : Nat)
  | coreSpEcc (p : Nat)
  | coreSpEaddr (p : Nat)
  | coreDig (p : Nat) (i : Nat)
  | wvCfg
  | wvRbudget
  | wvSysw
  | wvHold
  | wvR0peak
  | wvWeight (n : Nat)
  | msCfg (m : Nat)
  | msStatus (m : Nat)
  | msEcc (m : Nat)
  | msEaddrLo (m : Nat)
  | msEaddrHi (m : Nat)
  | msFrame (m : Nat) (f : Nat)
  | timeBeat
  | timeBeatpos
  | timePlancfg
  | timePlanstat
  | imAcct (n : Nat) (k : Nat)
  | imAcctLatch
  | imAcctSnap (k : Nat)
  | imAcctSnapGtc
  | cclPortStatus (i : Nat)
  | cclMsia (v : Nat)
  | cclMsid (v : Nat)
  | cclMsic (v : Nat)
  | imDlogCtl (n : Nat)
  | imDlogBase (n : Nat)
  | imDlogProd (n : Nat)
  | iwState (n : Nat)
  | iwMem (n : Nat)
  | iwFault (n : Nat)
  | iwTfault (n : Nat)
  | iwTfaultVa (n : Nat)
  | iwS1root (n : Nat)
  | iwTlbinv (n : Nat)
  | iwAcct (n : Nat) (k : Nat)
  | iwRingCtl (n : Nat) (r : Nat)
  | iwRingStatus (n : Nat) (r : Nat)
  | iwRingCmdbase (n : Nat) (r : Nat)
  | iwRingCplbase (n : Nat) (r : Nat)
  | iwRingWline (n : Nat) (r : Nat)
  | iwRingSline (n : Nat) (r : Nat)
  | gctlId
  | gctlSeal
  | gctlReset
  | gctlPinmux
  | gctlEtimer
  | gctlArithrev
  | gctlElogCtl
  | gctlElogBase
  | gctlElogProd
  | gctlElogLost
  | gctlPwrcfg
  | gctlThermcfg
  | gctlDietemp (d : Nat)
  | gctlPwrest
  | gctlVcore
  | gctlPdstat (k : Nat)
  | gctlCmap (l : Nat)
  | timeTbCfg (n : Nat)
  | timeTbServo (n : Nat)
  | timeTbStatus (n : Nat)
  | timeTbRate (n : Nat)
  | timeTbSec (n : Nat)
  | timeTbNs (n : Nat)
  | timeRadio
  | timeClk
  | timeBeaterr
  | timePpsout
  | timeTod
  | timeHfofs
  | timeAppofs
  | timeGtc
  | fhCfg (p : Nat)
  | fhStatus (p : Nat)
  | fhMod (p : Nat)
  | fhMtu (p : Nat)
  | fhMac (p : Nat) (q : Nat)
  | fhWin (p : Nat) (q : Nat)
  | fhShport (p : Nat) (q : Nat)
  | fhTscorr (p : Nat) (q : Nat)
  | fhCnt (p : Nat) (k : Nat)
  | fhExccap (p : Nat) (k : Nat)
  | fhExcsub (p : Nat)
  | fhModid (p : Nat) (k : Nat)
  | fhFlowLo (p : Nat) (f : Nat)
  | fhFlowHi (p : Nat) (f : Nat)
  | rlQpCtl (q : Nat)
  | rlQpStatus (q : Nat)
  | rlQpInbase (q : Nat)
  | rlQpInwline (q : Nat)
  | rlQpInsline (q : Nat)
  | rlQpOutbase (q : Nat)
  | rlQpOutwline (q : Nat)
  | rlQpOutsline (q : Nat)
  | wyCfg (w : Nat)
  | wyStatus (w : Nat)
  | wyErr (w : Nat)
  | wyFofs (w : Nat)
  | wyCable (w : Nat) (k : Nat)
  | wyLife (w : Nat)
  | wyDevid
  | wyRto
  | wyGroup (n : Nat)
  | wyRoute (d : Nat)
  | wlCfg
  | wlState
  | wlEpoch
  | wlHealth
  | wlHweight
  | wlHthr
  | wlExpel
  | wlReprobe
  | wlAdmit
  | wlClaimKey
  | wlClaimCtl
  | wlClaimRes
  | wlMember (k : Nat)
  | mpMgmtCtl
  | mpMgmtStatus
  | mpMgmtCmdbase
  | mpMgmtCplbase
  | mpMgmtWline
  | mpMgmtSline
  | mpDevCtl
  | mpDevStatus
  | mpDevCmdbase
  | mpDevCplbase
  | mpDevWline
  | mpDevSline
  | mpBootstat
  | mpLoad
  | mpVer
  | mpMinver
  | mpRecovery
  | secStatus
  | secDevhash (k : Nat)
  | secDevpub (k : Nat)
  deriving DecidableEq, Repr

namespace CORE_AMODE
def ASHIFT_EN : Fld := ⟨4, 4⟩
def INF32 : Fld := ⟨1, 1⟩
def INF16 : Fld := ⟨0, 0⟩
end CORE_AMODE
namespace CORE_AFLAGS
def POISON : Fld := ⟨4, 4⟩
def SHIFT : Fld := ⟨3, 3⟩
def INV : Fld := ⟨2, 2⟩
def OVF : Fld := ⟨1, 1⟩
def SAT : Fld := ⟨0, 0⟩
end CORE_AFLAGS
namespace CORE_ME_SPARE
def VALID : Fld := ⟨31, 31⟩
def FROW : Fld := ⟨8, 0⟩
end CORE_ME_SPARE
namespace CORE_ME_STATUS
def NSPARE : Fld := ⟨18, 16⟩
def WSHADOW : Fld := ⟨15, 12⟩
def POISONED : Fld := ⟨11, 8⟩
def BUSY : Fld := ⟨7, 4⟩
def SIDE : Fld := ⟨0, 0⟩
end CORE_ME_STATUS
namespace CORE_ME_FAULT
def VALID : Fld := ⟨31, 31⟩
def PART : Fld := ⟨30, 28⟩
def CAUSE : Fld := ⟨27, 24⟩
def CTX : Fld := ⟨23, 16⟩
def OVR : Fld := ⟨15, 15⟩
def VEC : Fld := ⟨9, 0⟩
end CORE_ME_FAULT
namespace CORE_ME_FSTALL
def COUNT : Fld := ⟨31, 0⟩
end CORE_ME_FSTALL
namespace CORE_ME_WSTALL
def COUNT : Fld := ⟨31, 0⟩
end CORE_ME_WSTALL
namespace CORE_VE_STATUS
def THREADS : Fld := ⟨31, 16⟩
def PLAITS : Fld := ⟨15, 7⟩
def SIDE : Fld := ⟨0, 0⟩
end CORE_VE_STATUS
namespace CORE_VE_FAULT
def VALID : Fld := ⟨31, 31⟩
def CAUSE : Fld := ⟨30, 27⟩
def CTX : Fld := ⟨23, 16⟩
def OVR : Fld := ⟨15, 15⟩
def SRC : Fld := ⟨14, 14⟩
def ID : Fld := ⟨7, 0⟩
end CORE_VE_FAULT
namespace CORE_VE_STALL
def COUNT : Fld := ⟨31, 0⟩
end CORE_VE_STALL
namespace CORE_CQ_NP
def FVALID : Fld := ⟨31, 31⟩
def FTHREAD : Fld := ⟨27, 24⟩
def FCTX : Fld := ⟨23, 16⟩
def OPEN : Fld := ⟨15, 0⟩
end CORE_CQ_NP
namespace CORE_CQ_NPLIMIT
def LIMIT : Fld := ⟨31, 0⟩
end CORE_CQ_NPLIMIT
namespace CORE_CQ_PLAN
def ROLE : Fld := ⟨31, 30⟩
def BRW : Fld := ⟨29, 29⟩
def BCG : Fld := ⟨28, 22⟩
def OWNER : Fld := ⟨21, 15⟩
def TKO : Fld := ⟨14, 14⟩
def RST : Fld := ⟨13, 13⟩
end CORE_CQ_PLAN
namespace CORE_CQ_PRE
def PHASE : Fld := ⟨31, 29⟩
def LAST : Fld := ⟨15, 0⟩
end CORE_CQ_PRE
namespace CORE_CQ_LOCK
def STATE : Fld := ⟨31, 30⟩
def NP : Fld := ⟨29, 29⟩
def LAST : Fld := ⟨23, 16⟩
def OWNER : Fld := ⟨15, 8⟩
def LEASE : Fld := ⟨7, 0⟩
end CORE_CQ_LOCK
namespace CORE_CE_STATUS
def PAUSED : Fld := ⟨23, 20⟩
def Q3 : Fld := ⟨19, 15⟩
def Q2 : Fld := ⟨14, 10⟩
def Q1 : Fld := ⟨9, 5⟩
def Q0 : Fld := ⟨4, 0⟩
end CORE_CE_STATUS
namespace CORE_CE_FAULT
def VALID : Fld := ⟨31, 31⟩
def CAUSE : Fld := ⟨30, 27⟩
def CTX : Fld := ⟨23, 16⟩
def OVR : Fld := ⟨15, 15⟩
def ENG : Fld := ⟨14, 14⟩
end CORE_CE_FAULT
namespace CORE_CE_RESTART
def COUNT : Fld := ⟨31, 0⟩
end CORE_CE_RESTART
namespace CORE_SP_ECC
def CORR : Fld := ⟨31, 16⟩
def UNCORR : Fld := ⟨15, 8⟩
def SCRUBEN : Fld := ⟨0, 0⟩
end CORE_SP_ECC
namespace CORE_SP_EADDR
def VALID : Fld := ⟨31, 31⟩
def UNC : Fld := ⟨30, 30⟩
def ADDR : Fld := ⟨23, 0⟩
end CORE_SP_EADDR
namespace CORE_DIG
def STATE : Fld := ⟨63, 0⟩
end CORE_DIG
namespace WV_CFG
def AGESTEP : Fld := ⟨29, 24⟩
def MAXHOLD : Fld := ⟨23, 13⟩
def WINDOW : Fld := ⟨12, 0⟩
end WV_CFG
namespace WV_RBUDGET
def PCT : Fld := ⟨6, 0⟩
end WV_RBUDGET
namespace WV_SYSW
def WEIGHT : Fld := ⟨7, 0⟩
end WV_SYSW
namespace WV_HOLD
def VALID : Fld := ⟨31, 31⟩
def RANK : Fld := ⟨30, 30⟩
def INST : Fld := ⟨22, 16⟩
def POINT : Fld := ⟨11, 0⟩
end WV_HOLD
namespace WV_R0PEAK
def EXCEED : Fld := ⟨31, 31⟩
def PEAK : Fld := ⟨30, 24⟩
def POINT : Fld := ⟨11, 0⟩
end WV_R0PEAK
namespace WV_WEIGHT
def WEIGHT : Fld := ⟨7, 0⟩
end WV_WEIGHT
namespace MS_CFG
def CETHR : Fld := ⟨23, 16⟩
def SCRUBIV : Fld := ⟨15, 8⟩
def SCRUBEN : Fld := ⟨0, 0⟩
end MS_CFG
namespace MS_STATUS
def STATE : Fld := ⟨31, 30⟩
def JROLE : Fld := ⟨29, 28⟩
def HOT : Fld := ⟨27, 27⟩
def MIGRATING : Fld := ⟨26, 26⟩
def SPARED : Fld := ⟨20, 16⟩
def SEQBUSY : Fld := ⟨15, 8⟩
def LIBVER : Fld := ⟨7, 0⟩
end MS_STATUS
namespace MS_ECC
def CORR : Fld := ⟨31, 16⟩
def UNCORR : Fld := ⟨15, 8⟩
end MS_ECC
namespace MS_EADDR_LO
def PA : Fld := ⟨31, 6⟩
end MS_EADDR_LO
namespace MS_EADDR_HI
def VALID : Fld := ⟨31, 31⟩
def UNC : Fld := ⟨30, 30⟩
def CH : Fld := ⟨29, 26⟩
def SYMS : Fld := ⟨25, 24⟩
def PA : Fld := ⟨19, 0⟩
end MS_EADDR_HI
namespace MS_FRAME
def STATE : Fld := ⟨31, 30⟩
def MIRROR : Fld := ⟨29, 29⟩
def SYS : Fld := ⟨28, 28⟩
def OWNER : Fld := ⟨22, 16⟩
def SLOT : Fld := ⟨15, 8⟩
def IDX : Fld := ⟨7, 0⟩
end MS_FRAME
namespace TIME_BEAT
def DIV : Fld := ⟨31, 30⟩
def NUM : Fld := ⟨20, 0⟩
end TIME_BEAT
namespace TIME_BEATPOS
def CYC : Fld := ⟨17, 0⟩
end TIME_BEATPOS
namespace TIME_PLANCFG
def S8 : Fld := ⟨27, 24⟩
def BPEAK : Fld := ⟨23, 17⟩
def PERIOD : Fld := ⟨16, 15⟩
def LATCH : Fld := ⟨12, 0⟩
end TIME_PLANCFG
namespace TIME_PLANSTAT
def MISS : Fld := ⟨31, 31⟩
def INVALID : Fld := ⟨30, 30⟩
def DEFER : Fld := ⟨29, 29⟩
def COUNT : Fld := ⟨15, 0⟩
end TIME_PLANSTAT
namespace IM_ACCT
def COUNT : Fld := ⟨63, 0⟩
end IM_ACCT
namespace IM_ACCT_LATCH
def INST : Fld := ⟨6, 0⟩
end IM_ACCT_LATCH
namespace IM_ACCT_SNAP
def VALUE : Fld := ⟨63, 0⟩
end IM_ACCT_SNAP
namespace IM_ACCT_SNAP_GTC
def VALUE : Fld := ⟨63, 0⟩
end IM_ACCT_SNAP_GTC
namespace CCL_PORT_STATUS
def STATE : Fld := ⟨31, 30⟩
def WIDTH : Fld := ⟨29, 25⟩
def RETRY : Fld := ⟨15, 0⟩
end CCL_PORT_STATUS
namespace CCL_MSIA
def ADDR : Fld := ⟨50, 2⟩
end CCL_MSIA
namespace CCL_MSID
def DATA : Fld := ⟨31, 0⟩
end CCL_MSID
namespace CCL_MSIC
def PEND : Fld := ⟨1, 1⟩
def MASK : Fld := ⟨0, 0⟩
end CCL_MSIC
namespace IM_DLOG_CTL
def EN : Fld := ⟨31, 31⟩
def L : Fld := ⟨4, 0⟩
end IM_DLOG_CTL
namespace IM_DLOG_BASE
def ADDR : Fld := ⟨47, 6⟩
end IM_DLOG_BASE
namespace IM_DLOG_PROD
def PROD : Fld := ⟨63, 0⟩
end IM_DLOG_PROD
namespace IW_STATE
def STATE : Fld := ⟨31, 29⟩
def FIXED : Fld := ⟨28, 28⟩
def PRIO : Fld := ⟨27, 25⟩
def CORES : Fld := ⟨24, 17⟩
def MINCORES : Fld := ⟨16, 9⟩
end IW_STATE
namespace IW_MEM
def STACKSET : Fld := ⟨23, 12⟩
def MIRROR : Fld := ⟨11, 11⟩
def QGIB : Fld := ⟨10, 0⟩
end IW_MEM
namespace IW_FAULT
def VALID : Fld := ⟨31, 31⟩
def CLASS : Fld := ⟨30, 27⟩
def CORE : Fld := ⟨26, 19⟩
end IW_FAULT
namespace IW_TFAULT
def VALID : Fld := ⟨31, 31⟩
def CAUSE : Fld := ⟨30, 28⟩
def LEVEL : Fld := ⟨27, 26⟩
def WRITE : Fld := ⟨25, 25⟩
def SRC : Fld := ⟨24, 23⟩
end IW_TFAULT
namespace IW_TFAULT_VA
def VALUE : Fld := ⟨63, 0⟩
end IW_TFAULT_VA
namespace IW_S1ROOT
def ROOT : Fld := ⟨47, 12⟩
def EN : Fld := ⟨0, 0⟩
end IW_S1ROOT
namespace IW_TLBINV
def DONE : Fld := ⟨31, 31⟩
def GO : Fld := ⟨0, 0⟩
end IW_TLBINV
namespace IW_ACCT
def COUNT : Fld := ⟨63, 0⟩
end IW_ACCT
namespace IW_RING_CTL
def EN : Fld := ⟨31, 31⟩
def REJIRQ : Fld := ⟨30, 30⟩
def L : Fld := ⟨15, 11⟩
def MSIVEC : Fld := ⟨10, 0⟩
end IW_RING_CTL
namespace IW_RING_STATUS
def STATE : Fld := ⟨31, 30⟩
def ERR : Fld := ⟨29, 28⟩
end IW_RING_STATUS
namespace IW_RING_CMDBASE
def ADDR : Fld := ⟨47, 6⟩
end IW_RING_CMDBASE
namespace IW_RING_CPLBASE
def ADDR : Fld := ⟨47, 6⟩
end IW_RING_CPLBASE
namespace IW_RING_WLINE
def ADDR : Fld := ⟨47, 6⟩
end IW_RING_WLINE
namespace IW_RING_SLINE
def ADDR : Fld := ⟨47, 6⟩
end IW_RING_SLINE
namespace GCTL_ID
def PART : Fld := ⟨31, 16⟩
def STEP : Fld := ⟨15, 8⟩
end GCTL_ID
namespace GCTL_SEAL
def SEALED : Fld := ⟨31, 31⟩
def SEAL : Fld := ⟨0, 0⟩
end GCTL_SEAL
namespace GCTL_RESET
def WARM : Fld := ⟨16, 16⟩
def KEY : Fld := ⟨15, 0⟩
end GCTL_RESET
namespace GCTL_PINMUX
def LOST : Fld := ⟨31, 16⟩
def PPSLAND : Fld := ⟨1, 0⟩
end GCTL_PINMUX
namespace GCTL_ETIMER
def EN : Fld := ⟨31, 31⟩
def MSIVEC : Fld := ⟨26, 16⟩
def PERIOD : Fld := ⟨15, 0⟩
end GCTL_ETIMER
namespace GCTL_ARITHREV
def FWREV : Fld := ⟨15, 8⟩
def HWREV : Fld := ⟨7, 0⟩
end GCTL_ARITHREV
namespace GCTL_ELOG_CTL
def EN : Fld := ⟨31, 31⟩
def IRQSEV : Fld := ⟨30, 29⟩
def MSIVEC : Fld := ⟨15, 5⟩
def L : Fld := ⟨4, 0⟩
end GCTL_ELOG_CTL
namespace GCTL_ELOG_BASE
def ADDR : Fld := ⟨50, 5⟩
end GCTL_ELOG_BASE
namespace GCTL_ELOG_PROD
def PROD : Fld := ⟨63, 0⟩
end GCTL_ELOG_PROD
namespace GCTL_ELOG_LOST
def COUNT : Fld := ⟨31, 0⟩
end GCTL_ELOG_LOST
namespace GCTL_PWRCFG
def CGATE : Fld := ⟨31, 31⟩
def PAEN : Fld := ⟨30, 30⟩
def THSTEP : Fld := ⟨26, 24⟩
def PLIMIT : Fld := ⟨23, 12⟩
end GCTL_PWRCFG
namespace GCTL_THERMCFG
def WARN : Fld := ⟨31, 24⟩
def HI : Fld := ⟨23, 16⟩
def LO : Fld := ⟨15, 8⟩
def CRIT : Fld := ⟨7, 0⟩
end GCTL_THERMCFG
namespace GCTL_DIETEMP
def TEMP : Fld := ⟨31, 22⟩
def K : Fld := ⟨21, 17⟩
def HOT : Fld := ⟨16, 16⟩
def STACKHOT : Fld := ⟨15, 15⟩
end GCTL_DIETEMP
namespace GCTL_PWREST
def AVG : Fld := ⟨31, 20⟩
def PEAK : Fld := ⟨19, 8⟩
def LIMIT : Fld := ⟨0, 0⟩
end GCTL_PWREST
namespace GCTL_VCORE
def AVSOK : Fld := ⟨31, 31⟩
def TARGET : Fld := ⟨15, 0⟩
end GCTL_VCORE
namespace GCTL_PDSTAT
def ON : Fld := ⟨31, 0⟩
end GCTL_PDSTAT
namespace GCTL_CMAP
def VALID : Fld := ⟨31, 31⟩
def SPARE : Fld := ⟨30, 30⟩
def SLOT : Fld := ⟨7, 0⟩
end GCTL_CMAP
namespace TIME_TB_CFG
def EN : Fld := ⟨31, 31⟩
def PSRC : Fld := ⟨30, 28⟩
def FSEL : Fld := ⟨27, 26⟩
def PPORT : Fld := ⟨25, 21⟩
def FPORT : Fld := ⟨20, 16⟩
def FOLLOW : Fld := ⟨15, 14⟩
def DOMAIN : Fld := ⟨13, 8⟩
def LOSS : Fld := ⟨7, 0⟩
end TIME_TB_CFG
namespace TIME_TB_SERVO
def ASYM : Fld := ⟨31, 24⟩
def KPE : Fld := ⟨23, 20⟩
def KIE : Fld := ⟨19, 16⟩
def LOCKNS : Fld := ⟨15, 0⟩
end TIME_TB_SERVO
namespace TIME_TB_STATUS
def STATE : Fld := ⟨31, 29⟩
def FVALID : Fld := ⟨28, 28⟩
def OFFSET : Fld := ⟨23, 0⟩
end TIME_TB_STATUS
namespace TIME_TB_RATE
def RATE : Fld := ⟨31, 0⟩
end TIME_TB_RATE
namespace TIME_TB_SEC
def SEC : Fld := ⟨47, 0⟩
end TIME_TB_SEC
namespace TIME_TB_NS
def NS : Fld := ⟨47, 16⟩
def SUBNS : Fld := ⟨15, 0⟩
end TIME_TB_NS
namespace TIME_RADIO
def ACTIVE : Fld := ⟨31, 31⟩
def AUTO : Fld := ⟨30, 30⟩
def SWITCHING : Fld := ⟨29, 29⟩
def SLEW : Fld := ⟨28, 25⟩
def RESID : Fld := ⟨24, 0⟩
end TIME_RADIO
namespace TIME_CLK
def FSRC : Fld := ⟨31, 30⟩
def WPORT : Fld := ⟨29, 26⟩
def TRIM : Fld := ⟨15, 0⟩
end TIME_CLK
namespace TIME_BEATERR
def EXCEED : Fld := ⟨31, 31⟩
def EB : Fld := ⟨23, 0⟩
end TIME_BEATERR
namespace TIME_PPSOUT
def EN : Fld := ⟨31, 31⟩
def TB : Fld := ⟨30, 29⟩
def OFFSET : Fld := ⟨27, 0⟩
end TIME_PPSOUT
namespace TIME_TOD
def EN : Fld := ⟨31, 31⟩
def FORM : Fld := ⟨30, 30⟩
def BAUD : Fld := ⟨29, 28⟩
def UTCOFS : Fld := ⟨15, 0⟩
end TIME_TOD
namespace TIME_HFOFS
def OFS : Fld := ⟨31, 0⟩
end TIME_HFOFS
namespace TIME_APPOFS
def OFS : Fld := ⟨63, 0⟩
end TIME_APPOFS
namespace TIME_GTC
def GTC : Fld := ⟨63, 0⟩
end TIME_GTC
namespace FH_CFG
def EN : Fld := ⟨31, 31⟩
def MODE : Fld := ⟨30, 29⟩
def OVH : Fld := ⟨23, 16⟩
def REFILL : Fld := ⟨15, 8⟩
def TXPOL : Fld := ⟨7, 4⟩
def RXPOL : Fld := ⟨3, 0⟩
end FH_CFG
namespace FH_STATUS
def LINK : Fld := ⟨31, 28⟩
def MODPRS : Fld := ⟨27, 27⟩
def MODSTATE : Fld := ⟨26, 24⟩
def PESTOP : Fld := ⟨23, 23⟩
end FH_STATUS
namespace FH_MOD
def CMISVER : Fld := ⟨31, 24⟩
def LASERAGE : Fld := ⟨23, 16⟩
def IDENT : Fld := ⟨15, 8⟩
def LIFETHR : Fld := ⟨7, 0⟩
end FH_MOD
namespace FH_MTU
def MTU : Fld := ⟨13, 0⟩
end FH_MTU
namespace FH_MAC
def MAC : Fld := ⟨47, 0⟩
end FH_MAC
namespace FH_WIN
def TA4MAX : Fld := ⟨63, 32⟩
def TA4MIN : Fld := ⟨31, 0⟩
end FH_WIN
namespace FH_SHPORT
def RATE : Fld := ⟨63, 32⟩
def BURST : Fld := ⟨23, 0⟩
end FH_SHPORT
namespace FH_TSCORR
def TX : Fld := ⟨63, 32⟩
def RX : Fld := ⟨31, 0⟩
end FH_TSCORR
namespace FH_CNT
def VALUE : Fld := ⟨63, 0⟩
end FH_CNT
namespace FH_EXCCAP
def VALUE : Fld := ⟨63, 0⟩
end FH_EXCCAP
namespace FH_EXCSUB
def VALID : Fld := ⟨31, 31⟩
def SUB : Fld := ⟨1, 0⟩
end FH_EXCSUB
namespace FH_MODID
def VALUE : Fld := ⟨63, 0⟩
end FH_MODID
namespace FH_FLOW_LO
def RATE : Fld := ⟨63, 40⟩
def BURST : Fld := ⟨39, 24⟩
def DROPS : Fld := ⟨15, 0⟩
end FH_FLOW_LO
namespace FH_FLOW_HI
def VALID : Fld := ⟨63, 63⟩
def DIR : Fld := ⟨62, 62⟩
def SUB : Fld := ⟨61, 60⟩
def PLANE : Fld := ⟨59, 58⟩
def VID : Fld := ⟨57, 46⟩
def EAXC : Fld := ⟨45, 30⟩
def CGC : Fld := ⟨29, 23⟩
def COMP : Fld := ⟨22, 22⟩
def WIDTH : Fld := ⟨21, 18⟩
def DYNHDR : Fld := ⟨17, 17⟩
def SCS : Fld := ⟨16, 14⟩
end FH_FLOW_HI
namespace RL_QP_CTL
def EN : Fld := ⟨31, 31⟩
def SLOTIRQ : Fld := ⟨30, 30⟩
def CTX : Fld := ⟨29, 23⟩
def LIN : Fld := ⟨22, 18⟩
def LOUT : Fld := ⟨17, 13⟩
def MSIVEC : Fld := ⟨10, 0⟩
end RL_QP_CTL
namespace RL_QP_STATUS
def STATE : Fld := ⟨31, 29⟩
def CELLS : Fld := ⟨28, 24⟩
def FAULTS : Fld := ⟨23, 16⟩
def COST : Fld := ⟨15, 0⟩
end RL_QP_STATUS
namespace RL_QP_INBASE
def ADDR : Fld := ⟨47, 6⟩
end RL_QP_INBASE
namespace RL_QP_INWLINE
def ADDR : Fld := ⟨47, 6⟩
end RL_QP_INWLINE
namespace RL_QP_INSLINE
def ADDR : Fld := ⟨47, 6⟩
end RL_QP_INSLINE
namespace RL_QP_OUTBASE
def ADDR : Fld := ⟨47, 6⟩
end RL_QP_OUTBASE
namespace RL_QP_OUTWLINE
def ADDR : Fld := ⟨47, 6⟩
end RL_QP_OUTWLINE
namespace RL_QP_OUTSLINE
def ADDR : Fld := ⟨47, 6⟩
end RL_QP_OUTSLINE
namespace WY_CFG
def EN : Fld := ⟨31, 31⟩
def MODE : Fld := ⟨30, 30⟩
def CABPOL : Fld := ⟨29, 29⟩
def RETHR : Fld := ⟨23, 16⟩
def LIFETHR : Fld := ⟨15, 8⟩
def POL : Fld := ⟨3, 0⟩
end WY_CFG
namespace WY_STATUS
def STATE : Fld := ⟨31, 29⟩
def WIDTH : Fld := ⟨28, 26⟩
def PEERID : Fld := ⟨15, 0⟩
end WY_STATUS
namespace WY_ERR
def CRC : Fld := ⟨31, 16⟩
def RETRY : Fld := ⟨15, 0⟩
end WY_ERR
namespace WY_FOFS
def FOFS : Fld := ⟨31, 0⟩
end WY_FOFS
namespace WY_CABLE
def VALUE : Fld := ⟨63, 0⟩
end WY_CABLE
namespace WY_LIFE
def LANEHRS : Fld := ⟨63, 32⟩
def MATES : Fld := ⟨31, 16⟩
def SIGOK : Fld := ⟨0, 0⟩
end WY_LIFE
namespace WY_DEVID
def ID : Fld := ⟨15, 0⟩
end WY_DEVID
namespace WY_RTO
def TIMEOUT : Fld := ⟨15, 0⟩
end WY_RTO
namespace WY_GROUP
def GROUP : Fld := ⟨15, 0⟩
end WY_GROUP
namespace WY_ROUTE
def PRIV : Fld := ⟨15, 15⟩
def ALTV : Fld := ⟨14, 14⟩
def ALT : Fld := ⟨7, 4⟩
def PRI : Fld := ⟨3, 0⟩
end WY_ROUTE
namespace WL_CFG
def EN : Fld := ⟨31, 31⟩
def PORTA : Fld := ⟨27, 24⟩
def PORTB : Fld := ⟨23, 20⟩
def SEG : Fld := ⟨7, 0⟩
end WL_CFG
namespace WL_STATE
def STATE : Fld := ⟨31, 29⟩
end WL_STATE
namespace WL_EPOCH
def EPOCH : Fld := ⟨31, 0⟩
end WL_EPOCH
namespace WL_HEALTH
def SCORE : Fld := ⟨31, 22⟩
def DEMERIT : Fld := ⟨21, 12⟩
def LOWRUN : Fld := ⟨11, 10⟩
end WL_HEALTH
namespace WL_HWEIGHT
def WCE : Fld := ⟨15, 12⟩
def WRT : Fld := ⟨11, 8⟩
def WTH : Fld := ⟨7, 4⟩
def WST : Fld := ⟨3, 0⟩
end WL_HWEIGHT
namespace WL_HTHR
def WARN : Fld := ⟨25, 16⟩
def EXPEL : Fld := ⟨9, 0⟩
end WL_HTHR
namespace WL_EXPEL
def BUDGET : Fld := ⟨31, 28⟩
def FLOOR : Fld := ⟨27, 16⟩
def WINDOW : Fld := ⟨15, 0⟩
end WL_EXPEL
namespace WL_REPROBE
def GO : Fld := ⟨31, 31⟩
def BUSY : Fld := ⟨30, 30⟩
def RESULT : Fld := ⟨29, 28⟩
def ID : Fld := ⟨15, 0⟩
end WL_REPROBE
namespace WL_ADMIT
def GO : Fld := ⟨31, 31⟩
def PHASE : Fld := ⟨30, 28⟩
def CAUSE : Fld := ⟨27, 24⟩
end WL_ADMIT
namespace WL_CLAIM_KEY
def UMPIRE : Fld := ⟨63, 48⟩
def KEY : Fld := ⟨47, 0⟩
end WL_CLAIM_KEY
namespace WL_CLAIM_CTL
def GO : Fld := ⟨31, 31⟩
def BUSY : Fld := ⟨30, 30⟩
def OP : Fld := ⟨29, 29⟩
def PRIMARY : Fld := ⟨28, 28⟩
def INST : Fld := ⟨22, 16⟩
end WL_CLAIM_CTL
namespace WL_CLAIM_RES
def STATUS : Fld := ⟨31, 29⟩
def WINNER : Fld := ⟨15, 0⟩
end WL_CLAIM_RES
namespace WL_MEMBER
def STATE : Fld := ⟨31, 29⟩
def SCORE : Fld := ⟨25, 16⟩
def ID : Fld := ⟨15, 0⟩
end WL_MEMBER
namespace MP_MGMT_CTL
def EN : Fld := ⟨31, 31⟩
def REJIRQ : Fld := ⟨30, 30⟩
def L : Fld := ⟨15, 11⟩
def MSIVEC : Fld := ⟨10, 0⟩
end MP_MGMT_CTL
namespace MP_MGMT_STATUS
def STATE : Fld := ⟨31, 30⟩
def ERR : Fld := ⟨29, 28⟩
end MP_MGMT_STATUS
namespace MP_MGMT_CMDBASE
def ADDR : Fld := ⟨47, 6⟩
end MP_MGMT_CMDBASE
namespace MP_MGMT_CPLBASE
def ADDR : Fld := ⟨47, 6⟩
end MP_MGMT_CPLBASE
namespace MP_MGMT_WLINE
def ADDR : Fld := ⟨47, 6⟩
end MP_MGMT_WLINE
namespace MP_MGMT_SLINE
def ADDR : Fld := ⟨47, 6⟩
end MP_MGMT_SLINE
namespace MP_DEV_CTL
def EN : Fld := ⟨31, 31⟩
def REJIRQ : Fld := ⟨30, 30⟩
def L : Fld := ⟨15, 11⟩
def MSIVEC : Fld := ⟨10, 0⟩
end MP_DEV_CTL
namespace MP_DEV_STATUS
def STATE : Fld := ⟨31, 30⟩
def ERR : Fld := ⟨29, 28⟩
end MP_DEV_STATUS
namespace MP_DEV_CMDBASE
def ADDR : Fld := ⟨47, 6⟩
end MP_DEV_CMDBASE
namespace MP_DEV_CPLBASE
def ADDR : Fld := ⟨47, 6⟩
end MP_DEV_CPLBASE
namespace MP_DEV_WLINE
def ADDR : Fld := ⟨47, 6⟩
end MP_DEV_WLINE
namespace MP_DEV_SLINE
def ADDR : Fld := ⟨47, 6⟩
end MP_DEV_SLINE
namespace MP_BOOTSTAT
def STAGE : Fld := ⟨31, 28⟩
def SLOT : Fld := ⟨27, 27⟩
def TRIAL : Fld := ⟨26, 26⟩
def MIXED : Fld := ⟨25, 25⟩
def CFGCOPY : Fld := ⟨24, 24⟩
def FAILCAUSE : Fld := ⟨23, 16⟩
end MP_BOOTSTAT
namespace MP_LOAD
def LEVEL : Fld := ⟨31, 30⟩
def LOAD : Fld := ⟨29, 23⟩
def PEAK : Fld := ⟨22, 16⟩
end MP_LOAD
namespace MP_VER
def SETVER : Fld := ⟨31, 0⟩
end MP_VER
namespace MP_MINVER
def MINVER : Fld := ⟨31, 0⟩
end MP_MINVER
namespace MP_RECOVERY
def ADDR : Fld := ⟨50, 6⟩
def VALID : Fld := ⟨0, 0⟩
end MP_RECOVERY
namespace SEC_STATUS
def IDOK : Fld := ⟨31, 31⟩
def CNTOK : Fld := ⟨30, 30⟩
def TAMPER : Fld := ⟨29, 29⟩
end SEC_STATUS
namespace SEC_DEVHASH
def VALUE : Fld := ⟨63, 0⟩
end SEC_DEVHASH
namespace SEC_DEVPUB
def VALUE : Fld := ⟨63, 0⟩
end SEC_DEVPUB

/-- Offset of a register in the 64 MiB register space (R551). -/
def Reg.offset : Reg → Nat
  | .coreAmode p i => 0x800200 + 32768 * p + 4 * i
  | .coreAflags p i => 0x800208 + 32768 * p + 4 * i
  | .coreMeSpare p i => 0x800300 + 32768 * p + 4 * i
  | .coreMeStatus p => 0x800310 + 32768 * p
  | .coreMeFault p => 0x800314 + 32768 * p
  | .coreMeFstall p => 0x800318 + 32768 * p
  | .coreMeWstall p => 0x80031C + 32768 * p
  | .coreVeStatus p => 0x800400 + 32768 * p
  | .coreVeFault p => 0x800404 + 32768 * p
  | .coreVeStall p => 0x800408 + 32768 * p
  | .coreCqNp p => 0x800500 + 32768 * p
  | .coreCqNplimit p => 0x800504 + 32768 * p
  | .coreCqPlan p => 0x800510 + 32768 * p
  | .coreCqPre p => 0x800514 + 32768 * p
  | .coreCqLock p i => 0x800600 + 32768 * p + 4 * i
  | .coreCeStatus p => 0x800700 + 32768 * p
  | .coreCeFault p => 0x800704 + 32768 * p
  | .coreCeRestart p => 0x800708 + 32768 * p
  | .coreSpEcc p => 0x800800 + 32768 * p
  | .coreSpEaddr p => 0x800804 + 32768 * p
  | .coreDig p i => 0x800900 + 32768 * p + 8 * i
  | .wvCfg => 0x500000
  | .wvRbudget => 0x500004
  | .wvSysw => 0x500008
  | .wvHold => 0x50000C
  | .wvR0peak => 0x500010
  | .wvWeight n => 0x500100 + 4 * n
  | .msCfg m => 0x600000 + 65536 * m
  | .msStatus m => 0x600004 + 65536 * m
  | .msEcc m => 0x600008 + 65536 * m
  | .msEaddrLo m => 0x60000C + 65536 * m
  | .msEaddrHi m => 0x600010 + 65536 * m
  | .msFrame m f => 0x600100 + 65536 * m + 4 * f
  | .timeBeat => 0x100100
  | .timeBeatpos => 0x100104
  | .timePlancfg => 0x100108
  | .timePlanstat => 0x10010C
  | .imAcct n k => 0x480000 + 64 * n + 8 * k
  | .imAcctLatch => 0x482000
  | .imAcctSnap k => 0x482008 + 8 * k
  | .imAcctSnapGtc => 0x482038
  | .cclPortStatus i => 0x400000 + 4 * i
  | .cclMsia v => 0x410000 + 16 * v
  | .cclMsid v => 0x410008 + 16 * v
  | .cclMsic v => 0x41000C + 16 * v
  | .imDlogCtl n => 0x490000 + 32 * n
  | .imDlogBase n => 0x490008 + 32 * n
  | .imDlogProd n => 0x490010 + 32 * n
  | .iwState n => 0x1000000 + 131072 * n
  | .iwMem n => 0x1000004 + 131072 * n
  | .iwFault n => 0x1000008 + 131072 * n
  | .iwTfault n => 0x100000C + 131072 * n
  | .iwTfaultVa n => 0x1000010 + 131072 * n
  | .iwS1root n => 0x1000018 + 131072 * n
  | .iwTlbinv n => 0x1000020 + 131072 * n
  | .iwAcct n k => 0x1000100 + 131072 * n + 8 * k
  | .iwRingCtl n r => 0x1001000 + 131072 * n + 64 * r
  | .iwRingStatus n r => 0x1001004 + 131072 * n + 64 * r
  | .iwRingCmdbase n r => 0x1001008 + 131072 * n + 64 * r
  | .iwRingCplbase n r => 0x1001010 + 131072 * n + 64 * r
  | .iwRingWline n r => 0x1001018 + 131072 * n + 64 * r
  | .iwRingSline n r => 0x1001020 + 131072 * n + 64 * r
  | .gctlId => 0x0
  | .gctlSeal => 0x8
  | .gctlReset => 0x10
  | .gctlPinmux => 0x20
  | .gctlEtimer => 0x28
  | .gctlArithrev => 0x40
  | .gctlElogCtl => 0x100
  | .gctlElogBase => 0x108
  | .gctlElogProd => 0x110
  | .gctlElogLost => 0x118
  | .gctlPwrcfg => 0x200
  | .gctlThermcfg => 0x204
  | .gctlDietemp d => 0x210 + 4 * d
  | .gctlPwrest => 0x240
  | .gctlVcore => 0x244
  | .gctlPdstat k => 0x250 + 4 * k
  | .gctlCmap l => 0x400 + 4 * l
  | .timeTbCfg n => 0x100000 + 32 * n
  | .timeTbServo n => 0x100004 + 32 * n
  | .timeTbStatus n => 0x100008 + 32 * n
  | .timeTbRate n => 0x10000C + 32 * n
  | .timeTbSec n => 0x100010 + 32 * n
  | .timeTbNs n => 0x100018 + 32 * n
  | .timeRadio => 0x100080
  | .timeClk => 0x100088
  | .timeBeaterr => 0x10008C
  | .timePpsout => 0x100090
  | .timeTod => 0x100094
  | .timeHfofs => 0x100098
  | .timeAppofs => 0x1000A0
  | .timeGtc => 0x1000A8
  | .fhCfg p => 0x200000 + 32768 * p
  | .fhStatus p => 0x200004 + 32768 * p
  | .fhMod p => 0x200008 + 32768 * p
  | .fhMtu p => 0x20000C + 32768 * p
  | .fhMac p q => 0x200010 + 32768 * p + 8 * q
  | .fhWin p q => 0x200040 + 32768 * p + 8 * q
  | .fhShport p q => 0x200080 + 32768 * p + 8 * q
  | .fhTscorr p q => 0x2000C0 + 32768 * p + 8 * q
  | .fhCnt p k => 0x200100 + 32768 * p + 8 * k
  | .fhExccap p k => 0x200300 + 32768 * p + 8 * k
  | .fhExcsub p => 0x200380 + 32768 * p
  | .fhModid p k => 0x200400 + 32768 * p + 8 * k
  | .fhFlowLo p f => 0x204000 + 32768 * p + 16 * f
  | .fhFlowHi p f => 0x204008 + 32768 * p + 16 * f
  | .rlQpCtl q => 0x1004000 + 128 * q
  | .rlQpStatus q => 0x1004004 + 128 * q
  | .rlQpInbase q => 0x1004008 + 128 * q
  | .rlQpInwline q => 0x1004010 + 128 * q
  | .rlQpInsline q => 0x1004018 + 128 * q
  | .rlQpOutbase q => 0x1004020 + 128 * q
  | .rlQpOutwline q => 0x1004028 + 128 * q
  | .rlQpOutsline q => 0x1004030 + 128 * q
  | .wyCfg w => 0x300000 + 32768 * w
  | .wyStatus w => 0x300004 + 32768 * w
  | .wyErr w => 0x300008 + 32768 * w
  | .wyFofs w => 0x30000C + 32768 * w
  | .wyCable w k => 0x300100 + 32768 * w + 8 * k
  | .wyLife w => 0x300180 + 32768 * w
  | .wyDevid => 0x380000
  | .wyRto => 0x380008
  | .wyGroup n => 0x380100 + 4 * n
  | .wyRoute d => 0x390000 + 2 * d
  | .wlCfg => 0x700000
  | .wlState => 0x700004
  | .wlEpoch => 0x700008
  | .wlHealth => 0x70000C
  | .wlHweight => 0x700010
  | .wlHthr => 0x700014
  | .wlExpel => 0x700018
  | .wlReprobe => 0x700020
  | .wlAdmit => 0x700024
  | .wlClaimKey => 0x700030
  | .wlClaimCtl => 0x700038
  | .wlClaimRes => 0x70003C
  | .wlMember k => 0x701000 + 4 * k
  | .mpMgmtCtl => 0xF00000
  | .mpMgmtStatus => 0xF00004
  | .mpMgmtCmdbase => 0xF00008
  | .mpMgmtCplbase => 0xF00010
  | .mpMgmtWline => 0xF00018
  | .mpMgmtSline => 0xF00020
  | .mpDevCtl => 0xF00040
  | .mpDevStatus => 0xF00044
  | .mpDevCmdbase => 0xF00048
  | .mpDevCplbase => 0xF00050
  | .mpDevWline => 0xF00058
  | .mpDevSline => 0xF00060
  | .mpBootstat => 0xF00080
  | .mpLoad => 0xF00084
  | .mpVer => 0xF00088
  | .mpMinver => 0xF0008C
  | .mpRecovery => 0xF00090
  | .secStatus => 0xF80000
  | .secDevhash k => 0xF80020 + 8 * k
  | .secDevpub k => 0xF80040 + 8 * k

/-- Size of a register in bytes (R552). -/
def Reg.bytes : Reg → Nat
  | .coreAmode _ _ => 4
  | .coreAflags _ _ => 4
  | .coreMeSpare _ _ => 4
  | .coreMeStatus _ => 4
  | .coreMeFault _ => 4
  | .coreMeFstall _ => 4
  | .coreMeWstall _ => 4
  | .coreVeStatus _ => 4
  | .coreVeFault _ => 4
  | .coreVeStall _ => 4
  | .coreCqNp _ => 4
  | .coreCqNplimit _ => 4
  | .coreCqPlan _ => 4
  | .coreCqPre _ => 4
  | .coreCqLock _ _ => 4
  | .coreCeStatus _ => 4
  | .coreCeFault _ => 4
  | .coreCeRestart _ => 4
  | .coreSpEcc _ => 4
  | .coreSpEaddr _ => 4
  | .coreDig _ _ => 8
  | .wvCfg => 4
  | .wvRbudget => 4
  | .wvSysw => 4
  | .wvHold => 4
  | .wvR0peak => 4
  | .wvWeight _ => 4
  | .msCfg _ => 4
  | .msStatus _ => 4
  | .msEcc _ => 4
  | .msEaddrLo _ => 4
  | .msEaddrHi _ => 4
  | .msFrame _ _ => 4
  | .timeBeat => 4
  | .timeBeatpos => 4
  | .timePlancfg => 4
  | .timePlanstat => 4
  | .imAcct _ _ => 8
  | .imAcctLatch => 4
  | .imAcctSnap _ => 8
  | .imAcctSnapGtc => 8
  | .cclPortStatus _ => 4
  | .cclMsia _ => 8
  | .cclMsid _ => 4
  | .cclMsic _ => 4
  | .imDlogCtl _ => 4
  | .imDlogBase _ => 8
  | .imDlogProd _ => 8
  | .iwState _ => 4
  | .iwMem _ => 4
  | .iwFault _ => 4
  | .iwTfault _ => 4
  | .iwTfaultVa _ => 8
  | .iwS1root _ => 8
  | .iwTlbinv _ => 4
  | .iwAcct _ _ => 8
  | .iwRingCtl _ _ => 4
  | .iwRingStatus _ _ => 4
  | .iwRingCmdbase _ _ => 8
  | .iwRingCplbase _ _ => 8
  | .iwRingWline _ _ => 8
  | .iwRingSline _ _ => 8
  | .gctlId => 4
  | .gctlSeal => 4
  | .gctlReset => 4
  | .gctlPinmux => 4
  | .gctlEtimer => 4
  | .gctlArithrev => 4
  | .gctlElogCtl => 4
  | .gctlElogBase => 8
  | .gctlElogProd => 8
  | .gctlElogLost => 4
  | .gctlPwrcfg => 4
  | .gctlThermcfg => 4
  | .gctlDietemp _ => 4
  | .gctlPwrest => 4
  | .gctlVcore => 4
  | .gctlPdstat _ => 4
  | .gctlCmap _ => 4
  | .timeTbCfg _ => 4
  | .timeTbServo _ => 4
  | .timeTbStatus _ => 4
  | .timeTbRate _ => 4
  | .timeTbSec _ => 8
  | .timeTbNs _ => 8
  | .timeRadio => 4
  | .timeClk => 4
  | .timeBeaterr => 4
  | .timePpsout => 4
  | .timeTod => 4
  | .timeHfofs => 4
  | .timeAppofs => 8
  | .timeGtc => 8
  | .fhCfg _ => 4
  | .fhStatus _ => 4
  | .fhMod _ => 4
  | .fhMtu _ => 4
  | .fhMac _ _ => 8
  | .fhWin _ _ => 8
  | .fhShport _ _ => 8
  | .fhTscorr _ _ => 8
  | .fhCnt _ _ => 8
  | .fhExccap _ _ => 8
  | .fhExcsub _ => 4
  | .fhModid _ _ => 8
  | .fhFlowLo _ _ => 8
  | .fhFlowHi _ _ => 8
  | .rlQpCtl _ => 4
  | .rlQpStatus _ => 4
  | .rlQpInbase _ => 8
  | .rlQpInwline _ => 8
  | .rlQpInsline _ => 8
  | .rlQpOutbase _ => 8
  | .rlQpOutwline _ => 8
  | .rlQpOutsline _ => 8
  | .wyCfg _ => 4
  | .wyStatus _ => 4
  | .wyErr _ => 4
  | .wyFofs _ => 4
  | .wyCable _ _ => 8
  | .wyLife _ => 8
  | .wyDevid => 4
  | .wyRto => 4
  | .wyGroup _ => 4
  | .wyRoute _ => 2
  | .wlCfg => 4
  | .wlState => 4
  | .wlEpoch => 4
  | .wlHealth => 4
  | .wlHweight => 4
  | .wlHthr => 4
  | .wlExpel => 4
  | .wlReprobe => 4
  | .wlAdmit => 4
  | .wlClaimKey => 8
  | .wlClaimCtl => 4
  | .wlClaimRes => 4
  | .wlMember _ => 4
  | .mpMgmtCtl => 4
  | .mpMgmtStatus => 4
  | .mpMgmtCmdbase => 8
  | .mpMgmtCplbase => 8
  | .mpMgmtWline => 8
  | .mpMgmtSline => 8
  | .mpDevCtl => 4
  | .mpDevStatus => 4
  | .mpDevCmdbase => 8
  | .mpDevCplbase => 8
  | .mpDevWline => 8
  | .mpDevSline => 8
  | .mpBootstat => 4
  | .mpLoad => 4
  | .mpVer => 4
  | .mpMinver => 4
  | .mpRecovery => 8
  | .secStatus => 4
  | .secDevhash _ => 8
  | .secDevpub _ => 8

/-- The register exists: its indices lie in the ranges of its table. -/
def Reg.exists : Reg → Bool
  | .coreAmode p i => decide (p < 208) && decide (i < 2)
  | .coreAflags p i => decide (p < 208) && decide (i < 2)
  | .coreMeSpare p i => decide (p < 208) && decide (i < 4)
  | .coreMeStatus p => decide (p < 208)
  | .coreMeFault p => decide (p < 208)
  | .coreMeFstall p => decide (p < 208)
  | .coreMeWstall p => decide (p < 208)
  | .coreVeStatus p => decide (p < 208)
  | .coreVeFault p => decide (p < 208)
  | .coreVeStall p => decide (p < 208)
  | .coreCqNp p => decide (p < 208)
  | .coreCqNplimit p => decide (p < 208)
  | .coreCqPlan p => decide (p < 208)
  | .coreCqPre p => decide (p < 208)
  | .coreCqLock p i => decide (p < 208) && decide (i < 64)
  | .coreCeStatus p => decide (p < 208)
  | .coreCeFault p => decide (p < 208)
  | .coreCeRestart p => decide (p < 208)
  | .coreSpEcc p => decide (p < 208)
  | .coreSpEaddr p => decide (p < 208)
  | .coreDig p i => decide (p < 208) && decide (i < 2)
  | .wvCfg => true
  | .wvRbudget => true
  | .wvSysw => true
  | .wvHold => true
  | .wvR0peak => true
  | .wvWeight n => decide (n < 65)
  | .msCfg m => decide (m < 12)
  | .msStatus m => decide (m < 12)
  | .msEcc m => decide (m < 12)
  | .msEaddrLo m => decide (m < 12)
  | .msEaddrHi m => decide (m < 12)
  | .msFrame m f => decide (m < 12) && decide (f < 128)
  | .timeBeat => true
  | .timeBeatpos => true
  | .timePlancfg => true
  | .timePlanstat => true
  | .imAcct n k => decide (n < 65) && decide (k < 6)
  | .imAcctLatch => true
  | .imAcctSnap k => decide (k < 6)
  | .imAcctSnapGtc => true
  | .cclPortStatus i => decide (i < 2)
  | .cclMsia v => decide (v < 2048)
  | .cclMsid v => decide (v < 2048)
  | .cclMsic v => decide (v < 2048)
  | .imDlogCtl n => decide (n < 65)
  | .imDlogBase n => decide (n < 65)
  | .imDlogProd n => decide (n < 65)
  | .iwState n => decide (n < 65)
  | .iwMem n => decide (n < 65)
  | .iwFault n => decide (n < 65)
  | .iwTfault n => decide (n < 65)
  | .iwTfaultVa n => decide (n < 65)
  | .iwS1root n => decide (n < 65)
  | .iwTlbinv n => decide (n < 65)
  | .iwAcct n k => decide (n < 65) && decide (k < 6)
  | .iwRingCtl n r => decide (n < 65) && decide (r < 64)
  | .iwRingStatus n r => decide (n < 65) && decide (r < 64)
  | .iwRingCmdbase n r => decide (n < 65) && decide (r < 64)
  | .iwRingCplbase n r => decide (n < 65) && decide (r < 64)
  | .iwRingWline n r => decide (n < 65) && decide (r < 64)
  | .iwRingSline n r => decide (n < 65) && decide (r < 64)
  | .gctlId => true
  | .gctlSeal => true
  | .gctlReset => true
  | .gctlPinmux => true
  | .gctlEtimer => true
  | .gctlArithrev => true
  | .gctlElogCtl => true
  | .gctlElogBase => true
  | .gctlElogProd => true
  | .gctlElogLost => true
  | .gctlPwrcfg => true
  | .gctlThermcfg => true
  | .gctlDietemp d => decide (d < 10)
  | .gctlPwrest => true
  | .gctlVcore => true
  | .gctlPdstat k => decide (k < 9)
  | .gctlCmap l => decide (l < 192)
  | .timeTbCfg n => decide (n < 4)
  | .timeTbServo n => decide (n < 4)
  | .timeTbStatus n => decide (n < 4)
  | .timeTbRate n => decide (n < 4)
  | .timeTbSec n => decide (n < 4)
  | .timeTbNs n => decide (n < 4)
  | .timeRadio => true
  | .timeClk => true
  | .timeBeaterr => true
  | .timePpsout => true
  | .timeTod => true
  | .timeHfofs => true
  | .timeAppofs => true
  | .timeGtc => true
  | .fhCfg p => decide (p < 24)
  | .fhStatus p => decide (p < 24)
  | .fhMod p => decide (p < 24)
  | .fhMtu p => decide (p < 24)
  | .fhMac p q => decide (p < 24) && decide (q < 4)
  | .fhWin p q => decide (p < 24) && decide (q < 4)
  | .fhShport p q => decide (p < 24) && decide (q < 4)
  | .fhTscorr p q => decide (p < 24) && decide (q < 4)
  | .fhCnt p k => decide (p < 24) && decide (k < 14)
  | .fhExccap p k => decide (p < 24) && decide (k < 16)
  | .fhExcsub p => decide (p < 24)
  | .fhModid p k => decide (p < 24) && decide (k < 8)
  | .fhFlowLo p f => decide (p < 24) && decide (f < 1024)
  | .fhFlowHi p f => decide (p < 24) && decide (f < 1024)
  | .rlQpCtl q => decide (q < 64)
  | .rlQpStatus q => decide (q < 64)
  | .rlQpInbase q => decide (q < 64)
  | .rlQpInwline q => decide (q < 64)
  | .rlQpInsline q => decide (q < 64)
  | .rlQpOutbase q => decide (q < 64)
  | .rlQpOutwline q => decide (q < 64)
  | .rlQpOutsline q => decide (q < 64)
  | .wyCfg w => decide (w < 16)
  | .wyStatus w => decide (w < 16)
  | .wyErr w => decide (w < 16)
  | .wyFofs w => decide (w < 16)
  | .wyCable w k => decide (w < 16) && decide (k < 16)
  | .wyLife w => decide (w < 16)
  | .wyDevid => true
  | .wyRto => true
  | .wyGroup n => decide (n < 65)
  | .wyRoute d => decide (d < 65536)
  | .wlCfg => true
  | .wlState => true
  | .wlEpoch => true
  | .wlHealth => true
  | .wlHweight => true
  | .wlHthr => true
  | .wlExpel => true
  | .wlReprobe => true
  | .wlAdmit => true
  | .wlClaimKey => true
  | .wlClaimCtl => true
  | .wlClaimRes => true
  | .wlMember k => decide (k < 1024)
  | .mpMgmtCtl => true
  | .mpMgmtStatus => true
  | .mpMgmtCmdbase => true
  | .mpMgmtCplbase => true
  | .mpMgmtWline => true
  | .mpMgmtSline => true
  | .mpDevCtl => true
  | .mpDevStatus => true
  | .mpDevCmdbase => true
  | .mpDevCplbase => true
  | .mpDevWline => true
  | .mpDevSline => true
  | .mpBootstat => true
  | .mpLoad => true
  | .mpVer => true
  | .mpMinver => true
  | .mpRecovery => true
  | .secStatus => true
  | .secDevhash k => decide (k < 4)
  | .secDevpub k => decide (k < 8)

/-- The rows of a register's table that are not reserved. -/
def Reg.fields : Reg → List FieldRow
  | .coreAmode _ _ => [⟨CORE_AMODE.ASHIFT_EN, .rw, 0x1⟩, ⟨CORE_AMODE.INF32, .rw, 0x0⟩, ⟨CORE_AMODE.INF16, .rw, 0x0⟩]
  | .coreAflags _ _ => [⟨CORE_AFLAGS.POISON, .w1c, 0x0⟩, ⟨CORE_AFLAGS.SHIFT, .w1c, 0x0⟩, ⟨CORE_AFLAGS.INV, .w1c, 0x0⟩, ⟨CORE_AFLAGS.OVF, .w1c, 0x0⟩, ⟨CORE_AFLAGS.SAT, .w1c, 0x0⟩]
  | .coreMeSpare _ _ => [⟨CORE_ME_SPARE.VALID, .ro, 0x0⟩, ⟨CORE_ME_SPARE.FROW, .ro, 0x0⟩]
  | .coreMeStatus _ => [⟨CORE_ME_STATUS.NSPARE, .ro, 0x0⟩, ⟨CORE_ME_STATUS.WSHADOW, .ro, 0x0⟩, ⟨CORE_ME_STATUS.POISONED, .ro, 0x0⟩, ⟨CORE_ME_STATUS.BUSY, .ro, 0x0⟩, ⟨CORE_ME_STATUS.SIDE, .ro, 0x0⟩]
  | .coreMeFault _ => [⟨CORE_ME_FAULT.VALID, .w1c, 0x0⟩, ⟨CORE_ME_FAULT.PART, .ro, 0x0⟩, ⟨CORE_ME_FAULT.CAUSE, .ro, 0x0⟩, ⟨CORE_ME_FAULT.CTX, .ro, 0x0⟩, ⟨CORE_ME_FAULT.OVR, .w1c, 0x0⟩, ⟨CORE_ME_FAULT.VEC, .ro, 0x0⟩]
  | .coreMeFstall _ => [⟨CORE_ME_FSTALL.COUNT, .ro, 0x0⟩]
  | .coreMeWstall _ => [⟨CORE_ME_WSTALL.COUNT, .ro, 0x0⟩]
  | .coreVeStatus _ => [⟨CORE_VE_STATUS.THREADS, .ro, 0x0⟩, ⟨CORE_VE_STATUS.PLAITS, .ro, 0x0⟩, ⟨CORE_VE_STATUS.SIDE, .ro, 0x0⟩]
  | .coreVeFault _ => [⟨CORE_VE_FAULT.VALID, .w1c, 0x0⟩, ⟨CORE_VE_FAULT.CAUSE, .ro, 0x0⟩, ⟨CORE_VE_FAULT.CTX, .ro, 0x0⟩, ⟨CORE_VE_FAULT.OVR, .w1c, 0x0⟩, ⟨CORE_VE_FAULT.SRC, .ro, 0x0⟩, ⟨CORE_VE_FAULT.ID, .ro, 0x0⟩]
  | .coreVeStall _ => [⟨CORE_VE_STALL.COUNT, .ro, 0x0⟩]
  | .coreCqNp _ => [⟨CORE_CQ_NP.FVALID, .w1c, 0x0⟩, ⟨CORE_CQ_NP.FTHREAD, .ro, 0x0⟩, ⟨CORE_CQ_NP.FCTX, .ro, 0x0⟩, ⟨CORE_CQ_NP.OPEN, .ro, 0x0⟩]
  | .coreCqNplimit _ => [⟨CORE_CQ_NPLIMIT.LIMIT, .ro, 0x800⟩]
  | .coreCqPlan _ => [⟨CORE_CQ_PLAN.ROLE, .ro, 0x0⟩, ⟨CORE_CQ_PLAN.BRW, .ro, 0x0⟩, ⟨CORE_CQ_PLAN.BCG, .ro, 0x0⟩, ⟨CORE_CQ_PLAN.OWNER, .ro, 0x0⟩, ⟨CORE_CQ_PLAN.TKO, .ro, 0x0⟩, ⟨CORE_CQ_PLAN.RST, .ro, 0x0⟩]
  | .coreCqPre _ => [⟨CORE_CQ_PRE.PHASE, .ro, 0x0⟩, ⟨CORE_CQ_PRE.LAST, .ro, 0x0⟩]
  | .coreCqLock _ _ => [⟨CORE_CQ_LOCK.STATE, .ro, 0x0⟩, ⟨CORE_CQ_LOCK.NP, .ro, 0x0⟩, ⟨CORE_CQ_LOCK.LAST, .ro, 0x0⟩, ⟨CORE_CQ_LOCK.OWNER, .ro, 0x0⟩, ⟨CORE_CQ_LOCK.LEASE, .ro, 0x0⟩]
  | .coreCeStatus _ => [⟨CORE_CE_STATUS.PAUSED, .ro, 0x0⟩, ⟨CORE_CE_STATUS.Q3, .ro, 0x0⟩, ⟨CORE_CE_STATUS.Q2, .ro, 0x0⟩, ⟨CORE_CE_STATUS.Q1, .ro, 0x0⟩, ⟨CORE_CE_STATUS.Q0, .ro, 0x0⟩]
  | .coreCeFault _ => [⟨CORE_CE_FAULT.VALID, .w1c, 0x0⟩, ⟨CORE_CE_FAULT.CAUSE, .ro, 0x0⟩, ⟨CORE_CE_FAULT.CTX, .ro, 0x0⟩, ⟨CORE_CE_FAULT.OVR, .w1c, 0x0⟩, ⟨CORE_CE_FAULT.ENG, .ro, 0x0⟩]
  | .coreCeRestart _ => [⟨CORE_CE_RESTART.COUNT, .ro, 0x0⟩]
  | .coreSpEcc _ => [⟨CORE_SP_ECC.CORR, .ro, 0x0⟩, ⟨CORE_SP_ECC.UNCORR, .ro, 0x0⟩, ⟨CORE_SP_ECC.SCRUBEN, .rw, 0x1⟩]
  | .coreSpEaddr _ => [⟨CORE_SP_EADDR.VALID, .w1c, 0x0⟩, ⟨CORE_SP_EADDR.UNC, .ro, 0x0⟩, ⟨CORE_SP_EADDR.ADDR, .ro, 0x0⟩]
  | .coreDig _ _ => [⟨CORE_DIG.STATE, .ro, 0xFFFFFFFFFFFFFFFF⟩]
  | .wvCfg => [⟨WV_CFG.AGESTEP, .rw, 0x10⟩, ⟨WV_CFG.MAXHOLD, .rw, 0x40⟩, ⟨WV_CFG.WINDOW, .rw, 0x200⟩]
  | .wvRbudget => [⟨WV_RBUDGET.PCT, .rw, 0x3C⟩]
  | .wvSysw => [⟨WV_SYSW.WEIGHT, .rwl, 0x40⟩]
  | .wvHold => [⟨WV_HOLD.VALID, .w1c, 0x0⟩, ⟨WV_HOLD.RANK, .ro, 0x0⟩, ⟨WV_HOLD.INST, .ro, 0x0⟩, ⟨WV_HOLD.POINT, .ro, 0x0⟩]
  | .wvR0peak => [⟨WV_R0PEAK.EXCEED, .w1c, 0x0⟩, ⟨WV_R0PEAK.PEAK, .ro, 0x0⟩, ⟨WV_R0PEAK.POINT, .ro, 0x0⟩]
  | .wvWeight _ => [⟨WV_WEIGHT.WEIGHT, .rw, 0x0⟩]
  | .msCfg _ => [⟨MS_CFG.CETHR, .rw, 0x40⟩, ⟨MS_CFG.SCRUBIV, .rw, 0x8⟩, ⟨MS_CFG.SCRUBEN, .rw, 0x1⟩]
  | .msStatus _ => [⟨MS_STATUS.STATE, .ro, 0x0⟩, ⟨MS_STATUS.JROLE, .ro, 0x0⟩, ⟨MS_STATUS.HOT, .ro, 0x0⟩, ⟨MS_STATUS.MIGRATING, .ro, 0x0⟩, ⟨MS_STATUS.SPARED, .ro, 0x1F⟩, ⟨MS_STATUS.SEQBUSY, .ro, 0x0⟩, ⟨MS_STATUS.LIBVER, .ro, 0x0⟩]
  | .msEcc _ => [⟨MS_ECC.CORR, .ro, 0x0⟩, ⟨MS_ECC.UNCORR, .ro, 0x0⟩]
  | .msEaddrLo _ => [⟨MS_EADDR_LO.PA, .ro, 0x0⟩]
  | .msEaddrHi _ => [⟨MS_EADDR_HI.VALID, .w1c, 0x0⟩, ⟨MS_EADDR_HI.UNC, .ro, 0x0⟩, ⟨MS_EADDR_HI.CH, .ro, 0x0⟩, ⟨MS_EADDR_HI.SYMS, .ro, 0x0⟩, ⟨MS_EADDR_HI.PA, .ro, 0x0⟩]
  | .msFrame _ _ => [⟨MS_FRAME.STATE, .ro, 0x0⟩, ⟨MS_FRAME.MIRROR, .ro, 0x0⟩, ⟨MS_FRAME.SYS, .ro, 0x0⟩, ⟨MS_FRAME.OWNER, .ro, 0x0⟩, ⟨MS_FRAME.SLOT, .ro, 0x0⟩, ⟨MS_FRAME.IDX, .ro, 0x0⟩]
  | .timeBeat => [⟨TIME_BEAT.DIV, .rwl, 0x2⟩, ⟨TIME_BEAT.NUM, .ro, 0x0⟩]
  | .timeBeatpos => [⟨TIME_BEATPOS.CYC, .ro, 0x0⟩]
  | .timePlancfg => [⟨TIME_PLANCFG.S8, .rwl, 0x4⟩, ⟨TIME_PLANCFG.BPEAK, .rwl, 0x60⟩, ⟨TIME_PLANCFG.PERIOD, .rwl, 0x2⟩, ⟨TIME_PLANCFG.LATCH, .rwl, 0x400⟩]
  | .timePlanstat => [⟨TIME_PLANSTAT.MISS, .w1c, 0x0⟩, ⟨TIME_PLANSTAT.INVALID, .w1c, 0x0⟩, ⟨TIME_PLANSTAT.DEFER, .w1c, 0x0⟩, ⟨TIME_PLANSTAT.COUNT, .ro, 0x0⟩]
  | .imAcct _ _ => [⟨IM_ACCT.COUNT, .ro, 0x0⟩]
  | .imAcctLatch => [⟨IM_ACCT_LATCH.INST, .wo, 0x0⟩]
  | .imAcctSnap _ => [⟨IM_ACCT_SNAP.VALUE, .ro, 0x0⟩]
  | .imAcctSnapGtc => [⟨IM_ACCT_SNAP_GTC.VALUE, .ro, 0x0⟩]
  | .cclPortStatus _ => [⟨CCL_PORT_STATUS.STATE, .ro, 0x0⟩, ⟨CCL_PORT_STATUS.WIDTH, .ro, 0x0⟩, ⟨CCL_PORT_STATUS.RETRY, .ro, 0x0⟩]
  | .cclMsia _ => [⟨CCL_MSIA.ADDR, .rw, 0x0⟩]
  | .cclMsid _ => [⟨CCL_MSID.DATA, .rw, 0x0⟩]
  | .cclMsic _ => [⟨CCL_MSIC.PEND, .ro, 0x0⟩, ⟨CCL_MSIC.MASK, .rw, 0x1⟩]
  | .imDlogCtl _ => [⟨IM_DLOG_CTL.EN, .rws, 0x0⟩, ⟨IM_DLOG_CTL.L, .rws, 0x4⟩]
  | .imDlogBase _ => [⟨IM_DLOG_BASE.ADDR, .rws, 0x0⟩]
  | .imDlogProd _ => [⟨IM_DLOG_PROD.PROD, .ro, 0x0⟩]
  | .iwState _ => [⟨IW_STATE.STATE, .ro, 0x0⟩, ⟨IW_STATE.FIXED, .ro, 0x0⟩, ⟨IW_STATE.PRIO, .ro, 0x0⟩, ⟨IW_STATE.CORES, .ro, 0x0⟩, ⟨IW_STATE.MINCORES, .ro, 0x0⟩]
  | .iwMem _ => [⟨IW_MEM.STACKSET, .ro, 0x0⟩, ⟨IW_MEM.MIRROR, .ro, 0x0⟩, ⟨IW_MEM.QGIB, .ro, 0x0⟩]
  | .iwFault _ => [⟨IW_FAULT.VALID, .ro, 0x0⟩, ⟨IW_FAULT.CLASS, .ro, 0x0⟩, ⟨IW_FAULT.CORE, .ro, 0x0⟩]
  | .iwTfault _ => [⟨IW_TFAULT.VALID, .ro, 0x0⟩, ⟨IW_TFAULT.CAUSE, .ro, 0x0⟩, ⟨IW_TFAULT.LEVEL, .ro, 0x0⟩, ⟨IW_TFAULT.WRITE, .ro, 0x0⟩, ⟨IW_TFAULT.SRC, .ro, 0x0⟩]
  | .iwTfaultVa _ => [⟨IW_TFAULT_VA.VALUE, .ro, 0x0⟩]
  | .iwS1root _ => [⟨IW_S1ROOT.ROOT, .rws, 0x0⟩, ⟨IW_S1ROOT.EN, .rws, 0x0⟩]
  | .iwTlbinv _ => [⟨IW_TLBINV.DONE, .ro, 0x1⟩, ⟨IW_TLBINV.GO, .wo, 0x0⟩]
  | .iwAcct _ _ => [⟨IW_ACCT.COUNT, .ro, 0x0⟩]
  | .iwRingCtl _ _ => [⟨IW_RING_CTL.EN, .rws, 0x0⟩, ⟨IW_RING_CTL.REJIRQ, .rws, 0x0⟩, ⟨IW_RING_CTL.L, .rws, 0x4⟩, ⟨IW_RING_CTL.MSIVEC, .rws, 0x0⟩]
  | .iwRingStatus _ _ => [⟨IW_RING_STATUS.STATE, .ro, 0x0⟩, ⟨IW_RING_STATUS.ERR, .ro, 0x0⟩]
  | .iwRingCmdbase _ _ => [⟨IW_RING_CMDBASE.ADDR, .rws, 0x0⟩]
  | .iwRingCplbase _ _ => [⟨IW_RING_CPLBASE.ADDR, .rws, 0x0⟩]
  | .iwRingWline _ _ => [⟨IW_RING_WLINE.ADDR, .rws, 0x0⟩]
  | .iwRingSline _ _ => [⟨IW_RING_SLINE.ADDR, .rws, 0x0⟩]
  | .gctlId => [⟨GCTL_ID.PART, .ro, 0x9600⟩, ⟨GCTL_ID.STEP, .ro, 0xB0⟩]
  | .gctlSeal => [⟨GCTL_SEAL.SEALED, .ro, 0x0⟩, ⟨GCTL_SEAL.SEAL, .wo, 0x0⟩]
  | .gctlReset => [⟨GCTL_RESET.WARM, .wo, 0x0⟩, ⟨GCTL_RESET.KEY, .wo, 0x0⟩]
  | .gctlPinmux => [⟨GCTL_PINMUX.LOST, .ro, 0x0⟩, ⟨GCTL_PINMUX.PPSLAND, .rw, 0x0⟩]
  | .gctlEtimer => [⟨GCTL_ETIMER.EN, .rw, 0x0⟩, ⟨GCTL_ETIMER.MSIVEC, .rw, 0x0⟩, ⟨GCTL_ETIMER.PERIOD, .rw, 0x0⟩]
  | .gctlArithrev => [⟨GCTL_ARITHREV.FWREV, .ro, 0x1⟩, ⟨GCTL_ARITHREV.HWREV, .ro, 0x1⟩]
  | .gctlElogCtl => [⟨GCTL_ELOG_CTL.EN, .rws, 0x0⟩, ⟨GCTL_ELOG_CTL.IRQSEV, .rws, 0x3⟩, ⟨GCTL_ELOG_CTL.MSIVEC, .rws, 0x0⟩, ⟨GCTL_ELOG_CTL.L, .rws, 0xA⟩]
  | .gctlElogBase => [⟨GCTL_ELOG_BASE.ADDR, .rws, 0x0⟩]
  | .gctlElogProd => [⟨GCTL_ELOG_PROD.PROD, .ro, 0x0⟩]
  | .gctlElogLost => [⟨GCTL_ELOG_LOST.COUNT, .ro, 0x0⟩]
  | .gctlPwrcfg => [⟨GCTL_PWRCFG.CGATE, .rwl, 0x1⟩, ⟨GCTL_PWRCFG.PAEN, .rwl, 0x1⟩, ⟨GCTL_PWRCFG.THSTEP, .rwl, 0x2⟩, ⟨GCTL_PWRCFG.PLIMIT, .rwl, 0xBB8⟩]
  | .gctlThermcfg => [⟨GCTL_THERMCFG.WARN, .rwl, 0x55⟩, ⟨GCTL_THERMCFG.HI, .rwl, 0x5A⟩, ⟨GCTL_THERMCFG.LO, .rwl, 0x57⟩, ⟨GCTL_THERMCFG.CRIT, .ro, 0x5F⟩]
  | .gctlDietemp _ => [⟨GCTL_DIETEMP.TEMP, .ro, 0x0⟩, ⟨GCTL_DIETEMP.K, .ro, 0x0⟩, ⟨GCTL_DIETEMP.HOT, .ro, 0x0⟩, ⟨GCTL_DIETEMP.STACKHOT, .ro, 0x0⟩]
  | .gctlPwrest => [⟨GCTL_PWREST.AVG, .ro, 0x0⟩, ⟨GCTL_PWREST.PEAK, .ro, 0x0⟩, ⟨GCTL_PWREST.LIMIT, .ro, 0x0⟩]
  | .gctlVcore => [⟨GCTL_VCORE.AVSOK, .ro, 0x0⟩, ⟨GCTL_VCORE.TARGET, .ro, 0x352⟩]
  | .gctlPdstat _ => [⟨GCTL_PDSTAT.ON, .ro, 0x0⟩]
  | .gctlCmap _ => [⟨GCTL_CMAP.VALID, .ro, 0x0⟩, ⟨GCTL_CMAP.SPARE, .ro, 0x0⟩, ⟨GCTL_CMAP.SLOT, .ro, 0x0⟩]
  | .timeTbCfg _ => [⟨TIME_TB_CFG.EN, .rwl, 0x0⟩, ⟨TIME_TB_CFG.PSRC, .rwl, 0x0⟩, ⟨TIME_TB_CFG.FSEL, .rwl, 0x0⟩, ⟨TIME_TB_CFG.PPORT, .rwl, 0x0⟩, ⟨TIME_TB_CFG.FPORT, .rwl, 0x0⟩, ⟨TIME_TB_CFG.FOLLOW, .rwl, 0x0⟩, ⟨TIME_TB_CFG.DOMAIN, .rwl, 0x18⟩, ⟨TIME_TB_CFG.LOSS, .rw, 0x10⟩]
  | .timeTbServo _ => [⟨TIME_TB_SERVO.ASYM, .rw, 0x0⟩, ⟨TIME_TB_SERVO.KPE, .rw, 0x3⟩, ⟨TIME_TB_SERVO.KIE, .rw, 0x7⟩, ⟨TIME_TB_SERVO.LOCKNS, .rw, 0x190⟩]
  | .timeTbStatus _ => [⟨TIME_TB_STATUS.STATE, .ro, 0x0⟩, ⟨TIME_TB_STATUS.FVALID, .ro, 0x0⟩, ⟨TIME_TB_STATUS.OFFSET, .ro, 0x0⟩]
  | .timeTbRate _ => [⟨TIME_TB_RATE.RATE, .ro, 0x0⟩]
  | .timeTbSec _ => [⟨TIME_TB_SEC.SEC, .ro, 0x0⟩]
  | .timeTbNs _ => [⟨TIME_TB_NS.NS, .ro, 0x0⟩, ⟨TIME_TB_NS.SUBNS, .ro, 0x0⟩]
  | .timeRadio => [⟨TIME_RADIO.ACTIVE, .rw, 0x0⟩, ⟨TIME_RADIO.AUTO, .rw, 0x0⟩, ⟨TIME_RADIO.SWITCHING, .ro, 0x0⟩, ⟨TIME_RADIO.SLEW, .rw, 0xA⟩, ⟨TIME_RADIO.RESID, .ro, 0x0⟩]
  | .timeClk => [⟨TIME_CLK.FSRC, .rwl, 0x0⟩, ⟨TIME_CLK.WPORT, .rwl, 0x0⟩, ⟨TIME_CLK.TRIM, .ro, 0x0⟩]
  | .timeBeaterr => [⟨TIME_BEATERR.EXCEED, .w1c, 0x0⟩, ⟨TIME_BEATERR.EB, .ro, 0x0⟩]
  | .timePpsout => [⟨TIME_PPSOUT.EN, .rw, 0x0⟩, ⟨TIME_PPSOUT.TB, .rw, 0x3⟩, ⟨TIME_PPSOUT.OFFSET, .rw, 0x0⟩]
  | .timeTod => [⟨TIME_TOD.EN, .rwl, 0x0⟩, ⟨TIME_TOD.FORM, .rwl, 0x0⟩, ⟨TIME_TOD.BAUD, .rwl, 0x0⟩, ⟨TIME_TOD.UTCOFS, .rw, 0x25⟩]
  | .timeHfofs => [⟨TIME_HFOFS.OFS, .rwl, 0x0⟩]
  | .timeAppofs => [⟨TIME_APPOFS.OFS, .rw, 0x0⟩]
  | .timeGtc => [⟨TIME_GTC.GTC, .ro, 0x0⟩]
  | .fhCfg _ => [⟨FH_CFG.EN, .rws, 0x0⟩, ⟨FH_CFG.MODE, .rws, 0x0⟩, ⟨FH_CFG.OVH, .rws, 0x14⟩, ⟨FH_CFG.REFILL, .rws, 0x12⟩, ⟨FH_CFG.TXPOL, .rws, 0x0⟩, ⟨FH_CFG.RXPOL, .rws, 0x0⟩]
  | .fhStatus _ => [⟨FH_STATUS.LINK, .ro, 0x0⟩, ⟨FH_STATUS.MODPRS, .ro, 0x0⟩, ⟨FH_STATUS.MODSTATE, .ro, 0x0⟩, ⟨FH_STATUS.PESTOP, .ro, 0x0⟩]
  | .fhMod _ => [⟨FH_MOD.CMISVER, .ro, 0x0⟩, ⟨FH_MOD.LASERAGE, .ro, 0xFF⟩, ⟨FH_MOD.IDENT, .ro, 0x0⟩, ⟨FH_MOD.LIFETHR, .rws, 0x5A⟩]
  | .fhMtu _ => [⟨FH_MTU.MTU, .rws, 0x2400⟩]
  | .fhMac _ _ => [⟨FH_MAC.MAC, .rws, 0x0⟩]
  | .fhWin _ _ => [⟨FH_WIN.TA4MAX, .rws, 0x0⟩, ⟨FH_WIN.TA4MIN, .rws, 0x0⟩]
  | .fhShport _ _ => [⟨FH_SHPORT.RATE, .rws, 0x0⟩, ⟨FH_SHPORT.BURST, .rws, 0x0⟩]
  | .fhTscorr _ _ => [⟨FH_TSCORR.TX, .rws, 0x0⟩, ⟨FH_TSCORR.RX, .rws, 0x0⟩]
  | .fhCnt _ _ => [⟨FH_CNT.VALUE, .ro, 0x0⟩]
  | .fhExccap _ _ => [⟨FH_EXCCAP.VALUE, .ro, 0x0⟩]
  | .fhExcsub _ => [⟨FH_EXCSUB.VALID, .w1c, 0x0⟩, ⟨FH_EXCSUB.SUB, .ro, 0x0⟩]
  | .fhModid _ _ => [⟨FH_MODID.VALUE, .ro, 0x0⟩]
  | .fhFlowLo _ _ => [⟨FH_FLOW_LO.RATE, .rws, 0x0⟩, ⟨FH_FLOW_LO.BURST, .rws, 0x0⟩, ⟨FH_FLOW_LO.DROPS, .ro, 0x0⟩]
  | .fhFlowHi _ _ => [⟨FH_FLOW_HI.VALID, .rws, 0x0⟩, ⟨FH_FLOW_HI.DIR, .rws, 0x0⟩, ⟨FH_FLOW_HI.SUB, .rws, 0x0⟩, ⟨FH_FLOW_HI.PLANE, .rws, 0x0⟩, ⟨FH_FLOW_HI.VID, .rws, 0x0⟩, ⟨FH_FLOW_HI.EAXC, .rws, 0x0⟩, ⟨FH_FLOW_HI.CGC, .rws, 0x0⟩, ⟨FH_FLOW_HI.COMP, .rws, 0x0⟩, ⟨FH_FLOW_HI.WIDTH, .rws, 0x0⟩, ⟨FH_FLOW_HI.DYNHDR, .rws, 0x0⟩, ⟨FH_FLOW_HI.SCS, .rws, 0x1⟩]
  | .rlQpCtl _ => [⟨RL_QP_CTL.EN, .rws, 0x0⟩, ⟨RL_QP_CTL.SLOTIRQ, .rws, 0x0⟩, ⟨RL_QP_CTL.CTX, .rws, 0x0⟩, ⟨RL_QP_CTL.LIN, .rws, 0x10⟩, ⟨RL_QP_CTL.LOUT, .rws, 0x10⟩, ⟨RL_QP_CTL.MSIVEC, .rws, 0x0⟩]
  | .rlQpStatus _ => [⟨RL_QP_STATUS.STATE, .ro, 0x0⟩, ⟨RL_QP_STATUS.CELLS, .ro, 0x0⟩, ⟨RL_QP_STATUS.FAULTS, .ro, 0x0⟩, ⟨RL_QP_STATUS.COST, .ro, 0x0⟩]
  | .rlQpInbase _ => [⟨RL_QP_INBASE.ADDR, .rws, 0x0⟩]
  | .rlQpInwline _ => [⟨RL_QP_INWLINE.ADDR, .rws, 0x0⟩]
  | .rlQpInsline _ => [⟨RL_QP_INSLINE.ADDR, .rws, 0x0⟩]
  | .rlQpOutbase _ => [⟨RL_QP_OUTBASE.ADDR, .rws, 0x0⟩]
  | .rlQpOutwline _ => [⟨RL_QP_OUTWLINE.ADDR, .rws, 0x0⟩]
  | .rlQpOutsline _ => [⟨RL_QP_OUTSLINE.ADDR, .rws, 0x0⟩]
  | .wyCfg _ => [⟨WY_CFG.EN, .rws, 0x0⟩, ⟨WY_CFG.MODE, .rws, 0x0⟩, ⟨WY_CFG.CABPOL, .rws, 0x0⟩, ⟨WY_CFG.RETHR, .rws, 0x40⟩, ⟨WY_CFG.LIFETHR, .rws, 0x5A⟩, ⟨WY_CFG.POL, .rws, 0x0⟩]
  | .wyStatus _ => [⟨WY_STATUS.STATE, .ro, 0x0⟩, ⟨WY_STATUS.WIDTH, .ro, 0x0⟩, ⟨WY_STATUS.PEERID, .ro, 0xFFFF⟩]
  | .wyErr _ => [⟨WY_ERR.CRC, .ro, 0x0⟩, ⟨WY_ERR.RETRY, .ro, 0x0⟩]
  | .wyFofs _ => [⟨WY_FOFS.FOFS, .ro, 0x0⟩]
  | .wyCable _ _ => [⟨WY_CABLE.VALUE, .ro, 0x0⟩]
  | .wyLife _ => [⟨WY_LIFE.LANEHRS, .ro, 0x0⟩, ⟨WY_LIFE.MATES, .ro, 0x0⟩, ⟨WY_LIFE.SIGOK, .ro, 0x0⟩]
  | .wyDevid => [⟨WY_DEVID.ID, .rwl, 0xFFFF⟩]
  | .wyRto => [⟨WY_RTO.TIMEOUT, .rw, 0x7D0⟩]
  | .wyGroup _ => [⟨WY_GROUP.GROUP, .rw, 0x0⟩]
  | .wyRoute _ => [⟨WY_ROUTE.PRIV, .ro, 0x0⟩, ⟨WY_ROUTE.ALTV, .ro, 0x0⟩, ⟨WY_ROUTE.ALT, .ro, 0x0⟩, ⟨WY_ROUTE.PRI, .ro, 0x0⟩]
  | .wlCfg => [⟨WL_CFG.EN, .rwl, 0x0⟩, ⟨WL_CFG.PORTA, .rwl, 0x0⟩, ⟨WL_CFG.PORTB, .rwl, 0x0⟩, ⟨WL_CFG.SEG, .rwl, 0x0⟩]
  | .wlState => [⟨WL_STATE.STATE, .ro, 0x0⟩]
  | .wlEpoch => [⟨WL_EPOCH.EPOCH, .ro, 0x0⟩]
  | .wlHealth => [⟨WL_HEALTH.SCORE, .ro, 0x3FF⟩, ⟨WL_HEALTH.DEMERIT, .ro, 0x0⟩, ⟨WL_HEALTH.LOWRUN, .ro, 0x0⟩]
  | .wlHweight => [⟨WL_HWEIGHT.WCE, .rwl, 0x1⟩, ⟨WL_HWEIGHT.WRT, .rwl, 0x2⟩, ⟨WL_HWEIGHT.WTH, .rwl, 0x4⟩, ⟨WL_HWEIGHT.WST, .rwl, 0x8⟩]
  | .wlHthr => [⟨WL_HTHR.WARN, .rwl, 0x300⟩, ⟨WL_HTHR.EXPEL, .rwl, 0x100⟩]
  | .wlExpel => [⟨WL_EXPEL.BUDGET, .rwl, 0x2⟩, ⟨WL_EXPEL.FLOOR, .rwl, 0x400⟩, ⟨WL_EXPEL.WINDOW, .rwl, 0xE10⟩]
  | .wlReprobe => [⟨WL_REPROBE.GO, .wo, 0x0⟩, ⟨WL_REPROBE.BUSY, .ro, 0x0⟩, ⟨WL_REPROBE.RESULT, .ro, 0x0⟩, ⟨WL_REPROBE.ID, .rw, 0xFFFF⟩]
  | .wlAdmit => [⟨WL_ADMIT.GO, .wo, 0x0⟩, ⟨WL_ADMIT.PHASE, .ro, 0x0⟩, ⟨WL_ADMIT.CAUSE, .ro, 0x0⟩]
  | .wlClaimKey => [⟨WL_CLAIM_KEY.UMPIRE, .rw, 0xFFFF⟩, ⟨WL_CLAIM_KEY.KEY, .rw, 0x0⟩]
  | .wlClaimCtl => [⟨WL_CLAIM_CTL.GO, .wo, 0x0⟩, ⟨WL_CLAIM_CTL.BUSY, .ro, 0x0⟩, ⟨WL_CLAIM_CTL.OP, .rw, 0x0⟩, ⟨WL_CLAIM_CTL.PRIMARY, .rw, 0x0⟩, ⟨WL_CLAIM_CTL.INST, .rw, 0x0⟩]
  | .wlClaimRes => [⟨WL_CLAIM_RES.STATUS, .ro, 0x0⟩, ⟨WL_CLAIM_RES.WINNER, .ro, 0xFFFF⟩]
  | .wlMember _ => [⟨WL_MEMBER.STATE, .ro, 0x0⟩, ⟨WL_MEMBER.SCORE, .ro, 0x0⟩, ⟨WL_MEMBER.ID, .ro, 0xFFFF⟩]
  | .mpMgmtCtl => [⟨MP_MGMT_CTL.EN, .rws, 0x0⟩, ⟨MP_MGMT_CTL.REJIRQ, .rws, 0x0⟩, ⟨MP_MGMT_CTL.L, .rws, 0x4⟩, ⟨MP_MGMT_CTL.MSIVEC, .rws, 0x0⟩]
  | .mpMgmtStatus => [⟨MP_MGMT_STATUS.STATE, .ro, 0x0⟩, ⟨MP_MGMT_STATUS.ERR, .ro, 0x0⟩]
  | .mpMgmtCmdbase => [⟨MP_MGMT_CMDBASE.ADDR, .rws, 0x0⟩]
  | .mpMgmtCplbase => [⟨MP_MGMT_CPLBASE.ADDR, .rws, 0x0⟩]
  | .mpMgmtWline => [⟨MP_MGMT_WLINE.ADDR, .rws, 0x0⟩]
  | .mpMgmtSline => [⟨MP_MGMT_SLINE.ADDR, .rws, 0x0⟩]
  | .mpDevCtl => [⟨MP_DEV_CTL.EN, .rws, 0x0⟩, ⟨MP_DEV_CTL.REJIRQ, .rws, 0x0⟩, ⟨MP_DEV_CTL.L, .rws, 0x4⟩, ⟨MP_DEV_CTL.MSIVEC, .rws, 0x0⟩]
  | .mpDevStatus => [⟨MP_DEV_STATUS.STATE, .ro, 0x0⟩, ⟨MP_DEV_STATUS.ERR, .ro, 0x0⟩]
  | .mpDevCmdbase => [⟨MP_DEV_CMDBASE.ADDR, .rws, 0x0⟩]
  | .mpDevCplbase => [⟨MP_DEV_CPLBASE.ADDR, .rws, 0x0⟩]
  | .mpDevWline => [⟨MP_DEV_WLINE.ADDR, .rws, 0x0⟩]
  | .mpDevSline => [⟨MP_DEV_SLINE.ADDR, .rws, 0x0⟩]
  | .mpBootstat => [⟨MP_BOOTSTAT.STAGE, .ro, 0x0⟩, ⟨MP_BOOTSTAT.SLOT, .ro, 0x0⟩, ⟨MP_BOOTSTAT.TRIAL, .ro, 0x0⟩, ⟨MP_BOOTSTAT.MIXED, .ro, 0x0⟩, ⟨MP_BOOTSTAT.CFGCOPY, .ro, 0x0⟩, ⟨MP_BOOTSTAT.FAILCAUSE, .ro, 0x0⟩]
  | .mpLoad => [⟨MP_LOAD.LEVEL, .ro, 0x0⟩, ⟨MP_LOAD.LOAD, .ro, 0x0⟩, ⟨MP_LOAD.PEAK, .ro, 0x0⟩]
  | .mpVer => [⟨MP_VER.SETVER, .ro, 0x0⟩]
  | .mpMinver => [⟨MP_MINVER.MINVER, .ro, 0x0⟩]
  | .mpRecovery => [⟨MP_RECOVERY.ADDR, .rw, 0x0⟩, ⟨MP_RECOVERY.VALID, .rw, 0x0⟩]
  | .secStatus => [⟨SEC_STATUS.IDOK, .ro, 0x0⟩, ⟨SEC_STATUS.CNTOK, .ro, 0x0⟩, ⟨SEC_STATUS.TAMPER, .w1c, 0x0⟩]
  | .secDevhash _ => [⟨SEC_DEVHASH.VALUE, .ro, 0x0⟩]
  | .secDevpub _ => [⟨SEC_DEVPUB.VALUE, .ro, 0x0⟩]

/-- Register word after cold reset, from the reset column of its table. -/
def Reg.resetWord (r : Reg) : BitVec 64 :=
  r.fields.foldl (fun w f => w ||| (BitVec.ofNat 64 f.rst <<< f.fld.lo)) 0

/-- Candidate index of an element `base + stride * i` that starts at offset o. -/
def indexAt (base stride count o : Nat) : Option Nat :=
  if base ≤ o ∧ o < base + stride * count ∧ (o - base) % stride = 0 then some ((o - base) / stride) else none

/-- The same for a table of two indices: outer stride first. -/
def indexAt2 (base s1 n1 s2 n2 o : Nat) : Option (Nat × Nat) :=
  if base ≤ o ∧ (o - base) / s1 < n1 then
    (indexAt 0 s2 n2 ((o - base) % s1)).map fun j => ((o - base) / s1, j)
  else none

/-- The first register found in a list of places. -/
def Reg.firstOf : List (Option Reg) → Option Reg
  | [] => none
  | some r :: _ => some r
  | none :: rest => Reg.firstOf rest

/-- The register of the Core group that starts at an offset. -/
def Reg.atCore (o : Nat) : Option Reg :=
  Reg.firstOf [
    (indexAt2 0x800200 0x8000 208 0x4 2 o).map (fun x => .coreAmode x.1 x.2),
    (indexAt2 0x800208 0x8000 208 0x4 2 o).map (fun x => .coreAflags x.1 x.2),
    (indexAt2 0x800300 0x8000 208 0x4 4 o).map (fun x => .coreMeSpare x.1 x.2),
    (indexAt 0x800310 0x8000 208 o).map .coreMeStatus,
    (indexAt 0x800314 0x8000 208 o).map .coreMeFault,
    (indexAt 0x800318 0x8000 208 o).map .coreMeFstall,
    (indexAt 0x80031C 0x8000 208 o).map .coreMeWstall,
    (indexAt 0x800400 0x8000 208 o).map .coreVeStatus,
    (indexAt 0x800404 0x8000 208 o).map .coreVeFault,
    (indexAt 0x800408 0x8000 208 o).map .coreVeStall,
    (indexAt 0x800500 0x8000 208 o).map .coreCqNp,
    (indexAt 0x800504 0x8000 208 o).map .coreCqNplimit,
    (indexAt 0x800510 0x8000 208 o).map .coreCqPlan,
    (indexAt 0x800514 0x8000 208 o).map .coreCqPre,
    (indexAt2 0x800600 0x8000 208 0x4 64 o).map (fun x => .coreCqLock x.1 x.2),
    (indexAt 0x800700 0x8000 208 o).map .coreCeStatus,
    (indexAt 0x800704 0x8000 208 o).map .coreCeFault,
    (indexAt 0x800708 0x8000 208 o).map .coreCeRestart,
    (indexAt 0x800800 0x8000 208 o).map .coreSpEcc,
    (indexAt 0x800804 0x8000 208 o).map .coreSpEaddr,
    (indexAt2 0x800900 0x8000 208 0x8 2 o).map (fun x => .coreDig x.1 x.2)]

/-- The register of the Gctl group that starts at an offset. -/
def Reg.atGctl (o : Nat) : Option Reg :=
  Reg.firstOf [
    if o = 0x0 then some .gctlId else none,
    if o = 0x8 then some .gctlSeal else none,
    if o = 0x10 then some .gctlReset else none,
    if o = 0x20 then some .gctlPinmux else none,
    if o = 0x28 then some .gctlEtimer else none,
    if o = 0x40 then some .gctlArithrev else none,
    if o = 0x100 then some .gctlElogCtl else none,
    if o = 0x108 then some .gctlElogBase else none,
    if o = 0x110 then some .gctlElogProd else none,
    if o = 0x118 then some .gctlElogLost else none,
    if o = 0x200 then some .gctlPwrcfg else none,
    if o = 0x204 then some .gctlThermcfg else none,
    (indexAt 0x210 0x4 10 o).map .gctlDietemp,
    if o = 0x240 then some .gctlPwrest else none,
    if o = 0x244 then some .gctlVcore else none,
    (indexAt 0x250 0x4 9 o).map .gctlPdstat,
    (indexAt 0x400 0x4 192 o).map .gctlCmap]

/-- The register of the Time group that starts at an offset. -/
def Reg.atTime (o : Nat) : Option Reg :=
  Reg.firstOf [
    if o = 0x100100 then some .timeBeat else none,
    if o = 0x100104 then some .timeBeatpos else none,
    if o = 0x100108 then some .timePlancfg else none,
    if o = 0x10010C then some .timePlanstat else none,
    (indexAt 0x100000 0x20 4 o).map .timeTbCfg,
    (indexAt 0x100004 0x20 4 o).map .timeTbServo,
    (indexAt 0x100008 0x20 4 o).map .timeTbStatus,
    (indexAt 0x10000C 0x20 4 o).map .timeTbRate,
    (indexAt 0x100010 0x20 4 o).map .timeTbSec,
    (indexAt 0x100018 0x20 4 o).map .timeTbNs,
    if o = 0x100080 then some .timeRadio else none,
    if o = 0x100088 then some .timeClk else none,
    if o = 0x10008C then some .timeBeaterr else none,
    if o = 0x100090 then some .timePpsout else none,
    if o = 0x100094 then some .timeTod else none,
    if o = 0x100098 then some .timeHfofs else none,
    if o = 0x1000A0 then some .timeAppofs else none,
    if o = 0x1000A8 then some .timeGtc else none]

/-- The register of the Fh group that starts at an offset. -/
def Reg.atFh (o : Nat) : Option Reg :=
  Reg.firstOf [
    (indexAt 0x200000 0x8000 24 o).map .fhCfg,
    (indexAt 0x200004 0x8000 24 o).map .fhStatus,
    (indexAt 0x200008 0x8000 24 o).map .fhMod,
    (indexAt 0x20000C 0x8000 24 o).map .fhMtu,
    (indexAt2 0x200010 0x8000 24 0x8 4 o).map (fun x => .fhMac x.1 x.2),
    (indexAt2 0x200040 0x8000 24 0x8 4 o).map (fun x => .fhWin x.1 x.2),
    (indexAt2 0x200080 0x8000 24 0x8 4 o).map (fun x => .fhShport x.1 x.2),
    (indexAt2 0x2000C0 0x8000 24 0x8 4 o).map (fun x => .fhTscorr x.1 x.2),
    (indexAt2 0x200100 0x8000 24 0x8 14 o).map (fun x => .fhCnt x.1 x.2),
    (indexAt2 0x200300 0x8000 24 0x8 16 o).map (fun x => .fhExccap x.1 x.2),
    (indexAt 0x200380 0x8000 24 o).map .fhExcsub,
    (indexAt2 0x200400 0x8000 24 0x8 8 o).map (fun x => .fhModid x.1 x.2),
    (indexAt2 0x204000 0x8000 24 0x10 1024 o).map (fun x => .fhFlowLo x.1 x.2),
    (indexAt2 0x204008 0x8000 24 0x10 1024 o).map (fun x => .fhFlowHi x.1 x.2)]

/-- The register of the Wy group that starts at an offset. -/
def Reg.atWy (o : Nat) : Option Reg :=
  Reg.firstOf [
    (indexAt 0x300000 0x8000 16 o).map .wyCfg,
    (indexAt 0x300004 0x8000 16 o).map .wyStatus,
    (indexAt 0x300008 0x8000 16 o).map .wyErr,
    (indexAt 0x30000C 0x8000 16 o).map .wyFofs,
    (indexAt2 0x300100 0x8000 16 0x8 16 o).map (fun x => .wyCable x.1 x.2),
    (indexAt 0x300180 0x8000 16 o).map .wyLife,
    if o = 0x380000 then some .wyDevid else none,
    if o = 0x380008 then some .wyRto else none,
    (indexAt 0x380100 0x4 65 o).map .wyGroup,
    (indexAt 0x390000 0x2 65536 o).map .wyRoute]

/-- The register of the Im group that starts at an offset. -/
def Reg.atIm (o : Nat) : Option Reg :=
  Reg.firstOf [
    (indexAt2 0x480000 0x40 65 0x8 6 o).map (fun x => .imAcct x.1 x.2),
    if o = 0x482000 then some .imAcctLatch else none,
    (indexAt 0x482008 0x8 6 o).map .imAcctSnap,
    if o = 0x482038 then some .imAcctSnapGtc else none,
    (indexAt 0x400000 0x4 2 o).map .cclPortStatus,
    (indexAt 0x410000 0x10 2048 o).map .cclMsia,
    (indexAt 0x410008 0x10 2048 o).map .cclMsid,
    (indexAt 0x41000C 0x10 2048 o).map .cclMsic,
    (indexAt 0x490000 0x20 65 o).map .imDlogCtl,
    (indexAt 0x490008 0x20 65 o).map .imDlogBase,
    (indexAt 0x490010 0x20 65 o).map .imDlogProd]

/-- The register of the Wv group that starts at an offset. -/
def Reg.atWv (o : Nat) : Option Reg :=
  Reg.firstOf [
    if o = 0x500000 then some .wvCfg else none,
    if o = 0x500004 then some .wvRbudget else none,
    if o = 0x500008 then some .wvSysw else none,
    if o = 0x50000C then some .wvHold else none,
    if o = 0x500010 then some .wvR0peak else none,
    (indexAt 0x500100 0x4 65 o).map .wvWeight]

/-- The register of the Ms group that starts at an offset. -/
def Reg.atMs (o : Nat) : Option Reg :=
  Reg.firstOf [
    (indexAt 0x600000 0x10000 12 o).map .msCfg,
    (indexAt 0x600004 0x10000 12 o).map .msStatus,
    (indexAt 0x600008 0x10000 12 o).map .msEcc,
    (indexAt 0x60000C 0x10000 12 o).map .msEaddrLo,
    (indexAt 0x600010 0x10000 12 o).map .msEaddrHi,
    (indexAt2 0x600100 0x10000 12 0x4 128 o).map (fun x => .msFrame x.1 x.2)]

/-- The register of the Wl group that starts at an offset. -/
def Reg.atWl (o : Nat) : Option Reg :=
  Reg.firstOf [
    if o = 0x700000 then some .wlCfg else none,
    if o = 0x700004 then some .wlState else none,
    if o = 0x700008 then some .wlEpoch else none,
    if o = 0x70000C then some .wlHealth else none,
    if o = 0x700010 then some .wlHweight else none,
    if o = 0x700014 then some .wlHthr else none,
    if o = 0x700018 then some .wlExpel else none,
    if o = 0x700020 then some .wlReprobe else none,
    if o = 0x700024 then some .wlAdmit else none,
    if o = 0x700030 then some .wlClaimKey else none,
    if o = 0x700038 then some .wlClaimCtl else none,
    if o = 0x70003C then some .wlClaimRes else none,
    (indexAt 0x701000 0x4 1024 o).map .wlMember]

/-- The register of the Mp group that starts at an offset. -/
def Reg.atMp (o : Nat) : Option Reg :=
  Reg.firstOf [
    if o = 0xF00000 then some .mpMgmtCtl else none,
    if o = 0xF00004 then some .mpMgmtStatus else none,
    if o = 0xF00008 then some .mpMgmtCmdbase else none,
    if o = 0xF00010 then some .mpMgmtCplbase else none,
    if o = 0xF00018 then some .mpMgmtWline else none,
    if o = 0xF00020 then some .mpMgmtSline else none,
    if o = 0xF00040 then some .mpDevCtl else none,
    if o = 0xF00044 then some .mpDevStatus else none,
    if o = 0xF00048 then some .mpDevCmdbase else none,
    if o = 0xF00050 then some .mpDevCplbase else none,
    if o = 0xF00058 then some .mpDevWline else none,
    if o = 0xF00060 then some .mpDevSline else none,
    if o = 0xF00080 then some .mpBootstat else none,
    if o = 0xF00084 then some .mpLoad else none,
    if o = 0xF00088 then some .mpVer else none,
    if o = 0xF0008C then some .mpMinver else none,
    if o = 0xF00090 then some .mpRecovery else none,
    if o = 0xF80000 then some .secStatus else none,
    (indexAt 0xF80020 0x8 4 o).map .secDevhash,
    (indexAt 0xF80040 0x8 8 o).map .secDevpub]

/-- The register of the Iw group that starts at an offset. -/
def Reg.atIw (o : Nat) : Option Reg :=
  Reg.firstOf [
    (indexAt 0x1000000 0x20000 65 o).map .iwState,
    (indexAt 0x1000004 0x20000 65 o).map .iwMem,
    (indexAt 0x1000008 0x20000 65 o).map .iwFault,
    (indexAt 0x100000C 0x20000 65 o).map .iwTfault,
    (indexAt 0x1000010 0x20000 65 o).map .iwTfaultVa,
    (indexAt 0x1000018 0x20000 65 o).map .iwS1root,
    (indexAt 0x1000020 0x20000 65 o).map .iwTlbinv,
    (indexAt2 0x1000100 0x20000 65 0x8 6 o).map (fun x => .iwAcct x.1 x.2),
    (indexAt2 0x1001000 0x20000 65 0x40 64 o).map (fun x => .iwRingCtl x.1 x.2),
    (indexAt2 0x1001004 0x20000 65 0x40 64 o).map (fun x => .iwRingStatus x.1 x.2),
    (indexAt2 0x1001008 0x20000 65 0x40 64 o).map (fun x => .iwRingCmdbase x.1 x.2),
    (indexAt2 0x1001010 0x20000 65 0x40 64 o).map (fun x => .iwRingCplbase x.1 x.2),
    (indexAt2 0x1001018 0x20000 65 0x40 64 o).map (fun x => .iwRingWline x.1 x.2),
    (indexAt2 0x1001020 0x20000 65 0x40 64 o).map (fun x => .iwRingSline x.1 x.2),
    (indexAt 0x1004000 0x80 64 o).map .rlQpCtl,
    (indexAt 0x1004004 0x80 64 o).map .rlQpStatus,
    (indexAt 0x1004008 0x80 64 o).map .rlQpInbase,
    (indexAt 0x1004010 0x80 64 o).map .rlQpInwline,
    (indexAt 0x1004018 0x80 64 o).map .rlQpInsline,
    (indexAt 0x1004020 0x80 64 o).map .rlQpOutbase,
    (indexAt 0x1004028 0x80 64 o).map .rlQpOutwline,
    (indexAt 0x1004030 0x80 64 o).map .rlQpOutsline]

/-- The register that starts at an offset of the register space (R551); none for a reserved place. -/
def Reg.at (o : Nat) : Option Reg :=
  if o < 0x100000 then Reg.atGctl o
  else if o < 0x200000 then Reg.atTime o
  else if o < 0x300000 then Reg.atFh o
  else if o < 0x400000 then Reg.atWy o
  else if o < 0x500000 then Reg.atIm o
  else if o < 0x600000 then Reg.atWv o
  else if o < 0x700000 then Reg.atMs o
  else if o < 0x800000 then Reg.atWl o
  else if o < 0xF00000 then Reg.atCore o
  else if o < 0x1000000 then Reg.atMp o
  else Reg.atIw o

end Sys2Proof.Machine
end

