-- ==== Sys2Proof/Machine/LineCode.lean ====
section
/-!
DEFINITION. How a line of stack memory is stored (R222, R233, R237, R238): the Reed-Solomon code, SM4 and its XTS mode. State holds the plain
bytes; what the DRAM dies hold is derived from them and the keys here.
-/
namespace Sys2Proof

/-! ## The line code (R233) -/

/-- Product by x in GF(2^8) with x^8 + x^4 + x^3 + x^2 + 1. -/
def gfDouble (a : Nat) : Nat := if a < 128 then 2 * a else (2 * a) ^^^ 0x11D

/-- Product in that field. -/
def gfMul (a b : Nat) : Nat :=
  ((List.range 8).foldl (fun (x : Nat × Nat) i => (if b.testBit i then x.1 ^^^ x.2 else x.1, gfDouble x.2)) (0, a)).1

/-- α^n, α being the class of x. -/
def gfAlpha (n : Nat) : Nat := (List.range n).foldl (fun a _ => gfDouble a) 1

/-- Product of a polynomial, highest coefficient first, by x + c. -/
def polyTimes (p : List Nat) (c : Nat) : List Nat := (p ++ [0]).zipWith (· ^^^ ·) (0 :: p.map fun a => gfMul a c)

/-- The generator with roots α^0 to α^5, highest coefficient first. -/
def rsGenerator : List Nat := (List.range 6).foldl (fun p i => polyTimes p (gfAlpha i)) [1]

/-- The six check symbols of data symbols: the remainder of the data polynomial times x^6, the first symbol having the highest power. -/
def rsCheck (data : List Nat) : List Nat :=
  data.foldl (fun r x =>
    let f := x ^^^ r.headD 0
    (r.tail ++ [0]).zipWith (· ^^^ ·) (rsGenerator.tail.map fun g => gfMul f g)) (List.replicate 6 0)

/-- Value of a word of symbols at α^i; all six are 0 for a word of the code. -/
def rsSyndrome (word : List Nat) (i : Nat) : Nat := word.foldl (fun a x => gfMul a (gfAlpha i) ^^^ x) 0

/-! ## SM4 (R237, R238; the block cipher of GB/T 32907: PRESUMED, log 68) -/

/-- The S-box, sixteen bytes a row. -/
def sm4Rows : List Nat :=
  [0xD690E9FECCE13DB716B614C228FB2C05, 0x2B679A762ABE04C3AA44132649860699,
   0x9C4250F491EF987A33540B43EDCFAC62, 0xE4B31CA9C908E89580DF94FA758F3FA6,
   0x4707A7FCF37317BA83593C19E6854FA8, 0x686B81B27164DA8BF8EB0F4B70569D35,
   0x1E240E5E6358D1A225227C3B01217887, 0xD40046579FD327524C3602E7A0C4C89E,
   0xEABF8AD240C738B5A3F7F2CEF96115A1, 0xE0AE5DA49B341A55AD933230F58CB1E3,
   0x1DF6E22E8266CA60C02923AB0D534E6F, 0xD5DB3745DEFD8E2F03FF6A726D6C5B51,
   0x8D1BAF92BBDDBC7F11D95C411F105AD8, 0x0AC13188A5CD7BBD2D74D012B8E5B4B0,
   0x8969974A0C96777E65B9F109C56EC684, 0x18F07DEC3ADC4D2079EE5F3ED7CB3948]

def sm4Sbox (x : Nat) : Nat := (sm4Rows[x / 16]?).getD 0 / 256 ^ (15 - x % 16) % 256

/-- A 32-bit word rotated left by n. -/
def rotl32 (x n : Nat) : Nat := x * 2 ^ n % 2 ^ 32 + x / 2 ^ (32 - n)

/-- The S-box on the four bytes of a word. -/
def sm4Tau (x : Nat) : Nat :=
  sm4Sbox (x / 2 ^ 24 % 256) * 2 ^ 24 + sm4Sbox (x / 2 ^ 16 % 256) * 2 ^ 16 + sm4Sbox (x / 2 ^ 8 % 256) * 2 ^ 8 + sm4Sbox (x % 256)

/-- Four words of a 128-bit block, the highest first. -/
structure Sm4Block where
  a : Nat
  b : Nat
  c : Nat
  d : Nat
  deriving DecidableEq, Repr

def Sm4Block.ofNat (x : Nat) : Sm4Block := ⟨x / 2 ^ 96 % 2 ^ 32, x / 2 ^ 64 % 2 ^ 32, x / 2 ^ 32 % 2 ^ 32, x % 2 ^ 32⟩

/-- The constant of round i: byte j is 7 (4 i + j) mod 256. -/
def sm4Const (i : Nat) : Nat :=
  28 * i % 256 * 2 ^ 24 + (28 * i + 7) % 256 * 2 ^ 16 + (28 * i + 14) % 256 * 2 ^ 8 + (28 * i + 21) % 256

/-- The words of one round move on: the first gives way to a new last one. -/
def Sm4Block.push (x : Sm4Block) (w : Nat) : Sm4Block := ⟨x.b, x.c, x.d, w⟩

/-- The next round key. -/
def Sm4Block.keyStep (k : Sm4Block) (i : Nat) : Sm4Block :=
  let t := sm4Tau (k.b ^^^ k.c ^^^ k.d ^^^ sm4Const i)
  k.push (k.a ^^^ t ^^^ rotl32 t 13 ^^^ rotl32 t 23)

/-- One round with round key rk. -/
def Sm4Block.round (x : Sm4Block) (rk : Nat) : Sm4Block :=
  let t := sm4Tau (x.b ^^^ x.c ^^^ x.d ^^^ rk)
  x.push (x.a ^^^ t ^^^ rotl32 t 2 ^^^ rotl32 t 10 ^^^ rotl32 t 18 ^^^ rotl32 t 24)

/-- SM4 encryption of a 128-bit block under a 128-bit key. -/
def sm4 (key block : Nat) : Nat :=
  let k0 := Sm4Block.ofNat (key ^^^ 0xA3B1BAC656AA3350677D9197B27022DC)
  let r := (List.range 32).foldl (fun (z : Sm4Block × Sm4Block) i =>
    let k := z.1.keyStep i
    (k, z.2.round k.d)) (k0, Sm4Block.ofNat block)
  r.2.d * 2 ^ 96 + r.2.c * 2 ^ 64 + r.2.b * 2 ^ 32 + r.2.a

/-! ## SM3 (R504; the hash of GB/T 32905: PRESUMED, log 68) -/

def sm3P0 (x : Nat) : Nat := x ^^^ rotl32 x 9 ^^^ rotl32 x 17
def sm3P1 (x : Nat) : Nat := x ^^^ rotl32 x 15 ^^^ rotl32 x 23

/-- Bitwise complement of a 32-bit word. -/
def not32 (x : Nat) : Nat := (2 ^ 32 - 1) ^^^ x

/-- The 68 words of a block of 16 words, the latest first. -/
def sm3Expand (ws : List Nat) : List Nat :=
  (List.range 52).foldl (fun l _ =>
    let w (i : Nat) : Nat := (l[i - 1]?).getD 0
    (sm3P1 (w 16 ^^^ w 9 ^^^ rotl32 (w 3) 15) ^^^ rotl32 (w 13) 7 ^^^ w 6) :: l) ws.reverse

/-- The eight words of the hash value. -/
structure Sm3State where
  a : Nat
  b : Nat
  c : Nat
  d : Nat
  e : Nat
  f : Nat
  g : Nat
  h : Nat

def Sm3State.words (x : Sm3State) : List Nat := [x.a, x.b, x.c, x.d, x.e, x.f, x.g, x.h]

/-- One round with the words W_j and W_j+4. -/
def Sm3State.round (x : Sm3State) (j w w4 : Nat) : Sm3State :=
  let low := decide (j < 16)
  let t := rotl32 (if low then 0x79CC4519 else 0x7A879D8A) (j % 32)
  let ff := if low then x.a ^^^ x.b ^^^ x.c else (x.a &&& x.b) ||| (x.a &&& x.c) ||| (x.b &&& x.c)
  let gg := if low then x.e ^^^ x.f ^^^ x.g else (x.e &&& x.f) ||| (not32 x.e &&& x.g)
  let ss1 := rotl32 ((rotl32 x.a 12 + x.e + t) % 2 ^ 32) 7
  let ss2 := ss1 ^^^ rotl32 x.a 12
  { a := (ff + x.d + ss2 + (w ^^^ w4)) % 2 ^ 32
    b := x.a
    c := rotl32 x.b 9
    d := x.c
    e := sm3P0 ((gg + x.h + ss1 + w) % 2 ^ 32)
    f := x.e
    g := rotl32 x.f 19
    h := x.g }

/-- The hash value after a block. -/
def Sm3State.block (x : Sm3State) (ws : List Nat) : Sm3State :=
  let l := (sm3Expand ws).reverse
  let y := ((List.range 64).foldl (fun (z : Sm3State × List Nat) j =>
    (z.1.round j (z.2.headD 0) ((z.2[4]?).getD 0), z.2.tail)) (x, l)).1
  ⟨x.a ^^^ y.a, x.b ^^^ y.b, x.c ^^^ y.c, x.d ^^^ y.d, x.e ^^^ y.e, x.f ^^^ y.f, x.g ^^^ y.g, x.h ^^^ y.h⟩

/-- SM3 of bytes. -/
def sm3 (bs : List Byte) : List Byte :=
  let zeros := (119 - bs.length % 64) % 64
  let m := bs ++ [0x80] ++ List.replicate zeros 0 ++ (leBytes 8 (8 * bs.length)).reverse
  let be (l : List Byte) : Nat := l.foldl (fun a b => 256 * a + b.toNat) 0
  let x := (List.range (m.length / 64)).foldl (fun (x : Sm3State) k =>
    x.block ((List.range 16).map fun i => be ((m.drop (64 * k + 4 * i)).take 4)))
    ⟨0x7380166F, 0x4914B2B9, 0x172442D7, 0xDA8A0600, 0xA96F30BC, 0x163138AA, 0xE38DEE4D, 0xB0FB0E4E⟩
  x.words.flatMap fun w => (leBytes 4 w).reverse

/-! ## XTS (R238) -/

/-- A 128-bit block as the cipher takes it: byte 0 of memory is its highest byte. -/
def blockOf (bs : List Byte) : Nat := bs.foldl (fun a b => 256 * a + b.toNat) 0
def blockBytes (x : Nat) : List Byte := (leBytes 16 x).reverse

/-- Product of a tweak, a little-endian 128-bit integer, by α in GF(2^128) with x^128 + x^7 + x^2 + x + 1. -/
def xtsDouble (t : Nat) : Nat := if t < 2 ^ 127 then 2 * t else (2 * t) % 2 ^ 128 ^^^ 0x87

/-- A key pair of a slot (R237). -/
structure KeyPair where
  k1 : BitVec 128
  k2 : BitVec 128
  deriving DecidableEq, Repr

/-- The ciphertext of the 64 bytes of the line at device physical address pa. -/
def KeyPair.xts (k : KeyPair) (pa : Nat) (plain : List Byte) : List Byte :=
  let t0 := leNat (blockBytes (sm4 k.k2.toNat (blockOf (leBytes 16 (pa / 64)))))
  ((List.range 4).foldl (fun (z : List Byte × Nat) j =>
    let x := (leBytes 16 z.2).zipWith (· ^^^ ·) ((plain.drop (16 * j)).take 16)
    let c := (blockBytes (sm4 k.k1.toNat (blockOf x))).zipWith (· ^^^ ·) (leBytes 16 z.2)
    (z.1 ++ c, xtsDouble z.2)) ([], t0)).1

/-- The 72 bytes in which a line is stored (R222): the ciphertext, the metadata byte with POISON in bit 0, six check bytes over both, and a
reserved 0. -/
def storedLine (cipher : List Byte) (poison : Bool) : List Byte :=
  let d := cipher.map BitVec.toNat ++ [poison.toNat]
  (d ++ rsCheck d ++ [0]).map (BitVec.ofNat 8)

end Sys2Proof
end

