-- ==== Sys2Proof/Machine/StackTypes.lean ====
section
/-!
DEFINITION. State of the memory stacks, their sequencers and the journal (R220 to R257).
-/
namespace Sys2Proof.Machine

/-- A write that a running program has still to make, at most one line (R247): into the submitting core's scratchpad or into instance memory,
the address, the bytes, and the flits that it adds to those of its transaction (R244). -/
structure SeqWrite where
  sp : Bool
  addr : Nat
  bytes : List Byte
  flits : Nat
  deriving DecidableEq, Repr

/-- A stack-program request (R241, R242) and the core and side that submitted it. -/
structure SeqReq where
  id : Nat
  ctx : Ctx
  slot : Nat
  side : Nat
  prog : Nat
  notify : Bool
  ord : Bool
  new : Bool
  fp : Bool
  n : Nat
  a0 : Nat
  a1 : Nat
  a2 : Nat
  l0 : Nat
  l1 : Nat
  l2 : Nat
  l3 : Nat
  l4 : Nat
  dsp : Nat
  naddr : Nat
  nval : Nat
  /-- a sequencer runs it; every write has been made -/
  running : Bool
  applied : Bool
  /-- next row to fetch (R243), and the writes of the rows fetched that are still to be made -/
  row : Nat
  out : List SeqWrite
  deriving DecidableEq, Repr

/-- What is behind a journal record (R248): the acceptance, the rejection or the commit of a command. -/
inductive JKind where
  | accept
  | reject
  | commit
  deriving DecidableEq, Repr

/-- An unretired journal record, and which copies have accepted it. -/
structure JRec where
  seq : Nat
  /-- its JOURNAL request among those of the sequencers (R240, R249) -/
  req : Nat
  kind : JKind
  cause : Nat
  inst : Nat
  ring : Nat
  ridx : Nat
  gtc : Nat
  step : Nat
  /-- lines 1 and 2 -/
  body : List Byte
  /-- the primary's sequencer has written it, and it is durable (R249) -/
  written : Bool
  durable : Bool
  /-- its command has been retired (R250) -/
  retired : Bool
  /-- what its completion record carries, once its completion effects have happened: TAG, STATUS, CAUSE, FLAGS, OVR, STEP, RERUN,
  RESULT, and the MSI vector + 1 (R326) -/
  reply : List Nat
  deriving DecidableEq, Repr

/-- Command of a record: instance, ring, RIDX. -/
def JRec.key (r : JRec) : CmdKey := ⟨r.inst, r.ring, r.ridx⟩

/-- The acceptance journal (R248 to R252): next SEQ, records from the oldest unretired one, the copies (stack and frame), unused
spare frames, and its conditions. -/
structure Journal where
  next : Nat
  recs : List JRec
  primary : Option Frame
  mirror : Option Frame
  /-- the mirror is being rebuilt -/
  rebuilding : Bool
  spares : List Frame
  /-- fetching is stopped for want of a free slot (R250) -/
  full : Bool
  lost : Bool
  deriving DecidableEq, Repr

def Journal.reset : Journal :=
  { next := 1, recs := [], primary := some (0, 127), mirror := some (11, 127), rebuilding := false, spares := [(5, 127)],
    full := false, lost := false }

/-- The twelve stacks. -/
structure StackState where
  /-- plain data by device physical address (R223); what a line holds in the dies is State.dieLine (R222, R233, R238; log 7) -/
  mem : Memory
  /-- lines that carry POISON, by physical address / 64 (R222, R234) -/
  poison : SMap Bool
  /-- key slots: 66 * stack + slot (R237); none is an empty one -/
  keys : SMap (Option KeyPair)
  /-- corrected errors in the current second: 16 * stack + channel (R253) -/
  corr : SMap Nat
  /-- the second that they were counted in -/
  corrSec : Nat
  /-- logical channel being migrated, by stack (R253) -/
  migrating : SMap (Option Nat)
  /-- logical channel whose mirrored lines are being rebuilt, by stack (R254) -/
  rebuilding : SMap (Option Nat)
  /-- banks under refresh: (16 * stack + channel) * 32 + bank (R231) -/
  refreshing : List Nat
  /-- frames released by a shrinking quota, being cleared under the system key (R318) -/
  releasing : List Frame
  /-- next line of a channel's scrubber: 16 * stack + channel (R236) -/
  scrub : SMap Nat
  /-- cycle of its latest read -/
  scrubAt : SMap Nat
  /-- sequencer requests, oldest first, by stack, and the tenant served last (R240) -/
  queues : SMap (List SeqReq)
  last : SMap Nat
  nextReq : Nat
  journal : Journal
  deriving DecidableEq, Repr

def StackState.reset : StackState :=
  { mem := [], poison := [], keys := [], corr := [], corrSec := 0, migrating := [], rebuilding := [], refreshing := [], releasing := [], scrub := [], scrubAt := [],
    queues := [], last := [], nextReq := 0, journal := .reset }

end Sys2Proof.Machine
end

