-- ==== Sys2Proof/Machine/TimeTypes.lean ====
section
/-!
DEFINITION. State of the time bases, the synthesiser, the beat aligner and the time inputs and outputs (R359 to R376, R562).
-/
namespace Sys2Proof.Machine

/-- A time base beyond its registers: its value in ns since the epoch (R359), the servo's integral term and rate correction in ppb
(R363), and the ns that it has advanced since its last measurement. -/
structure TimeBase where
  value : Rat
  integ : Rat
  rate : Rat
  elapsed : Rat
  /-- cycle of the last measurement, or of the enabling -/
  last : Nat
  /-- consecutive measurements within LOCKNS, and beyond 4 × LOCKNS (R364) -/
  inside : Nat
  outside : Nat
  deriving DecidableEq, Repr

def TimeBase.zero : TimeBase := { value := 0, integ := 0, rate := 0, elapsed := 0, last := 0, inside := 0, outside := 0 }

/-- A 1PPS input: the cycle of its last edge, the values of the time bases at that edge until it is labelled, and whether its
absence has been recorded (R373). -/
structure PpsIn where
  edge : Option Nat
  values : List (Nat × Rat)
  noted : Bool
  deriving DecidableEq, Repr

def PpsIn.idle : PpsIn := { edge := none, values := [], noted := false }

/-- A PTP exchange of a time base (R366): times of the latest Sync at the master and here, its correction, whether a Follow_Up is
awaited, the sequence number and departure time of the Delay_Req under way, and the master in force; the masters that have announced
themselves with their data sets, and Grizor's choice. -/
structure Ptp where
  t1 : Option Rat
  t2 : Option Rat
  corr : Rat
  syncSeq : Nat
  t3 : Option Rat
  reqSeq : Nat
  master : Nat
  masters : List (Nat × List Nat)
  chosen : Option Nat
  deriving DecidableEq, Repr

def Ptp.idle : Ptp :=
  { t1 := none, t2 := none, corr := 0, syncSeq := 0, t3 := none, reqSeq := 0, master := 0, masters := [],
    chosen := none }

structure TimeState where
  tbs : SMap TimeBase
  ptp : SMap Ptp
  /-- frequency inputs: 0 the 10 MHz input, 1 + p SyncE of fronthaul port p: measured ppb, none while invalid (R375) -/
  freqs : SMap (Option Rat)
  /-- ESMC quality level last received on a fronthaul port, plus 1; 0: none (R365) -/
  quality : SMap Nat
  /-- correction D of TBR in ns (R367) -/
  d : Rat
  /-- f_src and f_trim of R370, as ratios -/
  fsrc : Rat
  ftrim : Rat
  /-- ideal TBR of the current boundary (R372) -/
  ideal : Rat
  pps : SMap PpsIn
  /-- cycle at which 1PPS_OUT rose while it is high; end of the beat-trace pulse while it is high (R376, R562) -/
  ppsOut : Option Nat
  trace : Option Nat
  /-- cycle at which the event timer is next due (R563) -/
  timerAt : Nat
  deriving DecidableEq, Repr

def TimeState.reset : TimeState :=
  { tbs := [], ptp := [], freqs := [], quality := [], d := 0, fsrc := 0, ftrim := 0, ideal := 0, pps := [], ppsOut := none, trace := none, timerAt := 0 }

end Sys2Proof.Machine
end

