-- ==== Sys2Proof/Machine/WalingTypes.lean ====
section
/-!
DEFINITION. State of the Waling unit beyond its registers (R465 to R491).
-/
namespace Sys2Proof.Machine

/-- A ring neighbour as this device sees it (R467, R469, R470): Waling runs there, as a heartbeat or an admission has shown; a heartbeat has
arrived in the present window, consecutive misses, whether it is SUSPECT, whether a token has been started for it, and the cycle at
which the present window ends. -/
structure WlNbr where
  seen : Bool
  heard : Bool
  misses : Nat
  suspect : Bool
  token : Bool
  winEnd : Nat
  deriving DecidableEq, Repr

def WlNbr.idle : WlNbr := { seen := false, heard := false, misses := 0, suspect := false, token := false, winEnd := 0 }

/-- A DEATH token that this device has received (R471, R473): its subject, its run, the device that started it, the
ring port on which it came (0 PORTA, 1 PORTB; 2: this device has started it and is the witness itself, in a ring of two), and the INSERV
that it carries. -/
structure WlToken where
  subject : Nat
  run : List Nat
  origin : Nat
  side : Nat
  inserv : Nat
  deriving DecidableEq, Repr

/-- A slot of the claim table (R485). -/
structure WlClaim where
  tag : Nat
  key : Nat
  winner : Nat
  deriving DecidableEq, Repr

structure WalingState where
  /-- health inputs of the present window (R480): ce, rt, th, st -/
  ce : Nat
  rt : Nat
  th : Nat
  st : Nat
  /-- the score was below WARN, at or above EXPEL for so many updates, and the device is an expulsion candidate (R481) -/
  low : Bool
  highRun : Nat
  candidate : Bool
  /-- SEQ of the next heartbeat; cycles of the latest heartbeat and the latest health update -/
  hbSeq : Nat
  hbAt : Nat
  healthAt : Nat
  /-- ring neighbours on PORTA (0) and PORTB (1) -/
  nbrs : SMap WlNbr
  tokens : List WlToken
  /-- probes of this device as a witness, with the cycle of each (R471) -/
  probes : List (WlToken × Nat)
  /-- latest BUDGET token: cycle at which it was seen, and the device that started it (R484) -/
  budgetAt : Option Nat
  budgetFrom : Nat
  /-- expulsion window and expulsions applied in it (R482, R484) -/
  window : Nat
  expelled : Nat
  /-- this device was expelled for health since its cold reset (R489) -/
  expelledHere : Bool
  /-- cycle at which a re-probe under way was started (R479) -/
  reprobe : Option Nat
  /-- route entries as the configuration image names them, where a membership change has altered them (R475, R488) -/
  routes : SMap Nat
  claims : List WlClaim
  /-- an own claim made with PRIMARY awaits its result (R480) -/
  primary : Bool
  deriving DecidableEq, Repr

def WalingState.reset : WalingState :=
  { ce := 0, rt := 0, th := 0, st := 0, low := false, highRun := 0, candidate := false, hbSeq := 0, hbAt := 0, healthAt := 0, nbrs := [], tokens := [], probes := [],
    budgetAt := none, budgetFrom := 0xFFFF, window := 0, expelled := 0, expelledHere := false, reprobe := none, routes := [], claims := [], primary := false }

/-- Add to a health input, which saturates at 255 (R480). -/
def sat8 (a n : Nat) : Nat := min (a + n) 255

end Sys2Proof.Machine
end

