-- ==== Sys2Proof/Machine/State.lean ====
section
/-!
DEFINITION. The state of the BZ9600 as a block, and its faults and refusals.
-/
namespace Sys2Proof.Machine

/-- Why the block stops. -/
inductive Fault where
  /-- A register access whose offset lies outside the 64 MiB register space (R551): raised by REGISTER_WRITE. Safe. -/
  | noSuchAddress (offset : Nat)
  deriving DecidableEq, Repr

/-- Why a command has no meaning in a state. -/
inductive Refusal where
  /-- An instruction that this model does not cover: raised by no meaning. Safe. -/
  | notModelled (mnemonic : String)
  /-- Every clock has stopped after THERMTRIP (R538); raised by every command but the cold reset. Safe. -/
  | clocksStopped
  deriving DecidableEq, Repr

/-- The whole state of the block. -/
structure State where
  /-- registers of the register space that differ from their reset values (R551) -/
  regs : List (Reg × BitVec 64)
  /-- count of ACLK cycles (R12, R357) -/
  gtc : Nat
  /-- physical core slots (R8, R11) -/
  cores : SMap Core
  /-- instances I0 to I64 -/
  insts : SMap Instance
  /-- rings: 64 * instance + ring; 65 * 64 the management ring, 65 * 64 + 1 the device ring -/
  rings : SMap Ring
  /-- accepted, uncompleted commands, in order of acceptance -/
  cmds : List Cmd
  ccl : CclState
  beat : BeatState
  /-- save slots that hold an image (R283) -/
  images : SMap (Option Image)
  stackSet : StackState
  weave : WeaveState
  withy : WithyState
  radio : RadioState
  time : TimeState
  boot : BootState
  power : PowerState
  waling : WalingState
  /-- fronthaul ports -/
  fh : SMap FhPort
  /-- requests taken from the management and the device ring, in ring order (R316, R317, R477) -/
  mgmtQ : List Req
  devQ : List Req
  log : LogState
  /-- every clock has stopped (R538) -/
  clocksStopped : Bool
  /-- number of free values used so far (the model's own field, log 3) -/
  free : Nat
  /-- commands waiting, first in first out (the block's interface) -/
  pending : List Instr
  deriving DecidableEq, Repr

/-- Right after a cold reset. -/
def State.reset : State :=
  { regs := [], gtc := 0, cores := [], insts := [], rings := [], cmds := [], ccl := .empty, beat := .stopped, images := [],
    stackSet := .reset,
    weave := { points := [], winAt := none, cfg := Reg.wvCfg.resetWord, rbudget := Reg.wvRbudget.resetWord, sysw := Reg.wvSysw.resetWord, weights := [] },
    withy := .reset, radio := .reset, time := .reset, boot := .off, power := .reset, waling := .reset, fh := [], mgmtQ := [], devQ := [], log := .empty, clocksStopped := false, free := 0, pending := [] }

end Sys2Proof.Machine
end

