-- ==== Sys2Proof/Machine/Vector.lean ====
section
/-!
DEFINITION. Vector instructions on a register bank (chapters 04 and 05): the effect of each opcode on the lanes.
-/
namespace Sys2Proof.Machine

/-- Bits hi down to lo of n. -/
def bitsOf (n hi lo : Nat) : Nat := n / 2 ^ lo % 2 ^ (hi + 1 - lo)

/-- Operand fields of a vector word (R170). -/
structure VF where
  k : Nat
  d : Nat
  a : Nat
  b : Nat
  c : Nat
  fmt : Nat
  ss : Nat
  sr : Nat
  imm : Nat
  deriving DecidableEq, Repr

def VF.ofWord (w : Nat) : VF :=
  { k := bitsOf w 53 51, d := bitsOf w 50 45, a := bitsOf w 44 39, b := bitsOf w 38 33, c := bitsOf w 32 27,
    fmt := bitsOf w 26 23, ss := bitsOf w 22 18, sr := bitsOf w 17 13, imm := bitsOf w 12 0 }

/-- Lane i of a register. -/
def laneOf (r : BitVec 2048) (i : Nat) : Nat := r.toNat / 2 ^ (32 * i) % 2 ^ 32

/-- Build a number from w-bit pieces, lowest first. -/
def packNat (w : Nat) : List Nat → Nat
  | [] => 0
  | x :: xs => x % 2 ^ w + 2 ^ w * packNat w xs

/-- A register from a function of the lane. -/
def ofLanes (f : Nat → Nat) : BitVec 2048 := BitVec.ofNat 2048 (packNat 32 ((List.range 64).map f))

/-- A mask from a predicate on lanes. -/
def ofMask (f : Nat → Bool) : BitVec 64 := BitVec.ofNat 64 (packNat 1 ((List.range 64).map fun i => (f i).toNat))

def VBank.reg (b : VBank) (n : Nat) : BitVec 2048 := SMap.get 0 b.v n
def VBank.setReg (b : VBank) (n : Nat) (x : BitVec 2048) : VBank := { b with v := SMap.put 0 b.v n x }
def VBank.vacc (b : VBank) (n : Nat) : BitVec 5120 := SMap.get 0 b.va n
def VBank.setVacc (b : VBank) (n : Nat) (x : BitVec 5120) : VBank := { b with va := SMap.put 0 b.va n x }

/-- Lane mask k: k0 reads as all ones (R117). -/
def VBank.mask (b : VBank) (n : Nat) : BitVec 64 := if n = 0 then BitVec.allOnes 64 else SMap.get 0 b.k n

/-- Write lane mask k; k0 ignores writes (R117). -/
def VBank.setMask (b : VBank) (n : Nat) (x : BitVec 64) : VBank :=
  if n = 0 then b else { b with k := SMap.put 0 b.k n x }

/-- What a vector instruction sees: the bank, the active lanes, its fields, the arithmetic mode, the values of the scalars that
SS and SR name, the identity of each lane's strand (R142), and the number of the next free value. -/
structure VIn where
  bank : VBank
  on : BitVec 64
  f : VF
  am : AMode
  ss : Word
  sr : Word
  sid : Nat → Nat → Nat
  free : Nat

/-- What it leaves: the bank, the flags it sets, a scalar result for SR, free values used. -/
structure VOut where
  bank : VBank
  flags : Flags
  sr : Option Word
  free : Nat

def VIn.keep (i : VIn) : VOut := ⟨i.bank, 0, none, i.free⟩

/-- Flags of the active lanes (R118: an inactive lane sets none). -/
def laneFlags (on : BitVec 64) (g : Nat → Flags) : Flags :=
  (List.range 64).foldl (fun acc l => if on.getLsbD l then acc ||| g l else acc) 0

/-- Write g to the active lanes of register d (R118). -/
def VIn.lanes (i : VIn) (d : Nat) (g : Nat → Nat × Flags) : VOut :=
  let old := i.bank.reg d
  { i.keep with
    bank := i.bank.setReg d (ofLanes fun l => if i.on.getLsbD l then (g l).1 else laneOf old l)
    flags := laneFlags i.on fun l => (g l).2 }

/-- Number of elements of a format in a lane (R567). -/
def Fmt.perLane (f : Fmt) : Nat := 32 / f.bits

/-- Element e of a lane. -/
def elemBits (f : Fmt) (lane e : Nat) : Nat := lane / 2 ^ (f.bits * e) % 2 ^ f.bits

/-- Apply an element operation to the elements of lanes x and y (R567). -/
def onElems (f : Fmt) (op : Nat → Nat → Nat × Flags) (x y : Nat) : Nat × Flags :=
  let rs := (List.range f.perLane).map fun e => op (elemBits f x e) (elemBits f y e)
  (packNat f.bits (rs.map Prod.fst), rs.foldl (fun a r => a ||| r.2) 0)

/-- Combine the parts of two complex elements. -/
def onParts (f : Fmt) (op : Int → Int → Int) (x y : Nat) : Nat × Flags :=
  let w := f.partBits
  let p := f.sat (op (signed w x) (signed w y))
  let q := f.sat (op (signed w (x / 2 ^ w)) (signed w (y / 2 ^ w)))
  (p.1 + 2 ^ w * q.1, p.2 ||| q.2)

/-- Saturating or rounded sum, difference, product, minimum, maximum of one element (R571). -/
inductive VArith where
  | add | sub | mul | min | max
  deriving DecidableEq, Repr

def VArith.int : VArith → Int → Int → Int
  | .add, x, y => x + y
  | .sub, x, y => x - y
  | .mul, x, y => x * y
  | .min, x, y => if y < x then y else x
  | .max, x, y => if x < y then y else x

def arithElem (op : VArith) (f : Fmt) (am : AMode) (x y : Nat) : Nat × Flags :=
  if f.isComplex then
    if op = .mul then
      let w := f.partBits
      let xr := signed w x; let xi := signed w (x / 2 ^ w)
      let yr := signed w y; let yi := signed w (y / 2 ^ w)
      let p := f.sat (xr * yr - xi * yi); let q := f.sat (xr * yi + xi * yr)
      (p.1 + 2 ^ w * q.1, p.2 ||| q.2)
    else onParts f op.int x y
  else if f.isInt then f.sat (op.int (f.intVal x) (f.intVal y))
  else match op with
    | .add => fAdd f am x y
    | .sub => fSub f am x y
    | .mul => fMul f am x y
    | .min => fMinMax f am false x y
    | .max => fMinMax f am true x y

/-- The format of field FMT; INT8 where the code names none (callers have refused such a word). -/
def VIn.fmt (i : VIn) : Fmt := (Fmt.ofCode i.f.fmt).getD .int8

def VIn.la (i : VIn) (l : Nat) : Nat := laneOf (i.bank.reg i.f.a) l
def VIn.lb (i : VIn) (l : Nat) : Nat := laneOf (i.bank.reg i.f.b) l
def VIn.lc (i : VIn) (l : Nat) : Nat := laneOf (i.bank.reg i.f.c) l
def VIn.ld (i : VIn) (l : Nat) : Nat := laneOf (i.bank.reg i.f.d) l

/-- VADD, VSUB: wrapping (R114). -/
def vAdd (i : VIn) : VOut := i.lanes i.f.d fun l => ((i.la l + i.lb l) % 2 ^ 32, 0)
def vSub (i : VIn) : VOut := i.lanes i.f.d fun l => ((i.la l + (2 ^ 32 - i.lb l)) % 2 ^ 32, 0)

/-- VSHL: a count of 32 or more gives 0 (R572). -/
def vShl (i : VIn) : VOut := i.lanes i.f.d fun l => (if i.lb l < 32 then i.la l * 2 ^ i.lb l % 2 ^ 32 else 0, 0)

/-- VSRA: R49 for the full count (R572). -/
def vSra (i : VIn) : VOut :=
  i.lanes i.f.d fun l => (if i.lb l < 32 then unsignedOf 32 (shiftRound (signed 32 (i.la l)) (i.lb l)) else 0, 0)

/-- VADDS, VSUBS, VMUL, VMIN, VMAX (R571). -/
def vArith (op : VArith) (i : VIn) : VOut :=
  i.lanes i.f.d fun l => onElems i.fmt (arithElem op i.fmt i.am) (i.la l) (i.lb l)

/-- VAND, VOR, VXOR: bitwise. -/
def vAnd (i : VIn) : VOut := i.lanes i.f.d fun l => (i.la l &&& i.lb l, 0)
def vOr (i : VIn) : VOut := i.lanes i.f.d fun l => (i.la l ||| i.lb l, 0)
def vXor (i : VIn) : VOut := i.lanes i.f.d fun l => (i.la l ^^^ i.lb l, 0)

/-- VFMA: D = A × B + C, one rounding. -/
def vFma (i : VIn) : VOut :=
  i.lanes i.f.d fun l =>
    let f := i.fmt
    let rs := (List.range f.perLane).map fun e =>
      fFma f i.am (elemBits f (i.la l) e) (elemBits f (i.lb l) e) (elemBits f (i.lc l) e)
    (packNat f.bits (rs.map Prod.fst), rs.foldl (fun a r => a ||| r.2) 0)

/-- VDOT: D += dot (A, B), saturating to the 32-bit lane range (R114). -/
def vDot (i : VIn) : VOut :=
  i.lanes i.f.d fun l =>
    let f := i.fmt
    let s := (List.range f.perLane).foldl
      (fun acc e => acc + f.intVal (elemBits f (i.la l) e) * f.intVal (elemBits f (i.lb l) e)) (signed 32 (i.ld l))
    let r := satSym 32 s
    (unsignedOf 32 r.1, r.2)

/-- Condition codes of VCMP from less, equal, and whether either is a NaN (R568). -/
def condHolds (cond : Nat) (lt eq gt : Bool) : Bool :=
  match cond with
  | 0 => eq
  | 1 => !eq
  | 2 => lt
  | 3 => lt || eq
  | 4 => gt
  | _ => gt || eq

/-- One comparison of elements under R568; complex elements part by part. -/
def cmpElem (f : Fmt) (cond x y : Nat) : Bool :=
  let int (u v : Int) : Bool := condHolds cond (decide (u < v)) (decide (u = v)) (decide (v < u))
  if f.isComplex then
    let w := f.partBits
    let p := int (signed w x) (signed w y)
    let q := int (signed w (x / 2 ^ w)) (signed w (y / 2 ^ w))
    if cond = 1 then p || q else p && q
  else if f.isInt then int (f.intVal x) (f.intVal y)
  else
    let u := f.fval x; let v := f.fval y
    condHolds cond (u.lt v) (u.eqv v) (v.lt u)

/-- VCMP (R568): every element must meet the condition, and for ne any. -/
def vCmp (i : VIn) : VOut :=
  let cond := i.f.imm % 8
  let whole := i.f.imm / 8 % 2 = 1
  let bit (l : Nat) : Bool :=
    if whole then
      let u := signed 32 (i.la l); let v := signed 32 (i.lb l)
      condHolds cond (decide (u < v)) (decide (u = v)) (decide (v < u))
    else
      let f := i.fmt
      let each := (List.range f.perLane).map fun e => cmpElem f cond (elemBits f (i.la l) e) (elemBits f (i.lb l) e)
      if cond = 1 then each.any id else each.all id
  let old := i.bank.mask i.f.d
  { i.keep with bank := i.bank.setMask i.f.d (ofMask fun l => if i.on.getLsbD l then bit l else old.getLsbD l) }

/-- VSEL: D = mask IMM[2:0] ? A : B. -/
def vSel (i : VIn) : VOut :=
  let m := i.bank.mask (i.f.imm % 8)
  i.lanes i.f.d fun l => (if m.getLsbD l then i.la l else i.lb l, 0)

/-- VCVT (R68, R569); with RM = 1 every inexact rounding goes to a neighbour by a drawn bit (R172). -/
def vCvt (i : VIn) : VOut :=
  let src := (Fmt.ofCode (i.f.imm % 16)).getD .int8
  let dst := i.fmt
  let shift := signed 8 (bitsOf i.f.imm 12 5)
  let rm := decide (i.f.imm / 16 % 2 = 1)
  let n := min src.perLane dst.perLane
  let out := i.lanes i.f.d fun l =>
    let rs := (List.range n).map fun e =>
      let rnd : Rounding :=
        if rm then roundDrawn ((Config.freeBits (i.free + 4 * l + e)).getLsbD 0) else roundHalfUp
      convertR rnd i.am dst shift (src.elem (elemBits src (i.la l) e))
    (packNat dst.bits (rs.map Prod.fst), rs.foldl (fun a r => a ||| r.2) 0)
  { out with free := if rm then i.free + 256 else i.free }

/-! ## Vector accumulators (R115, R130 to R132) -/

/-- The 40-bit real (p = 0) or imaginary (p = 1) part of lane l of an accumulator, as its bits. -/
def vaPart (r : BitVec 5120) (l p : Nat) : Nat := r.toNat / 2 ^ (80 * l + 40 * p) % 2 ^ 40

/-- An accumulator register from the two parts of each lane. -/
def ofVaLanes (f : Nat → Nat × Nat) : BitVec 5120 :=
  BitVec.ofNat 5120 (packNat 80 ((List.range 64).map fun l => (f l).1 % 2 ^ 40 + 2 ^ 40 * ((f l).2 % 2 ^ 40)))

/-- Add into a field of w bits with saturation (R51, R115). -/
def satAddField (w : Nat) (old : Nat) (x : Int) : Nat × Flags :=
  let r := satSym w (signed w old + x)
  (unsignedOf w r.1, r.2)

/-- VCMAC: va D += A × B in CI16 or CI8, IMM[0] conjugates B (R115). -/
def vCmac (i : VIn) : VOut :=
  let old := i.bank.vacc i.f.d
  let conj := i.f.imm % 2 = 1
  let prod (f : Fmt) (x y : Nat) : Int × Int :=
    let w := f.partBits
    let xr := signed w x; let xi := signed w (x / 2 ^ w)
    let yr := signed w y; let yi0 := signed w (y / 2 ^ w)
    let yi := if conj then -yi0 else yi0
    (xr * yr - xi * yi, xr * yi + xi * yr)
  let lane (l : Nat) : (Nat × Nat) × Flags :=
    let re := vaPart old l 0; let im := vaPart old l 1
    if i.fmt = .ci16 then
      let p := prod .ci16 (i.la l) (i.lb l)
      let a := satAddField 40 re p.1; let b := satAddField 40 im p.2
      ((a.1, b.1), a.2 ||| b.2)
    else
      let p := prod .ci8 (i.la l % 2 ^ 16) (i.lb l % 2 ^ 16)
      let q := prod .ci8 (i.la l / 2 ^ 16) (i.lb l / 2 ^ 16)
      let a0 := satAddField 20 (re % 2 ^ 20) p.1; let a1 := satAddField 20 (re / 2 ^ 20) q.1
      let b0 := satAddField 20 (im % 2 ^ 20) p.2; let b1 := satAddField 20 (im / 2 ^ 20) q.2
      ((a0.1 + 2 ^ 20 * a1.1, b0.1 + 2 ^ 20 * b1.1), a0.2 ||| a1.2 ||| b0.2 ||| b1.2)
  { i.keep with
    bank := i.bank.setVacc i.f.d (ofVaLanes fun l =>
      if i.on.getLsbD l then (lane l).1 else (vaPart old l 0, vaPart old l 1))
    flags := laneFlags i.on fun l => (lane l).2 }

/-- Redundant sign bits of a 40-bit part (R65): 39 for 0. -/
def redundant40 (n : Nat) : Nat :=
  let v := signed 40 n
  let m := if v < 0 then (-v - 1).toNat else v.toNat
  if m = 0 then 39 else 38 - Nat.log2 m

/-- Block exponent over the active lanes of some accumulators (R65, R118): 39 with no active lane. -/
def blockExp (on : BitVec 64) (vs : List (BitVec 5120)) : Nat :=
  (List.range 64).foldl (fun acc l =>
    if on.getLsbD l then
      vs.foldl (fun a v => min a (min (redundant40 (vaPart v l 0)) (redundant40 (vaPart v l 1)))) acc
    else acc) 39

/-- With MERGE, min (sk, b) (R131). -/
def mergeExp (merge : Bool) (old : Word) (b : Nat) : Word :=
  if merge then (if old.toInt < (b : Int) then old else BitVec.ofNat 64 b) else BitVec.ofNat 64 b

/-- VBF4 (R130): A, B, C, D of the rule are a, b, c, e here; -j (x + jy) = y - jx. -/
def vBf4 (i : VIn) : VOut :=
  let part (r l : Nat) (p : Nat) : Int := signed 16 (laneOf (i.bank.reg r) l / 2 ^ (16 * p))
  let mul (x y : Nat) (l : Nat) : Int × Int :=
    (part x l 0 * part y l 0 - part x l 1 * part y l 1, part x l 0 * part y l 1 + part x l 1 * part y l 0)
  let A (l : Nat) : Int × Int := (part i.f.a l 0 * 2 ^ 15, part i.f.a l 1 * 2 ^ 15)
  let B := mul (i.f.a + 1) i.f.b
  let C := mul (i.f.a + 2) (i.f.b + 1)
  let D := mul (i.f.a + 3) (i.f.b + 2)
  let res (n l : Nat) : Int × Int :=
    let a := A l; let b := B l; let c := C l; let e := D l
    match n with
    | 0 => (a.1 + b.1 + c.1 + e.1, a.2 + b.2 + c.2 + e.2)
    | 1 => (a.1 + b.2 - c.1 - e.2, a.2 - b.1 - c.2 + e.1)
    | 2 => (a.1 - b.1 + c.1 - e.1, a.2 - b.2 + c.2 - e.2)
    | _ => (a.1 - b.2 - c.1 + e.2, a.2 + b.1 - c.2 - e.1)
  let newVa (n : Nat) : BitVec 5120 :=
    let old := i.bank.vacc (i.f.d + n)
    ofVaLanes fun l =>
      if i.on.getLsbD l then (unsignedOf 40 (res n l).1, unsignedOf 40 (res n l).2)
      else (vaPart old l 0, vaPart old l 1)
  let vs := [newVa 0, newVa 1, newVa 2, newVa 3]
  let bank := (((i.bank.setVacc i.f.d (newVa 0)).setVacc (i.f.d + 1) (newVa 1)).setVacc (i.f.d + 2) (newVa 2)).setVacc
    (i.f.d + 3) (newVa 3)
  { i.keep with bank := bank, sr := some (mergeExp (decide (i.f.imm % 2 = 1)) i.sr (blockExp i.on vs)) }

/-- VBEX (R131): IMM[6:0] accumulators from va A, IMM[7] MERGE. -/
def vBex (i : VIn) : VOut :=
  let vs := (List.range (i.f.imm % 128)).map fun n => i.bank.vacc (i.f.a + n)
  { i.keep with sr := some (mergeExp (decide (i.f.imm / 128 % 2 = 1)) i.sr (blockExp i.on vs)) }

/-- Smallest s up to lim for which every value, shifted right under R49, lies within -m..m (R66). -/
def autoShift (m : Int) (vs : List Int) (lim : Nat) : Nat :=
  ((List.range (lim + 1)).find? fun s => vs.all fun v => decide (-m ≤ shiftRound v s) && decide (shiftRound v s ≤ m)).getD lim

/-- VMOVA (R132): explicit shift, saturation at the accumulator part, automatic shift, saturation to DF. -/
def vMova (i : VIn) : VOut :=
  let f := i.fmt
  let w := if f = .ci16 then 40 else 20
  let fields := if f = .ci16 then 1 else 2
  let src := i.bank.vacc i.f.a
  let ss := i.ss.toInt
  -- explicit shift, saturating at the part's width to the left (R132); beyond the width of a part every further right shift gives 0, and every further left shift saturates
  let sh : Int := if 64 < ss then 64 else if ss < -64 then -64 else ss
  let pre (l e p : Nat) : Int × Flags :=
    let v := shiftBy (signed w (vaPart src l p / 2 ^ (w * e))) sh
    if sh < 0 then satSym w v else (v, 0)
  let vals : List Int := (List.range 64).foldr (fun l acc =>
    if i.on.getLsbD l then
      (List.range fields).foldr (fun e a => (pre l e 0).1 :: (pre l e 1).1 :: a) acc
    else acc) []
  let s := if i.am.ashift then autoShift f.range.2 vals 39 else 0
  let out := i.lanes i.f.d fun l =>
    let rs := (List.range fields).map fun e =>
      let p := f.sat (shiftRound (pre l e 0).1 s); let q := f.sat (shiftRound (pre l e 1).1 s)
      (p.1 + 2 ^ f.partBits * q.1, p.2 ||| q.2 ||| (pre l e 0).2 ||| (pre l e 1).2)
    (packNat f.bits (rs.map Prod.fst), rs.foldl (fun a r => a ||| r.2) 0)
  { out with
    flags := out.flags ||| (if 0 < s then fSHIFT else 0)
    sr := some (i.sr + BitVec.ofNat 64 s) }

/-- VPERM4 (R573). -/
def vPerm4 (i : VIn) : VOut :=
  i.lanes i.f.d fun l =>
    let s := i.lb l
    (laneOf (i.bank.reg (i.f.a + s / 64 % 4)) (s % 64), 0)

/-! ## Reductions and scans (R127) -/

/-- Operation codes of VRED and VSCAN: add, min, max, and, or, xor. -/
def redElem (op : Nat) (f : Fmt) (am : AMode) (x y : Nat) : Nat × Flags :=
  match op with
  | 0 => arithElem .add f am x y
  | 1 => arithElem .min f am x y
  | 2 => arithElem .max f am x y
  | 3 => (x &&& y, 0)
  | 4 => (x ||| y, 0)
  | _ => (x ^^^ y, 0)

/-- Combining an element with the identity of the operation. -/
def redUnit (op : Nat) (f : Fmt) (am : AMode) (x : Nat) : Nat × Flags :=
  if 3 ≤ op then (x, 0)
  else if f.isFloat then f.encode am (f.fval x)
  else if f.isComplex then onParts f (fun a _ => a) x x
  else f.sat (f.intVal x)

/-- A tree node: the combined lane value, none where every lane below is inactive, and the flags of its additions. -/
abbrev RedNode := Option Nat × Flags

def redComb (op : Nat) (f : Fmt) (am : AMode) (x y : RedNode) : RedNode :=
  let fl := x.2 ||| y.2
  match x.1, y.1 with
  | none, none => (none, fl)
  | some a, none => let r := onElems f (fun u _ => redUnit op f am u) a a; (some r.1, fl ||| r.2)
  | none, some b => let r := onElems f (fun u _ => redUnit op f am u) b b; (some r.1, fl ||| r.2)
  | some a, some b => let r := onElems f (redElem op f am) a b; (some r.1, fl ||| r.2)

/-- One level of the tree: positions 2i and 2i + 1 combine into position i. -/
def redLevel (op : Nat) (f : Fmt) (am : AMode) : List RedNode → List RedNode
  | x :: y :: r => redComb op f am x y :: redLevel op f am r
  | r => r

/-- The levels of the up-sweep, leaves first. -/
def redLevels (op : Nat) (f : Fmt) (am : AMode) : Nat → List RedNode → List (List RedNode)
  | 0, xs => [xs]
  | n + 1, xs => xs :: redLevels op f am n (redLevel op f am xs)

def VIn.leaves (i : VIn) : List RedNode :=
  (List.range 64).map fun l => (if i.on.getLsbD l then some (i.la l) else none, 0)

/-- VRED: one result in every active lane (R127). -/
def vRed (i : VIn) : VOut :=
  let op := i.f.imm % 8
  let root := ((redLevels op i.fmt i.am 6 i.leaves).getLast?.getD []).headD (none, 0)
  let out := i.lanes i.f.d fun _ => (root.1.getD 0, 0)
  { out with flags := if i.on = 0 then 0 else root.2 }

/-- Down-sweep: the prefixes of a level from those of the level above (left child takes the parent's prefix, right child the
parent's prefix combined with the left child). -/
def scanDown (op : Nat) (f : Fmt) (am : AMode) : List RedNode → List RedNode → List RedNode
  | p :: ps, x :: _ :: r => p :: redComb op f am p x :: scanDown op f am ps r
  | _, _ => []

/-- Prefixes of the leaves, from the levels top first. -/
def scanAll (op : Nat) (f : Fmt) (am : AMode) : List (List RedNode) → List RedNode → List RedNode
  | [], ps => ps
  | lv :: r, ps => scanAll op f am r (scanDown op f am ps lv)

/-- VSCAN: inclusive; the lane's own value is combined last (R127; DEDUCED, log 11). -/
def vScan (i : VIn) : VOut :=
  let op := i.f.imm % 8
  let lv := redLevels op i.fmt i.am 6 i.leaves
  let pre := scanAll op i.fmt i.am (lv.dropLast.reverse) [(none, 0)]
  let res := (pre.zip i.leaves).map fun x => redComb op i.fmt i.am (x.1.1, 0) x.2
  let fl := (pre.foldl (fun a x => a ||| x.2) 0) ||| (res.foldl (fun a x => a ||| x.2) 0)
  let out := i.lanes i.f.d fun l => (((res[l]?).getD (none, 0)).1.getD 0, 0)
  { out with flags := if i.on = 0 then 0 else fl }

/-! ## Functions (R116) -/

def vRcp (i : VIn) : VOut := i.lanes i.f.d fun l => fp32Recip i.am (Fmt.fval .fp32 (i.la l))
def vRsq (i : VIn) : VOut := i.lanes i.f.d fun l => fp32Rsqrt i.am (Fmt.fval .fp32 (i.la l))
def vExp2 (i : VIn) : VOut := i.lanes i.f.d fun l => fp32Exp2 i.am (Fmt.fval .fp32 (i.la l))
def vLog2 (i : VIn) : VOut := i.lanes i.f.d fun l => fp32Log2 i.am (Fmt.fval .fp32 (i.la l))

/-! ## LDPC check nodes (R128) -/

/-- Four byte sub-lanes of a lane. -/
def onBytes (g : Nat → Nat) : Nat := packNat 8 ((List.range 4).map g)
def byteOf (n e : Nat) : Nat := n / 2 ^ (8 * e) % 256

/-- min (abs x, 127) of an 8-bit message. -/
def absMsg (x : Nat) : Int := min ((signed 8 x).natAbs : Int) 127

def VIn.write3 (i : VIn) (t : Nat) (g0 g1 g2 : Nat → Nat) : VOut :=
  let w (n : Nat) (g : Nat → Nat) : BitVec 2048 :=
    ofLanes fun l => if i.on.getLsbD l then g l else laneOf (i.bank.reg (t + n)) l
  { i.keep with bank := ((i.bank.setReg t (w 0 g0)).setReg (t + 1) (w 1 g1)).setReg (t + 2) (w 2 g2) }

/-- VCNI: min1 = min2 = 127, index 63, parity 0. -/
def vCni (i : VIn) : VOut := i.write3 i.f.d (fun _ => 0x7F7F7F7F) (fun _ => 0x7F7F7F7F) (fun _ => 0x3F3F3F3F)

/-- VCNU: the two minima, the edge of the first minimum, the parity. -/
def vCnu (i : VIn) : VOut :=
  let e := i.f.imm % 64
  let m1 (l b : Nat) : Nat := byteOf (laneOf (i.bank.reg i.f.d) l) b
  let m2 (l b : Nat) : Nat := byteOf (laneOf (i.bank.reg (i.f.d + 1)) l) b
  let st (l b : Nat) : Nat := byteOf (laneOf (i.bank.reg (i.f.d + 2)) l) b
  let m (l b : Nat) : Int := absMsg (byteOf (i.la l) b)
  let less (l b : Nat) : Bool := decide (m l b < signed 8 (m1 l b))
  i.write3 i.f.d
    (fun l => onBytes fun b => if less l b then unsignedOf 8 (m l b) else m1 l b)
    (fun l => onBytes fun b =>
      if less l b then m1 l b else if m l b < signed 8 (m2 l b) then unsignedOf 8 (m l b) else m2 l b)
    (fun l => onBytes fun b =>
      let par := (st l b / 64 + byteOf (i.la l) b / 128) % 2
      (if less l b then e else st l b % 64) + 64 * par)

/-- VCNO: the message to edge e with offset β. -/
def vCno (i : VIn) : VOut :=
  let e := i.f.imm % 64
  let beta : Int := ((i.f.imm / 64 % 16 : Nat) : Int)
  i.lanes i.f.d fun l =>
    (onBytes fun b =>
      let m1 := signed 8 (byteOf (i.la l) b)
      let m2 := signed 8 (byteOf (laneOf (i.bank.reg (i.f.a + 1)) l) b)
      let st := byteOf (laneOf (i.bank.reg (i.f.a + 2)) l) b
      let mag := max ((if st % 64 = e then m2 else m1) - beta) 0
      let neg := (st / 64 + byteOf (i.lb l) b / 128) % 2 = 1
      unsignedOf 8 (if neg then -mag else mag), 0)

/-- VSID: strand identity (R142). -/
def vSid (i : VIn) : VOut := i.lanes i.f.d fun l => (i.sid (i.f.imm % 8) l % 2 ^ 32, 0)

/-- VBCST: the low 32 bits of SS in every lane. -/
def vBcst (i : VIn) : VOut := i.lanes i.f.d fun _ => (i.ss.toNat % 2 ^ 32, 0)

end Sys2Proof.Machine
end

