-- ==== Sys2Proof/Machine/Ops.lean ====
section
/-!
DEFINITION. The named operations: registers and their fields, event records, cores and their sides, scratchpad ranges.
-/
namespace Sys2Proof.Machine

/-- The outcome of a command. -/
abbrev Out := Host.Outcome State Fault Refusal

/-- A command takes no cycle, and its effect lies outside the queue: the count of cycles (R357), the stop of the clocks (R538) and the
waiting commands stay those of s. -/
def State.keep (s t : State) : State := { t with gtc := s.gtc, clocksStopped := s.clocksStopped, pending := s.pending }

/-- The effect t where the event that the command stands for can come about; where by its rules it cannot, it does not happen and the
state stays (log 2). Once THERMTRIP has stopped every clock no command runs (R538). -/
def State.when (s : State) (can : Bool) (t : State) : Out :=
  if s.clocksStopped then .refused .clocksStopped else .next (if can then s.keep t else s)

/-! ## Registers -/

/-- Word of a register in a register file; its reset value when it is not listed. -/
def regGet : List (Reg × BitVec 64) → Reg → BitVec 64
  | [], r => r.resetWord
  | (q, w) :: m, r => if q = r then w else regGet m r

/-- Put a word into a register file kept in rising order of offsets. -/
def regPut : List (Reg × BitVec 64) → Reg → BitVec 64 → List (Reg × BitVec 64)
  | [], r, w => [(r, w)]
  | (q, v) :: m, r, w =>
    if q = r then (r, w) :: m
    else if r.offset < q.offset then (r, w) :: (q, v) :: m
    else (q, v) :: regPut m r w

/-- A field of a word. -/
def Fld.get (f : Fld) (w : BitVec 64) : Nat := w.toNat / 2 ^ f.lo % 2 ^ (f.hi + 1 - f.lo)

/-- The word with field f set to the low bits of x. -/
def Fld.set (f : Fld) (w : BitVec 64) (x : Nat) : BitVec 64 :=
  let n := w.toNat
  BitVec.ofNat 64 (n / 2 ^ (f.hi + 1) * 2 ^ (f.hi + 1) + x % 2 ^ (f.hi + 1 - f.lo) * 2 ^ f.lo + n % 2 ^ f.lo)

/-- Largest value of a field. -/
def Fld.top (f : Fld) : Nat := 2 ^ (f.hi + 1 - f.lo) - 1

def State.reg (s : State) (r : Reg) : BitVec 64 := regGet s.regs r
def State.setReg (s : State) (r : Reg) (w : BitVec 64) : State := { s with regs := regPut s.regs r w }
def State.getF (s : State) (r : Reg) (f : Fld) : Nat := f.get (s.reg r)
def State.setF (s : State) (r : Reg) (f : Fld) (x : Nat) : State := s.setReg r (f.set (s.reg r) x)

/-- Add n to a counter field that saturates. -/
def State.satF (s : State) (r : Reg) (f : Fld) (n : Nat) : State := s.setF r f (min (s.getF r f + n) f.top)

/-- Or bits into a field. -/
def State.orF (s : State) (r : Reg) (f : Fld) (x : Nat) : State := s.setF r f (s.getF r f ||| x)

/-- Back to the reset value. -/
def State.resetReg (s : State) (r : Reg) : State := s.setReg r r.resetWord

/-! ## The core map (R559) -/

/-- Physical slot of logical core l while it is available. -/
def State.slotOf (s : State) (l : Nat) : Option Nat :=
  if l < 192 ∧ s.getF (.gctlCmap l) GCTL_CMAP.VALID = 1 then some (s.getF (.gctlCmap l) GCTL_CMAP.SLOT) else none

/-- Logical core that runs on slot p. -/
def State.lcoreOf (s : State) (p : Nat) : Option Nat :=
  (List.range 24).map (fun k => 24 * (p / 26) + k) |>.find? fun l => s.slotOf l == some p

/-- Logical core number for an event record: 0xFF when none (R294). -/
def State.lcoreNo (s : State) (p : Nat) : Nat := (s.lcoreOf p).getD 0xFF

/-! ## Event records -/

/-- Source numbers of R377. -/
def srcBeat : Nat := 0
def srcMp : Nat := 1
def srcSec : Nat := 2
def srcTb (n : Nat) : Nat := 3 + n
def srcLog : Nat := 7
def srcDie (d : Nat) : Nat := 8 + d
def srcRegs : Nat := 0x12
def srcStack (m : Nat) : Nat := 0x20 + m
def srcFh (p : Nat) : Nat := 0x30 + p
def srcWy (w : Nat) : Nat := 0x50 + w
def srcCcl (i : Nat) : Nat := 0x60 + i
def srcIm : Nat := 0x70
def srcCore (p : Nat) : Nat := 0x100 + p
def srcWeave (pt : Nat) : Nat := 0x200 + pt

/-- Payload of R294: beat, logical core (0xFF none), instance (0x7F none), detail. -/
def evPayload (beat lcore inst detail : Nat) : Nat :=
  beat % 2 ^ 21 * 2 ^ 43 + lcore % 256 * 2 ^ 35 + inst % 128 * 2 ^ 28 + detail % 2 ^ 28

/-- Queue a record at its source: a source holds at most 16 undelivered records, further ones are dropped (R493). -/
def State.emitRec (s : State) (e : EvRec) : State :=
  if (s.log.queued.filter fun q => q.source == e.source).length < 16 then
    { s with log := { s.log with queued := s.log.queued ++ [e] } }
  else
    { s.satF .gctlElogLost GCTL_ELOG_LOST.COUNT 1 with
      log := { s.log with dropped := SMap.modify 0 s.log.dropped e.source (· + 1) } }

/-- Write an event record (R294, R377, R492). -/
def State.event (s : State) (source sev cls lcore inst detail : Nat) : State :=
  s.emitRec ⟨s.gtc, source, sev, cls, evPayload (s.getF .timeBeat TIME_BEAT.NUM) lcore inst detail⟩

/-- A record with no core and no instance. -/
def State.note (s : State) (source sev cls detail : Nat) : State := s.event source sev cls 0xFF 0x7F detail

/-! ## Cores -/

def State.core (s : State) (p : Nat) : Core := SMap.get .zero s.cores p
def State.setCore (s : State) (p : Nat) (c : Core) : State := { s with cores := SMap.put .zero s.cores p c }
def State.modCore (s : State) (p : Nat) (f : Core → Core) : State := s.setCore p (f (s.core p))

/-- Every listed core, in turn. -/
def State.mapCores (s : State) (f : Nat → Core → Core) : State :=
  { s with cores := s.cores.foldl (fun m x => SMap.put .zero m x.1 (f x.1 x.2)) s.cores }

def Core.side (c : Core) (k : Nat) : Side := if k = 0 then c.t else c.r
def Core.setSide (c : Core) (k : Nat) (x : Side) : Core := if k = 0 then { c with t := x } else { c with r := x }
def Core.thread (c : Core) (t : Nat) : Thread := SMap.get .idle c.threads t
def Core.setThread (c : Core) (t : Nat) (x : Thread) : Core := { c with threads := SMap.put .idle c.threads t x }
def Core.plait (c : Core) (n : Nat) : Plait := SMap.get .idle c.plaits n
def Core.setPlait (c : Core) (n : Nat) (x : Plait) : Core := { c with plaits := SMap.put .idle c.plaits n x }
def Core.resident (c : Core) (cmd : Nat) : Option Resident := c.residents.find? fun r => r.cmd == cmd

/-- ROLE of the entry in force on slot p: 0 unleased, 1 stake, 2 shared lease, 3 fixed lease (R262). -/
def State.role (s : State) (p : Nat) : Nat := s.getF (.coreCqPlan p) CORE_CQ_PLAN.ROLE
def State.isStake (s : State) (p : Nat) : Bool := s.role p == 1

/-- Domain d has power (R526): bit d mod 32 of GCTL_PDSTAT d / 32. -/
def State.domainOn (s : State) (d : Nat) : Bool := s.getF (.gctlPdstat (d / 32)) ⟨d % 32, d % 32⟩ == 1
def State.setDomain (s : State) (d : Nat) (on : Bool) : State := s.setF (.gctlPdstat (d / 32)) ⟨d % 32, d % 32⟩ on.toNat

/-- The slot's domain has power (R526, R527). -/
def State.powered (s : State) (p : Nat) : Bool := s.domainOn p

/-- Side of a control thread: 0 to 11 side 0, 12 to 15 side 1 (R24, R134). -/
def threadSide (t : Nat) : Nat := if t < 12 then 0 else 1

/-- Scratchpad range of a side, as first address and end (R184). -/
def State.spRange (s : State) (p side : Nat) : Nat × Nat :=
  if s.isStake p then (0, 0xC00000)
  else if side = 1 then (0xB00000, 0xC00000)
  else if s.role p = 3 then (0, 0xC00000)
  else (0, 0xB00000)

/-- Bytes a to a + n - 1 all lie in the range of the side (R123). -/
def State.inRange (s : State) (p side a n : Nat) : Bool :=
  let r := s.spRange p side
  decide (r.1 ≤ a) && decide (a + n ≤ r.2)

/-- The engines use this side now: both on a stake core, else the active one (R24, R134). -/
def State.sideActive (s : State) (p side : Nat) : Bool :=
  s.isStake p || ((s.core p).radio == decide (side = 1))

/-- Arithmetic mode of a side (R55). -/
def State.amode (s : State) (p side : Nat) : AMode :=
  { ashift := s.getF (.coreAmode p side) CORE_AMODE.ASHIFT_EN == 1,
    inf32 := s.getF (.coreAmode p side) CORE_AMODE.INF32 == 1,
    inf16 := s.getF (.coreAmode p side) CORE_AMODE.INF16 == 1 }

/-- Set flags of a side (R55). -/
def State.orFlags (s : State) (p side : Nat) (fl : Flags) : State :=
  if fl = 0 then s else s.orF (.coreAflags p side) ⟨4, 0⟩ fl

/-- Set flags of a side by an instruction of a command: they count for that command's completion record too (R55, R56). -/
def State.flagCmd (s : State) (p side cmd : Nat) (fl : Flags) : State :=
  if fl = 0 then s
  else (s.orFlags p side fl).modCore p fun c =>
    { c with residents := c.residents.map fun r => if r.cmd = cmd then { r with flags := r.flags ||| fl } else r }

/-- Set flags of a matrix-engine partition that a command owns: they count for that command alone, and on a stake core, where partitions of
both sides share the array, CORE_AFLAGS1 shows the union of all of them (R56; DEDUCED, log 81). -/
def State.flagMe (s : State) (p side cmd : Nat) (fl : Flags) : State :=
  if fl = 0 then s
  else
    let s := (s.flagCmd p side cmd fl).modCore p fun c =>
      { c with residents := c.residents.map fun r => if r.cmd = cmd then { r with meFlags := r.meFlags ||| fl } else r }
    if s.isStake p then s.orFlags p 1 fl else s

/-- What a flag register of a core shows: the flags of its side's resident commands, and in CORE_AFLAGS1 of a stake core those of every
partition of the array (R55, R56). -/
def Core.flagsOf (c : Core) (stake : Bool) (k : Nat) : Flags :=
  c.residents.foldl (fun a r => if r.side = k then a ||| r.flags else if stake && k == 1 then a ||| r.meFlags else a) 0

/-- The flags of commands that have left the core are cleared (R55). -/
def State.syncFlags (s : State) (p : Nat) : State :=
  let c := s.core p
  let st := s.isStake p
  (s.setF (.coreAflags p 0) ⟨4, 0⟩ (c.flagsOf st 0)).setF (.coreAflags p 1) ⟨4, 0⟩ (c.flagsOf st 1)

/-- Count health inputs ce, rt, th, st, which saturate at 255 (R480). -/
def State.health (s : State) (ce rt th st : Nat) : State :=
  { s with waling := { s.waling with ce := sat8 s.waling.ce ce, rt := sat8 s.waling.rt rt, th := sat8 s.waling.th th, st := sat8 s.waling.st st } }

/-! ## Scratchpad -/

/-- Write bytes to the scratchpad; whole words become good again, a word written in part keeps its check state (R186). -/
def Core.spWrite (c : Core) (a : Nat) (bs : List Byte) : Core :=
  { c with
    sp := c.sp.write a bs
    spCheck := c.spCheck.filter fun x => !(decide (a ≤ 8 * x.1) && decide (8 * x.1 + 8 ≤ a + bs.length)) }

/-- Some word that bytes a to a + n - 1 touch holds an uncorrectable error (R186). -/
def Core.spBad (c : Core) (a n : Nat) : Bool :=
  c.spCheck.any fun x => decide (x.2 = .double) && decide (8 * x.1 < a + n) && decide (a < 8 * x.1 + 8)

/-- Words with a single-bit error that bytes a to a + n - 1 touch. -/
def Core.spSingles (c : Core) (a n : Nat) : List Nat :=
  (c.spCheck.filter fun x => decide (x.2 = .single) && decide (8 * x.1 < a + n) && decide (a < 8 * x.1 + 8)).map Prod.fst

/-- A read corrects single-bit errors, writes the words back, counts and records them (R186). -/
def State.spCorrect (s : State) (p a n : Nat) : State :=
  (Core.spSingles (s.core p) a n).foldl (fun s w =>
    let s := s.modCore p fun c => { c with spCheck := SMap.erase c.spCheck w }
    let s := (s.satF (.coreSpEcc p) CORE_SP_ECC.CORR 1).health 1 0 0 0
    let s := ((s.setF (.coreSpEaddr p) CORE_SP_EADDR.VALID 1).setF (.coreSpEaddr p) CORE_SP_EADDR.UNC 0).setF
      (.coreSpEaddr p) CORE_SP_EADDR.ADDR (8 * w)
    s.event (srcCore p) 1 0x02 (s.lcoreNo p) 0x7F (w % 2 ^ 21 * 2)) s

/-- An uncorrectable word found in bytes a to a + n - 1 is counted and recorded (R186). -/
def State.spUncorrectable (s : State) (p a n : Nat) : State :=
  match List.find? (fun (x : Nat × Check) => decide (x.2 = .double) && decide (8 * x.1 < a + n) && decide (a < 8 * x.1 + 8))
      (s.core p).spCheck with
  | none => s
  | some x =>
    let s := s.satF (.coreSpEcc p) CORE_SP_ECC.UNCORR 1
    let s := ((s.setF (.coreSpEaddr p) CORE_SP_EADDR.VALID 1).setF (.coreSpEaddr p) CORE_SP_EADDR.UNC 1).setF
      (.coreSpEaddr p) CORE_SP_EADDR.ADDR (8 * x.1)
    s.event (srcCore p) 2 0x02 (s.lcoreNo p) 0x7F (x.1 % 2 ^ 21 * 2 + 1)

/-- The word in front of a write whose bytes cover it in part, and the one behind: each is read, corrected and written back (R186). -/
def State.partCorrect (s : State) (p a n : Nat) : State :=
  let s := if a % 8 = 0 ∧ 8 ≤ n then s else s.spCorrect p a 1
  if (a + n) % 8 = 0 ∨ n = 0 then s else s.spCorrect p (a + n - 1) 1

/-- An uncorrectable word that a write covers in part, found by the write's read step (R186). -/
def State.partUncorrectable (s : State) (p a n : Nat) : State :=
  (if a % 8 = 0 ∧ 8 ≤ n then s else s.spUncorrectable p a 1) |> fun t =>
    if (a + n) % 8 = 0 ∨ n = 0 ∨ (a / 8 = (a + n - 1) / 8 ∧ a % 8 ≠ 0) then t else t.spUncorrectable p (a + n - 1) 1

/-- Write bytes to the scratchpad of a core (R186). -/
def State.spStore (s : State) (p a : Nat) (bs : List Byte) : State :=
  (s.partCorrect p a bs.length).modCore p fun c => c.spWrite a bs

/-! ## Instances and commands -/

def State.inst (s : State) (n : Nat) : Instance := SMap.get .absent s.insts n
def State.setInst (s : State) (n : Nat) (x : Instance) : State := { s with insts := SMap.put .absent s.insts n x }
def State.modInst (s : State) (n : Nat) (f : Instance → Instance) : State := s.setInst n (f (s.inst n))

/-- Instance states of IW_STATE.STATE (R303). -/
def stABSENT : Nat := 0
def stCREATING : Nat := 1
def stACTIVE : Nat := 2
def stQUIESCING : Nat := 3
def stQUIESCED : Nat := 4
def stFAULTED : Nat := 5
def stRESETTING : Nat := 6
def stREMOVING : Nat := 7

def State.instState (s : State) (n : Nat) : Nat := s.getF (.iwState n) IW_STATE.STATE

/-- Move an instance to a state, with its INST_STATE record (R495). -/
def State.setInstState (s : State) (n st : Nat) : State :=
  let old := s.instState n
  (s.setF (.iwState n) IW_STATE.STATE st).event srcIm 0 0x07 0xFF n (st + 8 * old)

/-- The six counters, in the order of R291. -/
def Acct.list (a : Acct) : List Nat := [a.qwait, a.npre, a.held, a.array, a.bytes, a.ovr]

/-- Add to the accounting counters of an instance; they wrap at 2^64 (R291). -/
def State.charge (s : State) (n : Nat) (f : Acct → Acct) : State := s.modInst n fun x =>
  let a := f x.acct
  { x with acct := ⟨a.qwait % 2 ^ 64, a.npre % 2 ^ 64, a.held % 2 ^ 64, a.array % 2 ^ 64, a.bytes % 2 ^ 64, a.ovr % 2 ^ 64⟩ }

def ringKey (n r : Nat) : Nat := 64 * n + r
def State.ring (s : State) (n r : Nat) : Ring := SMap.get .empty s.rings (ringKey n r)
def State.setRing (s : State) (n r : Nat) (x : Ring) : State := { s with rings := SMap.put .empty s.rings (ringKey n r) x }
def State.modRing (s : State) (n r : Nat) (f : Ring → Ring) : State := s.setRing n r (f (s.ring n r))

/-- Number of a command that names it on a core: instance, ring and RIDX together. -/
def CmdKey.no (k : CmdKey) : Nat := (k.ridx * 64 + k.ring) * 128 + k.inst

def State.cmd (s : State) (no : Nat) : Option Cmd := s.cmds.find? fun c => c.key.no == no
def State.modCmd (s : State) (no : Nat) (f : Cmd → Cmd) : State :=
  { s with cmds := s.cmds.map fun c => if c.key.no = no then f c else c }

/-- The slots of an instance's group tag in the claim table are freed (R487). -/
def State.dropClaims (s : State) (n : Nat) : State :=
  { s with waling := { s.waling with claims := s.waling.claims.filter fun c => c.tag != s.getF (.wyGroup n) WY_GROUP.GROUP } }

/-- Grizor runs and takes new work: at load level 3 requests are left queued (R417, R521). -/
def State.mpServes (s : State) : Bool := s.boot.grizor && decide (s.getF .mpLoad MP_LOAD.LEVEL < 3)

/-- Cell-group context g of I0 exists: it holds a cell, or it is the DPD context (R409, R434). -/
def State.cgExists (s : State) (g : Nat) : Bool :=
  decide (g < 127) && (s.radio.cells.any (fun x => match x.2 with | some c => c.ctx == g | none => false)
    || s.radio.dpdCtx == some g)

end Sys2Proof.Machine
end

