-- ==== Sys2Proof/Machine/Journal.lean ====
section
/-!
DEFINITION. Starting a journal record (R154, R248, R249).
-/
namespace Sys2Proof.Machine

def State.setJournal (s : State) (j : Journal) : State := { s with stackSet := { s.stackSet with journal := j } }

/-! ## Requests of a base die (R240, R257) -/

def State.seqQueue (s : State) (m : Nat) : List SeqReq := SMap.get [] s.stackSet.queues m

/-- Records whose JOURNAL request is in the queue or runs on base die m: those of the primary, which forwards to the mirror's (R249). -/
def State.journalReqs (s : State) (m : Nat) : List JRec :=
  let j := s.stackSet.journal
  if (j.primary.map Prod.fst) = some m ∧ !j.lost then j.recs.filter fun r => !r.durable else []

/-- Sequencers of base die m that run a request (R240): programs, JOURNAL writes of the primary, and those that it has forwarded. -/
def State.seqBusy (s : State) (m : Nat) : Nat :=
  let j := s.stackSet.journal
  let here := (j.primary.map Prod.fst) == some m || (j.mirror.map Prod.fst) == some m
  ((s.seqQueue m).filter fun r => r.running).length
    + (if here && !j.lost then (j.recs.filter fun r => r.written && !r.durable).length else 0)

/-- MS_STATUS.SEQBUSY of base die m (R257). -/
def State.showBusy (s : State) (m : Nat) : State := s.setF (.msStatus m) MS_STATUS.SEQBUSY (s.seqBusy m)

/-- Stack of the primary journal copy. -/
def State.journalStack (s : State) : Nat := (s.stackSet.journal.primary.map Prod.fst).getD 0

/-- SEQBUSY of the base dies that hold a copy of the journal. -/
def State.journalBusy (s : State) : State :=
  let j := s.stackSet.journal
  let show1 (s : State) (f : Option Frame) : State := match f with | some f => s.showBusy f.1 | none => s
  show1 (show1 s j.primary) j.mirror

/-- Put the requests of a base die back. -/
def State.setSeqQueue (s : State) (m : Nat) (q : List SeqReq) : State :=
  { s with stackSet := { s.stackSet with queues := SMap.put [] s.stackSet.queues m q } }.showBusy m

/-- Start the write of a record: it waits for JOURNAL_WRITE (R154, R249). -/
def State.journalPut (s : State) (kind : JKind) (cause : Nat) (k : CmdKey) (step : Nat) (body : List Byte) : State :=
  let j := s.stackSet.journal
  let s := { s with stackSet := { s.stackSet with nextReq := s.stackSet.nextReq + 1 } }
  s.setJournal { j with
    next := j.next + 1
    recs := j.recs ++ [{ seq := j.next, req := s.stackSet.nextReq, kind := kind, cause := cause, inst := k.inst, ring := k.ring, ridx := k.ridx, gtc := 0,
                         step := step, body := body, written := false, durable := false, retired := false, reply := [] }] }

end Sys2Proof.Machine
end

