-- ==== Sys2Proof/Machine/Translate.lean ====
section
/-!
DEFINITION. Stack memory and its placement (R223 to R228, R234, R235), the two stages of translation and translation faults
(R302, R311 to R315).
-/
namespace Sys2Proof.Machine

/-! ## Companion addresses (R298) -/

/-- Port of a companion transaction (R298): address bit 12 while both ports are up, the port that is up otherwise; 2 while both
are down, where the transaction is held. -/
def State.cclPort (s : State) (addr : Nat) : Nat :=
  let up0 := s.getF (.cclPortStatus 0) CCL_PORT_STATUS.STATE == 2
  let up1 := s.getF (.cclPortStatus 1) CCL_PORT_STATUS.STATE == 2
  if up0 && up1 then addr / 4096 % 2 else if up0 then 0 else if up1 then 1 else 2

/-! ## Placement and stack lines -/

/-- Group fold of R226. -/
def groupFold (grp : Nat) : Nat := (grp ^^^ (grp >>> 7) ^^^ (grp >>> 14) ^^^ (grp >>> 21)) &&& 0x7F

/-- Stacks over which an instance places its granules: half of its set when it is mirrored (R226, R228). -/
def Instance.spread (x : Instance) : Nat := if x.mirror then x.stackSet.length / 2 else x.stackSet.length

/-- Frame number i of slot k. -/
def Instance.frameAt (x : Instance) (k i : Nat) : Nat := ((((x.frames[k]?).getD [])[i]?).map Prod.snd).getD 0

/-- Slot and stack granule of an instance stack address (R226). -/
def Instance.placeAt (x : Instance) (a : Nat) : Nat × Nat :=
  let n := x.spread
  let g := a / 4096
  let grp := g / n
  let k := (g % n + groupFold grp) % n
  (k, grp >>> 18)

/-- Device physical address of an instance stack address in slot k (R226). -/
def Instance.paIn (x : Instance) (a k : Nat) : Nat :=
  let p := x.placeAt a
  let grp := a / 4096 / x.spread
  let sg := x.frameAt k p.2 * 2 ^ 18 + grp % 2 ^ 18
  ((x.stackSet[k]?).getD 0) * 2 ^ 37 + sg * 2 ^ 12 + a % 4096

/-- place of R226. -/
def Instance.place (x : Instance) (a : Nat) : Nat := x.paIn a (x.placeAt a).1

/-- The mirror copy of a mirrored instance (R228). -/
def Instance.mirrorPlace (x : Instance) (a : Nat) : Option Nat :=
  if x.mirror then some (x.paIn a ((x.placeAt a).1 + x.spread)) else none

/-- Stack of a physical address, its stack granule, and the logical channel (R223, R227). -/
def stackOf (pa : Nat) : Nat := pa / 2 ^ 37
def channelOf (pa : Nat) : Nat :=
  let sg := pa % 2 ^ 37 / 4096
  (sg ^^^ (sg >>> 4) ^^^ (sg >>> 8) ^^^ (sg >>> 12) ^^^ (sg >>> 16) ^^^ (sg >>> 20)) % 16 ^^^ (sg / 2 ^ 24 % 2)

/-- A mirrored instance owns the frame of a physical address (R228). -/
def State.mirroredAt (s : State) (pa : Nat) : Bool :=
  let w := s.reg (.msFrame (stackOf pa) (pa % 2 ^ 37 / 2 ^ 30))
  decide (MS_FRAME.STATE.get w = 2) && decide (MS_FRAME.SYS.get w = 0) && (s.inst (MS_FRAME.OWNER.get w)).mirror

/-- The stack does not answer (R255), or the lines of its channel are being rebuilt from the partner copy of their mirrored frame (R254). -/
def State.stackGone (s : State) (pa : Nat) : Bool :=
  s.getF (.msStatus (stackOf pa)) MS_STATUS.STATE == 2
    || (SMap.get none s.stackSet.rebuilding (stackOf pa) == some (channelOf pa) && s.mirroredAt pa)

/-- Some line of the bytes is poisoned or cannot be read. -/
def State.linesBad (s : State) (pa n : Nat) : Bool :=
  s.stackGone pa || s.stackSet.poison.any fun x => decide (64 * x.1 < pa + n) && decide (pa < 64 * x.1 + 64)

def State.setMem (s : State) (m : Memory) : State := { s with stackSet := { s.stackSet with mem := m } }

/-- Clear POISON of the lines that the bytes cover whole (R234). -/
def State.unpoison (s : State) (pa n : Nat) : State :=
  { s with stackSet := { s.stackSet with
    poison := s.stackSet.poison.filter fun x => !(decide (pa ≤ 64 * x.1) && decide (64 * x.1 + 64 ≤ pa + n)) } }

/-- Payload and record of a stack error (R495): source, severity, class 0x10. -/
def State.msRecord (s : State) (m ch syms : Nat) (mirror journal : Bool) : State :=
  s.note (srcStack m) (if syms = 3 then 2 else 1) 0x10 (ch + 16 * syms + 64 * mirror.toNat + 128 * journal.toNat)

/-! ## Keys and what the dies hold (R222, R233, R237 to R239) -/

/-- The security block draws a key pair from its entropy and loads it into slot k of base dies (R237); the pair is a free value (log 3). -/
def State.drawKey (s : State) (dies : List Nat) (k : Nat) : State :=
  let w (i : Nat) : BitVec 64 := Config.freeBits (s.free + i)
  let pair : KeyPair := ⟨w 0 ++ w 1, w 2 ++ w 3⟩
  { s with
    free := s.free + 4
    stackSet := { s.stackSet with keys := dies.foldl (fun m d => SMap.put none m (66 * d + k) (some pair)) s.stackSet.keys } }

/-- Slot k of base dies is destroyed (R239). -/
def State.dropKey (s : State) (dies : List Nat) (k : Nat) : State :=
  { s with stackSet := { s.stackSet with keys := dies.foldl (fun m d => SMap.erase m (66 * d + k)) s.stackSet.keys } }

/-- Save slot and byte offset in it of a physical address in a save frame (R283). -/
def State.saveAt (s : State) (pa : Nat) : Option (Nat × Nat) :=
  let f := s.beat.saveFrames
  let i := f.findIdx fun x => x == (stackOf pa, pa % 2 ^ 37 / 2 ^ 30)
  let per := (4096 + f.length - 1) / f.length
  let q := pa % 2 ^ 30 / 4096
  if i < f.length then some (q / per, (q % per * f.length + i) * 4096 + pa % 4096) else none

/-- Physical address of byte o of save slot j (R283). -/
def State.savePa (s : State) (j o : Nat) : Nat :=
  let f := s.beat.saveFrames
  let per := (4096 + f.length - 1) / f.length
  let g := o / 4096
  let x := (f[g % f.length]?).getD (0, 0)
  x.1 * 2 ^ 37 + x.2 * 2 ^ 30 + (j * per + g / f.length) * 4096 + o % 4096

/-- Key slot under which the line of a physical address is encrypted: its owner's, the system's, or in a save slot that of the instance whose
image it holds (R237, R283). -/
def State.keySlotOf (s : State) (pa : Nat) : Nat :=
  let w := s.reg (.msFrame (stackOf pa) (pa % 2 ^ 37 / 2 ^ 30))
  match (s.saveAt pa).bind fun x => SMap.get none s.images x.1 with
  | some i => i.inst
  | none => if MS_FRAME.SYS.get w = 1 ∨ MS_FRAME.STATE.get w = 0 then 65 else MS_FRAME.OWNER.get w

/-- The 72 bytes that the dies hold for the line of a physical address, none without its key (R222, R233, R238). -/
def State.dieLine (s : State) (pa : Nat) : Option (List Byte) :=
  let a := pa / 64 * 64
  (SMap.get none s.stackSet.keys (66 * stackOf a + s.keySlotOf a)).map fun k =>
    storedLine (k.xts a (s.stackSet.mem.read a 64)) (SMap.get false s.stackSet.poison (a / 64))

/-- Bytes of stack memory as the owner's key slot decrypts them: once the slot has been destroyed, no line can be read as plaintext, and
the bytes are free values (R238, R239; log 3). -/
def State.clearText (s : State) (n pa len : Nat) : List Byte × State :=
  if (SMap.get none s.stackSet.keys (66 * stackOf pa + n)).isSome then (s.stackSet.mem.read pa len, s)
  else ((List.range len).map fun i => Config.freeByte (s.free + i), { s with free := s.free + len })

/-- The lines that bytes pa to pa + n - 1 touch are rewritten from the partner copy at pb, with a record (R234); a lost copy is not. -/
def State.mirrorLines (s : State) (pa pb n : Nat) : State :=
  let l0 := pa / 64 * 64; let l1 := (pa + n + 63) / 64 * 64
  let s := if s.stackGone pa then s
    else (s.setMem (s.stackSet.mem.write l0 (s.stackSet.mem.read (pb / 64 * 64) (l1 - l0)))).unpoison l0 (l1 - l0)
  s.msRecord (stackOf pa) (channelOf pa) 3 true false

/-- Read bytes of an instance's stack memory inside one granule (R226, R228, R234): none where no good copy is left. A mirrored
instance's partner copy is returned, and the lines are rewritten from it. -/
def State.stackRead (s : State) (n a len : Nat) : Option (List Byte) × State :=
  let x := s.inst n
  let pa := x.place a
  if !s.linesBad pa len then let r := s.clearText n pa len; (some r.1, r.2)
  else match x.mirrorPlace a with
    | none => (none, s)
    | some pb =>
      if s.linesBad pb len then (none, s)
      else
        let r := (s.mirrorLines pa pb len).clearText n pb len
        (some r.1, r.2)

/-- A partly written line holds POISON (R235). -/
def State.partPoisoned (s : State) (pa n : Nat) : Bool :=
  s.stackSet.poison.any fun x => decide (64 * x.1 < pa + n) && decide (pa < 64 * x.1 + 64)
    && !(decide (pa ≤ 64 * x.1) && decide (64 * x.1 + 64 ≤ pa + n))

/-- Write bytes at a physical address; a lost copy takes none. -/
def State.paWrite (s : State) (pa : Nat) (bs : List Byte) : State :=
  if s.getF (.msStatus (stackOf pa)) MS_STATUS.STATE = 2 then s
  else (s.setMem (s.stackSet.mem.write pa bs)).unpoison pa bs.length

/-- A copy of a line that a write covers in part cannot take it: its stack is lost, or the line is poisoned (R235, R255). -/
def State.copyBad (s : State) (pa n : Nat) : Bool := s.getF (.msStatus (stackOf pa)) MS_STATUS.STATE == 2 || s.partPoisoned pa n

/-- Write bytes to an instance's stack memory inside one granule, to both copies of a mirrored one (R228): none where the write is dropped,
for want of a copy whose partly covered lines can be read (R235). Of two copies the read step rewrites a poisoned one from its partner (R234). -/
def State.stackWrite (s : State) (n a : Nat) (bs : List Byte) : Option State :=
  let x := s.inst n
  let pa := x.place a
  match x.mirrorPlace a with
  | none => if s.copyBad pa bs.length then none else some (s.paWrite pa bs)
  | some pb =>
    if s.copyBad pa bs.length && s.copyBad pb bs.length then none
    else
      let s := if s.partPoisoned pa bs.length then s.mirrorLines pa pb bs.length
        else if s.partPoisoned pb bs.length then s.mirrorLines pb pa bs.length else s
      some ((s.paWrite pa bs).paWrite pb bs)

/-! ## Stage 2 (R313) -/

/-- Region of an instance that holds an IPA (R313). -/
def Instance.regionAt (x : Instance) (ipa : Nat) : Option RegionEnt :=
  (x.regions.filterMap Prod.snd).find? fun r => decide (r.ipa ≤ ipa) && decide (ipa < r.ipa + r.size)

/-- Where an access ends, or the fault of R315 with its cause and stage-1 level and the address it names; held: a table word lies in companion
memory, which no CCL port reaches now, so the access waits (R298). -/
inductive Xl where
  | ok (p : Place)
  | fault (cause level addr : Nat)
  | held

/-- Stage 2 of an IPA for n bytes: addr is what a fault names. -/
def State.stage2 (s : State) (n ipa len : Nat) (write : Bool) (addr : Nat) : Xl :=
  match (s.inst n).regionAt ipa with
  | none => .fault 3 0 addr
  | some r =>
    if (if write then r.w else r.r) = false then .fault 4 0 addr
    else match r.type with
      | .stack => .ok (.stack (r.target + (ipa - r.ipa)))
      | .comp => .ok (.comp (r.target + (ipa - r.ipa)))
      | .seq =>
        if write && decide (len = 64) && decide (ipa % 64 = 0) then .ok (.seq r.target (ipa - r.ipa)) else .fault 4 0 addr

/-! ## Stage 1 (R312) -/

/-- A word of a stage-1 table: from stack memory, or by RDC the next of the words that the companion returns for this access (R314), while a CCL
port is up. -/
inductive Word1 where
  | word (w : Nat) (s : State) (rest : List Nat)
  | bad (s : State)
  | fault (cause addr : Nat)
  | held

def State.tableWord (s : State) (n ipa : Nat) (comp : List Nat) : Word1 :=
  match s.stage2 n ipa 8 false ipa with
  | .fault c _ a => .fault c a
  | .held => .held
  | .ok (.stack a) =>
    match s.stackRead n a 8 with
    | (some bs, s) => .word (leNat bs) s comp
    | (none, s) => .bad s
  | .ok (.comp a) =>
    if s.cclPort a = 2 then .held
    else match comp with
    | w :: rest => .word (w % 2 ^ 64) s rest
    | [] => .word 0 s []
  | .ok _ => .fault 4 ipa

/-- Result of stage 1: an IPA, or a fault. -/
inductive Walk where
  | ok (ipa : Nat) (w : Bool) (s : State)
  | fault (cause level addr : Nat) (s : State)
  | held

/-- Walk from a level's table (levels left, level, table, write permission so far). A fault of a table access names the IPA, one of the walk's
result the VA (R315). -/
def State.walk (s : State) (n va : Nat) (write : Bool) : Nat → Nat → Nat → Bool → List Nat → Walk
  | 0, level, _, _, _ => .fault 1 level va s
  | left + 1, level, table, w, comp =>
    let at_ := table + 8 * (va / 2 ^ (39 - 9 * level) % 512)
    match s.tableWord n at_ comp with
    | .fault c a => .fault c level a s
    | .bad s => .fault 5 level at_ s
    | .held => .held
    | .word e s1 rest =>
      let oa := e / 4096 % 2 ^ 36 * 4096
      let leaf := e / 2 % 2 = 1
      let size := 2 ^ (39 - 9 * level)
      if e % 2 = 0 ∨ e / 2 ^ 48 ≠ 0 ∨ e / 8 % 512 ≠ 0 then .fault 1 level va s1
      else if level = 0 ∧ leaf ∨ level = 3 ∧ ¬leaf then .fault 1 level va s1
      else if leaf ∧ oa % size ≠ 0 then .fault 1 level va s1
      else if write = true ∧ e / 4 % 2 = 0 then .fault 2 level va s1
      else if leaf then .ok (oa + va % size) (w && decide (e / 4 % 2 = 1)) s1
      else State.walk s1 n va write left (level + 1) oa (w && decide (e / 4 % 2 = 1)) rest

/-- The cached translations of an instance are invalidated, and IW_S1ROOT takes effect (R314). -/
def State.flushTlb (s : State) (n : Nat) : State := s.modInst n fun x => { x with tlb := [], root := s.reg (.iwS1root n) }

/-- Translate a VA of an instance (R311): stage 1 where IW_S1ROOT.EN is 1, as of the latest invalidation (R314), from a cached translation
where there is one (log 18), then stage 2. comp holds the table words that the companion returns for this access. -/
def State.xlate (s : State) (n va len : Nat) (write : Bool) (comp : List Nat) : Xl × State :=
  if IW_S1ROOT.EN.get (s.inst n).root = 0 then (s.stage2 n va len write va, s)
  else
    let page := va / 4096
    let hit := match SMap.get none (s.inst n).tlb page with
      | some e => if e.w || !write then some e.ipa else none
      | none => none
    match hit with
    | some ipa => (s.stage2 n (ipa + va % 4096) len write va, s)
    | none =>
      match s.walk n va write 4 0 (IW_S1ROOT.ROOT.get (s.inst n).root * 4096) true comp with
      | .held => (.held, s)
      | .fault c l a s1 => (.fault c l a, s1)
      | .ok ipa w s1 =>
        (s1.stage2 n ipa len write va,
          s1.modInst n fun x => { x with tlb := SMap.put none x.tlb page (some ⟨ipa / 4096 * 4096, w⟩) })

end Sys2Proof.Machine
end

