-- ==== Sys2Proof/Machine/Host.lean ====
section
/-!
DEFINITION. Operations of the instance manager towards the companion: CCL transactions, stage-2 translation of ring objects,
completion records, status lines, MSIs, retiring commands (R298 to R310, R313, R320, R322).
-/
namespace Sys2Proof.Machine

def State.cclLink (s : State) (i : Nat) : CclLink := SMap.get .zero s.ccl.links i
def State.modLink (s : State) (i : Nat) (f : CclLink → CclLink) : State :=
  { s with ccl := { s.ccl with links := SMap.put .zero s.ccl.links i (f (s.cclLink i)) } }

/-- Port on which a transaction goes out now: its port, unless that port's replay buffer of 256 flits is full (R296); 2 where it is held. -/
def State.cclOutPort (s : State) (addr : Nat) : Nat :=
  let i := s.cclPort addr
  if i < 2 ∧ (s.cclLink i).first + 256 ≤ (s.cclLink i).next then 2 else i

/-- The flit of a transaction goes out on port i (R296; one flit a transaction: DESIGN CHOICE, log 75). -/
def State.flitOut (s : State) (i : Nat) : State := if i < 2 then s.modLink i fun x => { x with next := x.next + 1 } else s

/-- Issue a CCL transaction; it stays held until it is answered. -/
def State.cclSend (s : State) (kind : CclKind) (addr : Nat) (data : List Byte) (pu : CclPurpose) : State :=
  let i := s.cclOutPort addr
  let t := s.flitOut i
  { t with ccl := { t.ccl with out := t.ccl.out ++ [⟨kind, addr, data, i, pu⟩] } }

/-- Transactions that a test selects are issued on the port that now serves their address (R298). -/
def State.cclRoute (s : State) (hit : CclTxn → Bool) : State :=
  let one (x : List CclTxn × State) (t : CclTxn) : List CclTxn × State :=
    if hit t then (x.1 ++ [{ t with port := x.2.cclOutPort t.addr }], x.2.flitOut (x.2.cclOutPort t.addr)) else (x.1 ++ [t], x.2)
  let r := s.ccl.out.foldl one ([], s)
  { r.2 with ccl := { r.2.ccl with out := r.1 } }

/-- A flit from the companion on port i acknowledges every flit sent (R296); transactions that a full replay buffer held go out. -/
def State.flitAcked (s : State) (i : Nat) : State :=
  if i < 2 then
    (s.modLink i fun x => { x with first := x.next, replay := [] }).cclRoute fun t => t.port == 2
  else s

/-- An RDC of n bytes at a that is issued and answered within one command (DESIGN CHOICE, log 75): the flits of its lines cross. -/
def State.rdcNow (s : State) (a n : Nat) : State :=
  ((List.range ((a % 64 + n + 63) / 64)).foldl (fun s _ => s.flitOut (s.cclPort a)) s).flitAcked (s.cclPort a)

/-- The line cache keeps the line of a transaction: one read by RDS, or a descriptor line while its fetch is in progress (R299, R300). -/
def CclTxn.cached (t : CclTxn) : Bool := t.kind == .rds || (match t.purpose with | .descriptor _ _ _ => true | _ => false)

/-- n more lines find room among the 65,536 of the line cache (R565). -/
def State.cacheRoom (s : State) (n : Nat) : Bool := decide (s.ccl.cache.length + (s.ccl.out.filter CclTxn.cached).length + n ≤ 65536)

/-- Line a enters the line cache in state S (R299, R300), or leaves it. -/
def State.cacheLine (s : State) (a : Nat) : State :=
  if s.ccl.cache.contains a then s else { s with ccl := { s.ccl with cache := s.ccl.cache ++ [a] } }
def State.uncache (s : State) (a : Nat) : State :=
  { s with ccl := { s.ccl with cache := s.ccl.cache.filter fun b => b != a } }

/-- Read by RDC the lines that n bytes at a touch (R207, R300). -/
def State.rdcLines (s : State) (a n : Nat) (pu : CclPurpose) : State :=
  (List.range ((a % 64 + n + 63) / 64)).foldl (fun s i => s.cclSend .rdc (a / 64 * 64 + 64 * i) [] pu) s

/-- Where an IPA of a ring object of instance n lies: companion memory for tenants (R307), stack memory for I0, whose rings the
configuration image places there (R410). The management and device rings carry companion physical addresses (R316). -/
def State.ringPlace (s : State) (n ipa : Nat) (write : Bool) : Option Place :=
  if 65 ≤ n then some (.comp ipa)
  else match (s.inst n).regionAt ipa with
    | some r =>
      if (if write then r.w else r.r) = true then
        (match r.type with
          | .comp => if n = 0 then none else some (.comp (r.target + (ipa - r.ipa)))
          | .stack => if n = 0 then some (.stack (r.target + (ipa - r.ipa))) else none
          | .seq => none)
      else none
    | none => none

/-- Registers of a ring: CTL, STATUS, CMDBASE, CPLBASE, WLINE, SLINE (R305, R316, R477). -/
structure RingRegs where
  ctl : Reg
  status : Reg
  cmdbase : Reg
  cplbase : Reg
  wline : Reg
  sline : Reg

def ringRegs (n r : Nat) : RingRegs :=
  if n < 65 then ⟨.iwRingCtl n r, .iwRingStatus n r, .iwRingCmdbase n r, .iwRingCplbase n r, .iwRingWline n r, .iwRingSline n r⟩
  else if r = 0 then ⟨.mpMgmtCtl, .mpMgmtStatus, .mpMgmtCmdbase, .mpMgmtCplbase, .mpMgmtWline, .mpMgmtSline⟩
  else ⟨.mpDevCtl, .mpDevStatus, .mpDevCmdbase, .mpDevCplbase, .mpDevWline, .mpDevSline⟩

/-- Ring size exponent, in service, MSI vector, MSI on rejections (R305). -/
def State.ringL (s : State) (n r : Nat) : Nat := s.getF (ringRegs n r).ctl IW_RING_CTL.L
def State.ringEn (s : State) (n r : Nat) : Bool := s.getF (ringRegs n r).ctl IW_RING_CTL.EN == 1
def State.ringVec (s : State) (n r : Nat) : Nat := s.getF (ringRegs n r).ctl IW_RING_CTL.MSIVEC
def State.ringRejirq (s : State) (n r : Nat) : Bool := s.getF (ringRegs n r).ctl IW_RING_CTL.REJIRQ == 1

/-- Put a ring into error state (R307): it stops fetching and writes RING_ERR. Descriptors that it has fetched take their course. -/
def State.ringError (s : State) (n r err : Nat) : State :=
  let g := ringRegs n r
  if s.getF g.status IW_RING_STATUS.STATE = 3 then s
  else ((s.setF g.status IW_RING_STATUS.STATE 3).setF g.status IW_RING_STATUS.ERR err).event srcIm 0 0x06 0xFF
    (if n < 65 then n else 0x7F) (r % 64 + 64 * err)

/-- Completion record of R309. -/
def completionRecord (ridx tag status cause flags ring ovr gtc step rerun result l : Nat) : List Byte :=
  leBytes 8 ridx ++ leBytes 8 tag ++ [BitVec.ofNat 8 status, BitVec.ofNat 8 cause, BitVec.ofNat 8 (flags % 32),
    BitVec.ofNat 8 (ring % 64)] ++ leBytes 4 (min ovr (2 ^ 32 - 1)) ++ leBytes 8 gtc ++ leBytes 8 step
    ++ [BitVec.ofNat 8 (min rerun 255)] ++ leBytes 7 0 ++ leBytes 8 result ++ leBytes 7 0
    ++ [BitVec.ofNat 8 (ridx / 2 ^ l % 2)]

/-- CPLPROD moves past every posted completion that follows it (R304). -/
def advanceCpl : Nat → Ring → Ring
  | 0, x => x
  | n + 1, x =>
    if x.posted.contains x.cplprod then
      advanceCpl n { x with cplprod := x.cplprod + 1, posted := x.posted.filter fun i => i != x.cplprod }
    else x

/-- Write an object of a ring; a failure is a ring error (R307). A write to I0's rings is done at once. -/
def State.ringWrite (s : State) (n r ipa : Nat) (bs : List Byte) (pu : CclPurpose) : State :=
  match s.ringPlace n ipa true with
  | some (.comp a) => s.cclSend .wrl a bs pu
  | some (.stack a) => (s.stackWrite n a bs).getD s
  | _ => s.ringError n r 3

/-- Records of a ring whose completions the acknowledged status line counts are retired; the ACCEPT records of the ring's current
step stay (R324). -/
def State.retireRing (s : State) (n r : Nat) : State :=
  let x := s.ring n r
  let j := s.stackSet.journal
  let gone (q : JRec) : Bool :=
    q.durable && decide (q.inst = n) && decide (q.ring = r) && decide (q.ridx < x.acked)
      && (q.kind != .accept || (match x.stepStart with | some b => decide (q.ridx < b) | none => true))
  s.setJournal { j with recs := j.recs.map fun q => if gone q then { q with retired := true } else q }

/-- Status-line write number line, which counts completions below c, is acknowledged. -/
def State.statusAcked (s : State) (n r c line : Nat) : State :=
  (s.modRing n r fun x => { x with acked := max x.acked c, lineAcked := max x.lineAcked line }).retireRing n r

/-- Send an MSI, or hold it in PEND while its vector is masked (R310). -/
def State.msi (s : State) (v : Nat) : State :=
  if s.getF (.cclMsic v) CCL_MSIC.MASK = 1 then s.setF (.cclMsic v) CCL_MSIC.PEND 1
  else s.cclSend .wrp (s.getF (.cclMsia v) CCL_MSIA.ADDR * 4) (leBytes 4 (s.getF (.cclMsid v) CCL_MSID.DATA)) (.msi v)

/-- Send the MSIs of completions whose completion record, SIGNAL write and the status-line write that follows have all been acknowledged, in
order (R310). -/
def State.sendMsis (s : State) : State :=
  let ready (w : MsiWait) : Bool := decide (w.line ≤ (s.ring w.key.inst w.key.ring).lineAcked)
    && !(s.ccl.out.any fun t => t.purpose == .completion w.key || t.purpose == .signalWrite w.key)
  let go := s.ccl.msis.filter ready
  go.foldl (fun s w => s.msi w.vec) { s with ccl := { s.ccl with msis := s.ccl.msis.filter fun w => !ready w } }

/-- Write the status line with the ring's CMDCONS and CPLPROD (R304, R309). -/
def State.statusLine (s : State) (n r : Nat) : State :=
  let s := s.modRing n r fun x => { x with lines := x.lines + 1 }
  let x := s.ring n r
  let s := s.ringWrite n r (s.getF (ringRegs n r).sline IW_RING_SLINE.ADDR * 64)
    (leBytes 8 x.cmdcons ++ leBytes 8 x.cplprod ++ leBytes 48 0) (.status n r x.cmdcons x.cplprod x.lines)
  if n = 0 then (s.statusAcked n r x.cplprod x.lines).sendMsis else s

/-- A completion record: its slot, STATUS, CAUSE, FLAGS, OVR, STEP, RERUN, RESULT, and the MSI vector if one is raised. -/
structure Completion where
  tag : Nat
  status : Nat
  cause : Nat
  flags : Nat
  ovr : Nat
  step : Nat
  rerun : Nat
  result : Nat
  irq : Option Nat
  /-- GTC at which the COMMIT or REJECT record became durable -/
  gtc : Nat

/-- Write a completion record to its slot, count it, do what comes between (the write of a SIGNAL, R323), and write the status
line if CPLPROD advances (R309). The MSI of the completion waits until its writes have been acknowledged (R310). -/
def State.postCompletion (s : State) (k : CmdKey) (c : Completion) (between : State → State) : State :=
  let l := s.ringL k.inst k.ring
  let s := s.ringWrite k.inst k.ring (s.getF (ringRegs k.inst k.ring).cplbase IW_RING_CPLBASE.ADDR * 64 + 64 * (k.ridx % 2 ^ l))
    (completionRecord k.ridx c.tag c.status c.cause c.flags k.ring c.ovr c.gtc c.step c.rerun c.result l) (.completion k)
  let s := between s
  let x := s.ring k.inst k.ring
  let y := if k.ridx < x.cplprod then x else advanceCpl (x.posted.length + 1) { x with posted := x.posted ++ [k.ridx] }
  let s := s.setRing k.inst k.ring y
  let s := match c.irq with
    | some v => { s with ccl := { s.ccl with msis := s.ccl.msis ++ [⟨v, k, x.lines + 1⟩] } }
    | none => s
  if y.cplprod = x.cplprod then s else s.statusLine k.inst k.ring

/-- MSI vector of a completion: the command's IRQ, or the ring's REJIRQ for a rejected, faulted or aborted one (R305, R310). -/
def State.completionIrq (s : State) (c : Cmd) (bad : Bool) : Option Nat :=
  let vec := match c.d.body with
    | .signal b => if c.d.irq then b.msivec else s.ringVec c.inst c.ring
    | _ => s.ringVec c.inst c.ring
  if c.d.irq || (bad && s.ringRejirq c.inst c.ring) then some vec else none

/-- A command has ended with a STATUS and CAUSE: its COMMIT record is started, and its completion effects follow once that is
durable (R309, R322). A silent re-run has no effects (R326). The COMMIT of a SIGNAL carries its RESULT (R248). -/
def State.endCommand (s : State) (no status cause : Nat) : State :=
  match s.cmd no with
  | none => s
  | some c =>
    if c.silent then s.modCmd no fun c => { c with phase := .committed }
    else
      let body := match c.d.body with
        | .signal _ => if status = 1 then leBytes 8 c.result else []
        | _ => []
      (s.modCmd no fun c => { c with phase := .ended, status := status, cause := cause }).journalPut .commit 0 c.key c.d.step body

/-- Accepted and not completed (R320). -/
def Cmd.open_ (c : Cmd) : Bool := c.phase == .waiting || c.phase == .running

/-- Retire every accepted, uncompleted command of an instance with a status (R320, R321): a COMMIT record keeps the report single
(DEDUCED, log 23). Silent re-runs, already reported, are dropped. -/
def State.retireAll (s : State) (n status cause : Nat) : State :=
  let mine := s.cmds.filter fun c => c.inst == n && c.open_
  let s := { s with cmds := s.cmds.filter fun c => !(c.inst == n && (c.silent && c.open_ || c.phase == .committed)) }
  mine.foldl (fun s c => if c.silent then s else s.endCommand c.key.no status cause) s

end Sys2Proof.Machine
end

