-- ==== Sys2Proof/Machine/Time.lean ====
section
/-!
DEFINITION. The time bases: servos, states, TBR and its switch, the clock rate, the beat's start and alignment, time inputs and
outputs (R357 to R380, R562).
-/
namespace Sys2Proof.Machine

/-! ## Values -/

/-- Clamp a rational. -/
def clampQ (lo hi x : Rat) : Rat := if x < lo then lo else if hi < x then hi else x

/-- The signed field of w bits that holds an integer, saturating. -/
def satField (w : Nat) (v : Int) : Nat :=
  let m : Int := ((2 ^ (w - 1) : Nat) : Int)
  unsignedOf w (if v < -m then -m else if m - 1 < v then m - 1 else v)

/-- Nominal length of an ACLK cycle in ns (3.6 GHz, R357). -/
def cycleNs : Rat := 5 / 18

/-- Length of a cycle at the clock rate in force (R361, R370). -/
def State.cycle (s : State) : Rat := cycleNs / (1 + s.time.fsrc + s.time.ftrim)

def State.tb (s : State) (n : Nat) : TimeBase := SMap.get .zero s.time.tbs n
def State.setTb (s : State) (n : Nat) (x : TimeBase) : State :=
  { s with time := { s.time with tbs := SMap.put .zero s.time.tbs n x } }

def tbOFF : Nat := 0
def tbFREE : Nat := 1
def tbACQUIRE : Nat := 2
def tbLOCKED : Nat := 3
def tbHOLDOVER : Nat := 4
def tbHOLDOVERF : Nat := 5

def State.tbState (s : State) (n : Nat) : Nat := s.getF (.timeTbStatus n) TIME_TB_STATUS.STATE
def State.psrc (s : State) (n : Nat) : Nat := s.getF (.timeTbCfg n) TIME_TB_CFG.PSRC
def State.follow (s : State) (n : Nat) : Nat := s.getF (.timeTbCfg n) TIME_TB_CFG.FOLLOW

/-- TB_STATE record (R378). -/
def State.tbNote (s : State) (n old new : Nat) : State :=
  s.event (srcTb n) (if new = tbOFF ∨ new = tbHOLDOVER ∨ new = tbHOLDOVERF then 1 else 0) 0x50 0xFF n (new + 8 * old)

/-- The configuration of a time base is allowed. -/
def State.tbConfigOk (s : State) (n : Nat) : Bool :=
  match s.psrc n with
  | 0 => true
  | 1 => decide (n < 2)
  | 2 | 3 => decide (n < 3)
  | 4 => decide (n = 2)
  | 5 => decide (2 ≤ n) && decide (s.follow n ≠ n) && (n != 2 || decide (s.follow n < 2))
  | _ => false

/-- Time base k, in service, copies time base n (R362). -/
def State.follows (s : State) (k n : Nat) : Bool :=
  s.getF (.timeTbCfg k) TIME_TB_CFG.EN == 1 && s.tbConfigOk k && s.psrc k == 5 && s.follow k == n

/-- Move a time base to a state; those that follow it report the same (R362, R364). -/
def State.setTbState (s : State) (n new : Nat) : State :=
  let one (s : State) (k : Nat) : State :=
    let old := s.tbState k
    if old = new then s else (s.setF (.timeTbStatus k) TIME_TB_STATUS.STATE new).tbNote k old new
  let s := one s n
  let s := if s.follows 2 n then one s 2 else s
  if s.follows 3 n || (s.follows 2 n && s.follows 3 2) then one s 3 else s

/-- Frequency input of a time base: 0 when FSEL is 0; none while it is invalid (R362, R375). -/
def State.fsel (s : State) (n : Nat) : Option Rat :=
  match s.getF (.timeTbCfg n) TIME_TB_CFG.FSEL with
  | 1 => SMap.get none s.time.freqs (1 + s.getF (.timeTbCfg n) TIME_TB_CFG.FPORT)
  | 2 => SMap.get none s.time.freqs 0
  | _ => none

def State.fin (s : State) (n : Nat) : Rat := (s.fsel n).getD 0

/-- Rate correction in force, in ppb: that of the servo; FREE adds f_in to the last one (R364). -/
def State.rateNow (s : State) (n : Nat) : Rat := (s.tb n).rate + if s.tbState n = tbFREE then s.fin n else 0

/-- Advance of time base n in one cycle (R361). -/
def State.addend (s : State) (n : Nat) : Rat := s.cycle * (1 + s.rateNow n / 1000000000)

/-- The rate register shows the correction in force in units of 2^-8 ppb (R380). -/
def State.showRate (s : State) (n : Nat) : State := s.setF (.timeTbRate n) TIME_TB_RATE.RATE (satField 32 (s.rateNow n * 256).floor)
def State.setRate (s : State) (n : Nat) (y : Rat) : State := (s.setTb n { s.tb n with rate := y }).showRate n

/-- A time rounded to the sub-ns unit of 2^-16 ns, ties to even (R48, R361). -/
def subNs (t : Rat) : Rat :=
  let x := t * 65536
  let f := x.floor
  let r := x - (f : Rat)
  ((if r < 1 / 2 ∨ (r = 1 / 2 ∧ f % 2 = 0) then f else f + 1 : Int) : Rat) / 65536

/-- Value of time base n at an edge frac / 256 of a cycle after the start of this one (R361). -/
def State.edgeTime (s : State) (n frac : Nat) : Rat := subNs ((s.tb n).value + s.addend n * ((frac : Rat) / 256))

/-- TB3's offset, in ns (R362, R380). -/
def State.appofs (s : State) : Rat := ((signed 64 (s.reg .timeAppofs).toNat : Int) : Rat) / 65536

/-- The value that time base n takes from time base k under PSRC 5: its own, or what TB2 copies, with the offset of TB3 (R362). -/
def State.followed (s : State) (n k : Nat) : Rat :=
  let v := (s.tb (if k = 2 ∧ s.psrc 2 = 5 then s.follow 2 else k)).value
  if n = 3 then v + s.appofs else v

/-- The value that time base n shows: its own, or that of the base it follows (R362). -/
def State.tbValue (s : State) (n : Nat) : Rat :=
  if s.tbState n = tbOFF then 0
  else if 2 ≤ n ∧ s.psrc n = 5 then s.followed n (s.follow n)
  else (s.tb n).value

/-! ## Radio time (R367 to R369) -/

/-- The selected radio time base. -/
def State.tbSel (s : State) : Nat := s.getF .timeRadio TIME_RADIO.ACTIVE

/-- TBR in ns (R367). -/
def State.tbr (s : State) : Rat := s.tbValue s.tbSel + s.time.d

/-- Put D, with SWITCHING and RESID. -/
def State.setD (s : State) (d : Rat) : State :=
  (({ s with time := { s.time with d := d } }.setF .timeRadio TIME_RADIO.SWITCHING (if d = 0 then 0 else 1)).setF .timeRadio
    TIME_RADIO.RESID (satField 25 d.floor))

/-- RADIO_SWITCH record (R378). -/
def State.switchNote (s : State) (atEnd : Bool) (d : Rat) : State :=
  s.event (srcTb s.tbSel) 0 0x52 0xFF s.tbSel (atEnd.toNat * 2 ^ 27 + satField 27 d.floor)

/-- Switch TBR to a time base: TBR does not step (R368). -/
def State.switchTo (s : State) (n : Nat) : State :=
  let old := s.tbr
  let s := s.setF .timeRadio TIME_RADIO.ACTIVE n
  let d := old - s.tbValue n
  let s := (s.setD d).switchNote false d
  if d = 0 then s.switchNote true d else s

/-- RADIO_SWITCH: a write of ACTIVE (R368). -/
def execRadioSwitch (active : Nat) (s : State) : Out :=
  s.when (decide (active < 2) && decide (active ≠ s.tbSel)) (s.switchTo active)

/-- With AUTO the device switches when the selected base leaves LOCKED and the other one is LOCKED (R369). -/
def State.autoSwitch (s : State) (n : Nat) : State :=
  if s.getF .timeRadio TIME_RADIO.AUTO = 1 ∧ n = s.tbSel ∧ s.tbState (1 - n) = tbLOCKED then s.switchTo (1 - n) else s

/-- f_src follows the selected base's rate with FSRC 1, and is 0 with FSRC 0 (R370). -/
def State.clockSource (s : State) : State :=
  match s.getF .timeClk TIME_CLK.FSRC with
  | 0 => { s with time := { s.time with fsrc := 0 } }
  | 1 => { s with time := { s.time with fsrc := clampQ (-1 / 10000) (1 / 10000) ((s.tb s.tbSel).rate / 1000000000) } }
  | _ => s

/-! ## Configuration (R362) -/

/-- After the beat has started TBR does not step: what a change of the selected base would make it jump goes into D (R367, R368). -/
def State.keepTbr (s : State) (old : Rat) : State :=
  if s.beat.started ∧ s.tbr ≠ old then (s.setD (s.time.d + (old - s.tbr))).switchNote false (s.time.d + (old - s.tbr)) else s

/-- A time base takes its configuration: OFF, FREE, the state of the base it follows, or ACQUIRE until measurements lock it. old is its CFG
before: a base that leaves PSRC 5 goes on from the value that it copied (DESIGN CHOICE, log 76). -/
def State.tbConfigured (s : State) (n : Nat) (old : BitVec 64) : State :=
  let st := s.tbState n
  let was := TIME_TB_CFG.EN.get old == 1 && TIME_TB_CFG.PSRC.get old == 5
  let s1 :=
    if s.getF (.timeTbCfg n) TIME_TB_CFG.EN = 0 then (s.setTb n .zero).setTbState n tbOFF
    else if !s.tbConfigOk n then
      let s := (s.setTb n .zero).setTbState n tbOFF
      if st = tbOFF then s.tbNote n st tbOFF else s
    else if s.psrc n = 5 then s.setTbState n (s.tbState (s.follow n))
    else
      let s := if was && st != tbOFF then s.setTb n { s.tb n with value := s.followed n (TIME_TB_CFG.FOLLOW.get old) } else s
      if s.psrc n = 0 then s.setTbState n tbFREE
      else if was || st == tbOFF || st == tbFREE then
        (s.setTb n { s.tb n with last := s.gtc, elapsed := 0, inside := 0, outside := 0 }).setTbState n tbACQUIRE
      else s
  let s2 := (s1.showRate n).keepTbr s.tbr
  if st = tbLOCKED ∧ s2.tbState n ≠ tbLOCKED then s2.autoSwitch n else s2

/-! ## Measurements (R363, R364) -/

/-- Step a time base by e ns: TB_STEP; a step of the selected base after the beat has started goes into D (R364, R368). -/
def State.stepTb (s : State) (n : Nat) (e : Rat) : State :=
  let s := s.setTb n { s.tb n with value := (s.tb n).value + e, integ := 0 }
  let s := s.event (srcTb n) 0 0x51 0xFF n (satField 28 e.floor)
  if s.beat.started ∧ n = s.tbSel then
    let d := s.time.d - e
    (s.setD d).switchNote false d
  else s

/-- A phase measurement: e ns at time base n (R363, R364). One that steps the value corrects the rate as any other, and then clears integ
(DEDUCED, log 76). The LOCK and UNLOCK transitions are steps of their own. -/
def State.measure (s : State) (n : Nat) (e : Rat) : State :=
  let st := s.tbState n
  if st = tbOFF ∨ st = tbFREE ∨ s.psrc n = 5 then s
  else
    let s := if st = tbHOLDOVER ∨ st = tbHOLDOVERF then s.setTbState n tbACQUIRE else s
    let s := s.setF (.timeTbStatus n) TIME_TB_STATUS.OFFSET (satField 24 (e * 4).floor)
    let x := s.tb n
    let a := if e < 0 then -e else e
    let lock : Rat := (s.getF (.timeTbServo n) TIME_TB_SERVO.LOCKNS : Rat) / 4
    let y := { x with
      last := s.gtc
      elapsed := 0
      inside := if a ≤ lock then x.inside + 1 else 0
      outside := if 4 * lock < a then x.outside + 1 else 0 }
    let r := e / (x.elapsed / 1000000000)
    let kp : Rat := ((2 ^ s.getF (.timeTbServo n) TIME_TB_SERVO.KPE : Nat) : Rat)
    let ki : Rat := ((2 ^ s.getF (.timeTbServo n) TIME_TB_SERVO.KIE : Nat) : Rat)
    let integ := clampQ (-100000) 100000 (x.integ + r / ki)
    let s := (s.setTb n { y with integ := integ }).setRate n (clampQ (-100000) 100000 (s.fin n + r / kp + integ))
    (if s.tbState n = tbACQUIRE ∧ 1000 < a then s.stepTb n e else s).clockSource

/-- TIME_BASE_LOCK (R364). -/
def execTimeBaseLock (n : Nat) (s : State) : Out :=
  s.when (decide (n < 4) && decide (s.psrc n ≠ 5) && decide (s.tbState n = tbACQUIRE)
      && decide (16 ≤ (s.tb n).inside))
    ((s.setTb n { s.tb n with outside := 0 }).setTbState n tbLOCKED)

/-- TIME_BASE_UNLOCK (R364), with the automatic switch of R369. -/
def execTimeBaseUnlock (n : Nat) (s : State) : Out :=
  s.when (decide (n < 4) && decide (s.psrc n ≠ 5) && decide (s.tbState n = tbLOCKED)
      && decide (4 ≤ (s.tb n).outside))
    (((s.setTb n { s.tb n with inside := 0 }).setTbState n tbACQUIRE).autoSwitch n)

/-- HOLDOVER (R364): the last rate correction is held; with a valid frequency source the rate is f_in + integ. -/
def execHoldover (n : Nat) (s : State) : Out :=
  let x := s.tb n
  let st := s.tbState n
  let s1 := s.setTb n { x with inside := 0, outside := 0 }
  s.when
    (decide (n < 4) && decide (s.psrc n ≠ 5) && (decide (st = tbACQUIRE) || decide (st = tbLOCKED))
      && decide (x.last + s.getF (.timeTbCfg n) TIME_TB_CFG.LOSS * 57600000 ≤ s.gtc))
    (match s.fsel n with
      | some f => ((((s1.setTbState n tbHOLDOVERF).setRate n (f + x.integ)).clockSource).autoSwitch n)
      | none => (s1.setTbState n tbHOLDOVER).autoSwitch n)

/-- FREQUENCY_WINDOW (R375): a 1 ms window of a frequency input, 0 the 10 MHz input, 1 + p SyncE of port p, measures ppb against
ACLK; beyond 100 ppm the source is invalid. A base that runs on its frequency source takes the new f_in. -/
def execFrequencyWindow (src : Nat) (ppb : Int) (s : State) : Out :=
  let ok := decide (-100000 ≤ ppb) && decide (ppb ≤ 100000)
  let s1 := { s with time := { s.time with freqs := SMap.put none s.time.freqs src (if ok then some (ppb : Rat) else none) } }
  let upd (s : State) (n : Nat) : State :=
    let named := (match s.getF (.timeTbCfg n) TIME_TB_CFG.FSEL with
      | 1 => src == 1 + s.getF (.timeTbCfg n) TIME_TB_CFG.FPORT
      | 2 => src == 0
      | _ => false)
    if !named then s
    else
      let s := s.setF (.timeTbStatus n) TIME_TB_STATUS.FVALID ok.toNat
      let st := s.tbState n
      if s.psrc n = 5 then s
      else if st = tbFREE then s.showRate n
      else if st = tbHOLDOVERF ∧ ok = false then (s.setTbState n tbHOLDOVER)
      else if st = tbHOLDOVER ∧ ok = true then (s.setTbState n tbHOLDOVERF).setRate n ((ppb : Rat) + (s.tb n).integ)
      else if st = tbHOLDOVERF then s.setRate n ((ppb : Rat) + (s.tb n).integ)
      else s
  s.when (decide (src < 25)) (([0, 1, 2, 3].foldl upd s1).clockSource)

/-- APPOFS_WRITE: a write of TIME_APPOFS steps TB3 (R380). -/
def execAppofsWrite (v : Nat) (s : State) : Out :=
  let old := s.appofs
  let s1 := s.setReg .timeAppofs (BitVec.ofNat 64 v)
  s.when (decide (v < 2 ^ 64)) (s1.event (srcTb 3) 0 0x51 0xFF 3 (satField 28 (s1.appofs - old).floor))

/-- TIME_SEC_READ: a read of TIME_TBn_SEC latches the ns of the same cycle (R380). -/
def execTimeSecRead (n : Nat) (s : State) : Out :=
  let v := s.tbValue n
  let sub := (v * 65536).floor.toNat
  let sec := sub / (65536 * 1000000000)
  let s1 := s.setF (.timeTbSec n) TIME_TB_SEC.SEC sec
  s.when (decide (n < 4))
    ((s1.setF (.timeTbNs n) TIME_TB_NS.NS (sub / 65536 % 1000000000)).setF (.timeTbNs n) TIME_TB_NS.SUBNS sub)

/-! ## The clock and the beat (R258, R370 to R372) -/

/-- Cycles of a beat by DIV (R258), and beats in one ms (R28). -/
def beatCycles (div : Nat) : Nat := 225000 / 2 ^ div
def beatsPerMs (div : Nat) : Nat := 16 * 2 ^ div

/-- Beats in one ms at the beat length in force. -/
def State.perMs (s : State) : Nat := 3600000 / s.beat.length

/-- Length of a beat in TBR ns. -/
def State.beatNs (s : State) : Rat := 1000000 / (s.perMs : Rat)

/-- Start of hyperframe 0 in ns (R371). -/
def State.hyper0 (s : State) : Rat := 315964819000000000 + ((signed 32 (s.getF .timeHfofs TIME_HFOFS.OFS) : Int) : Rat)

/-- BEAT_START (R371, R506): TBR is LOCKED for the first time, in the time stage of the cold start; the next whole beat after a hyperframe start becomes the first boundary. -/
def execBeatStart (s : State) : Out :=
  let len := beatCycles (s.getF .timeBeat TIME_BEAT.DIV)
  let s0 := { s with beat := { s.beat with length := len } }
  let t := s.tbr - s.hyper0
  let k := (t / s0.beatNs).floor + 1
  let wait := ((s.hyper0 + (k : Rat) * s0.beatNs - s.tbr) / s.addend s.tbSel).ceil.toNat
  let per : Nat := 10240 * s0.perMs
  let num := (k % ((per : Nat) : Int)).toNat
  s.when (!s.beat.started && decide (s.getF .mpBootstat MP_BOOTSTAT.STAGE = 5) && decide (s.tbState s.tbSel = tbLOCKED))
    (({ s0 with
        beat := { s0.beat with started := true, first := true, boundary := s.gtc + wait }
        time := { s0.time with ideal := s.hyper0 + (k : Rat) * s0.beatNs } }).setF .timeBeat TIME_BEAT.NUM num)

/-- The beat aligner at a boundary (R372). -/
def State.beatAlign (s : State) : State :=
  let eb := s.tbr - s.time.ideal
  let a := if eb < 0 then -eb else eb
  let s := s.setF .timeBeaterr TIME_BEATERR.EB (satField 24 (eb * 4).floor)
  let s := if 5000 < a then
      (s.setF .timeBeaterr TIME_BEATERR.EXCEED 1).event (srcTb s.tbSel) 1 0x53 0xFF 0x7F (satField 28 eb.floor)
    else s
  let trim := if s.getF .timeClk TIME_CLK.FSRC = 2 then 0 else clampQ (-5 / 100000) (5 / 100000) (eb / s.beatNs)
  { s with time := { s.time with ftrim := trim } }.setF .timeClk TIME_CLK.TRIM (satField 16 (trim * 100000000).floor)

/-! ## 1PPS, time of day (R373, R374, R376) -/

def State.ppsIn (s : State) (i : Nat) : PpsIn := SMap.get .idle s.time.pps i
def State.setPps (s : State) (i : Nat) (x : PpsIn) : State := { s with time := { s.time with pps := SMap.put .idle s.time.pps i x } }

/-- Time bases that take their phase from 1PPS input i. -/
def State.ppsUsers (s : State) (i : Nat) : List Nat :=
  [0, 1, 2].filter fun n => s.getF (.timeTbCfg n) TIME_TB_CFG.EN == 1 && s.psrc n == 2 + i && decide (s.tbState n ≠ tbOFF)

/-- PPS_EDGE: an edge on input i, frac / 256 of a cycle after the start of this one (R361, R373). -/
def execPpsEdge (i frac : Nat) (s : State) : Out :=
  let vals := (s.ppsUsers i).map fun n => (n, s.edgeTime n frac)
  s.when (decide (i < 2) && decide (frac < 256))
    (s.setPps i { edge := some s.gtc, values := vals, noted := false })

/-- TOD_ERROR record; the time units write it with the number of the first base that uses the UART's label. -/
def State.todError (s : State) (bit : Nat) : State :=
  let n := (((s.ppsUsers 0 ++ s.ppsUsers 1).head?).getD 0)
  s.event (srcTb n) 1 0x54 0xFF 0x7F (2 ^ bit)

/-- CRC-16 of R374. -/
def crc16 (bs : List Byte) : Nat :=
  let bit (c : Nat) : Nat := if c / 32768 % 2 = 1 then (c * 2) % 65536 ^^^ 0x1021 else c * 2 % 65536
  bs.foldl (fun c b => Nat.repeat bit 8 (c ^^^ (b.toNat * 256))) 0xFFFF

/-- Days from 1970-01-01 to a date of the Gregorian calendar. -/
def daysOf (y m d : Nat) : Nat :=
  let leap (y : Nat) : Bool := decide (y % 4 = 0) && (decide (y % 100 ≠ 0) || decide (y % 400 = 0))
  let years := (List.range (y - 1970)).foldl (fun a k => a + if leap (1970 + k) then 366 else 365) 0
  let months := ([31, if leap y then 29 else 28, 31, 30, 31, 30, 31, 31, 30, 31, 30, 31].take (m - 1)).sum
  years + months + (d - 1)

/-- Decimal digits. -/
def decOf (cs : List Nat) : Nat := cs.foldl (fun a c => 10 * a + (c - 48)) 0
def hexDigit (c : Nat) : Nat := if c < 58 then c - 48 else if c < 71 then c - 55 else c - 87

/-- Split at commas. -/
def commas : List Nat → List (List Nat)
  | [] => [[]]
  | c :: cs => if c = 44 then [] :: commas cs else match commas cs with
    | x :: xs => (c :: x) :: xs
    | [] => [[c]]

/-- UTC seconds of a ZDA or RMC sentence with a valid checksum (R374; the sentence layout is that of NMEA 0183, PRESUMED, log 24). -/
def nmeaUtc (cs : List Nat) : Option Nat :=
  match cs with
  | 36 :: rest =>
    let body := rest.takeWhile (· ≠ 42)
    let tail := rest.drop (body.length + 1)
    let sum := body.foldl (fun a c => a ^^^ c) 0
    match tail with
    | h :: l :: _ =>
      if 16 * hexDigit h + hexDigit l ≠ sum then none
      else
        let f := commas body
        let hms (t : List Nat) : Nat := decOf (t.take 2) * 3600 + decOf ((t.drop 2).take 2) * 60 + decOf ((t.drop 4).take 2)
        let name := (((f[0]?).getD []).drop 2).take 3
        if name = [90, 68, 65] then
          match f[1]?, f[2]?, f[3]?, f[4]? with
          | some t, some d, some m, some y => some (daysOf (decOf y) (decOf m) (decOf d) * 86400 + hms t)
          | _, _, _, _ => none
        else if name = [82, 77, 67] then
          match f[1]?, f[2]?, f[9]? with
          | some t, some st, some d =>
            if st = [65] then
              some (daysOf (2000 + decOf ((d.drop 4).take 2)) (decOf ((d.drop 2).take 2)) (decOf (d.take 2)) * 86400 + hms t)
            else none
          | _, _, _ => none
        else none
    | _ => none
  | _ => none

/-- What a time-of-day message gives: TAI seconds and, from a binary frame, UTCOFS; or the bit of TOD_ERROR (R374, R378). -/
def State.todParse (s : State) (cs : List Nat) : (Nat × Option Nat) ⊕ Nat :=
  if s.getF .timeTod TIME_TOD.FORM = 1 then
    let bs := cs.map (BitVec.ofNat 8)
    let at_ (i n : Nat) : Nat := leNat ((bs.drop i).take n)
    if bs.length ≠ 16 ∨ at_ 0 1 ≠ 0x4D ∨ at_ 1 1 ≠ 0x54 ∨ at_ 2 1 ≠ 1 ∨ crc16 (bs.take 14) ≠ at_ 14 2 then .inr 1
    else if at_ 3 1 % 2 = 0 then .inr 2
    else .inl (at_ 4 6, some (at_ 10 2))
  else match nmeaUtc cs with
    | some u => .inl (((u : Int) + signed 16 (s.getF .timeTod TIME_TOD.UTCOFS)).toNat, none)
    | none => .inr 1

/-- TIME_OF_DAY_MESSAGE: the UART has received a message of these characters (R373, R374). It labels the edges of 10 ms to 900 ms
before. -/
def execTimeOfDayMessage (cs : List Nat) (s : State) : Out :=
  let label (sec : Nat) (s : State) (i : Nat) : State :=
    let x := s.ppsIn i
    match x.edge with
    | some e =>
      if e + 36000000 ≤ s.gtc ∧ s.gtc ≤ e + 3240000000 then
        let s := s.setPps i { x with values := [] }
        x.values.foldl (fun s v => s.measure v.1 ((sec : Rat) * 1000000000 - v.2)) s
      else s
    | none => s
  s.when (decide (s.getF .timeTod TIME_TOD.EN = 1) && cs.all (fun c => decide (c < 256)))
    (match s.todParse cs with
      | .inl (sec, ofs) =>
        let s := match ofs with | some o => s.setF .timeTod TIME_TOD.UTCOFS o | none => s
        label sec (label sec s 0) 1
      | .inr bit => s.todError bit)

/-- TOD_MESSAGE_TIMEOUT: an edge of input i is not labelled by 900 ms (R373). -/
def execTodMessageTimeout (i : Nat) (s : State) : Out :=
  let x := s.ppsIn i
  s.when
    (decide (i < 2) && !x.values.isEmpty && (match x.edge with | some e => decide (e + 3240000000 ≤ s.gtc) | none => false))
    ((s.setPps i { x with values := [] }).todError 0)

/-- PPS_MISSING: no edge on input i for 1.1 s (R373). -/
def execPpsMissing (i : Nat) (s : State) : Out :=
  let x := s.ppsIn i
  let last := x.edge.getD 0
  let n := (((s.ppsUsers i).head?).getD 0)
  s.when (decide (i < 2) && !x.noted && !(s.ppsUsers i).isEmpty && decide (last + 3960000000 ≤ s.gtc))
    ((s.setPps i { x with noted := true }).event (srcTb n) 1 0x55 0xFF 0x7F i)

/-- Value that 1PPS_OUT follows (R376). -/
def State.ppsBase (s : State) : Rat :=
  match s.getF .timePpsout TIME_PPSOUT.TB with
  | 3 => s.tbr
  | n => s.tbValue n

/-- PPS_OUT_PULSE (R376, R562): this cycle is the nearest to a whole second plus OFFSET; a beat-trace pulse is cut short. -/
def execPpsOutPulse (s : State) : Out :=
  let t := s.ppsBase - ((signed 28 (s.getF .timePpsout TIME_PPSOUT.OFFSET) : Int) : Rat)
  let near := t - ((t / 1000000000 + 1 / 2).floor : Rat) * 1000000000
  let half := s.cycle / 2
  s.when (decide (s.getF .timePpsout TIME_PPSOUT.EN = 1) && decide (-half ≤ near) && decide (near ≤ half)
      && s.time.ppsOut.isNone)
    { s with time := { s.time with
        ppsOut := some s.gtc
        trace := if s.getF .gctlPinmux GCTL_PINMUX.PPSLAND = 2 then none else s.time.trace } }

/-- PPS_OUT_PULSE_END: 100 µs after the rise (R376). -/
def execPpsOutPulseEnd (s : State) : Out :=
  s.when (match s.time.ppsOut with | some r => decide (r + 360000 ≤ s.gtc) | none => false)
    { s with time := { s.time with ppsOut := none } }

/-- The beat-trace pulse of a boundary (R562): not output while a 1PPS pulse holds the shared land. -/
def State.beatTrace (s : State) (hyper : Bool) : State :=
  let land := s.getF .gctlPinmux GCTL_PINMUX.PPSLAND
  if land = 1 ∨ (land = 2 ∧ s.time.ppsOut = none) then
    { s with time := { s.time with trace := some (s.gtc + if hyper then 128 else 64) } }
  else if land = 2 then s.satF .gctlPinmux GCTL_PINMUX.LOST 1
  else s

/-- BEAT_TRACE_PULSE_END (R562). -/
def execBeatTracePulseEnd (s : State) : Out :=
  s.when (match s.time.trace with | some e => decide (e ≤ s.gtc) | none => false)
    { s with time := { s.time with trace := none } }

/-! ## One cycle -/

/-- The time bases that run advance by one cycle, and D falls by SLEW ns a beat (R361, R368). -/
def State.timeTick (s : State) : State :=
  let one (s : State) (n : Nat) : State :=
    if s.tbState n = tbOFF ∨ s.psrc n = 5 then s
    else
      let a := s.addend n
      let x := s.tb n
      s.setTb n { x with value := x.value + a, elapsed := x.elapsed + a }
  let s := [0, 1, 2, 3].foldl one s
  if s.time.d = 0 then s
  else
    let q : Rat := (s.getF .timeRadio TIME_RADIO.SLEW : Rat) / (s.beat.length : Rat)
    let d := if 0 < s.time.d then (if s.time.d < q then 0 else s.time.d - q) else (if -q < s.time.d then 0 else s.time.d + q)
    let s := s.setD d
    if d = 0 then s.switchNote true 0 else s

end Sys2Proof.Machine
end

