-- ==== Sys2Proof/Machine/Fapi.lean ====
section
/-!
DEFINITION. FAPI queue pairs: the outbound ring, its status line, indications held back, and the state of a queue pair (R414 to R418).
Message types and error codes are those of SCF 222 (PRESUMED, log 25).
-/
namespace Sys2Proof.Machine

/-! ## Message types and error codes -/

def msgPARAMRESP : Nat := 0x01
def msgCONFIGRESP : Nat := 0x03
def msgSTOPIND : Nat := 0x06
def msgERROR : Nat := 0x07
def msgSLOT : Nat := 0x82
def msgCRC : Nat := 0x86
def msgUCI : Nat := 0x87
def msgMODELRESP : Nat := 0x181
def msgDPDRESP : Nat := 0x183
def errOK : Nat := 0
def errSTATE : Nat := 1
def errCONFIG : Nat := 2
def errSLOT : Nat := 4
def errSFN : Nat := 6

/-! ## Queue pairs -/

def State.qp (s : State) (q : Nat) : Qp := SMap.get .off s.radio.qps q
def State.setQp (s : State) (q : Nat) (x : Qp) : State := { s with radio := { s.radio with qps := SMap.put .off s.radio.qps q x } }
def State.modQp (s : State) (q : Nat) (f : Qp → Qp) : State := s.setQp q (f (s.qp q))

/-- Size of a record of a message of n bytes (R415). -/
def recordSize (n : Nat) : Nat := (16 + n + 63) / 64 * 64

/-- Companion address of an IPA of I0; none where it does not lead to companion memory (R414, R418). -/
def State.qpPlace (s : State) (ipa : Nat) (write : Bool) : Option Nat :=
  match (s.inst 0).regionAt ipa with
  | some r => if r.type = .comp ∧ (if write then r.w else r.r) = true then some (r.target + (ipa - r.ipa)) else none
  | none => none

/-- A queue pair whose line or ring translates outside companion memory stops (R418). -/
def State.qpError (s : State) (q : Nat) : State := s.setF (.rlQpStatus q) RL_QP_STATUS.STATE 6

/-- Write bytes at an IPA line by line, by WRL. -/
def State.qpWrite (s : State) (q ipa : Nat) (bs : List Byte) (pu : CclPurpose) : State :=
  (List.range ((bs.length + 63) / 64)).foldl (fun s k =>
    match s.qpPlace (ipa + 64 * k) true with
    | some a => s.cclSend .wrl a ((bs.drop (64 * k)).take 64) pu
    | none => s.qpError q) s

/-- Room that a record of size n takes at position pos of a ring of size l, the pad record before it included (R415). -/
def ringNeed (l pos n : Nat) : Nat := if l - pos % l < n then l - pos % l + n else n

/-- Header of a record (R415). -/
def recordHeader (len phy seq : Nat) : List Byte := leBytes 4 len ++ leBytes 2 phy ++ leBytes 2 0 ++ leBytes 8 seq

/-- Write an outbound record, with a pad record before it where it would wrap; the status line follows (R415, R416). -/
def State.qpPut (s : State) (q : Nat) (m : Fapi) : State :=
  let x := s.qp q
  let l := 2 ^ s.getF (.rlQpCtl q) RL_QP_CTL.LOUT
  let base := s.getF (.rlQpOutbase q) RL_QP_OUTBASE.ADDR * 64
  let body := Config.fapiBytes m.type m.phy m.fields
  let n := recordSize body.length
  let gap := ringNeed l x.outProd n - n
  let s := if gap = 0 then s
    else s.qpWrite q (base + x.outProd % l) (recordHeader 0 0xFFFF x.outSeq ++ leBytes (gap - 16) 0) (.indication q)
  let seq := if gap = 0 then x.outSeq else x.outSeq + 1
  let pos := x.outProd + gap
  let s := s.qpWrite q (base + pos % l) (recordHeader body.length m.phy seq ++ body ++ leBytes (n - 16 - body.length) 0) (.indication q)
  let s := s.modQp q fun x => { x with outProd := pos + n, outSeq := seq + 1 }
  s.qpWrite q (s.getF (.rlQpOutsline q) RL_QP_OUTSLINE.ADDR * 64) (leBytes 8 (pos + n) ++ leBytes 56 0)
    (.qpStatus q (m.type == msgSLOT && s.getF (.rlQpCtl q) RL_QP_CTL.SLOTIRQ == 1))

/-- The outbound ring has room for a message (R416). -/
def State.qpRoom (s : State) (q : Nat) (m : Fapi) : Bool :=
  let x := s.qp q
  let l := 2 ^ s.getF (.rlQpCtl q) RL_QP_CTL.LOUT
  decide (x.outProd + ringNeed l x.outProd (recordSize (Config.fapiBytes m.type m.phy m.fields).length) ≤ x.outCons + l)

/-- The queue pair is in service: enabled, started and not in error. -/
def State.qpLive (s : State) (q : Nat) : Bool :=
  s.getF (.rlQpCtl q) RL_QP_CTL.EN == 1 && (s.qp q).enabling == 0 && s.getF (.rlQpStatus q) RL_QP_STATUS.STATE != 6

/-- Send a message to the L2, or hold it while the ring is full (R416). -/
def State.fapi (s : State) (q : Nat) (m : Fapi) : State :=
  if s.qpLive q = false then s
  else if (s.qp q).held.isEmpty && s.qpRoom q m then s.qpPut q m
  else s.modQp q fun x => { x with held := x.held ++ [(s.gtc, m)] }

/-- Send what is held as far as the ring has room; a discard is reported first (R416). -/
def State.qpFlush : Nat → Nat → State → State
  | 0, _, s => s
  | n + 1, q, s =>
    let x := s.qp q
    if x.discarded ≠ 0 then
      let m : Fapi := ⟨msgERROR, 0xFFFF, [0x81, x.discarded]⟩
      if s.qpRoom q m then State.qpFlush n q ((s.modQp q fun x => { x with discarded := 0 }).qpPut q m) else s
    else match x.held with
      | [] => s
      | (_, m) :: rest =>
        if s.qpRoom q m then State.qpFlush n q ((s.modQp q fun x => { x with held := rest }).qpPut q m) else s

/-! ## Cells and their queue pair -/

def State.cell (s : State) (phy : Nat) : Option Cell := SMap.get none s.radio.cells phy
def State.setCell (s : State) (phy : Nat) (c : Option Cell) : State :=
  { s with radio := { s.radio with cells := SMap.put none s.radio.cells phy c } }
def State.modCell (s : State) (phy : Nat) (f : Cell → Cell) : State := s.setCell phy ((s.cell phy).map f)

/-- Cells of context g, by PHYID. -/
def State.cellsOf (s : State) (g : Nat) : List (Nat × Cell) :=
  s.radio.cells.filterMap fun x => match x.2 with | some c => if c.ctx = g then some (x.1, c) else none | none => none

/-- Queue pairs in service for context g. -/
def State.qpsOf (s : State) (g : Nat) : List Nat :=
  (List.range 64).filter fun q => s.getF (.rlQpCtl q) RL_QP_CTL.EN == 1 && s.getF (.rlQpCtl q) RL_QP_CTL.CTX == g

def State.rctx (s : State) (g : Nat) : RCtx := SMap.get .up s.radio.ctxs g
def State.setRctx (s : State) (g : Nat) (x : RCtx) : State := { s with radio := { s.radio with ctxs := SMap.put .up s.radio.ctxs g x } }

/-- ERROR.indication for a cell: message type, code and further numbers (R416, R417). -/
def State.errorInd (s : State) (q phy code : Nat) (more : List Nat) : State := s.fapi q ⟨msgERROR, phy, code :: more⟩

/-- ERROR.indication for a cell on its context's queue pair. -/
def State.cellError (s : State) (g phy code : Nat) (more : List Nat) : State :=
  (s.qpsOf g).foldl (fun s q => s.errorInd q phy code more) s

/-- STATE, CELLS and COST of the queue pairs of context g (R417, R427). -/
def State.showGroup (s : State) (g : Nat) : State :=
  let cs := s.cellsOf g
  let c := s.rctx g
  let st :=
    if c.halted then 5 else if c.down.isSome then 4
    else if cs.isEmpty then 1
    else if cs.any fun x => x.2.phase == .running then 3 else 2
  (s.qpsOf g).foldl (fun s q =>
    let s := if s.getF (.rlQpStatus q) RL_QP_STATUS.STATE = 6 ∨ (s.qp q).enabling ≠ 0 then s else s.setF (.rlQpStatus q) RL_QP_STATUS.STATE st
    (s.setF (.rlQpStatus q) RL_QP_STATUS.CELLS cs.length).setF (.rlQpStatus q) RL_QP_STATUS.COST ((cs.map fun x => x.2.cost).sum)) s

/-! ## Slots (R424) -/

/-- Cycles of a beat in force and beats of a slot: numerology mu has 2 ^ mu slots in one ms. -/
def State.slotBeats (s : State) (mu : Nat) : Nat := 3600000 / s.beat.length / 2 ^ mu

/-- Slots of a hyperframe. -/
def hyperSlots (mu : Nat) : Nat := 10240 * 2 ^ mu

/-- Slot under way. -/
def State.slotNo (s : State) (mu : Nat) : Nat :=
  if s.slotBeats mu = 0 then 0 else s.getF .timeBeat TIME_BEAT.NUM / s.slotBeats mu

/-- Beats from the start of the present beat to the start of a slot; none when it has begun. -/
def State.beatsTo (s : State) (mu slot : Nat) : Option Nat :=
  let total := 10240 * s.perMs
  let k := (slot * s.slotBeats mu + total - s.getF .timeBeat TIME_BEAT.NUM % total) % total
  if total < 2 * k then none else some k

/-- Finest numerology of a group. -/
def State.finest (s : State) (g : Nat) : Nat := (s.cellsOf g).foldl (fun m x => max m x.2.mu) 0

/-! ## Downlink slots that are not sent (R425, R435) -/

def State.fhp (s : State) (p : Nat) : FhPort := SMap.get .reset s.fh p
def State.setFhp (s : State) (p : Nat) (x : FhPort) : State := { s with fh := SMap.put .reset s.fh p x }
def State.modFhp (s : State) (p : Nat) (f : FhPort → FhPort) : State := s.setFhp p (f (s.fhp p))

/-- Add a frame to the egress queue. -/
def State.fhQueue (s : State) (p : Nat) (f : FhFrame) : State :=
  s.modFhp p fun x => { x with queue := x.queue ++ [{ f with id := x.nextId }], nextId := x.nextId + 1 }

/-- Section type 0 for a slot of a cell that has not begun, on its C-plane flows, due before the slot starts (R425, R435). Its frame is the
shortest there is (DESIGN CHOICE, log 77). -/
def State.idleSlot (s : State) (c : Cell) (slot : Nat) : State :=
  match s.beatsTo c.mu slot with
  | none => s
  | some k =>
    let wait : Rat := (((s.beat.boundary + k * s.beat.length : Nat) : Rat) - (s.gtc : Rat)) * s.addend s.tbSel
    c.flows.foldl (fun s x =>
      let w := s.reg (.fhFlowHi x.1 x.2)
      if FH_FLOW_HI.DIR.get w = 1 ∧ FH_FLOW_HI.PLANE.get w = 1 then
        s.fhQueue x.1
          { id := 0, cls := 3, sub := FH_FLOW_HI.SUB.get w, flow := x.2, len := 64, earliest := 0, latest := (s.tbr + wait).floor.toNat,
            slot := slot, wire := [], tb := 0, idle := true, got := none, sent := none }
      else s) s

/-- The downlink slots that a cell prepares are not transmitted (R435). -/
def State.dropDl (s : State) (c : Cell) : State :=
  let slots := (c.accepted.filter fun w => w.dl).map fun w => w.no
  let gone (p : Nat) (f : FhFrame) : Bool := decide (3 ≤ f.cls) && c.flows.contains (p, f.flow) && slots.contains f.slot
  let s := (c.flows.map Prod.fst).eraseDups.foldl (fun s p => s.modFhp p fun x => { x with queue := x.queue.filter fun f => !gone p f }) s
  slots.foldl (fun s n => s.idleSlot c n) s

/-! ## The classical estimator (R431) -/

/-- A cell falls back to the classical estimator for 1,000 slots. -/
def State.fallBack (s : State) (phy : Nat) (c : Cell) : State :=
  let s := s.modCell phy fun c => { c with fallback := 1001 }
  let s := s.event srcMp 1 0x74 0xFF c.ctx (phy % 1024 + 1024 * (c.model.getD 0))
  let s := s.cellError c.ctx phy 0x86 [s.slotNo c.mu]
  let lost := c.accepted.filter fun w => !w.dl && w.no == s.slotNo c.mu
  lost.foldl (fun s w => (s.qpsOf c.ctx).foldl (fun s q => s.fapi q ⟨msgCRC, phy, [w.no, w.pusch, 1]⟩) s) s

/-- A command of context g has faulted, overrun its beat or been dropped. Whether it was a cell's model is not told by the descriptor:
a free value for each cell that uses one (log 3). -/
def State.modelHit (s : State) (g : Nat) : State :=
  (s.cellsOf g).foldl (fun s x =>
    if x.2.model.isNone ∨ x.2.fallback ≠ 0 then s
    else
      let b := (Config.freeBits s.free).getLsbD 0
      let s := { s with free := s.free + 1 }
      if b then s.fallBack x.1 x.2 else s) s

end Sys2Proof.Machine
end

