-- ==== Sys2Proof/Machine/Strands.lean ====
section
/-!
DEFINITION. Strands, plaits and skeins: launch and placement (R138 to R142).
-/
namespace Sys2Proof.Machine

/-- Plait slots of a side: 224 and 32 on a borrowable core, all 256 on a stake core (R138) and for the tenant of a fixed lease, whose image
holds 1 MiB of plait registers (R281; DEDUCED, log 70). -/
def State.plaitSlots (s : State) (p k : Nat) : List Nat :=
  if s.isStake p || (s.role p == 3 && k == 0) then List.range 256
  else if k = 0 then List.range 224 else (List.range 32).map (224 + ·)

/-- Plait registers of a side (R138). -/
def State.plaitRegs (s : State) (p k : Nat) : Nat := 16 * (s.plaitSlots p k).length

/-- Skeins of a command: G of R140. -/
def Launch.skeins (l : Launch) : Nat := (l.strands + 64 * l.kp - 1) / (64 * l.kp)

/-- Bytes of a skein's scratchpad window: SHARED, and LOCAL for each of its strands (R139, R141). -/
def Launch.window (l : Launch) : Nat := l.sharedBytes + 64 * l.kp * l.localBytes

/-- Windows of the skeins resident on a side, both sides of a stake core together: command, base and size (R142). -/
def State.windows (s : State) (p k : Nat) : List (Nat × Nat × Nat) :=
  let c := s.core p
  (c.plaits.filterMap fun x => match c.resident x.2.cmd with
    | some r => match r.launch with
      | some l => if (r.side = k ∨ s.isStake p = true) ∧ 0 < l.window then some (x.2.cmd, x.2.sharedBase, l.window) else none
      | none => none
    | none => none).eraseDups

/-- Resident skein count of R141; the scratchpad free for the command is the side's range without the windows of other commands' skeins
(log 22). -/
def State.skeinLimit (s : State) (p k cmd : Nat) (l : Launch) : Nat :=
  let r := s.spRange p k
  let slots := (s.plaitSlots p k).length / l.kp
  let regs := s.plaitRegs p k / (l.kp * l.nreg)
  let free := r.2 - r.1 - (((s.windows p k).filter fun w => w.1 != cmd).map fun w => w.2.2).sum
  if l.window = 0 then min slots regs else min (min slots regs) (free / l.window)

/-- The highest place of size bytes between lo and hi that meets none of the used ranges (DESIGN CHOICE, log 22). -/
def placeWindow (lo hi size : Nat) (used : List (Nat × Nat)) : Option Nat :=
  let fits (b : Nat) : Bool :=
    decide (lo ≤ b) && decide (b + size ≤ hi) && used.all fun u => decide (b + size ≤ u.1) || decide (u.1 + u.2 ≤ b)
  ((((hi :: used.map Prod.fst).filter fun t => decide (lo + size ≤ t)).map fun t => t - size).filter fits).max?

/-- Base of the window of a further skein of a launch; none while no place is free. -/
def State.freeWindow (s : State) (p k : Nat) (l : Launch) : Option Nat :=
  let r := s.spRange p k
  if l.window = 0 then some r.2 else placeWindow r.1 r.2 l.window ((s.windows p k).map Prod.snd)

/-- Lanes of plait q of skein g whose strand number is below T (R142). -/
def Launch.liveMask (l : Launch) (g q : Nat) : BitVec 64 :=
  ofMask fun lane => decide (g * 64 * l.kp + q * 64 + lane < l.strands)

/-- Skeins of a command that are resident on a core. -/
def Core.skeinsOf (c : Core) (cmd : Nat) : List Nat :=
  ((c.plaits.filter fun x => x.2.cmd == cmd).map fun x => x.2.skein).eraseDups

/-- Free plait slots of a side. -/
def State.freeSlots (s : State) (p k : Nat) : List Nat :=
  (s.plaitSlots p k).filter fun n => ((s.core p).plaits.find? n).isNone

/-- Plait registers in use among the slots of a side. -/
def State.usedRegs (s : State) (p k : Nat) : Nat :=
  (((s.core p).plaits.filter fun x => (s.plaitSlots p k).contains x.1).map fun x => x.2.nreg).sum

/-- Start one skein in the lowest free slots: a plait with no active lane is not started (R140, R142). -/
def State.startSkein (s : State) (p : Nat) (r : Resident) (l : Launch) (g win : Nat) : State :=
  let c := s.core p
  let slots := s.freeSlots p r.side
  let put (c : Core) (q : Nat) : Core :=
    let live := l.liveMask g q
    if live = 0 then c
    else c.setPlait ((slots[q]?).getD 0)
      { Plait.idle with
        cmd := r.cmd, ctx := r.ctx, skein := g, index := q, nreg := l.nreg, pc := r.code + l.pentry, live := live,
        active := live, sharedBase := win, localBase := win + l.sharedBytes + 64 * q * l.localBytes }
  s.setCore p ((List.range l.kp).foldl put c)

/-- Set the next unstarted skein of a resident command. -/
def Core.setNext (c : Core) (cmd g : Nat) : Core :=
  { c with residents := c.residents.map fun r => if r.cmd = cmd then { r with nextSkein := g } else r }

/-- Start the lowest unstarted skeins of a command while resources allow (R140, R141). -/
def State.startSkeins : Nat → Nat → Nat → State → State
  | 0, _, _, s => s
  | n + 1, p, cmd, s =>
    match (s.core p).resident cmd with
    | some r =>
      match r.launch with
      | some l =>
        match s.freeWindow p r.side l with
        | some win =>
          if r.nextSkein < l.skeins ∧ ((s.core p).skeinsOf cmd).length < s.skeinLimit p r.side cmd l
              ∧ l.kp ≤ (s.freeSlots p r.side).length
              ∧ s.usedRegs p r.side + l.kp * l.nreg ≤ s.plaitRegs p r.side ∧ r.refused = false then
            State.startSkeins n p cmd ((s.startSkein p r l r.nextSkein win).modCore p
              fun c => c.setNext cmd (r.nextSkein + r.count))
          else s
        | none => s
      | none => s
    | none => s

/-- Freed slots, registers and windows go to the unstarted skeins of the core's commands, oldest command first (R140). -/
def State.startAll (s : State) (p : Nat) : State :=
  ((s.core p).residents.map fun r => r.cmd).foldl (fun s c => State.startSkeins 256 p c s) s

end Sys2Proof.Machine
end

