-- ==== Sys2Proof/Machine/Finish.lean ====
section
/-!
DEFINITION. A command begins on a core and ends on it (R55, R56, R134, R145, R157 to R161, R269 to R271, R322, R341 to R343).
-/
namespace Sys2Proof.Machine

/-! ## Begin -/

def KernelBody.launch (b : KernelBody) : Launch :=
  { strands := b.strands, kp := b.kp, nreg := b.nreg, localBytes := b.localBytes, sharedBytes := b.sharedBytes, pentry := b.pentry }

/-- The context that a command's work belongs to (R34, R149). -/
def Cmd.ctx (c : Cmd) : Ctx := if c.inst = 0 then .cg c.d.cg else .tenant c.inst

/-- Load the arithmetic mode and set the digest state of a side at the start of a command (R55, R341). -/
def State.loadMode (s : State) (p k : Nat) (c : Cmd) : State :=
  let r := Reg.coreAmode p k
  let s := ((s.setF r CORE_AMODE.ASHIFT_EN (c.d.amode / 16)).setF r CORE_AMODE.INF32 (c.d.amode / 2)).setF r CORE_AMODE.INF16 c.d.amode
  (s.setReg (.coreDig p k) (BitVec.allOnes 64)).modCore p fun q => q.setSide k { q.side k with folded := 0 }

/-- A core of the command's set has no room for one of its skeins (R141). -/
def State.noRoom (s : State) (k : Nat) (c : Cmd) (l : Launch) : Bool :=
  c.cores.any fun x => match s.slotOf x with
    | some q => s.skeinLimit q (if s.isStake q then k else if c.inst = 0 then 1 else 0) c.key.no l == 0
    | none => false

/-- A thread slot as a new thread finds it: vector loads that an ended thread has left under way still write the side's bank (R122). -/
def Thread.leftover (t : Thread) : List Load := t.loads.filter fun l => match l.dest with | .vector _ => true | .scalar _ => false

/-- Begin a KERNEL or COPY command on slot p, side k, with thread t for a KERNEL (R134, R158, R160); a launch that finds no room on a core of
its set starts nothing (R141). -/
def State.beginOn (s : State) (p k t : Nat) (c : Cmd) : State :=
  let l := s.lcoreNo p
  let pos := c.cores.findIdx fun x => x == l
  let base : Resident :=
    { cmd := c.key.no, ctx := c.ctx, side := k, code := 0, codeLen := 0, index := pos, count := c.cores.length,
      step := BitVec.ofNat 64 c.d.step, launch := none, nextSkein := pos, meFlags := 0, began := s.gtc, flags := 0, refused := false }
  let s := s.loadMode p k c
  let s := s.modCmd c.key.no fun x =>
    { x with phase := .running, todo := x.todo.filter fun y => y != l }
  match c.d.body with
  | .kernel b =>
    let r : Resident :=
      { base with
        code := b.code
        codeLen := b.codeLen
        launch := if c.d.launch then some b.launch else none
        refused := c.d.launch && s.noRoom k c b.launch }
    let regs := (b.args.zipIdx).foldl (fun m x => SMap.put 0 m (x.2 + 1) x.1) []
    let th (q : Core) : Thread :=
      { Thread.idle with
        running := true, pc := b.code + b.entry, s := regs, ctx := c.ctx, cmd := c.key.no, loads := (q.thread t).leftover }
    State.startSkeins 256 p c.key.no
      (s.modCore p fun q => { (if r.refused then q else q.setThread t (th q)) with residents := q.residents ++ [r] })
  | _ => s.modCore p fun q => { q with residents := q.residents ++ [base] }

/-! ## The radio queue (R269, R271) -/

/-- The entry in force lets context g borrow the core (R262, R269). -/
def State.mayBorrow (s : State) (p g : Nat) : Bool :=
  let b := s.getF (.coreCqPlan p) CORE_CQ_PLAN.BCG
  s.getF (.coreCqPlan p) CORE_CQ_PLAN.BRW == 1 && (b == 0x7F || b == g)

/-- Number of the cell-group context. -/
def Ctx.group : Ctx → Nat
  | .cg g => g
  | .tenant _ => 127

/-- First command of the radio queue that the entry in force allows. -/
def State.radioReady (s : State) (p : Nat) : Option (Ctx × Nat) :=
  (s.core p).radioQ.find? fun x => s.mayBorrow p x.1.group && (s.cmd x.2).isSome

/-- The return begins with a bank switch (R271). -/
def State.radioReturn (s : State) (p : Nat) : State :=
  (s.modCore p fun c => { c with borrow := c.borrow.map fun b => { b with phase := .switchBack }, extension := 0 }).setF
    (.coreCqPre p) CORE_CQ_PRE.PHASE 6

/-- While the radio side is active and runs nothing, the next ready command of the radio queue starts, or the return begins (R271,
R287). Where the side passes to another context, the weights of the one before no longer count (R76). -/
def State.radioNext (s : State) (p : Nat) : State :=
  let c := s.core p
  match c.borrow with
  | some b =>
    if b.phase = .radio ∧ (c.residents.all fun r => r.side != 1) = true then
      match s.radioReady p with
      | some x =>
        let s := s.modCore p fun c =>
          { c with
            radioQ := c.radioQ.filter fun y => y.2 != x.2
            borrow := some { b with ctx := x.1, cmd := x.2 }
            tiles := if x.1 = b.ctx then c.tiles else c.tiles.filter fun t => t.side != 1 }
        match s.cmd x.2 with
        | some m => s.beginOn p 1 12 m
        | none => s.radioReturn p
      | none => s.radioReturn p
    else s
  | none => s

/-! ## End -/

/-- Nothing of the command is left on the core: no thread, no plait, no unstarted skein, no queue entry (log 15). -/
def Core.cmdOver (c : Core) (cmd : Nat) : Bool :=
  c.threads.all (fun x => !(x.2.running && x.2.cmd == cmd)) && c.plaits.all (fun x => x.2.cmd != cmd)
    && (c.t.meQ ++ c.r.meQ).all (fun e => e.cmd != cmd)
    && (c.t.ce0.entries ++ c.t.ce1.entries ++ c.r.ce0.entries ++ c.r.ce1.entries).all (fun e => e.cmd != cmd)
    && c.residents.all fun r => r.cmd != cmd || (match r.launch with | some l => decide (l.skeins ≤ r.nextSkein) | none => true)

/-- A COPY has completed its last descriptor (R161). -/
def Cmd.copiesDone (c : Cmd) : Bool :=
  match c.d.body with
  | .copy b => decide (b.dcount ≤ c.copied)
  | _ => true

/-- The command ends on slot p: its flags and digest are collected and the resident leaves (R55, R56, R343). -/
def State.endOn (s : State) (p : Nat) (r : Resident) : State :=
  let d := (s.reg (.coreDig p r.side)).toNat ^^^ (2 ^ 64 - 1)
  let n := ((s.core p).side r.side).folded
  let l := s.lcoreNo p
  let s := (s.modCore p fun c => { c with residents := c.residents.filter fun x => x.cmd != r.cmd }).syncFlags p
  let s := s.modCmd r.cmd fun c =>
    let c := { c with left := c.left.filter fun x => x != l }
    if c.silent then c
    else { c with flags := c.flags ||| r.flags, digests := SMap.put 0 c.digests r.index d, folded := c.folded + n }
  match s.cmd r.cmd with
  | some c => if c.left.isEmpty then s.endCommand r.cmd 1 0 else s
  | none => s

/-- The command may have ended on core p (R134, R145); on a borrowed core the radio queue goes on (R271). -/
def State.endCheck (s : State) (p cmd : Nat) : State :=
  match (s.core p).resident cmd, s.cmd cmd with
  | some r, some c => if (s.core p).cmdOver cmd && c.copiesDone then (s.endOn p r).radioNext p else s
  | _, _ => s

/-- A plait with no live lane ends; with the last plait of its skein the skein ends and unstarted skeins of the core start in the freed
resources (R140, R145). -/
def State.plaitEnd (s : State) (p slot : Nat) : State :=
  let q := (s.core p).plait slot
  let s := s.modCore p fun c => { c with plaits := SMap.erase c.plaits slot }
  if ((s.core p).plaits.any fun x => x.2.cmd == q.cmd && x.2.skein == q.skein) then s
  else (s.startAll p).endCheck p q.cmd

end Sys2Proof.Machine
end

