-- ==== Sys2Proof/Machine/Weave.lean ====
section
/-!
DEFINITION. The Weave's arbitration points (R206, R212 to R219).
-/
namespace Sys2Proof.Machine

/-- Number of the system requester (R213). -/
def wvSystem : Nat := 65

/-- Flits that a point can carry in one window of W cycles (R212, R214). -/
def flitsPerWindow (w pt : Nat) (lr : Bool) : Nat :=
  if pt < 0x0C0 then w * 1500 / 2304
  else if pt < 0x190 then w * 8
  else if pt < 0x1A8 then w * 20000 / 2304
  else if pt < 0x1B0 then w * 12000 / 2304
  else if pt < 0x1C0 then (if lr then w * 640 / 2304 else w * 800 / 2304)
  else w * 2560 / 2304

/-- Window length, age step and MAX_HOLD in force (R219). -/
def State.wvWindow (s : State) : Nat := WV_CFG.WINDOW.get s.weave.cfg
def State.wvAgestep (s : State) : Nat := WV_CFG.AGESTEP.get s.weave.cfg

/-- Flits per window at a point. -/
def State.wvFw (s : State) (pt : Nat) : Nat :=
  flitsPerWindow s.wvWindow pt (s.getF (.wyCfg (pt - 0x1B0)) WY_CFG.MODE == 1)

/-- Weight in force of a requester (R214). -/
def State.wvWeightOf (s : State) (who : Nat) : Nat :=
  if who = wvSystem then WV_SYSW.WEIGHT.get s.weave.sysw else SMap.get 0 s.weave.weights who

def State.wvPoint (s : State) (pt : Nat) : WvPoint := SMap.get .zero s.weave.points pt
def State.setWvPoint (s : State) (pt : Nat) (x : WvPoint) : State :=
  { s with weave := { s.weave with points := SMap.put .zero s.weave.points pt x } }

def reqrKey (rank who : Nat) : Nat := 128 * rank + who
def WvPoint.reqr (x : WvPoint) (rank who : Nat) : WvReqr := SMap.get .zero x.reqrs (reqrKey rank who)
def WvPoint.modReqr (x : WvPoint) (rank who : Nat) (f : WvReqr → WvReqr) : WvPoint :=
  { x with reqrs := SMap.modify .zero x.reqrs (reqrKey rank who) f }

/-! ## The transactions of the copy engines at their points -/

/-- Entries of the copy-engine queues of a core. -/
def Core.ceEntries (c : Core) : List CeEntry := c.t.ce0.entries ++ c.t.ce1.entries ++ c.r.ce0.entries ++ c.r.ce1.entries

def CeQueue.modTxn (q : CeQueue) (id : Nat) (f : Txn → Txn) : CeQueue :=
  { q with entries := q.entries.map fun y => { y with inflight := y.inflight.map fun t => if t.id = id then f t else t } }

/-- Change a transaction in flight of a core, by its number. -/
def Core.modTxn (c : Core) (id : Nat) (f : Txn → Txn) : Core :=
  { c with
    t := { c.t with ce0 := c.t.ce0.modTxn id f, ce1 := c.t.ce1.modTxn id f }
    r := { c.r with ce0 := c.r.ce0.modTxn id f, ce1 := c.r.ce1.modTxn id f } }

/-- Entry and transaction in flight of a core, by the transaction's number. -/
def Core.txn? (c : Core) (id : Nat) : Option (CeEntry × Txn) :=
  c.ceEntries.findSome? fun y => (y.inflight.find? fun t => t.id == id).map fun t => (y, t)

/-- The request, or the grant, is that of transaction id of slot p. -/
def WvReq.isOf (q : WvReq) (p id : Nat) : Bool := q.slot == some p && q.txn == id

/-- Transaction id of slot p has no request pending at point pt, nor its grant. -/
def WvPoint.without (x : WvPoint) (p id : Nat) : Bool := !(x.pending ++ x.grant.toList).any fun q => q.isOf p id

/-- Flit slots of the point since a grant began: a data phase runs at the point's rate (R212; log 19). -/
def State.wvSlots (s : State) (pt : Nat) (q : WvReq) : Nat :=
  flitsPerWindow (s.gtc - q.since) pt (s.getF (.wyCfg (pt - 0x1B0)) WY_CFG.MODE == 1)

/-- Flits that a grant has sent by now. -/
def State.wvSent (s : State) (pt : Nat) (q : WvReq) : Nat := max q.sent (min q.flits (s.wvSlots pt q))

/-- A copy engine's transaction has entered the resource of a point: the next point of its route comes. -/
def State.wvPass (s : State) (pt : Nat) (q : WvReq) : State :=
  match q.slot with
  | some p => s.modCore p fun c => c.modTxn q.txn fun t =>
      if t.path.head? = some pt then { t with path := t.path.drop 1, went := true } else t
  | none => s

/-- Charge flits that a requester sent at a point (R214), and count rank-0 flits of the window (R217). -/
def WvPoint.charge (x : WvPoint) (q : WvReq) (flits : Nat) : WvPoint :=
  let y := x.modReqr q.rank q.who fun r => { r with credit := r.credit - flits, active := true }
  if q.rank = 0 then { y with rank0 := y.rank0 + flits } else y

/-- The grant of a point ends with its last flit: the flits not yet charged are, and the transaction goes on (R214, R215). -/
def State.wvEnd (s : State) (pt : Nat) (q : WvReq) : State :=
  (s.setWvPoint pt { (s.wvPoint pt).charge q (q.flits - q.sent) with grant := none }).wvPass pt q

/-- The flits that the running grant of a point has sent by now are charged: at a window start they belong to the window that ends (R214,
R217). -/
def State.wvSettle (s : State) (pt : Nat) : State :=
  let x := s.wvPoint pt
  match x.grant with
  | some q => s.setWvPoint pt { x.charge q (s.wvSent pt q - q.sent) with grant := some { q with sent := s.wvSent pt q } }
  | none => s

/-- Requests and grants of transactions that are no longer in flight leave their points; what a grant has sent stays charged (R205, R206). -/
def State.wvPrune (s : State) : State :=
  let live (q : WvReq) : Bool := match q.slot with | some p => ((s.core p).txn? q.txn).isSome | none => true
  s.weave.points.foldl (fun s x =>
    let s := match x.2.grant with
      | some q => if live q then s
          else s.setWvPoint x.1 { (s.wvPoint x.1).charge q (s.wvSent x.1 q - q.sent) with grant := none }
      | none => s
    let y := s.wvPoint x.1
    if y.pending.all live then s else s.setWvPoint x.1 { y with pending := y.pending.filter live }) s

/-- The grant of a point is revoked or cut off after it has sent some flits: they stay charged and count toward the bytes moved,
the transaction restarts and re-requests at once, and CORE_CE_RESTART counts it (R206, R218). -/
def State.wvRestart (s : State) (pt : Nat) (q : WvReq) (sent : Nat) : State :=
  let x := s.wvPoint pt
  let again : WvReq := { q with at_ := s.gtc, since := 0, sent := 0 }
  let s := s.setWvPoint pt { x.charge q (sent - q.sent) with grant := none, pending := x.pending ++ [again] }
  let s := if q.who = wvSystem then s else s.charge q.who fun a => { a with bytes := a.bytes + 64 * sent }
  match q.slot with
  | some p => s.setF (.coreCeRestart p) CORE_CE_RESTART.COUNT (s.getF (.coreCeRestart p) CORE_CE_RESTART.COUNT + 1)
  | none => s

/-- Transaction txn of slot p may request point pt for its instance, with its flits: pt is the next point of its route (R211, R212). -/
def State.wvMay (s : State) (pt rank who flits p txn : Nat) : Bool :=
  match (s.core p).txn? txn with
  | some (y, t) => t.path.head? == some pt && flits == (t.len + 63) / 64 && who == y.ctx.inst && rank == (if y.ctx.inst = 0 then 0 else 1)
      && (s.wvPoint pt).without p txn
  | none => false

/-- WEAVE_REQUEST: requester who of rank drives a request of flits at point pt, for a copy engine's transaction, given as core slot and
number (none: for another of its requests). A rank-0 request revokes a rank-1 grant, which has sent the given number of flits; one that has sent its last has
ended (R216). -/
def execWeaveRequest (pt rank who flits : Nat) (txn : Option (Nat × Nat)) (sent : Nat) (s : State) : Out :=
  let x := s.wvPoint pt
  let q : WvReq :=
    { rank := rank, who := who, flits := flits, slot := txn.map Prod.fst, txn := (txn.map Prod.snd).getD 0, at_ := s.gtc, since := 0,
      sent := 0 }
  let known := (decide (rank = 0) && (decide (who = 0) || decide (who = wvSystem)))
    || (decide (rank = 1) && decide (1 ≤ who) && decide (who ≤ 64))
  let s1 := match x.grant with
    | some g => if rank = 0 ∧ g.rank = 1 then (if sent < g.flits then s.wvRestart pt g (max g.sent sent) else s.wvEnd pt g) else s
    | none => s
  let y := s1.wvPoint pt
  s.when (decide (pt ≤ 0x1C1) && known && decide (1 ≤ flits) && decide (flits ≤ 64)
      && (match txn with | none => true | some z => decide (z.1 < 208) && s.wvMay pt rank who flits z.1 z.2))
    (s1.setWvPoint pt ({ y with pending := y.pending ++ [q] }.modReqr rank who fun r => { r with active := true }))

/-- Effective priority of a requester (R215). -/
def State.wvPriority (s : State) (x : WvPoint) (rank who : Nat) : Int :=
  (x.reqr rank who).credit + (x.reqr rank who).age * s.wvAgestep

/-- Requester a comes before b: rank 0 first (R213), then the higher effective priority, then the lower instance number in rank
1 and the system requester in rank 0 (R215). -/
def State.wvBefore (s : State) (x : WvPoint) (a b : WvReq) : Bool :=
  if a.rank ≠ b.rank then decide (a.rank < b.rank)
  else
    let pa := s.wvPriority x a.rank a.who; let pb := s.wvPriority x b.rank b.who
    if pa ≠ pb then decide (pb < pa)
    else if a.rank = 0 then decide (b.who < a.who) else decide (a.who < b.who)

/-- Oldest request of a requester; the lower core slot first in one cycle (R213). -/
def oldest : List WvReq → Option WvReq
  | [] => none
  | q :: rest => match oldest rest with
    | none => some q
    | some r => if r.at_ < q.at_ ∨ (r.at_ = q.at_ ∧ r.slot.getD 999 < q.slot.getD 999) then some r else some q

/-- The request that a round grants. -/
def State.wvWinner (s : State) (x : WvPoint) : Option WvReq :=
  match x.pending.foldl (fun (best : Option WvReq) q => match best with
      | none => some q
      | some b => if s.wvBefore x q b then some q else some b) none with
  | none => none
  | some w => oldest (x.pending.filter fun q => q.rank == w.rank && q.who == w.who)

/-- Ages after a round: the winner's is 0, each loser with a request pending gains 1, up to 255 (R215). -/
def WvPoint.ageAll (x : WvPoint) (w : WvReq) : WvPoint :=
  let keys := (x.pending.map fun q => (q.rank, q.who)).eraseDups
  keys.foldl (fun y k => y.modReqr k.1 k.2 fun r =>
    { r with age := if k.1 = w.rank ∧ k.2 = w.who then 0 else min 255 (r.age + 1) }) x

/-- ARBITRATION_ROUND at point pt: the grant before it ends with its last flit, and the round grants the request of the highest
effective priority, if any is pending (R213, R215). A Withy port's point grants nothing while the port is not UP (R441). -/
def execArbitrationRound (pt : Nat) (s : State) : Out :=
  let before := (s.wvPoint pt).grant
  let s1 := match before with
    | some g => s.wvEnd pt g
    | none => s
  let x := s1.wvPoint pt
  let open_ := decide (pt < 0x1B0) || decide (0x1C0 ≤ pt) || decide (s.getF (.wyStatus (pt - 0x1B0)) WY_STATUS.STATE = 3)
  match s1.wvWinner x with
  | none => s.when (decide (pt ≤ 0x1C1) && before.isSome) s1
  | some w =>
    let y := x.ageAll w
    s.when (decide (pt ≤ 0x1C1) && open_)
      (s1.setWvPoint pt { y with grant := some { w with since := s.gtc, sent := 0 }, pending := y.pending.erase w })

/-- HOLD_CUTOFF at point pt: the grant has lasted MAX_HOLD flit slots of the point and has sent some flits; it is cut off (R216). -/
def execHoldCutoff (pt sent : Nat) (s : State) : Out :=
  match (s.wvPoint pt).grant with
  | none => s.when false s
  | some q =>
    let who := if q.who = wvSystem then 0x7F else q.who
    let s1 := s.wvRestart pt q (max q.sent (min sent q.flits))
    let s1 := (((s1.setF .wvHold WV_HOLD.VALID 1).setF .wvHold WV_HOLD.RANK q.rank).setF .wvHold WV_HOLD.INST who).setF .wvHold
      WV_HOLD.POINT pt
    s.when (decide (pt ≤ 0x1C1) && decide (WV_CFG.MAXHOLD.get s.weave.cfg ≤ s.wvSlots pt q)) (s1.event (srcWeave pt) 0 0x20 0xFF who (pt + 4096 * q.rank))

/-- Refill of one requester (R214). -/
def refill (c : Int) (fw w sw : Nat) : Int := min c 0 + (if sw = 0 then 0 else ((fw * w / sw : Nat) : Int))

/-- Refill every requester of a point at a window start (R214): active ones share FW by weight within their rank. -/
def State.wvRefill (s : State) (pt : Nat) (x : WvPoint) : WvPoint :=
  let pend (k : Nat) : Bool := x.pending.any fun q => reqrKey q.rank q.who == k
  let act (y : Nat × WvReqr) : Bool := y.2.active || pend y.1
  let sw (rank : Nat) : Nat := ((x.reqrs.filter fun y => act y && decide (y.1 / 128 = rank)).map
    fun y => s.wvWeightOf (y.1 % 128)).sum
  { x with
    rank0 := 0
    reqrs := x.reqrs.foldl (fun m y =>
      SMap.put .zero m y.1
        { y.2 with
          credit := refill y.2.credit (s.wvFw pt) (if act y then s.wvWeightOf (y.1 % 128) else 0) (sw (y.1 / 128))
          active := pend y.1 }) x.reqrs }

/-- Rank-0 share of a point in the window that ends (R217). -/
def State.wvMeasure (s : State) (pt : Nat) (x : WvPoint) : State :=
  let fw := s.wvFw pt
  let share := if fw = 0 then 0 else x.rank0 * 100 / fw
  let s := if s.getF .wvR0peak WV_R0PEAK.PEAK < share then
      (s.setF .wvR0peak WV_R0PEAK.PEAK (min share 127)).setF .wvR0peak WV_R0PEAK.POINT pt
    else s
  if min 100 (WV_RBUDGET.PCT.get s.weave.rbudget) * fw < x.rank0 * 100 then s.setF .wvR0peak WV_R0PEAK.EXCEED 1 else s

/-- The configuration words written since the last window start take effect (R219). -/
def State.wvLatch (s : State) : State :=
  { s with weave := { s.weave with
    cfg := s.reg .wvCfg, rbudget := s.reg .wvRbudget, sysw := s.reg .wvSysw
    weights := (List.range 65).filterMap fun n =>
      let w := s.getF (.wvWeight n) WV_WEIGHT.WEIGHT
      if w = 0 then none else some (n, w) } }

/-- WINDOW_START, once at each multiple of the window length: the flits of grants under way are charged to the window that ends, shares are
measured, configuration writes take effect, and every credit is refilled (R214, R217, R219). -/
def execWindowStart (s : State) : Out :=
  let s0 := s.weave.points.foldl (fun s x => s.wvSettle x.1) s
  let s1 := s0.weave.points.foldl (fun s x => s.wvMeasure x.1 x.2) s0
  let s2 := s1.wvLatch
  let s3 := s2.weave.points.foldl (fun s x => s.setWvPoint x.1 (s.wvRefill x.1 x.2)) s2
  s.when (decide (s.gtc % s.wvWindow = 0) && s.weave.winAt != some s.gtc)
    { s3 with weave := { s3.weave with winAt := some s.gtc } }

end Sys2Proof.Machine
end

