-- ==== Sys2Proof/Machine/Fault.lean ====
section
/-!
DEFINITION. Context faults and tear-down (R34, R108, R111, R150, R181, R287, R320, R435): one shared operation for every
source of a fault.
-/
namespace Sys2Proof.Machine

/-! ## Geometry of the array (R73) -/

/-- First row, rows, first column, columns of a partition. -/
def partGeom : Nat → Nat × Nat × Nat × Nat
  | 0 => (0, 256, 0, 256)
  | 1 => (0, 128, 0, 256)
  | 2 => (128, 128, 0, 256)
  | 3 => (0, 128, 0, 128)
  | 4 => (0, 128, 128, 128)
  | 5 => (128, 128, 0, 128)
  | _ => (128, 128, 128, 128)

/-- Quadrants that a partition covers, as bits. -/
def partQuads : Nat → Nat
  | 0 => 15 | 1 => 3 | 2 => 12 | 3 => 1 | 4 => 2 | 5 => 4 | _ => 8

/-- Two partitions share a cell (R77). -/
def partsShare (a b : Nat) : Bool := (partQuads a &&& partQuads b) != 0

/-- Two partitions share columns. -/
def colsShare (a b : Nat) : Bool :=
  let x := partGeom a; let y := partGeom b
  decide (x.2.2.1 < y.2.2.1 + y.2.2.2) && decide (y.2.2.1 < x.2.2.1 + x.2.2.2)

/-- Merge two sorted tables with distinct keys. -/
def mergeMap {α : Type} : Nat → SMap α → SMap α → SMap α
  | 0, x, _ => x
  | _, [], y => y
  | _, x, [] => x
  | n + 1, (j, a) :: x, (k, b) :: y =>
    if j < k then (j, a) :: mergeMap n x ((k, b) :: y) else (k, b) :: mergeMap n ((j, a) :: x) y

/-- Set the accumulator cells of rows row0.. and columns col0.. to f row col. -/
def accSet (acc : SMap Int) (row0 rows col0 cols : Nat) (f : Nat → Nat → Int) : SMap Int :=
  let inside (k : Nat) : Bool :=
    decide (row0 ≤ k / 256) && decide (k / 256 < row0 + rows) && decide (col0 ≤ k % 256) && decide (k % 256 < col0 + cols)
  let keep := acc.filter fun x => !inside x.1
  let new := (List.range rows).flatMap fun i => (List.range cols).filterMap fun j =>
    let v := f (row0 + i) (col0 + j)
    if v = 0 then none else some ((row0 + i) * 256 + (col0 + j), v)
  mergeMap (keep.length + new.length + 1) keep new

/-- The poison marker of an accumulator (R41). -/
def accPoison : Int := -(2 ^ 47)

/-- Poison the region of an MMT (R108). -/
def Side.poisonRegion (x : Side) (o : MmtOp) : Side :=
  let g := partGeom o.part
  { x with acc := accSet x.acc o.arow o.m g.2.2.1 g.2.2.2 fun _ _ => accPoison }

/-! ## Fault registers -/

/-- Detail of a CTX_FAULT record (R495): unit, cause, context; radio work outside its range on a borrowed core is unit 5, with the
unit of origin (R26). -/
def State.ctxDetail (s : State) (p unit cause : Nat) (ctx : Ctx) : Nat :=
  match ctx with
  | .cg _ => if cause = 1 ∧ s.isStake p = false then 5 + 16 + 4096 * ctx.code + 2 ^ 20 * unit else unit + 16 * cause + 4096 * ctx.code
  | .tenant _ => unit + 16 * cause + 4096 * ctx.code

/-- Write CORE_ME_FAULT, or its OVR where a fault is recorded already, and the event record (R108, R112, R495). -/
def State.recordMe (s : State) (p part cause : Nat) (ctx : Ctx) (vec : Nat) : State :=
  let r := Reg.coreMeFault p
  let s :=
    if s.getF r CORE_ME_FAULT.VALID = 1 then s.setF r CORE_ME_FAULT.OVR 1
    else ((((s.setF r CORE_ME_FAULT.VALID 1).setF r CORE_ME_FAULT.PART part).setF r CORE_ME_FAULT.CAUSE cause).setF r
      CORE_ME_FAULT.CTX ctx.code).setF r CORE_ME_FAULT.VEC vec
  s.event (srcCore p) 2 0x01 (s.lcoreNo p) ctx.inst (s.ctxDetail p 1 cause ctx)

/-- Write CORE_VE_FAULT and the event record (R150, R151). -/
def State.recordVe (s : State) (p cause : Nat) (ctx : Ctx) (i : Issuer) : State :=
  let r := Reg.coreVeFault p
  let src := match i with | .thread _ => 0 | .plait _ => 1
  let id := match i with | .thread t => t | .plait n => n
  let s :=
    if s.getF r CORE_VE_FAULT.VALID = 1 then s.setF r CORE_VE_FAULT.OVR 1
    else ((((s.setF r CORE_VE_FAULT.VALID 1).setF r CORE_VE_FAULT.CAUSE cause).setF r CORE_VE_FAULT.CTX ctx.code).setF r
      CORE_VE_FAULT.SRC src).setF r CORE_VE_FAULT.ID id
  s.event (srcCore p) 2 0x01 (s.lcoreNo p) ctx.inst (s.ctxDetail p 2 cause ctx)

/-- Write CORE_CE_FAULT and the event record (R204). -/
def State.recordCe (s : State) (p cause : Nat) (ctx : Ctx) (engine : Nat) : State :=
  let r := Reg.coreCeFault p
  let s :=
    if s.getF r CORE_CE_FAULT.VALID = 1 then s.setF r CORE_CE_FAULT.OVR 1
    else (((s.setF r CORE_CE_FAULT.VALID 1).setF r CORE_CE_FAULT.CAUSE cause).setF r CORE_CE_FAULT.CTX ctx.code).setF r
      CORE_CE_FAULT.ENG engine
  s.event (srcCore p) 2 0x01 (s.lcoreNo p) ctx.inst (s.ctxDetail p 3 cause ctx)

/-! ## Tear-down -/

def MeEntry.inFlight (e : MeEntry) : Bool := e.phase == .running || e.phase == .stopped

/-- In-flight MMTs of a side. -/
def Side.flying (x : Side) : List (MeEntry × MmtOp) :=
  x.meQ.filterMap fun e => match e.op with
    | .mmt o => if e.inFlight then some (e, o) else none
    | _ => none

/-- The in-flight MMTs of a context on a side. -/
def Side.mmtsOf (x : Side) (ctx : Ctx) : List (MeEntry × MmtOp) := x.flying.filter fun y => y.1.ctx == ctx

/-- Feeder entries of vectors that no MMT of the queues will inject any more leave (R85). -/
def Core.pruneFeed (c : Core) : Core :=
  { c with feed := c.feed.filter fun f => (c.t.meQ ++ c.r.meQ).any fun e => e.id == f.mmt && e.phase != .stopped && decide (e.next ≤ f.vec) }

/-- Remove a context from a side: its in-flight regions are poisoned (R111), its queue entries go (R150). -/
def Side.dropCtx (x : Side) (ctx : Ctx) : Side :=
  let y := (x.mmtsOf ctx).foldl (fun y z => y.poisonRegion z.2) x
  { y with
    meQ := y.meQ.filter fun e => e.ctx != ctx
    ce0 := { y.ce0 with entries := y.ce0.entries.filter fun e => e.ctx != ctx }
    ce1 := { y.ce1 with entries := y.ce1.entries.filter fun e => e.ctx != ctx } }

/-- Remove a context from a core: threads, plaits, residents, tiles, queue entries (R150, R287). -/
def Core.dropCtx (c : Core) (ctx : Ctx) : Core :=
  let poisoned := ((c.t.mmtsOf ctx ++ c.r.mmtsOf ctx).foldl (fun q y => q ||| partQuads y.2.part) 0)
  Core.pruneFeed { c with
    threads := c.threads.filter fun x => x.2.ctx != ctx || !x.2.running
    plaits := c.plaits.filter fun x => x.2.ctx != ctx
    residents := c.residents.filter fun r => r.ctx != ctx
    t := c.t.dropCtx ctx
    r := c.r.dropCtx ctx
    tiles := c.tiles.filter fun x => x.ctx != ctx
    poisoned := c.poisoned ||| poisoned
    radioQ := c.radioQ.filter fun x => x.1 != ctx }

/-- Break the locks that a context holds (R181). -/
def breakLocks (code : Nat) (regs : List (Reg × BitVec 64)) : List (Reg × BitVec 64) :=
  regs.map fun x => match x.1 with
    | .coreCqLock _ _ =>
      if CORE_CQ_LOCK.STATE.get x.2 = 1 ∧ CORE_CQ_LOCK.OWNER.get x.2 = code then
        (x.1, CORE_CQ_LOCK.LAST.set (CORE_CQ_LOCK.STATE.set (CORE_CQ_LOCK.LEASE.set (CORE_CQ_LOCK.NP.set
          (CORE_CQ_LOCK.OWNER.set x.2 0) 0) 0) 2) code)
      else x
    | _ => x

/-- Record every in-flight MMT of a context as stopped with cause 0x5, at the vector at which it stops, and set POISON of its command
(R56, R108, R111, R112). -/
def State.notePoisoned (s : State) (p k : Nat) (ctx : Ctx) : State :=
  (((s.core p).side k).mmtsOf ctx).foldl (fun s y =>
    (s.recordMe p y.2.part 5 ctx y.1.next).flagMe p k y.1.cmd fPOISON) s

/-- The flags that a context's commands have set on a core go to their completion records, which end here (R55). -/
def State.collectFlags (s : State) (p : Nat) (ctx : Ctx) : State :=
  ((s.core p).residents.filter fun r => r.ctx == ctx).foldl (fun s r =>
    s.modCmd r.cmd fun c => if c.silent then c else { c with flags := c.flags ||| r.flags }) s

/-- The sequencer requests of a context are discarded, and those that run never deliver their notify (R247). -/
def State.dropSeq (s : State) (ctx : Ctx) : State :=
  s.stackSet.queues.foldl (fun s x =>
    s.setSeqQueue x.1 (x.2.filter fun (r : SeqReq) => r.ctx != ctx)) s

/-- A region wait with no open region left goes on to the ME drain (R175, R288). -/
def State.unwait (s : State) : State :=
  s.cores.foldl (fun s x =>
    let c := s.core x.1
    if c.t.stop = .regionWait ∧ (c.threads.any fun y => threadSide y.1 == 0 && y.2.running && y.2.region.isSome) = false then
      (s.setCore x.1 { c with t := { c.t with stop := .drain } }).setF (.coreCqPre x.1) CORE_CQ_PRE.PHASE 3
    else s) s

/-- Stop a context on every core and break its locks (R150, R181). -/
def State.dropCtx (s : State) (ctx : Ctx) : State :=
  let s := s.dropSeq ctx
  let s := s.cores.foldl (fun s x => ((s.notePoisoned x.1 0 ctx).notePoisoned x.1 1 ctx).collectFlags x.1 ctx) s
  let on := s.cores.filter fun x => x.2.residents.any fun r => r.ctx == ctx
  let s := s.mapCores fun _ c => c.dropCtx ctx
  let s := on.foldl (fun s x => s.syncFlags x.1) s
  { s with regs := breakLocks ctx.code s.regs }.unwait.wvPrune

/-- Free the save slots of an instance (R283, R289). -/
def State.dropImages (s : State) (n : Nat) : State :=
  { s with images := s.images.filter fun x => match x.2 with | some i => i.inst != n | none => false }

/-- A borrowed core whose tenant context is torn down discards that side's state after the radio side returns (R286); a spill or
restore of the instance stops and the range is zeroed (R289). -/
def Core.tenantTorn (c : Core) (n : Nat) (owner : Bool) : Core :=
  match c.takeover with
  | some k =>
    if k.from_ = n ∧ (k.phase = .spill ∨ k.phase = .stopping) then { c with takeover := some { k with phase := .zero, slot := none } }
    else if k.to_ = n ∧ k.phase = .restore then { c with takeover := some { k with phase := .zero, restore := none } }
    else if k.to_ = n then { c with takeover := some { k with restore := none } }
    else c
  | none =>
    if owner ∧ c.borrow.isSome then
      { c with takeover := some { phase := .zero, from_ := n, to_ := n, role := 0, since := 0, spillAt := 0, slot := none, restore := none } }
    else c

/-- Bytes of an image (R281). -/
def imageBytes (fixed plaits : Bool) : Nat :=
  if fixed then (if plaits then 15269888 else 14221312) else if plaits then 14090240 else 13172736

/-- The spills of an instance that stop with its tear-down (R289) count as pre-emptions, with the cycles since their boundary and the flits moved
so far, at 512 bytes a cycle (R218, R282, R284; log 19). -/
def State.chargeSpills (s : State) (n : Nat) : State :=
  s.cores.foldl (fun s x => match x.2.takeover with
    | some k =>
      if k.from_ = n ∧ k.phase = .spill then
        let whole := imageBytes (k.role == 3) (x.2.plaits.any fun y => match x.2.resident y.2.cmd with | some r => r.side == 0 | none => false)
        s.charge n fun a =>
          { a with npre := a.npre + 1, held := a.held + (s.gtc - k.since), bytes := a.bytes + min whole (512 * (s.gtc - k.spillAt)) }
      else s
    | none => s) s

/-- Held-off time of a borrow ends with the instance's hold on the core (R291). -/
def State.endHeld (s : State) (n : Nat) : State :=
  s.cores.foldl (fun s x => match x.2.borrow with
    | some b =>
      if b.charged = n ∧ n ≠ 0 then
        (s.charge n fun a => { a with held := a.held + (s.gtc - b.at_) }).modCore x.1
          fun c => { c with borrow := some { b with charged := 0 } }
      else s
    | none => s) s

/-- Stop everything of a tenant instance on the cores (R34, R320, R321). -/
def State.stopTenant (s : State) (n : Nat) : State :=
  let s := (s.endHeld n).chargeSpills n
  let s := s.dropCtx (.tenant n)
  let s := s.mapCores fun p c => c.tenantTorn n (s.getF (.coreCqPlan p) CORE_CQ_PLAN.OWNER == n)
  s.dropImages n

/-- A reply to a management request goes to the management ring (R316): DONE or REJECTED with a cause. -/
def State.mgmtReply (s : State) (ridx tag status cause : Nat) : State :=
  let irq := if status = 2 && s.ringRejirq 65 0 then some (s.ringVec 65 0) else none
  s.postCompletion ⟨65, 0, ridx⟩ ⟨tag, status, cause, 0, 0, 0, 0, 0, irq, s.gtc⟩ id

/-- Rings of an instance show that the instance's state holds them (R305). -/
def State.holdRings (s : State) (n : Nat) : State :=
  (List.range 64).foldl (fun s r =>
    if s.getF (.iwRingStatus n r) IW_RING_STATUS.STATE = 1 then s.setF (.iwRingStatus n r) IW_RING_STATUS.STATE 2 else s) s

/-- A fault tears down a tenant instance (R34, R320): CLASS and CORE go to IW_FAULT, the instance becomes FAULTED, fetching stops,
its accepted commands retire FAULTED, and a QUIESCE in progress replies DONE. -/
def State.faultInstance (s : State) (n cls lcore : Nat) : State :=
  let s := s.stopTenant n
  let s := ((s.setF (.iwFault n) IW_FAULT.VALID 1).setF (.iwFault n) IW_FAULT.CLASS cls).setF (.iwFault n) IW_FAULT.CORE lcore
  let s := s.setInstState n stFAULTED
  let s := s.holdRings n
  let s := s.retireAll n 3 cls
  match (s.inst n).work with
  | some w =>
    if w.op = .quiesce then (s.modInst n fun x => { x with work := none }).mgmtReply w.ridx w.tag 1 0 else s
  | none => s

/-- IW_FAULT.CLASS of a context fault by its cause in CORE_VE_FAULT: illegal instruction, uncorrectable data, other (R303). -/
def classOfVe (cause : Nat) : Nat := if cause = 3 then 2 else if cause = 2 then 4 else 5

/-- Tear down a cell-group context (R435, R437): its work stops, its accepted commands are retired (ABORTED where a re-run is not
made, R412, R437; else FAULTED), the downlink slots in preparation are not sent, the HARQ
buffers that its work has touched become invalid, its queue pair shows RECOVERING and counts the teardown, RL_CTX_DOWN carries the cause. It is
re-created at a slot start. cls is the CAUSE of the FAULTED records. -/
def State.contextDown (s : State) (g cause cls : Nat) : State :=
  let x := SMap.get RCtx.up s.radio.ctxs g
  let s := s.dropCtx (.cg g)
  let s := s.cores.foldl (fun s y => s.radioNext y.1) s
  let mine := s.cmds.filter fun c => c.inst == 0 && c.d.cg == g && c.open_
  let s := mine.foldl (fun s c =>
    if c.silent then { s with cmds := s.cmds.filter fun q => q.key != c.key }
    else if cause = 4 ∨ cause = 5 then s.endCommand c.key.no 4 0 else s.endCommand c.key.no 3 cls) s
  let x' : RCtx :=
    { x with
      down := some s.gtc
      warm := decide (cause = 5)
      recent := if cause = 5 then x.recent else (x.recent.filter fun t => decide (s.gtc < t + 3600000000)) ++ [s.gtc]
      harqTouched := []
      harqBad := x.harqBad ++ x.harqTouched.map Prod.fst }
  let s := (s.cellsOf g).foldl (fun s y => s.dropDl y.2) s
  let s := (s.setRctx g x').showGroup g
  let s := (s.qpsOf g).foldl (fun s q => s.satF (.rlQpStatus q) RL_QP_STATUS.FAULTS 1) s
  let s := if cause = 1 then s.modelHit g else s
  s.event srcMp 2 0x70 0xFF g (cause * 2 ^ 10)

/-- Tear down a context: a tenant's instance, or a cell-group context of I0 (R34, R150, R435). cls is IW_FAULT.CLASS. -/
def State.tearDown (s : State) (ctx : Ctx) (cls lcore : Nat) : State :=
  match ctx with
  | .tenant n => s.faultInstance n cls lcore
  | .cg g => s.contextDown g 1 cls

/-- A translation fault (R315): IW_TFAULT and IW_TFAULT_VA, the event record, and the tear-down of the instance or of the
cell-group context. src: 0 copy engine, 1 stack program, 2 instance manager. -/
def State.transFault (s : State) (ctx : Ctx) (cause level addr : Nat) (write : Bool) (src lcore : Nat) : State :=
  let n := ctx.inst
  let r := Reg.iwTfault n
  let lv := if cause = 1 ∨ cause = 2 ∨ cause = 5 then level else 0
  let s := ((((s.setF r IW_TFAULT.VALID 1).setF r IW_TFAULT.CAUSE cause).setF r IW_TFAULT.LEVEL lv).setF r
    IW_TFAULT.WRITE write.toNat).setF r IW_TFAULT.SRC src
  let s := s.setReg (.iwTfaultVa n) (BitVec.ofNat 64 addr)
  let s := s.event srcIm 2 0x05 lcore n ((s.reg r).toNat / 2 ^ 8)
  s.tearDown ctx 1 lcore

/-- A context fault raised in the VE, the SU or a plait (R150). -/
def State.veFault (s : State) (p cause : Nat) (ctx : Ctx) (i : Issuer) : State :=
  (s.recordVe p cause ctx i).tearDown ctx (classOfVe cause) (s.lcoreNo p)

/-- A context fault raised in a copy engine (R204). -/
def State.ceFault (s : State) (p cause : Nat) (ctx : Ctx) (engine : Nat) : State :=
  (s.recordCe p cause ctx engine).tearDown ctx (if cause = 2 then 4 else 5) (s.lcoreNo p)

/-- A partition fault before the tear-down (R108): the region of the faulting MMT is poisoned, POISON set, the fault recorded. -/
def State.mePoison (s : State) (p k cause : Nat) (e : MeEntry) (o : MmtOp) (vec : Nat) : State :=
  let s := s.modCore p fun c =>
    let x := c.side k
    Core.pruneFeed { (c.setSide k { x.poisonRegion o with meQ := x.meQ.filter fun q => q.id != e.id }) with
      poisoned := c.poisoned ||| partQuads o.part }
  (s.flagMe p k e.cmd fPOISON).recordMe p o.part cause e.ctx vec

/-- A partition fault (R108): the owning context is torn down. -/
def State.meFault (s : State) (p k cause : Nat) (e : MeEntry) (o : MmtOp) (vec : Nat) : State :=
  (s.mePoison p k cause e o vec).tearDown e.ctx (if cause = 2 ∨ cause = 3 then 4 else 5) (s.lcoreNo p)

end Sys2Proof.Machine
end

