-- ==== Sys2Proof/Machine/Issue.lean ====
section
/-!
DEFINITION. Fetch, issue and illegal words (R160, R165, R166, R182, R183): what every instruction shares.
-/
namespace Sys2Proof.Machine

/-- Issuer number i: SU thread i below 16, plait slot i - 16 from there. -/
def issuerOf (i : Nat) : Issuer := if i < 16 then .thread i else .plait (i - 16)

/-- An instruction about to issue: core slot, issuer, side, context, command, address and word. -/
structure Iss where
  p : Nat
  i : Nat
  k : Nat
  ctx : Ctx
  cmd : Nat
  pc : Nat
  w : Nat

/-- The word's fields. -/
def Iss.f (x : Iss) (hi lo : Nat) : Nat := bitsOf x.w hi lo
def Iss.isThread (x : Iss) : Bool := decide (x.i < 16)
def Iss.rd (x : Iss) : Nat := x.f 53 49
def Iss.ra (x : Iss) : Nat := x.f 48 44
def Iss.rb (x : Iss) : Nat := x.f 43 39
def Iss.rc (x : Iss) : Nat := x.f 38 34
def Iss.imm (x : Iss) : Nat := x.f 31 0
def Iss.simm (x : Iss) : Int := signed 32 (x.f 31 0)
def Iss.v (x : Iss) : VF := VF.ofWord x.w

/-- pc of a running thread or of a live plait, with its context and command. -/
def Core.where_ (c : Core) (i : Nat) : Option (Nat × Ctx × Nat) :=
  if i < 16 then
    let t := c.thread i
    if t.running then some (t.pc, t.ctx, t.cmd) else none
  else
    let q := c.plait (i - 16)
    if q.live = 0 then none else some (q.pc, q.ctx, q.cmd)

/-- The code region of the resident command and its side. -/
def Core.codeOf (c : Core) (cmd : Nat) : Nat × Nat × Nat :=
  match c.resident cmd with
  | some r => (r.code, r.codeLen, r.side)
  | none => (0, 0, 0)

/-- The instruction that an issuer would fetch next. -/
def State.iss (s : State) (p i : Nat) : Option Iss :=
  let c := s.core p
  match c.where_ i with
  | none => none
  | some (pc, ctx, cmd) =>
    let k := if i < 16 then threadSide i else (c.codeOf cmd).2.2
    some ⟨p, i, k, ctx, cmd, pc, c.sp.readLE pc 8⟩

/-- The fetch stays in the code region, aligned, and the region lies in the side's range (R160). -/
def State.fetchOk (s : State) (x : Iss) : Bool :=
  let r := (s.core x.p).codeOf x.cmd
  decide (x.pc % 8 = 0) && decide (r.1 ≤ x.pc) && decide (x.pc + 8 ≤ r.1 + r.2.1) && s.inRange x.p x.k r.1 r.2.1

/-- The side issues: its engines are active, it is not stopped, borrowed from, taken over or clock-gated (R148, R175, R270,
R282, R537). A thread with an open region still issues in the region wait, of a take-over's stop as well (R175). -/
def State.sideIssues (s : State) (p k : Nat) (inRegion : Bool) : Bool :=
  let c := s.core p
  let st := (c.side k).stop
  s.sideActive p k && ((decide (st = .run) && !c.throttled) || (decide (st = .regionWait) && inRegion))
    && (s.isStake p ||
      (if k = 1 then (match c.borrow with | some b => decide (b.phase = .radio) | none => false)
       else (c.borrow.isNone || inRegion) && (c.takeover.isNone || inRegion)))

/-- Scalar registers an outstanding load will write. -/
def pendingS (ls : List Load) : List Nat := ls.filterMap fun l => match l.dest with | .scalar r => some r | _ => none
def pendingV (ls : List Load) : List Nat := ls.filterMap fun l => match l.dest with | .vector r => some r | _ => none

/-- Registers named by a word: scalar fields by class, vector fields with the consecutive registers of VBF4, VPERM4 and the
LDPC instructions (R122). -/
def namedS (w : Nat) : List Nat :=
  match bitsOf w 62 60 with
  | 0 => [bitsOf w 53 49, bitsOf w 48 44, bitsOf w 43 39, bitsOf w 38 34]
  | 1 => match bitsOf w 59 54 with
    | 1 => [bitsOf w 12 8, bitsOf w 7 3]
    | 2 => [bitsOf w 45 41, bitsOf w 40 36]
    | _ => [bitsOf w 20 16, bitsOf w 15 11, bitsOf w 10 6, bitsOf w 5 1]
  | 2 => [bitsOf w 22 18, bitsOf w 17 13]
  | _ => [bitsOf w 52 48]

/-- A vector opcode reads the scalar that SS names: VMOVA, VLD, VST, VLDS, VSTS, VBCST. -/
def usesSS (op : Nat) : Bool := [0x15, 0x20, 0x21, 0x22, 0x23, 0x28].contains op

/-- A vector opcode reads the scalar that SR names: VLDS, VSTS. -/
def usesSR (op : Nat) : Bool := [0x22, 0x23].contains op

def namedV (w : Nat) : List Nat :=
  if bitsOf w 62 60 = 2 then
    let f := VF.ofWord w
    let op := bitsOf w 59 54
    let run (b n : Nat) : List Nat := (List.range n).map (b + ·)
    if op = 0x13 then run f.a 4 ++ run f.b 3
    else if op = 0x16 then f.d :: f.b :: run f.a 4
    else if op = 0x1D then run f.d 3
    else if op = 0x1E then f.a :: run f.d 3
    else if op = 0x1F then f.d :: f.b :: run f.a 3
    else if op = 0x12 ∨ op = 0x0F then [f.a, f.b]
    else if op = 0x14 ∨ 0x30 ≤ op then []
    else if op = 0x07 ∨ op = 0x26 then [f.d, f.a, f.b, f.c]
    else if op ≤ 0x10 then [f.d, f.a, f.b]
    else if op = 0x11 ∨ op = 0x17 ∨ op = 0x18 ∨ (0x19 ≤ op ∧ op ≤ 0x1C) ∨ op = 0x24 ∨ op = 0x25 then [f.d, f.a]
    else [f.d]
  else []

/-- Vector registers of a plait from which a word reads a scalar (log 12). -/
def plaitScalars (w : Nat) : List Nat :=
  if bitsOf w 62 60 = 2 then
    (if usesSS (bitsOf w 59 54) then [bitsOf w 22 18] else []) ++ (if usesSR (bitsOf w 59 54) then [bitsOf w 17 13] else [])
  else []

/-- Scalar registers that a word reads at its issue: those it names, but not the shift-record register of an MDR (R122). -/
def readsS (w : Nat) : List Nat :=
  if bitsOf w 62 54 = 0x43 then [bitsOf w 20 16, bitsOf w 15 11, bitsOf w 5 1] else namedS w

/-- An MDR of thread t that has not completed writes scalar register r (R67, R95, R122). -/
def Side.drains (x : Side) (t r : Nat) : Bool :=
  x.meQ.any fun e => e.thread == t && (match e.op with | .mdr o => o.sr == r | _ => false)

/-- Loads under way into the vector bank of a side, of whichever of its threads (R117, R122). -/
def Core.sideLoads (c : Core) (k : Nat) : List Load := (c.threads.filter fun x => threadSide x.1 == k).flatMap fun x => x.2.loads

/-- The issuer may issue now; where it may not, it waits (R122, R135, R136, R146, R175). -/
def State.issReady (s : State) (x : Iss) : Bool :=
  let c := s.core x.p
  if x.i < 16 then
    let t := c.thread x.i
    s.sideIssues x.p x.k t.region.isSome && t.wait.isNone
      && (readsS x.w).all (fun r => r = 0 || !(c.side x.k).drains x.i r)
      && (namedS x.w).all (fun r => r = 0 || !(pendingS t.loads).contains r)
      && (namedV x.w).all (fun r => !(pendingV (c.sideLoads x.k)).contains r)
  else
    let q := c.plait (x.i - 16)
    s.sideIssues x.p x.k false && !q.arrived
      && (namedV x.w ++ plaitScalars x.w).all fun r => !(pendingV q.loads).contains r

/-- Value of scalar register n of a thread; s0 reads 0 (R133). -/
def Thread.reg (t : Thread) (n : Nat) : Word := if n = 0 then 0 else SMap.get 0 t.s n
def Thread.setReg (t : Thread) (n : Nat) (v : Word) : Thread := if n = 0 then t else { t with s := SMap.put 0 t.s n v }

/-- The scalar value that a scalar field names for an issuer: a thread's register; for a plait the value that its register n
holds in the lowest active lane (DESIGN CHOICE, log 12). -/
def State.sval (s : State) (x : Iss) (n : Nat) : Word :=
  let c := s.core x.p
  if x.i < 16 then (c.thread x.i).reg n
  else
    let q := c.plait (x.i - 16)
    match (List.range 64).find? fun l => q.active.getLsbD l with
    | some l => BitVec.ofNat 64 (laneOf (q.bank.reg n) l)
    | none => 0

def State.modThread (s : State) (p t : Nat) (f : Thread → Thread) : State :=
  s.modCore p fun c => c.setThread t (f (c.thread t))

def State.modPlait (s : State) (p n : Nat) (f : Plait → Plait) : State :=
  s.modCore p fun c => c.setPlait n (f (c.plait n))

/-- Set the issuer's pc. -/
def State.setPc (s : State) (x : Iss) (pc : Nat) : State :=
  if x.i < 16 then s.modThread x.p x.i fun t => { t with pc := pc }
  else s.modPlait x.p (x.i - 16) fun q => { q with pc := pc }

/-- Go on to the next instruction. -/
def State.advance (s : State) (x : Iss) : State := s.setPc x (x.pc + 8)

/-- Write a scalar register of the issuing thread. -/
def State.wrS (s : State) (x : Iss) (rd : Nat) (v : Word) : State :=
  if x.i < 16 then s.modThread x.p x.i fun t => t.setReg rd v else s

/-- Loads of earlier words of the issuer that are still under way. -/
def State.owed (s : State) (x : Iss) : List Load :=
  if x.i < 16 then ((s.core x.p).thread x.i).loads else ((s.core x.p).plait (x.i - 16)).loads

/-- An illegal word has no effect; once the words of its issuer before it have completed, it raises a context fault with CAUSE 0x3 (R183). -/
def State.illegal (s : State) (x : Iss) : State :=
  if (s.owed x).isEmpty then s.veFault x.p 3 x.ctx (issuerOf x.i) else s

/-- The word may be issued by its issuer and its V flag is right (R165, R172): want says whether V must be 1. -/
def Iss.vOk (x : Iss) (want : Bool) : Bool := decide (x.f 63 63 = want.toNat)

/-- One instruction: class and opcode of its row, the legality of its word, and its effect. Where the issuer does not exist, waits or has
another instruction next, nothing issues and the state stays; an illegal word faults. -/
def instr (p i cls op : Nat) (legal : State → Iss → Bool) (eff : State → Iss → State) (s : State) : Out :=
  match s.iss p i with
  | none => s.when false s
  | some x =>
    s.when (s.fetchOk x && !Core.spBad (s.core p) x.pc 8 && decide (x.f 62 60 = cls) && decide (x.f 59 54 = op) && s.issReady x)
      (if legal s x then eff (s.spCorrect p x.pc 8) x else (s.spCorrect p x.pc 8).illegal x)

end Sys2Proof.Machine
end

