-- ==== Sys2Proof/Machine/Memops.lean ====
section
/-!
DEFINITION. Scratchpad reads and writes of an issuer, with the faults of R123, R84, R160 and R186.
-/
namespace Sys2Proof.Machine

/-- Bytes of one column of a tile (R81): K elements, or K / 32 records. -/
def colBytes (part : Nat) (wf : Fmt) : Nat :=
  let k := (partGeom part).2.1
  if wf.isBfp then k / 32 * wf.recordBytes
  else if wf.isComplex then k / 2 * wf.bits / 8
  else k * wf.bits / 8

/-- Columns that a tile stores: N of its partition, halved in complex mode (R73). -/
def tileCols (part : Nat) (wf : Fmt) : Nat :=
  let n := (partGeom part).2.2.2
  if wf.isComplex then n / 2 else n

/-- Source range of a tile: first address and end (R81, R84). -/
def tileSpan (part : Nat) (wf : Fmt) (src stride : Nat) : Nat × Nat :=
  (src, src + (tileCols part wf - 1) * stride + colBytes part wf)

def overlaps (a n : Nat) (r : Nat × Nat) : Bool := decide (a < r.2) && decide (r.1 < a + n)

/-- Live weight sources of a side (R84): every tile in the array or the shadow buffer, and the MWLs in the queue (log 16). -/
def Core.liveSpans (c : Core) (k : Nat) : List (Nat × Nat) :=
  (c.tiles.filter fun t => t.side == k).map (fun t => tileSpan t.part t.wf t.src t.stride)
  ++ (c.side k).meQ.filterMap fun e => match e.op with
    | .mwl o => some (tileSpan o.part o.wf o.wsrc o.wstride)
    | _ => none

/-- Code regions that are read-only to a side (R160). -/
def Core.codeSpans (c : Core) (k : Nat) : List (Nat × Nat) :=
  (c.residents.filter fun r => r.side == k && r.codeLen != 0).map fun r => (r.code, r.code + r.codeLen)

/-- A write of n bytes at a overlaps a live weight source or a running code region of the side. -/
def Core.guarded (c : Core) (k a n : Nat) : Bool := (c.liveSpans k ++ c.codeSpans k).any (overlaps a n)

/-- A word that the bytes cover in part holds an uncorrectable error, so the write is dropped (R186). -/
def Core.partialBad (c : Core) (a n : Nat) : Bool :=
  c.spCheck.any fun x => decide (x.2 = .double) && decide (8 * x.1 < a + n) && decide (a < 8 * x.1 + 8)
    && !(decide (a ≤ 8 * x.1) && decide (8 * x.1 + 8 ≤ a + n))

/-- Fault cause of a read of some spans of an issuer, none when it may go ahead (R123, R186). -/
def State.readFault (s : State) (p k : Nat) (spans : List (Nat × Nat)) : Option Nat :=
  if spans.all (fun x => s.inRange p k x.1 x.2) then
    (if spans.any (fun x => (s.core p).spBad x.1 x.2) then some 2 else none)
  else some 1

/-- Fault cause of a write of some spans (R84, R123, R160, R186). -/
def State.writeFault (s : State) (p k : Nat) (spans : List (Nat × Nat)) : Option Nat :=
  if spans.all (fun x => s.inRange p k x.1 x.2) then
    if spans.any (fun x => (s.core p).guarded k x.1 x.2) then some 4
    else if spans.any (fun x => (s.core p).partialBad x.1 x.2) then some 2
    else none
  else some 1

/-- The in-flight MMTs of a side whose weight tile's source a write of some spans hits (R84, R108). -/
def Core.weightHits (c : Core) (k : Nat) (spans : List (Nat × Nat)) : List (MeEntry × MmtOp) :=
  (c.side k).flying.filter fun y => c.tiles.any fun t =>
    t.id == y.1.tile && spans.any fun x => overlaps x.1 x.2 (tileSpan t.part t.wf t.src t.stride)

/-- A write by a context into a live weight source is a partition fault of the MMTs that use the tile, cause 0x4; a context that owns one of
them and is not the writer is torn down with it (R84, R108). -/
def State.weightWritten (s : State) (p k : Nat) (writer : Ctx) (spans : List (Nat × Nat)) : State :=
  let hits := (s.core p).weightHits k spans
  let s := hits.foldl (fun s y => s.mePoison p k 4 y.1 y.2 y.1.next) s
  ((hits.map fun y => y.1.ctx).eraseDups.filter fun c => c != writer).foldl (fun s c => s.tearDown c 5 (s.lcoreNo p)) s

/-- A fault of an issuer's access, with the records of an uncorrectable word (R150, R186) and the partition faults of a live weight source
(R108). -/
def State.accessFault (s : State) (x : Iss) (cause : Nat) (spans : List (Nat × Nat)) : State :=
  let s := if cause = 4 then s.weightWritten x.p x.k x.ctx spans else s
  let s := if cause = 2 then
      (match spans.find? fun y => (s.core x.p).spBad y.1 y.2 with
        | some y => s.spUncorrectable x.p y.1 y.2
        | none => s)
    else s
  s.veFault x.p cause x.ctx (issuerOf x.i)

/-- Single-bit errors under a read are corrected (R186). -/
def State.correctSpans (s : State) (p : Nat) (spans : List (Nat × Nat)) : State :=
  spans.foldl (fun s x => s.spCorrect p x.1 x.2) s

/-- Record an outstanding load of the issuer (R121, R122). -/
def State.addLoad (s : State) (x : Iss) (l : Load) : State :=
  if x.i < 16 then s.modThread x.p x.i fun t => { t with loads := t.loads ++ [l] }
  else s.modPlait x.p (x.i - 16) fun q => { q with loads := q.loads ++ [l] }

end Sys2Proof.Machine
end

