-- ==== Sys2Proof/Machine/Matrix.lean ====
section
/-!
DEFINITION. The matrix engine (R57 to R112): MMT, MWL, MDR, their completion, and the stop and return of a side.
-/
namespace Sys2Proof.Machine

/-! ## Operands -/

/-- A 32-row segment of a weight column or of an activation vector: its exponent term k - (m - 2), its mantissas (real and
imaginary part), and whether it is poisoned (R57 to R62). Integers have no exponent in R62: beside a BFP or floating-point operand their
term is 0 (DESIGN CHOICE, log 67). -/
structure Seg where
  exp : Int
  vals : List (Int × Int)
  bad : Bool

/-- Split a list into pieces of n. -/
def piecesOf {α : Type} (n : Nat) : Nat → List α → List (List α)
  | 0, _ => []
  | c + 1, l => l.take n :: piecesOf n c (l.drop n)

/-- Bytes of n elements in a format (R39, R42). -/
def rowBytes (f : Fmt) (n : Nat) : Nat := if f.isBfp then n / 32 * f.recordBytes else n * f.bits / 8

/-- One BFP record (R42, R43). -/
def bfpSeg (f : Fmt) (rec : List Byte) : Seg :=
  let e := ((rec.head?).getD 0).toNat
  if e = 255 then ⟨0, [], true⟩
  else
    let body := leNat (rec.drop 1)
    ⟨(e : Int) - 127 - ((f.bits : Int) - 2),
      (List.range 32).map fun i => (if e = 0 then 0 else recordMantissa f.bits i body, 0), false⟩

/-- One group of 32 floating-point values, aligned with m planes (R45, R57, R58, R60). -/
def fltSeg (m : Nat) (xs : List FVal) : Seg × Flags :=
  if anyNonFinite xs then (⟨0, [], true⟩, 0)
  else
    let b := bfpQuantise m xs
    (⟨(b.e : Int) - 127 - ((m : Int) - 2), b.q.map fun q => (q, 0), false⟩, if b.ovf then fOVF else 0)

/-- Segments of rows / 32 x 32 logical rows of elements stored in a format: a weight column or an activation vector. -/
def segsOf (f : Fmt) (m rows : Nat) (bs : List Byte) : List Seg × Flags :=
  let nseg := rows / 32
  if f.isBfp then ((piecesOf f.recordBytes nseg bs).map (bfpSeg f), 0)
  else
    let w := leNat bs
    let code (i : Nat) : Nat := w / 2 ^ (f.bits * i) % 2 ^ f.bits
    if f.isFloat then
      let gs := (List.range nseg).map fun g => fltSeg m ((List.range 32).map fun i => f.fval (code (32 * g + i)))
      (gs.map Prod.fst, gs.foldl (fun a g => a ||| g.2) 0)
    else if f.isComplex then
      ((List.range nseg).map fun g =>
        ⟨0, (List.range 16).map fun i =>
          (signed f.partBits (code (16 * g + i)), signed f.partBits (code (16 * g + i) / 2 ^ f.partBits)), false⟩, 0)
    else ((List.range nseg).map fun g => ⟨0, (List.range 32).map fun i => (f.intVal (code (32 * g + i)), 0), false⟩, 0)

/-- Negated imaginary weight that the loader writes, limited to the output range (R79). -/
def negImag (f : Fmt) (wi : Int) : Int := min (-wi) (symLim f.partBits)

/-- Exact sum of a real segment (R61). -/
def dotReal (w a : List (Int × Int)) : Int := (w.zip a).foldl (fun t x => t + x.1.1 * x.2.1) 0

/-- Exact sums of a complex segment, real and imaginary column (R78, R79). -/
def dotCplx (f : Fmt) (w a : List (Int × Int)) : Int × Int :=
  (w.zip a).foldl (fun t x =>
    (t.1 + x.2.1 * x.1.1 + x.2.2 * negImag f x.1.2, t.2 + x.2.1 * x.1.2 + x.2.2 * x.1.1)) (0, 0)

/-- Add a segment sum of scale 2^f to an accumulator of scale 2^c (R51, R62, R63). A poison marker stays until an MMT with ACC = 0 (R96), and
adding to it sets no flag (DESIGN CHOICE, log 67). -/
def accAdd (scaled : Bool) (f c : Int) (acc s : Int) : Int × Flags :=
  if acc = accPoison then (acc, 0)
  else
    let r := if scaled then satSym 48 (if c ≤ f then s * ((2 ^ (f - c).toNat : Nat) : Int) else shiftRound s (c - f).toNat)
      else (s, 0)
    let t := satSym 48 (acc + r.1)
    (t.1, r.2 ||| t.2)

/-- One column (or a complex column's real or imaginary part: which = 0 or 1) of one vector, over the segments in ascending row
order. -/
def accColumn (wf : Fmt) (scaled : Bool) (c : Int) (which : Nat) : List (Seg × Seg) → Int × Flags → Int × Flags
  | [], r => r
  | (w, a) :: rest, (acc, fl) =>
    if w.bad || a.bad then (accPoison, fl ||| fINV ||| fPOISON)
    else
      let s := if wf.isComplex then (if which = 0 then (dotCplx wf w.vals a.vals).1 else (dotCplx wf w.vals a.vals).2)
        else dotReal w.vals a.vals
      let zero := w.vals.all (fun v => decide (v = (0, 0))) || a.vals.all (fun v => decide (v = (0, 0)))
      let r := if zero then (acc, 0) else accAdd scaled (w.exp + a.exp) c acc s
      accColumn wf scaled c which rest (r.1, fl ||| r.2)

/-- Formats whose products carry a scale (R62). -/
def Fmt.isScaled (f : Fmt) : Bool := f.isBfp || f.isFloat

/-! ## MMT -/

def Side.accAt (x : Side) (row col : Nat) : Int := SMap.get 0 x.acc (row * 256 + col)
def Side.tag (x : Side) (row : Nat) : Int := SMap.get 0 x.tags row

/-- One activation vector into accumulator row of a side (R58, R61 to R63, R78, R80, R90); integer and complex work writes the tag as 0. -/
def mmtVector (x : Side) (o : MmtOp) (wf : Fmt) (cols : List (List Seg)) (act : List Seg × Flags) (row : Nat) : Side × Flags :=
  let g := partGeom o.part
  let scaled := o.af.isScaled || wf.isScaled
  let c : Int := if o.acc then x.tag row else if scaled then o.c else 0
  let whole := act.1.any Seg.bad
  let cell (j : Nat) : Int × Flags :=
    let old := if o.acc then x.accAt row (g.2.2.1 + j) else 0
    if whole then (accPoison, fINV ||| fPOISON)
    else
      let n := if wf.isComplex then j / 2 else j
      accColumn wf scaled c (j % 2) (((cols[n]?).getD []).zip act.1) (old, 0)
  let vals := (List.range g.2.2.2).map cell
  let acc := accSet x.acc row 1 g.2.2.1 g.2.2.2 fun _ j => (((vals.map Prod.fst)[j - g.2.2.1]?).getD 0)
  ({ x with acc := acc, tags := if o.acc && scaled then x.tags else SMap.put 0 x.tags row c },
    vals.foldl (fun a v => a ||| v.2) act.2)

/-- Address and bytes of activation vector v (R86). -/
def MmtOp.vec (o : MmtOp) (v : Nat) : Nat × Nat :=
  (o.asrc + v * o.astride, rowBytes o.af (if o.af.isComplex then (partGeom o.part).2.1 / 2 else (partGeom o.part).2.1))

/-- The feeders' entry of a vector, if it has been fetched (R85, R87). -/
def Core.fed (c : Core) (mmt v : Nat) : Option FeedEnt := c.feed.find? fun f => f.mmt == mmt && f.vec == v

/-- Bytes of vector v of MMT id, and whether its fetch met an uncorrectable word: as the feeders hold them, else as the fetch unit reads them
now (R87). -/
def Core.actData (c : Core) (id : Nat) (o : MmtOp) (v : Nat) : List Byte × Bool :=
  match c.fed id v with
  | some f => (f.data, f.bad)
  | none => (c.sp.read (o.vec v).1 (o.vec v).2, c.spBad (o.vec v).1 (o.vec v).2)

/-- Vectors from v, n of them: the side and flags, or the vector with an uncorrectable error (R108 cause 2). -/
def mmtVectors (c : Core) (id : Nat) (o : MmtOp) (wf : Fmt) (cols : List (List Seg)) : Nat → Nat → Side × Flags → (Side × Flags) ⊕ Nat
  | 0, _, r => .inl r
  | n + 1, v, (x, fl) =>
    let d := c.actData id o v
    if d.2 then .inr v
    else
      let r := mmtVector x o wf cols (segsOf o.af o.planes (partGeom o.part).2.1 d.1) (o.arow + v)
      mmtVectors c id o wf cols n (v + 1) (r.1, fl ||| r.2)

def Core.tile? (c : Core) (id : Nat) : Option Tile := c.tiles.find? fun t => t.id == id

/-- Remove an entry from the ME queue of a side. -/
def Core.dropMe (c : Core) (k id : Nat) : Core :=
  let x := c.side k
  Core.pruneFeed (c.setSide k { x with meQ := x.meQ.filter fun e => e.id != id })

/-- Change an entry of the ME queue of a side. -/
def Core.modMe (c : Core) (k id : Nat) (f : MeEntry → MeEntry) : Core :=
  let x := c.side k
  c.setSide k { x with meQ := x.meQ.map fun e => if e.id = id then f e else e }

/-- Replaced tiles that no in-flight MMT uses leave the core. -/
def Core.pruneTiles (c : Core) : Core :=
  { c with tiles := c.tiles.filter fun t => t.place != .old || (c.t.meQ ++ c.r.meQ).any fun e => e.tile == t.id }

def quadCount (part : Nat) : Nat := if part = 0 then 4 else if part < 3 then 2 else 1

/-- Take vectors up to upto of an in-flight MMT into the accumulators, and credit them (R99, R103); with the last the MMT
completes. -/
def State.runMmt (s : State) (p k : Nat) (e : MeEntry) (o : MmtOp) (upto : Nat) : State :=
  let c := s.core p
  match c.tile? e.tile with
  | none => s
  | some t =>
    if t.bad ≠ 0 then s.meFault p k t.bad e o e.next
    else
      let cols := t.cols.map fun b => (segsOf t.wf 16 (partGeom o.part).2.1 b).1
      let fl := if cols.any (fun l => l.any Seg.bad) then fINV ||| fPOISON else 0
      let late := ((List.range (upto - e.next)).map (e.next + ·)).filter fun v => (c.fed e.id v).isNone
      match mmtVectors c e.id o t.wf cols (upto - e.next) e.next (c.side k, fl) with
      | .inr v => (s.spUncorrectable p (o.vec v).1 (o.vec v).2).meFault p k 2 e o v
      | .inl r =>
        let s := (s.setCore p (c.setSide k r.1)).correctSpans p (late.map o.vec)
        let s := s.flagMe p k e.cmd r.2
        let s := s.charge e.ctx.inst fun a => { a with array := a.array + quadCount o.part * (upto - e.next) * o.planes }
        if upto = o.m then s.modCore p fun c => (c.dropMe k e.id).pruneTiles
        else s.modCore p fun c => (c.modMe k e.id fun q => { q with next := upto }).pruneFeed

/-! ## MDR -/

def mdrCols : Nat → Nat × Nat
  | 0 => (0, 256)
  | 1 => (0, 128)
  | _ => (128, 128)

/-- Elements that one drained row gives. -/
def MdrOp.elems (o : MdrOp) : Nat := if o.df.isComplex then (mdrCols o.cols).2 / 2 else (mdrCols o.cols).2

/-- Destination span of one row. -/
def MdrOp.rowSpan (o : MdrOp) (i : Nat) : Nat × Nat := (o.dst + i * o.dstride, rowBytes o.df o.elems)

/-- An automatic scaling shift applies to a drain into format f (R66). -/
def autoDrain (am : AMode) (f : Fmt) : Bool := am.ashift && !f.isFloat && !f.isBfp

/-- Whole destination span (R94), and the span of the shift bytes where an automatic shift applies (R95). -/
def MdrOp.spans (am : AMode) (o : MdrOp) : List (Nat × Nat) :=
  (o.dst, (o.nrows - 1) * o.dstride + rowBytes o.df o.elems) ::
    (if o.useShdst && autoDrain am o.df then [(o.shdst, o.nrows)] else [])

/-- Smallest automatic shift that brings every value v = n / 2^d into lo..hi, at most 47 (R66). -/
def drainShift (lo hi : Int) (vs : List (Int × Nat)) : Nat :=
  ((List.range 48).find? fun (s : Nat) => vs.all fun v =>
    let r := roundScaled v.1 (2 ^ v.2) (-(s : Int))
    decide (lo ≤ r) && decide (r ≤ hi)).getD 47

/-- One drained row: bytes written, automatic shift, flags (R64, R66, R68, R169). A poison marker converts as a NaN (R54, R109); no shift brings
it into range, and it does not count for the shift of its row (DESIGN CHOICE, log 67). A stored block with E = 255 has zero mantissas (log 67). -/
def mdrRow (x : Side) (am : AMode) (o : MdrOp) (row : Nat) : List Byte × Nat × Flags :=
  let g := mdrCols o.cols
  let c := x.tag row
  let raw := (List.range g.2).map fun j => x.accAt row (g.1 + j)
  -- value n / 2^d after the explicit shift
  let val (a : Int) : Int × Nat :=
    if o.sh = 0 then (if 0 ≤ c then (a * ((2 ^ c.toNat : Nat) : Int), 0) else (a, (-c).toNat))
    else (roundScaled a 1 (c - o.sh), 0)
  let good := (raw.filter fun a => a != accPoison).map val
  let s := if autoDrain am o.df then drainShift o.df.range.1 o.df.range.2 good else 0
  let fs := if s = 0 then 0 else fSHIFT
  let fp := if raw.any (fun a => a == accPoison) then fPOISON ||| fINV else 0
  let real (a : Int) : FVal := if a = accPoison then .nan else FVal.ofRatio false (val a).1 (2 ^ (val a).2)
  let narrow (a : Int) : Int := roundScaled (val a).1 (2 ^ (val a).2) (-(s : Int))
  if o.df.isBfp then
    let blks := (piecesOf 32 (g.2 / 32) raw).map fun l =>
      let vs := l.map real
      if anyNonFinite vs then (BitVec.ofNat 8 255 :: leBytes (o.df.recordBytes - 1) 0, fINV)
      else
        let b := bfpQuantise o.df.bits vs
        (BitVec.ofNat 8 b.e :: leBytes (o.df.recordBytes - 1) (packMantissas o.df.bits b.q), if b.ovf then fOVF else 0)
    (blks.flatMap Prod.fst, s, blks.foldl (fun a b => a ||| b.2) (fs ||| fp))
  else if o.df.isComplex then
    let es := (List.range (g.2 / 2)).map fun j =>
      let re := (raw[2 * j]?).getD 0; let im := (raw[2 * j + 1]?).getD 0
      if re = accPoison ∨ im = accPoison then (o.df.poison, fINV)
      else convert am o.df 0 (.cplx (narrow re) (narrow im))
    (leBytes (rowBytes o.df (g.2 / 2)) (packNat o.df.bits (es.map Prod.fst)), s, es.foldl (fun a b => a ||| b.2) (fs ||| fp))
  else
    let es := raw.map fun a =>
      if o.df.isFloat then convert am o.df 0 (.flt (real a))
      else if a = accPoison then (o.df.poison, fINV)
      else convert am o.df 0 (.int (narrow a))
    (leBytes (rowBytes o.df g.2) (packNat o.df.bits (es.map Prod.fst)), s, es.foldl (fun a b => a ||| b.2) (fs ||| fp))

/-- Drain one row: write it, fold it, record its shift (R92, R95, R341). -/
def State.mdrOne (s : State) (p k : Nat) (e : MeEntry) (o : MdrOp) (i : Nat) : State :=
  let r := mdrRow ((s.core p).side k) (s.amode p k) o (o.row0 + i)
  let s := s.spStore p (o.rowSpan i).1 r.1
  let s := if o.useShdst && autoDrain (s.amode p k) o.df then s.spStore p (o.shdst + i) [BitVec.ofNat 8 r.2.1] else s
  let s := if o.dig then
      (s.setReg (.coreDig p k) (BitVec.ofNat 64 (crc64Run (s.reg (.coreDig p k)).toNat r.1))).modCore p fun c =>
        c.setSide k { c.side k with folded := (c.side k).folded + r.1.length }
    else s
  let s := s.modCore p fun c =>
    let t := c.thread e.thread
    if o.sr ≠ 0 ∧ t.running ∧ t.cmd = e.cmd then
      c.setThread e.thread { t with s := SMap.put 0 t.s o.sr (SMap.get 0 t.s o.sr + BitVec.ofNat 64 r.2.1) }
    else c
  s.flagMe p k e.cmd r.2.2

/-- Rows up to upto of an MDR in progress (R92, R100); with the last the MDR completes. A partly written word with an
uncorrectable error drops the writes and faults the thread's context (R186). -/
def State.runMdr (s : State) (p k : Nat) (e : MeEntry) (o : MdrOp) (upto : Nat) : State :=
  let rows := (List.range (upto - e.next)).map (e.next + ·)
  let shifts := if o.useShdst && autoDrain (s.amode p k) o.df then rows.map fun i => (o.shdst + i, 1) else []
  match (rows.map o.rowSpan ++ shifts).find? fun x => (s.core p).partialBad x.1 x.2 with
  | some x => (s.partUncorrectable p x.1 x.2).veFault p 2 e.ctx (.thread e.thread)
  | none =>
    let s := rows.foldl (fun s i => s.mdrOne p k e o i) s
    if upto = o.nrows then s.modCore p fun c => c.dropMe k e.id
    else s.modCore p fun c => c.modMe k e.id fun q => { q with next := upto }

/-! ## Weight passes -/

/-- The tile list as a side sees it: its own tiles; on a stake core the two sides share the array (R25). -/
def State.seesTile (s : State) (p k : Nat) (t : Tile) : Bool := s.isStake p || t.side == k

def MeEntry.mwl? (e : MeEntry) : Option MwlOp := match e.op with | .mwl o => some o | _ => none
def MeEntry.mmt? (e : MeEntry) : Option MmtOp := match e.op with | .mmt o => some o | _ => none
def MeEntry.mdr? (e : MeEntry) : Option MdrOp := match e.op with | .mdr o => some o | _ => none

/-- Issued MWLs that wait for a pass, in queue order. -/
def Side.linked (x : Side) : List (MeEntry × MwlOp) :=
  x.meQ.filterMap fun e => match e.mwl? with
    | some o => if e.phase = .issued then some (e, o) else none
    | none => none

/-- MWLs of the first complete chain: up to the first with LINK = 0; empty where none is complete (R82). -/
def firstChain : List (MeEntry × MwlOp) → List (MeEntry × MwlOp)
  | [] => []
  | x :: rest =>
    if x.2.link then
      match firstChain rest with
      | [] => []
      | l => x :: l
    else [x]

/-- MWLs of the chain that is being linked: those after the last with LINK = 0. -/
def openChain : List (MeEntry × MwlOp) → List (MeEntry × MwlOp) → List (MeEntry × MwlOp)
  | acc, [] => acc
  | acc, x :: rest => if x.2.link then openChain (acc ++ [x]) rest else openChain [] rest

/-- A pass is running in the core's loader. -/
def Core.loading (c : Core) : Bool := (c.t.meQ ++ c.r.meQ).any (fun e => e.mwl?.isSome && e.phase == .running) || !c.reload.isEmpty

/-- A shadow tile that a command which has left the core never made active (log 67). -/
def Core.stale (c : Core) (t : Tile) : Bool := t.place == .shadow && (c.resident t.cmd).isNone

/-- Start the next weight pass of a side when the loader is free and no loaded tile stands in its quadrants of the shadow
buffer (R82, R83); a tile that a command which has left never made active gives way (log 67). -/
def State.startPass (s : State) (p k : Nat) : State :=
  let c := s.core p
  let x := c.side k
  let chain := firstChain x.linked
  let new := chain.filter fun y => (c.tile? y.1.id).isNone
  let meets (t : Tile) : Bool := t.place == .shadow && s.seesTile p k t && new.any fun y => partsShare y.2.part t.part
  let blocked := c.tiles.any fun t => meets t && !c.stale t
  if c.loading || chain.isEmpty || blocked then s
  else
    let tiles := new.map fun y =>
      ({ id := y.1.id, part := y.2.part, side := k, ctx := y.1.ctx, cmd := y.1.cmd, wf := y.2.wf, src := y.2.wsrc,
         stride := y.2.wstride, place := .shadow, loaded := false, cols := [], bad := 0 } : Tile)
    let run (e : MeEntry) : MeEntry := if chain.any (fun y => y.1.id == e.id) then { e with phase := .running } else e
    s.setCore p { c.setSide k { x with meQ := x.meQ.map run } with tiles := (c.tiles.filter fun t => !meets t) ++ tiles }

/-- Column spans of a tile. -/
def Tile.spans (t : Tile) : List (Nat × Nat) :=
  (List.range (tileCols t.part t.wf)).map fun n => (t.src + n * t.stride, colBytes t.part t.wf)

/-- Flags of loading a column: SAT where a negated imaginary part is limited (R79), OVF of R60. -/
def loadFlags (t : Tile) (bs : List Byte) : Flags :=
  let r := segsOf t.wf 16 (partGeom t.part).2.1 bs
  r.2 ||| (if t.wf.isComplex && r.1.any (fun g => g.vals.any fun v => decide (negImag t.wf v.2 < -v.2)) then fSAT else 0)

/-- Read a tile at the end of its pass, marking it where its source leaves the range or holds an uncorrectable error (R108). -/
def State.loadTile (s : State) (p k : Nat) (t : Tile) : State :=
  let put (s : State) (u : Tile) : State :=
    s.modCore p fun c => { c with tiles := c.tiles.map fun y => if y.id = t.id then u else y }
  if !(t.spans.all fun x => s.inRange p k x.1 x.2) then put s { t with loaded := true, bad := 1 }
  else match t.spans.find? fun x => (s.core p).spBad x.1 x.2 with
    | some x => put (s.spUncorrectable p x.1 x.2) { t with loaded := true, bad := 3 }
    | none =>
      let cols := t.spans.map fun x => (s.core p).sp.read x.1 x.2
      let s := s.correctSpans p t.spans
      (put s { t with loaded := true, cols := cols, bad := 0 }).flagMe p k t.cmd (cols.foldl (fun a b => a ||| loadFlags t b) 0)

/-! ## Issue from the ME queue -/

/-- Accumulator regions of two MMTs overlap. -/
def regionsMeet (a b : MmtOp) : Bool :=
  colsShare a.part b.part && decide (a.arow < b.arow + b.m) && decide (b.arow < a.arow + a.m)

/-- What the head of the queue may do. -/
inductive Head where
  | wait
  | illegal
  | go

/-- Tile that an MMT would use: its context's shadow tile for exactly this partition, or its active one (R76). -/
def State.tileFor (s : State) (p k : Nat) (e : MeEntry) (o : MmtOp) : Option Tile :=
  (s.core p).tiles.find? fun t => s.seesTile p k t && t.part == o.part && t.ctx == e.ctx
    && t.place == (if o.swap then TilePlace.shadow else TilePlace.active)

/-- The checks of R76 that depend on the queue, and the waits of R77. An MWL of a chain that LINK = 0 has closed counts as loading while it
waits for its pass, one of an open chain does not (DESIGN CHOICE, log 67). -/
def State.mmtHead (s : State) (p k : Nat) (e : MeEntry) (o : MmtOp) : Head :=
  let c := s.core p
  let fly := (c.side k).flying
  let other := if s.isStake p then (c.side (1 - k)).flying else []
  let coming := o.swap && ((c.side k).linked.any fun y => y.2.part == o.part && y.1.ctx == e.ctx)
    && !(openChain [] (c.side k).linked).any (fun y => y.2.part == o.part)
  match s.tileFor p k e o with
  | none => if coming then .wait else .illegal
  | some t =>
    if coming && c.stale t then .wait
    else if t.wf.isComplex != o.af.isComplex then .illegal
    else if fly.any (fun y => y.1.ctx != e.ctx && regionsMeet o y.2) then .illegal
    else if fly.any (fun y => y.2.part != o.part && (partsShare o.part y.2.part || regionsMeet o y.2))
        || other.any (fun y => y.2.part != o.part && partsShare o.part y.2.part) then .wait
    else .go

/-- Issue an MMT: the shadow tile becomes active, the quadrants are re-armed, and vectors outside the range fault (R83, R108,
R109). -/
def State.issueMmt (s : State) (p k : Nat) (e : MeEntry) (o : MmtOp) : State :=
  match s.tileFor p k e o with
  | none => s
  | some t =>
    let place (y : Tile) : Tile :=
      if y.id = t.id then { y with place := .active }
      else if o.swap ∧ y.place = .active ∧ s.seesTile p k y ∧ partsShare y.part o.part then { y with place := .old }
      else y
    let s := s.modCore p fun c =>
      { (c.modMe k e.id fun q => { q with phase := .running, tile := t.id }) with
        tiles := c.tiles.map place, poisoned := c.poisoned &&& (15 - partQuads o.part) }
    let s := s.modCore p Core.pruneTiles
    match (List.range o.m).find? fun v => !s.inRange p k (o.vec v).1 (o.vec v).2 with
    | some v => s.meFault p k 1 { e with tile := t.id } o v
    | none => s

/-- Rows of an MDR lie in the region of an in-flight MMT (R93). -/
def mdrMeets (o : MdrOp) (m : MmtOp) : Bool :=
  let g := mdrCols o.cols; let h := partGeom m.part
  decide (o.row0 < m.arow + m.m) && decide (m.arow < o.row0 + o.nrows)
    && decide (g.1 < h.2.2.1 + h.2.2.2) && decide (h.2.2.1 < g.1 + g.2)

/-- Issue an MWL into its chain (R82). -/
def State.mwlHead (s : State) (p k : Nat) (o : MwlOp) : Head :=
  let chain := openChain [] ((s.core p).side k).linked
  if chain.any (fun y => partsShare y.2.part o.part) || (o.link && decide (3 ≤ chain.length)) then .illegal else .go

/-- First entry that has not been issued. -/
def Side.head (x : Side) : Option MeEntry := x.meQ.find? fun e => e.phase == .waiting

/-- An entry that breaks a rule at its issue from the queue: it has no effect and faults its thread's context (R169, R183). -/
def State.meIllegal (s : State) (p k : Nat) (e : MeEntry) (cause : Nat) : State :=
  (s.modCore p fun c => c.dropMe k e.id).veFault p cause e.ctx (.thread e.thread)

/-- An MDR whose destination is refused (R94). -/
def State.mdrFault (s : State) (p k : Nat) (e : MeEntry) (o : MdrOp) (cause : Nat) : State :=
  (if cause = 4 then s.weightWritten p k e.ctx (o.spans (s.amode p k)) else s).meIllegal p k e cause

/-- The ME queue of the side issues now. -/
def State.meRuns (s : State) (p k : Nat) : Bool :=
  let st := ((s.core p).side k).stop
  ((st == .run && !(s.core p).throttled) || st == .regionWait) && s.sideActive p k

/-- Issue from the ME queue of a side, in order, as far as it goes (R135). -/
def State.meAdvance : Nat → Nat → Nat → State → State
  | 0, _, _, s => s
  | n + 1, p, k, s =>
    let s := s.startPass p k
    if s.meRuns p k then
      match ((s.core p).side k).head with
      | none => s
      | some e =>
        match e.op with
        | .mmt o =>
          match s.mmtHead p k e o with
          | .wait => s
          | .illegal => State.meAdvance n p k (s.meIllegal p k e 3)
          | .go => State.meAdvance n p k (s.issueMmt p k e o)
        | .mwl o =>
          match s.mwlHead p k o with
          | .go => State.meAdvance n p k (s.modCore p fun c => c.modMe k e.id fun q => { q with phase := .issued })
          | _ => State.meAdvance n p k (s.meIllegal p k e 3)
        | .mdr o =>
          match s.writeFault p k (o.spans (s.amode p k)) with
          | some 2 | none =>
            if ((s.core p).side k).flying.any (fun y => mdrMeets o y.2) then s
            else State.meAdvance n p k (s.modCore p fun c => c.modMe k e.id fun q => { q with phase := .running })
          | some cause => State.meAdvance n p k (s.mdrFault p k e o cause)
    else s

/-! ## Row feeders (R85, R87) -/

/-- Every row of the partition has a free entry for one more vector: of 64 entries, or of 32 for each half of the columns while a quadrant is
active (R85). -/
def Core.feedRoom (c : Core) (part : Nat) : Bool :=
  let quads := (c.t.flying ++ c.r.flying).any (fun y => quadCount y.2.part == 1) || c.feed.any fun f => quadCount f.part == 1
  decide ((c.feed.filter fun f => partsShare f.part part).length < if quads || quadCount part == 1 then 32 else 64)

/-- First vector of an MMT that the feeders have neither held nor hold. -/
def Core.feedNext (c : Core) (e : MeEntry) : Nat := c.feed.foldl (fun a f => if f.mmt = e.id then max a (f.vec + 1) else a) e.next

/-- Fetch the vectors of an MMT into free entries, in ascending order (R87). -/
def State.feedMmt : Nat → Nat → Nat → MeEntry → MmtOp → State → State
  | 0, _, _, _, _, s => s
  | n + 1, p, k, e, o, s =>
    let c := s.core p
    let v := c.feedNext e
    if v < o.m ∧ c.feedRoom o.part = true ∧ s.inRange p k (o.vec v).1 (o.vec v).2 = true then
      let ent : FeedEnt :=
        { mmt := e.id, part := o.part, vec := v, data := c.sp.read (o.vec v).1 (o.vec v).2, bad := c.spBad (o.vec v).1 (o.vec v).2 }
      State.feedMmt n p k e o
        ((s.spCorrect p (o.vec v).1 (o.vec v).2).modCore p fun c => { c with feed := c.feed ++ [ent] })
    else s

/-- The fetch unit fetches ahead into free entries for the MMTs in flight and those still queued, in queue order (R87; how early a vector is
fetched is timing: DESIGN CHOICE, log 14). -/
def State.feedFill (s : State) (p k : Nat) : State :=
  if s.meRuns p k then
    ((s.core p).side k).meQ.foldl (fun s e => match e.mmt? with
      | some o => if e.phase = .stopped then s else State.feedMmt 64 p k e o s
      | none => s) s
  else s

/-- Issue as far as it goes, each of the 16 entries at most once, and fetch ahead. -/
def State.meKick (s : State) (p k : Nat) : State := (State.meAdvance 20 p k s).feedFill p k

/-- The array and its loader are free for both sides of a stake core (R77, R82). -/
def State.meKickBoth (s : State) (p k : Nat) : State :=
  if s.isStake p then ((s.meKick p k).meKick p (1 - k)) else s.meKick p k

/-! ## The instructions -/

/-- Enter an instruction in the ME queue of its side; a full queue holds the thread (R135). -/
def State.meDispatch (s : State) (x : Iss) (op : MeOp) : State :=
  let c := s.core x.p
  let y := c.side x.k
  if 16 ≤ y.meQ.length then s
  else
    let e : MeEntry :=
      { id := c.nextId + 1, thread := x.i, ctx := x.ctx, cmd := x.cmd, op := op, phase := .waiting, tile := 0, next := 0 }
    ((s.setCore x.p { c.setSide x.k { y with meQ := y.meQ ++ [e] } with nextId := c.nextId + 1 }).advance x).meKick x.p x.k

/-- Planes of an activation format: P must equal the width, or be 2 to 16 for a floating-point format (R37, R38). -/
def planesOk (f : Fmt) (p : Nat) : Bool :=
  if f.isFloat then f != .fp32 && decide (2 ≤ p) && decide (p ≤ 16)
  else if f.isComplex then decide (p = f.partBits)
  else decide (p = f.bits)

def fmtField (n : Nat) : Fmt := (Fmt.ofCode n).getD .int8

def State.mmtOf (s : State) (x : Iss) : MmtOp :=
  { part := x.f 53 51, af := fmtField (x.f 50 47), planes := x.f 46 43 + 1, m := x.f 42 33 + 1,
    asrc := (s.sval x (x.f 12 8)).toNat, astride := (s.sval x (x.f 7 3)).toNat, arow := x.f 32 23,
    acc := decide (x.f 22 22 = 1), swap := decide (x.f 21 21 = 1), c := signed 8 (x.f 20 13) }

/-- Operands of an MMT that its word and its registers fix (R75, R76; the range of ASTRIDE: DEDUCED, log 17). -/
def mmtLegal (s : State) (x : Iss) : Bool :=
  let o := s.mmtOf x
  x.isThread && x.vOk false && decide (x.f 2 0 = 0) && decide (o.part < 7) && (Fmt.ofCode (x.f 50 47)).isSome
    && planesOk o.af o.planes && decide (o.arow + o.m ≤ 1024) && decide (o.asrc % 64 = 0) && decide (o.astride % 64 = 0)
    && decide (64 ≤ o.astride) && decide (o.astride ≤ 65536)

def execMmt (p i : Nat) (s : State) : Out :=
  instr p i 1 0x01 mmtLegal (fun s x => s.meDispatch x (.mmt (s.mmtOf x))) s

def State.mwlOf (s : State) (x : Iss) : MwlOp :=
  { part := x.f 53 51, wf := fmtField (x.f 50 47), link := decide (x.f 46 46 = 1),
    wsrc := (s.sval x (x.f 45 41)).toNat, wstride := (s.sval x (x.f 40 36)).toNat }

/-- R82, R37; the multiples of 64 bytes of R81 (DEDUCED, log 17). -/
def mwlLegal (s : State) (x : Iss) : Bool :=
  let o := s.mwlOf x
  x.isThread && x.vOk false && decide (x.f 35 0 = 0) && decide (o.part < 7)
    && (match Fmt.ofCode (x.f 50 47) with | some f => f != .fp32 | none => false)
    && decide (o.wsrc % 64 = 0) && decide (o.wstride % 64 = 0)

def execMwl (p i : Nat) (s : State) : Out :=
  instr p i 1 0x02 mwlLegal (fun s x => s.meDispatch x (.mwl (s.mwlOf x))) s

def State.mdrOf (s : State) (x : Iss) : MdrOp :=
  { row0 := x.f 53 44, nrows := x.f 43 34 + 1, cols := x.f 33 32, df := fmtField (x.f 31 28), dig := decide (x.f 27 27 = 1),
    sh := x.f 26 21, dst := (s.sval x (x.f 20 16)).toNat, dstride := (s.sval x (x.f 15 11)).toNat, sr := x.f 10 6,
    shdst := (s.sval x (x.f 5 1)).toNat, useShdst := decide (x.f 5 1 ≠ 0) }

/-- R94, R169. -/
def mdrLegal (s : State) (x : Iss) : Bool :=
  let o := s.mdrOf x
  x.isThread && x.vOk false && decide (x.f 0 0 = 0) && decide (o.row0 + o.nrows ≤ 1024) && decide (o.cols < 3)
    && (Fmt.ofCode (x.f 31 28)).isSome && decide (o.sh ≤ 47) && (decide (o.sh = 0) || !(o.df.isFloat || o.df.isBfp))
    && decide (o.dstride % 64 = 0)

def execMdr (p i : Nat) (s : State) : Out :=
  instr p i 1 0x03 mdrLegal (fun s x => s.meDispatch x (.mdr (s.mdrOf x))) s

/-! ## Completions -/

/-- Entry id of a side while it is in progress. -/
def Core.running (c : Core) (k id : Nat) : Option MeEntry :=
  ((c.side k).meQ.find? fun e => e.id == id && e.phase == .running)

/-- An MMT may complete: its tile has been loaded, and earlier entries whose order with it counts are done: the MMTs of its partition code
(R63, R91), and an MDR that drains rows of its region, for which the spec gives no wait (DESIGN CHOICE, log 14). -/
def Core.mmtDone (c : Core) (k : Nat) (e : MeEntry) (o : MmtOp) : Bool :=
  (match c.tile? e.tile with | some t => t.loaded | none => false)
    && ((c.side k).meQ.takeWhile fun q => q.id != e.id).all fun q =>
      match q.op with
      | .mmt m => m.part != o.part
      | .mdr d => !mdrMeets d o
      | .mwl _ => true

/-- MMT_COMPLETE: MMT id of side k of slot p completes (R97): its sums reach the accumulators. -/
def execMmtComplete (p k id : Nat) (s : State) : Out :=
  match (s.core p).running k id with
  | some e =>
    match e.mmt? with
    | some o =>
      s.when (decide (p < 208) && decide (k < 2) && (s.core p).mmtDone k e o)
        (((s.runMmt p k e o o.m).meKickBoth p k).endCheck p e.cmd)
    | none => s.when false s
  | none => s.when false s

/-- The second pass after a return ends: the shadow tiles are loaded again (R101). -/
def State.reloadShadow (s : State) (p : Nat) : State :=
  let ids := (s.core p).reload
  ids.foldl (fun s id => match (s.core p).tile? id with
    | some t => s.loadTile p 0 t
    | none => s) (s.modCore p fun c => { c with reload := [] })

/-- WEIGHT_PASS_COMPLETE: the pass of side k of slot p ends (R82): its tiles are loaded and its MWLs complete; a second pass of a return
reloads the tenant side's shadow tiles (R101). -/
def execWeightPassComplete (p k : Nat) (s : State) : Out :=
  let c := s.core p
  let second := decide (k = 0) && !c.reload.isEmpty && c.t.stop == .run && c.borrow.isNone && c.takeover.isNone
  let es := (c.side k).meQ.filter fun e => e.mwl?.isSome && e.phase == .running
  let load (s : State) (e : MeEntry) : State :=
    match (s.core p).tile? e.id with
    | some t => (s.loadTile p k t).modCore p fun c => c.dropMe k e.id
    | none => s.modCore p fun c => c.dropMe k e.id
  s.when (decide (p < 208) && decide (k < 2) && (!es.isEmpty || second))
    (if second then (s.reloadShadow p).meKickBoth p k
     else es.foldl (fun s e => s.endCheck p e.cmd) ((es.foldl load s).meKickBoth p k))

/-- An MDR completes after the MDRs before it, whose folds come first (R341). -/
def Core.mdrDone (c : Core) (k : Nat) (e : MeEntry) : Bool :=
  ((c.side k).meQ.takeWhile fun q => q.id != e.id).all fun q => q.mdr?.isNone

/-- MDR_COMPLETE: the last write of MDR id of side k of slot p (R92). -/
def execMdrComplete (p k id : Nat) (s : State) : Out :=
  match (s.core p).running k id with
  | some e =>
    match e.mdr? with
    | some o =>
      s.when (decide (p < 208) && decide (k < 2) && (s.core p).mdrDone k e)
        (((s.runMdr p k e o o.nrows).meKick p k).endCheck p e.cmd)
    | none => s.when false s
  | none => s.when false s

/-! ## Stop and return of a side (R99 to R102) -/

/-- The ME drain of a side: each in-flight MMT and MDR stops at the boundary that stops names for it (the number of vectors or
rows done, in queue order; the entry's end where the list is short), and a weight pass in progress is abandoned. Of entries whose order
counts, MMTs of one partition code and MDRs, only the first unfinished one can have a vector or row in progress: those behind it stop where
they stand (R63, R91, R99, R341). The feeders are emptied (R24, R99). -/
def State.meStop (s : State) (p k : Nat) (stops : List Nat) : State :=
  let es := ((s.core p).side k).meQ.filter fun e => e.phase == .running
  let one (s : State) (y : MeEntry × Nat) : State :=
    match (s.core p).running k y.1.id with
    | none => s
    | some e =>
      let mark (s : State) : State := s.modCore p fun c => c.modMe k e.id fun q => { q with phase := .stopped }
      match e.op with
      | .mmt o =>
        let loaded := match (s.core p).tile? e.tile with | some t => t.loaded | none => false
        mark (if loaded && (s.core p).mmtDone k e o then s.runMmt p k e o (max e.next (min y.2 o.m)) else s)
      | .mdr o => mark (if (s.core p).mdrDone k e then s.runMdr p k e o (max e.next (min y.2 o.nrows)) else s)
      | .mwl _ => s.modCore p fun c =>
          { (c.modMe k e.id fun q => { q with phase := .issued }) with
            tiles := c.tiles.filter fun t => !(t.id == e.id && t.place == .shadow) }
  let ids := ((s.core p).side k).meQ.map fun e => e.id
  ((es.zip (stops ++ List.replicate es.length 1024)).foldl one s).modCore p fun c =>
    { c with feed := c.feed.filter fun f => !ids.contains f.mmt }

/-- On the return the stopped entries go on where they stopped, and the feeders are refilled from there (R24, R101, R102). -/
def State.meResume (s : State) (p k : Nat) : State :=
  (s.modCore p fun c =>
    let x := c.side k
    c.setSide k { x with meQ := x.meQ.map fun e => if e.phase = .stopped then { e with phase := .running } else e }).meKick p k

/-- The weights of the tenant side come back from their sources (R101, R102): the active tiles in one pass now, the shadow tiles in a second
pass that runs while the MMTs go on. -/
def State.reloadWeights (s : State) (p : Nat) : State :=
  let mine := (s.core p).tiles.filter fun t => t.side == 0
  let s := (mine.filter fun t => t.place != .shadow && t.loaded).foldl (fun s t => s.loadTile p 0 t) s
  s.modCore p fun c =>
    { c with
      tiles := c.tiles.map fun t => if t.side = 0 ∧ t.place = .shadow then { t with loaded := false } else t
      reload := (mine.filter fun t => t.place == .shadow && t.loaded).map fun t => t.id }

/-! ## Logical and physical rows (R104) -/

/-- Physical row of logical row l where the rows of f, ascending, have failed: each failed row at or above the candidate is stepped past. -/
def physRow (l : Nat) (f : List Nat) : Nat := f.foldl (fun p x => if x ≤ p then p + 1 else p) l

/-- Physical row of the array of slot p that serves logical row l. -/
def State.physRow (s : State) (p l : Nat) : Nat :=
  Machine.physRow l (((List.range 4).filter fun i => s.getF (.coreMeSpare p i) CORE_ME_SPARE.VALID == 1).map fun i =>
    s.getF (.coreMeSpare p i) CORE_ME_SPARE.FROW)

/-- What a core's queues and strands can do by themselves, they do: entries that wait for the array, the loader or a region, and skeins that
wait for slots, registers or a window (R77, R82, R87, R140); a launch without room faults its context (R141). -/
def State.kickCore (s : State) (p : Nat) : State :=
  let s := ((s.core p).residents.filter fun r => r.refused).foldl (fun s r =>
    if ((s.core p).resident r.cmd).isSome then s.veFault p 5 r.ctx (.thread (if r.side = 0 then 0 else 12)) else s) s
  (((s.meKick p 0).meKick p 1).startAll p)

end Sys2Proof.Machine
end

