-- ==== Sys2Proof/Machine/Copy.lean ====
section
/-!
DEFINITION. The copy engines (R171, R192 to R206): CPQ, the descriptors, their transactions and their completion.
-/
namespace Sys2Proof.Machine

/-! ## Descriptors -/

/-- The fields of a 64-byte copy descriptor (R192). dirty says that a bit reserved in every descriptor is not 0. -/
def CopyDesc.ofBytes (bs : List Byte) : CopyDesc :=
  let w := leNat bs
  let f (byte hi lo : Nat) : Nat := bitsOf (w / 2 ^ (8 * byte)) hi lo
  { op := f 0 3 0, ord := decide (f 0 4 4 = 1), notify := decide (f 0 5 5 = 1), sspace := f 1 2 0, dspace := f 1 5 3,
    conv := decide (f 2 0 0 = 1), idxw := f 2 2 1, sf := f 3 3 0, df := f 3 7 4, shift := signed 8 (f 4 7 0),
    saddr := f 8 63 0, daddr := f 16 63 0, len0 := f 24 31 0, cnt1 := f 28 15 0, cnt2 := f 30 15 0,
    sstr1 := signed 32 (f 32 31 0), sstr2 := signed 32 (f 36 31 0), dstr1 := signed 32 (f 40 31 0),
    dstr2 := signed 32 (f 44 31 0), idxaddr := f 48 31 0, nidx := f 52 31 0, naddr := f 56 31 0, nval := f 60 31 0,
    dirty := decide (f 0 7 6 ≠ 0) || decide (f 1 7 6 ≠ 0) || decide (f 2 7 3 ≠ 0) || decide (f 5 23 0 ≠ 0) }

def opLIN : Nat := 1
def opRECT : Nat := 2
def opBOX : Nat := 3
def opGATHER : Nat := 4
def opFILL : Nat := 5

/-- Fields that an OP does not use are 0 (R192, R196, R197). -/
def CopyDesc.unusedZero (d : CopyDesc) : Bool :=
  let planes := d.op == opBOX || d.op == opFILL
  let rows := planes || d.op == opRECT
  let src := d.op != opFILL
  (rows || decide (d.cnt1 = 0)) && (planes || decide (d.cnt2 = 0))
    && (((rows && src) || d.op == opGATHER) || decide (d.sstr1 = 0)) && ((planes && src) || decide (d.sstr2 = 0))
    && ((rows || d.op == opGATHER) || decide (d.dstr1 = 0)) && (planes || decide (d.dstr2 = 0))
    && (d.op == opGATHER || (decide (d.idxw = 0) && decide (d.idxaddr = 0) && decide (d.nidx = 0)))
    && (d.conv || (decide (d.sf = 0) && decide (d.df = 0) && decide (d.shift = 0)))
    && (d.notify || (decide (d.naddr = 0) && decide (d.nval = 0)))

/-- The address has the form of its space (R193): 24 bits, 48 bits, an index over 24 bits, a device over 48 bits. -/
def spaceForm (space a : Nat) : Bool :=
  match space with
  | 0 => decide (a < 2 ^ 24)
  | 1 => decide (a < 2 ^ 48)
  | 2 => decide (a % 2 ^ 56 < 2 ^ 24)
  | _ => true

def CopyDesc.srcFmt (d : CopyDesc) : Fmt := (Fmt.ofCode d.sf).getD .int8
def CopyDesc.dstFmt (d : CopyDesc) : Fmt := (Fmt.ofCode d.df).getD .int8

/-- The rules of conversion (R36, R69, R198). -/
def CopyDesc.convOk (d : CopyDesc) : Bool :=
  !d.conv || (match Fmt.ofCode d.sf, Fmt.ofCode d.df with
    | some a, some b =>
      (!a.isComplex || b.isComplex)
        && (!a.isBfp || (decide (d.saddr % 64 = 0) && decide (d.sstr1 % 64 = 0) && decide (d.sstr2 % 64 = 0)))
        && (!b.isBfp || (decide (d.daddr % 64 = 0) && decide (d.dstr1 % 64 = 0) && decide (d.dstr2 % 64 = 0)))
    | _, _ => false)

/-- A descriptor is legal (R192, R193, R196 to R198, R455). -/
def CopyDesc.legal (d : CopyDesc) : Bool :=
  decide (1 ≤ d.op) && decide (d.op ≤ 5) && !d.dirty && decide (d.sspace < 4) && decide (d.dspace < 4)
    && (decide (d.sspace < 2) || decide (d.dspace < 2)) && decide (1 ≤ d.len0) && decide (d.len0 ≤ 2 ^ 24)
    && d.unusedZero && d.convOk
    && (d.op != opFILL || (decide (d.sspace = 0) && !d.conv))
    && (d.op != opGATHER || (decide (d.idxw < 3) && decide (1 ≤ d.nidx) && decide (d.nidx ≤ 2 ^ 24)))
    && (!d.notify || decide (d.naddr % 4 = 0))
    && (d.op == opFILL || spaceForm d.sspace d.saddr) && spaceForm d.dspace d.daddr
    && !(decide (d.sspace = 3) && decide (d.saddr / 2 ^ 47 % 2 = 1))

/-! ## Rows and pieces -/

/-- Rows of a descriptor (R195 to R197). -/
def CopyDesc.rows (d : CopyDesc) : Nat :=
  if d.op = opGATHER then d.nidx
  else (if d.op = opLIN then 1 else d.cnt1 + 1) * (if d.op = opBOX ∨ d.op = opFILL then d.cnt2 + 1 else 1)

/-- Source and destination address of row r; idx is the index of a GATHER row (R195, R196); addresses wrap at 2^64. -/
def CopyDesc.rowAddr (d : CopyDesc) (r idx : Nat) : Nat × Nat :=
  if d.op = opGATHER then
    (unsignedOf 64 ((d.saddr : Int) + idx * d.sstr1), unsignedOf 64 ((d.daddr : Int) + r * d.dstr1))
  else
    let n1 := if d.op = opLIN then 1 else d.cnt1 + 1
    let i1 : Int := r % n1; let i2 : Int := r / n1
    (unsignedOf 64 ((d.saddr : Int) + i2 * d.sstr2 + i1 * d.sstr1),
      unsignedOf 64 ((d.daddr : Int) + i2 * d.dstr2 + i1 * d.dstr1))

/-- Bytes of n elements from the start of a row in a format; a BFP row is padded to whole records (R42, R44, R198). -/
def convBytes (f : Fmt) (n : Nat) : Nat := if f.isBfp then (n + 31) / 32 * f.recordBytes else (n * f.bits + 7) / 8

/-- Source and destination bytes of n elements. A FILL reads no source. -/
def CopyDesc.srcBytes (d : CopyDesc) (n : Nat) : Nat :=
  if d.op = opFILL then 0 else if d.conv then convBytes d.srcFmt n else n
def CopyDesc.dstBytes (d : CopyDesc) (n : Nat) : Nat := if d.conv then convBytes d.dstFmt n else n

/-- Parts of n bytes at a that each lie within one 4 KiB granule: offset and length (R201). -/
def granules (a : Nat) : Nat → Nat → Nat → List (Nat × Nat)
  | 0, _, _ => []
  | fuel + 1, off, n =>
    if n ≤ off then []
    else
      let l := min (n - off) (4096 - (a + off) % 4096)
      (off, l) :: granules a fuel (off + l) n

/-- Both ends lie in the own scratchpad: no transaction is needed. -/
def CopyDesc.own (d : CopyDesc) : Bool := decide (d.sspace = 0) && decide (d.dspace = 0)

/-- Elements of the next piece of a row: up to 4 KiB that stay in one granule of each remote end, or 1,024 converted elements; inside the own
scratchpad the bytes up to the next destination line, or a conversion block of 32 elements (R205). -/
def CopyDesc.pieceElems (d : CopyDesc) (src dst elem : Nat) : Nat :=
  if d.conv then min (if d.own then 32 else 1024) (d.len0 - elem)
  else if d.own then min (64 - (dst + elem) % 64) (d.len0 - elem)
  else
    let l := min 4096 (d.len0 - elem)
    let l := if d.sspace = 0 then l else min l (4096 - (src + elem) % 4096)
    if d.dspace = 0 then l else min l (4096 - (dst + elem) % 4096)

/-! ## Conversion of a row's elements (R68, R198) -/

/-- Elements of source bytes, with POISON where a BFP block is poisoned (R54). -/
def srcElems (f : Fmt) (n : Nat) (bs : List Byte) : List Elem × Flags :=
  if f.isBfp then
    let recs := piecesOf f.recordBytes ((n + 31) / 32) bs
    ((recs.flatMap fun r =>
        let e := ((r.head?).getD 0).toNat
        (List.range 32).map fun i => Elem.flt (bfpVal f.bits e (recordMantissa f.bits i (leNat (r.drop 1))))).take n,
      if recs.any (fun r => r.head? == some 255) then fPOISON else 0)
  else
    let w := leNat bs
    ((List.range n).map fun i => f.elem (w / 2 ^ (f.bits * i) % 2 ^ f.bits), 0)

/-- Destination bytes of converted elements. A block that gets E = 255 has zero mantissas: R45 fixes its E alone (DESIGN CHOICE, log 67). -/
def dstBytesOf (am : AMode) (f : Fmt) (shift : Int) (es : List Elem) : List Byte × Flags :=
  if f.isBfp then
    let nrec := (es.length + 31) / 32
    let pad := es ++ List.replicate (32 * nrec - es.length) (Elem.flt (.zero false))
    let one (l : List Elem) : List Byte × Flags :=
      let vs := l.map Elem.real
      if anyNonFinite vs then (BitVec.ofNat 8 255 :: leBytes (f.recordBytes - 1) 0, fINV ||| fPOISON)
      else
        let b := bfpQuantise f.bits vs
        (BitVec.ofNat 8 b.e :: leBytes (f.recordBytes - 1) (packMantissas f.bits b.q), if b.ovf then fOVF else 0)
    let rs := (piecesOf 32 nrec pad).map one
    (rs.flatMap Prod.fst, rs.foldl (fun a r => a ||| r.2) 0)
  else
    let rs := es.map (convert am f shift)
    (leBytes (convBytes f es.length) (packNat f.bits (rs.map Prod.fst)), rs.foldl (fun a r => a ||| r.2) 0)

/-- Destination bytes of a piece from its source bytes: copied, filled (R197) or converted (R198). -/
def CopyDesc.transform (d : CopyDesc) (am : AMode) (pos n : Nat) (bs : List Byte) : List Byte × Flags :=
  if d.op = opFILL then
    let pat := leBytes 8 d.saddr
    ((List.range n).map fun i => (pat[(pos + i) % 8]?).getD 0, 0)
  else if d.conv then
    let e := srcElems d.srcFmt n bs
    let r := dstBytesOf am d.dstFmt d.shift e.1
    (r.1, r.2 ||| e.2)
  else (bs, 0)

/-! ## Queues -/

def Side.ce (x : Side) (e : Nat) : CeQueue := if e = 0 then x.ce0 else x.ce1
def Side.setCe (x : Side) (e : Nat) (q : CeQueue) : Side := if e = 0 then { x with ce0 := q } else { x with ce1 := q }

def State.ceQueue (s : State) (p k e : Nat) : CeQueue := ((s.core p).side k).ce e
def State.modCe (s : State) (p k e : Nat) (f : CeQueue → CeQueue) : State :=
  s.modCore p fun c => let x := c.side k; c.setSide k (x.setCe e (f (x.ce e)))

/-- Change one entry of a queue. -/
def State.modEntry (s : State) (p k e id : Nat) (f : CeEntry → CeEntry) : State :=
  s.modCe p k e fun q => { q with entries := q.entries.map fun y => if y.id = id then f y else y }

/-- Entry of a queue by its number. -/
def State.entry? (s : State) (p k e id : Nat) : Option CeEntry := (s.ceQueue p k e).entries.find? fun y => y.id == id

/-- The engine works for the side: not paused, its side's engines active, the core not gated (R24, R205). -/
def State.ceRuns (s : State) (p k e : Nat) : Bool :=
  decide (p < 208) && decide (k < 2) && decide (e < 2) && !(s.ceQueue p k e).paused && s.sideActive p k && !(s.core p).throttled

/-- Every row of the entry has been taken up. -/
def CeEntry.opened (y : CeEntry) : Bool := y.started && decide (y.desc.rows ≤ y.row)

/-- No transaction of the entry is left to issue (R202): a copy inside the own scratchpad has none, one into it only reads. -/
def CeEntry.issued (y : CeEntry) : Bool :=
  y.started && (y.desc.own || (decide (y.desc.rows ≤ y.row)
    && y.pieces.all fun q => q.reads.isEmpty && (y.desc.dspace == 0 || (q.out.isSome && q.writes.isEmpty))))

/-- Number an entry and put it at the end of a queue (R135). -/
def State.enqueueCe (s : State) (p k e : Nat) (thread : Option Nat) (ctx : Ctx) (cmd : Nat) (d : CopyDesc) (peers : List Nat) :
    State :=
  let id := (s.core p).nextId + 1
  let y : CeEntry :=
    { id := id, thread := thread, ctx := ctx, cmd := cmd, desc := d, peers := peers, started := false, row := 0, elem := 0,
      next := 0, pieces := [], inflight := [] }
  (s.modCore p fun c => { c with nextId := id }).modCe p k e fun q => { q with entries := q.entries ++ [y] }

/-- Logical cores that peer indices of a KERNEL's descriptors name: its core set by position; all cores for I0 (R194). -/
def State.kernelPeers (s : State) (ctx : Ctx) (cmd : Nat) : List Nat :=
  if ctx.inst = 0 then List.range 192 else ((s.cmd cmd).map (·.cores)).getD []

/-- CPQ (R171): the 64-byte descriptor at a scalar register's address enters the queue of CE0 or CE1. -/
def execCpq (p i : Nat) (s : State) : Out :=
  instr p i 3 0x01
    (fun s x => x.isThread && x.vOk false && decide (x.f 47 0 = 0) && decide (x.f 59 54 = 1)
      && decide ((s.sval x (x.f 52 48)).toNat % 64 = 0))
    (fun s x =>
      let a := (s.sval x (x.f 52 48)).toNat
      let e := x.f 53 53
      match s.readFault x.p x.k [(a, 64)] with
      | some c => s.accessFault x c [(a, 64)]
      | none =>
        if 16 ≤ (s.ceQueue x.p x.k e).entries.length then s
        else
          let d := CopyDesc.ofBytes ((s.core x.p).sp.read a 64)
          (((s.correctSpans x.p [(a, 64)]).enqueueCe x.p x.k e (some x.i) x.ctx x.cmd d (s.kernelPeers x.ctx x.cmd)).advance x)) s

/-! ## Routes (R10, R211, R212) -/

/-- Compute die of a stack (R10). -/
def stackDie (m : Nat) : Nat := ([0, 0, 1, 2, 3, 3, 4, 4, 5, 6, 7, 7][m]?).getD 0

/-- Points of the horizontal bridges from column a to column b of a row of compute dies: direction 0 to the right. -/
def rowBridges (row a b : Nat) : List Nat :=
  if a ≤ b then (List.range (b - a)).map fun i => 0x190 + 2 * (3 * row + a + i)
  else (List.range (a - b)).map fun i => 0x190 + 2 * (3 * row + a - 1 - i) + 1

/-- Points of the bridges between two compute dies: the horizontal ones first, the vertical one last (R211). -/
def dieRoute (a b : Nat) : List Nat :=
  rowBridges (a / 4) (a % 4) (b % 4) ++ (if a / 4 = b / 4 then [] else [0x190 + 2 * (6 + b % 4) + (if a / 4 = 0 then 0 else 1)])

/-- Column of the compute dies next to I/O die x. -/
def ioColumn (x : Nat) : Nat := if x = 0 then 0 else 3

/-- From compute die d to I/O die x, by the I/O bridge on the row of d, and back. -/
def toIo (d x : Nat) : List Nat := rowBridges (d / 4) (d % 4) (ioColumn x) ++ [0x1A8 + 2 * (2 * x + d / 4) + 1]
def fromIo (x d : Nat) : List Nat := (0x1A8 + 2 * (2 * x + d / 4)) :: rowBridges (d / 4) (ioColumn x) (d % 4)

/-- Arbitration point of the stack channel that holds a physical address. -/
def channelPoint (pa : Nat) : Nat := 16 * stackOf pa + channelOf pa

/-- The port that traffic for a device takes (R452): the primary while it is UP, else the alternate; none where the entry names neither. -/
def State.wyRoute (s : State) (dst : Nat) : Option Nat :=
  let r := Reg.wyRoute dst
  let pri := s.getF r WY_ROUTE.PRI
  let priv := s.getF r WY_ROUTE.PRIV == 1
  let altv := s.getF r WY_ROUTE.ALTV == 1
  if priv && s.getF (.wyStatus pri) WY_STATUS.STATE == 3 then some pri
  else if altv then some (s.getF r WY_ROUTE.ALT)
  else if priv then some pri
  else none

/-- Arbitration points that the data of a transaction of slot p enter, in order (R211, R212): from the core to the remote end for a write, the
way back for a read; a mirrored write goes to both copies (R228). A sequencer request enters at channel 0 of its stack, and what a Withy read
brings back waits at no point (DESIGN CHOICE, log 73). -/
def State.txnPath (s : State) (p n : Nat) (pl : Place) (write : Bool) : List Nat :=
  let d := p / 26
  match pl, write with
  | .stack a, true =>
    let x := s.inst n
    let go (pa : Nat) : List Nat := dieRoute d (stackDie (stackOf pa)) ++ [channelPoint pa]
    go (x.place a) ++ (match x.mirrorPlace a with | some pb => go pb | none => [])
  | .stack a, false =>
    let pa := (s.inst n).place a
    channelPoint pa :: dieRoute (stackDie (stackOf pa)) d ++ [0x0C0 + p]
  | .comp pa, true => let x := s.cclPort pa; toIo d (x % 2) ++ [0x1C0 + x % 2]
  | .comp pa, false => fromIo (s.cclPort pa % 2) d ++ [0x0C0 + p]
  | .peer q _, true => dieRoute d (q / 26) ++ [0x0C0 + q]
  | .peer q _, false => dieRoute (q / 26) d ++ [0x0C0 + p]
  | .withy dev _, true => match s.wyRoute dev with
    | some w => toIo d (w / 8) ++ [0x1B0 + w]
    | none => []
  | .withy _ _, false => []
  | .seq m _, _ => dieRoute d (stackDie m) ++ [16 * m]

/-! ## Starting a descriptor -/

/-- The entry that starts next: the first one not started, once every earlier one has issued all of its transactions (R202);
with ORD, once every earlier one has completed (R192). -/
def CeQueue.startable (q : CeQueue) : Option CeEntry :=
  match q.entries with
  | [] => none
  | y :: rest =>
    if !y.started then some y
    else
      let before := q.entries.takeWhile fun z => z.started
      match rest.find? fun z => !z.started with
      | some z => if before.all CeEntry.issued && !z.desc.ord then some z else none
      | none => none

/-- A fault of a copy engine (R204); the entry writes nothing after it. -/
def State.ceEntryFault (s : State) (p e : Nat) (y : CeEntry) (cause : Nat) : State := s.ceFault p cause y.ctx e

/-- A write of an entry into slot q that is refused (R84, R108, R160, R186): cause 5 a live weight source of some side of sides or a code region,
cause 2 a partly written bad word. -/
def State.ceWriteFault (s : State) (p q e : Nat) (y : CeEntry) (cause : Nat) (sides : List Nat) (a n : Nat) : State :=
  if cause = 5 then (sides.foldl (fun s k => s.weightWritten q k y.ctx [(a, n)]) s).ceEntryFault p e y 5
  else if cause = 2 then (s.partUncorrectable q a n).ceEntryFault p e y 2
  else s.ceEntryFault p e y cause

/-- Some byte of an own-scratchpad range of a side lies outside it, or not (R184). -/
def State.spOk (s : State) (p k a n : Nat) : Bool := s.inRange p k a n

/-- Start the entry y: an illegal descriptor, or a notify word or an index list outside the range, faults. -/
def State.startEntry (s : State) (p k e : Nat) (y : CeEntry) : State :=
  let d := y.desc
  if !d.legal then s.ceEntryFault p e y 3
  else if (decide (d.sspace = 3) || decide (d.dspace = 3)) && decide (s.getF (.wyGroup y.ctx.inst) WY_GROUP.GROUP = 0) then
    s.ceEntryFault p e y 3
  else if (d.notify && !s.spOk p k d.naddr 4)
      || (decide (d.op = opGATHER) && !s.spOk p k d.idxaddr (d.nidx * 2 * 2 ^ d.idxw)) then s.ceEntryFault p e y 1
  else s.modEntry p k e y.id fun z => { z with started := true }

/-- One of the five starts. -/
def ceStart (op p k e : Nat) (s : State) : Out :=
  match (s.ceQueue p k e).startable with
  | some y => s.when (s.ceRuns p k e && decide (y.desc.op = op)) (s.startEntry p k e y)
  | none => s.when false s

def execLin (p k e : Nat) (s : State) : Out := ceStart opLIN p k e s
def execRect (p k e : Nat) (s : State) : Out := ceStart opRECT p k e s
def execBox (p k e : Nat) (s : State) : Out := ceStart opBOX p k e s
def execGather (p k e : Nat) (s : State) : Out := ceStart opGATHER p k e s
def execFill (p k e : Nat) (s : State) : Out := ceStart opFILL p k e s

/-- ILLEGAL_COPY_DESCRIPTOR: the engine takes up a descriptor whose OP is reserved (R204). -/
def execIllegalCopyDescriptor (p k e : Nat) (s : State) : Out :=
  match (s.ceQueue p k e).startable with
  | some y =>
    s.when (s.ceRuns p k e && (decide (y.desc.op = 0) || decide (5 < y.desc.op)))
      (s.ceEntryFault p e y 3)
  | none => s.when false s

/-! ## Overlap of a descriptor's own source and destination (R199) -/

/-- Core and address that an address of spaces 0 and 2 names. -/
def CeEntry.spPlace (s : State) (y : CeEntry) (p space a : Nat) : Option (Nat × Nat) :=
  match space with
  | 0 => some (p, a)
  | 2 => match y.peers[a / 2 ^ 56]? with
    | some l => match s.slotOf l with
      | some q => some (q, a % 2 ^ 56)
      | none => none
    | none => none
  | _ => none

/-- What an instance memory address names, as far as it can be told without reading tables: the place behind stage 2, through the cached
translation of its page where stage 1 is on (R311). -/
def State.memPlace (s : State) (n va : Nat) : Option Place :=
  let ipa := if IW_S1ROOT.EN.get (s.inst n).root = 0 then some va
    else (SMap.get none (s.inst n).tlb (va / 4096)).map fun e => e.ipa + va % 4096
  match ipa with
  | some i => match (s.inst n).regionAt i with
    | some r => match r.type with
      | .stack => some (.stack (r.target + (i - r.ipa)))
      | .comp => some (.comp (r.target + (i - r.ipa)))
      | .seq => none
    | none => none
  | none => none

/-- Two instance memory addresses name one byte, by their addresses or by their places. -/
def State.sameByte (s : State) (n a b : Nat) : Bool :=
  a == b || match s.memPlace n a, s.memPlace n b with
    | some x, some y => x == y
    | _, _ => false

/-- The destination byte at address a of the destination space is also a source byte of the descriptor. -/
def State.overlapsSource (s : State) (p : Nat) (y : CeEntry) (a : Nat) : Bool :=
  let d := y.desc
  if d.op = opFILL then false
  else
    let n := d.srcBytes d.len0
    let idx (r : Nat) : Nat :=
      if d.op = opGATHER then (s.core p).sp.readLE (d.idxaddr + r * 2 * 2 ^ d.idxw) (2 * 2 ^ d.idxw) else 0
    let inRow (r : Nat) : Bool :=
      let b := (d.rowAddr r (idx r)).1
      (decide (b ≤ a) && decide (a < b + n)) || (List.range (n / 4096 + 2)).any fun g =>
        let c := if g = 0 then b else (b / 4096 + g) * 4096
        let c := c / 4096 * 4096 + a % 4096
        decide (b ≤ c) && decide (c < b + n) && s.sameByte y.ctx.inst a c
    if d.sspace = 1 ∧ d.dspace = 1 then (List.range d.rows).any inRow
    else if d.sspace = 1 ∨ d.dspace = 1 ∨ d.sspace = 3 ∨ d.dspace = 3 then false
    else match y.spPlace s p d.dspace a with
      | some (c, b) => (List.range d.rows).any fun r =>
          match y.spPlace s p d.sspace (d.rowAddr r (idx r)).1 with
          | some (c', b') => decide (c = c') && decide (b' ≤ b) && decide (b < b' + n)
          | none => false
      | none => false

/-- Bytes to be written at address a of the destination space: bytes that overlap the descriptor's own source are unpredictable,
a free value each (R199, log 3). -/
def State.settle (s : State) (p : Nat) (y : CeEntry) (a : Nat) (bs : List Byte) : List Byte × State :=
  let marks := (List.range bs.length).map fun i => s.overlapsSource p y (a + i)
  if marks.any id then
    ((bs.zip (marks.zipIdx)).map fun x => if x.2.1 then Config.freeByte (s.free + x.2.2) else x.1,
      { s with free := s.free + bs.length })
  else (bs, s)

/-! ## Pieces -/

/-- Address of the scratchpad form of an address in its space: the byte address. -/
def lowAddr (space a : Nat) : Nat := if space = 2 then a % 2 ^ 56 else if space = 3 then a % 2 ^ 48 else a

/-- What opening the next piece gives. -/
inductive Opened where
  | done
  | fault (cause : Nat) (a n : Nat)
  | piece (q : Piece) (y : CeEntry)

/-- Open the next piece of an entry: its addresses and its source transactions. -/
def State.openPiece (s : State) (p k : Nat) (y : CeEntry) : Opened :=
  let d := y.desc
  if d.rows ≤ y.row then .done
  else
    let w := 2 * 2 ^ d.idxw
    let ia := d.idxaddr + y.row * w
    if decide (d.op = opGATHER) && (s.core p).spBad ia w then .fault 2 ia w
    else
      let a := d.rowAddr y.row (if d.op = opGATHER then (s.core p).sp.readLE ia w else 0)
      if (d.op ≠ opFILL ∧ spaceForm d.sspace a.1 = false) ∨ spaceForm d.dspace a.2 = false then .fault 3 0 0
      else
        let n := d.pieceElems (lowAddr d.sspace a.1) (lowAddr d.dspace a.2) y.elem
        let src := a.1 + d.srcBytes y.elem
        let dst := a.2 + d.dstBytes y.elem
        let sl := d.srcBytes n; let dl := d.dstBytes n
        if d.op ≠ opFILL ∧ d.sspace = 0 ∧ s.spOk p k src sl = false then .fault 1 src sl
        else if d.dspace = 0 ∧ s.spOk p k dst dl = false then .fault 1 dst dl
        else
          let last := decide (d.len0 ≤ y.elem + n)
          let q : Piece :=
            { no := y.next, src := src, slen := sl, dst := dst, dlen := dl, elems := n, pos := d.dstBytes y.elem,
              reads := if d.sspace = 0 then [] else granules (lowAddr d.sspace src) 20 0 sl, got := [], out := none, writes := [] }
          .piece q
            { y with
              row := if last then y.row + 1 else y.row
              elem := if last then 0 else y.elem + n
              next := y.next + 1
              pieces := y.pieces ++ [q] }

def CeEntry.setPiece (y : CeEntry) (q : Piece) : CeEntry :=
  { y with pieces := y.pieces.map fun z => if z.no = q.no then q else z }
def CeEntry.dropPiece (y : CeEntry) (no : Nat) : CeEntry := { y with pieces := y.pieces.filter fun z => z.no != no }

/-- Source bytes of a piece once all have arrived. -/
def Piece.source (q : Piece) : List Byte :=
  ((List.range q.slen).map fun i =>
    match q.got.find? fun g => decide (g.1 ≤ i) && decide (i < g.1 + g.2.length) with
    | some g => (g.2[i - g.1]?).getD 0
    | none => 0)

/-- The index of a GATHER row that opening a piece reads is corrected (R186, R196). -/
def State.indexRead (s : State) (p : Nat) (y : CeEntry) : State :=
  let w := 2 * 2 ^ y.desc.idxw
  if y.desc.op = opGATHER then s.spCorrect p (y.desc.idxaddr + y.row * w) w else s

/-- Put an entry back into its queue. -/
def State.putEntry (s : State) (p k e : Nat) (y : CeEntry) : State := s.modEntry p k e y.id fun _ => y

/-- Write own-scratchpad bytes of an entry: a live weight source or a running code region, or a partly written bad word, faults
(R84, R160, R186, R204). -/
def State.ceLocalWrite (s : State) (p k e : Nat) (y : CeEntry) (a : Nat) (bs : List Byte) : State ⊕ State :=
  match s.writeFault p k [(a, bs.length)] with
  | some 4 => .inr (s.ceWriteFault p p e y 5 [k] a bs.length)
  | some c => .inr (s.ceWriteFault p p e y c [k] a bs.length)
  | none =>
    let r := s.settle p y a bs
    .inl (r.2.spStore p a r.1)

/-- All source bytes of piece q are there: form its destination bytes; write them at once into the own scratchpad, or make their
transactions ready (R198, R201). -/
def State.pieceReady (s : State) (p k e : Nat) (y : CeEntry) (q : Piece) (bs : List Byte) : State :=
  let d := y.desc
  let r := d.transform (s.amode p k) q.pos q.elems bs
  let s := s.flagCmd p k y.cmd r.2
  if d.dspace = 0 then
    match s.ceLocalWrite p k e y q.dst r.1 with
    | .inl s => s.putEntry p k e (y.dropPiece q.no)
    | .inr s => s
  else s.putEntry p k e (y.setPiece { q with out := some r.1, writes := granules (lowAddr d.dspace q.dst) 20 0 q.dlen })

/-- Read the own-scratchpad source of a piece: an uncorrectable word faults (R186); a FILL reads none (R197). -/
def State.pieceLocal (s : State) (p k e : Nat) (y : CeEntry) (q : Piece) : State :=
  if q.slen = 0 then s.pieceReady p k e y q []
  else if (s.core p).spBad q.src q.slen then (s.spUncorrectable p q.src q.slen).ceEntryFault p e y 2
  else (s.spCorrect p q.src q.slen).pieceReady p k e y q ((s.core p).sp.read q.src q.slen)

/-- Raise the fault of opening a piece. -/
def State.openFault (s : State) (p e : Nat) (y : CeEntry) (cause a n : Nat) : State :=
  (if cause = 2 then s.spUncorrectable p a n else s).ceEntryFault p e y cause

/-! ## Issuing a transaction -/

/-- The entry whose transactions issue now: the first started one that has some left. -/
def CeQueue.issuing (q : CeQueue) : Option CeEntry := (q.entries.takeWhile fun y => y.started).find? fun y => !y.issued

/-- Staging blocks that arrived data of a piece hold: those of its reads until it is formed, then one for each write still to issue (R200). -/
def Piece.staged (q : Piece) : Nat := if q.out.isSome then q.writes.length else q.got.length

/-- Staging blocks of a queue in use: one for each transaction in flight and for each block of data that waits to be written on; there are 8
(R200, R201). -/
def CeQueue.flying (q : CeQueue) : Nat := (q.entries.map fun y => y.inflight.length + (y.pieces.map Piece.staged).sum).sum

/-- The part of a peer's scratchpad that a copy of instance n reaches (R22, R184, R194): a tenant's the tenant range; I0's all of a stake core,
the radio slice of a core that it may borrow, whichever side copies, and nothing of a core under a fixed lease (DEDUCED, log 80). -/
def State.peerRange (s : State) (q n : Nat) : Nat × Nat :=
  if n ≠ 0 then s.spRange q 0
  else if s.isStake q then (0, 0xC00000)
  else if s.role q = 3 then (0, 0)
  else (0xB00000, 0xC00000)

/-- Where a remote address leads, or the fault of its issue (R193, R194, R311, R455; a fenced device refuses its tenants' Withy
transactions as CAUSE 6 of R457 does, R477). -/
inductive Remote where
  | to (pl : Place) (s : State)
  | ce (cause : Nat)
  | tr (cause level addr : Nat) (s : State)
  | held

def State.remote (s : State) (y : CeEntry) (space a len : Nat) (write : Bool) (comp : List Nat) : Remote :=
  match space with
  | 1 =>
    match s.xlate y.ctx.inst a len write comp with
    | (.ok pl, s) => .to pl s
    | (.fault c l ad, s) => .tr c l ad s
    | (.held, _) => .held
  | 2 =>
    match y.peers[a / 2 ^ 56]? with
    | none => .ce 4
    | some l => match s.slotOf l with
      | none => .ce 4
      | some q =>
        let r := s.peerRange q y.ctx.inst
        if r.1 ≤ a % 2 ^ 56 ∧ a % 2 ^ 56 + len ≤ r.2 then .to (.peer q (a % 2 ^ 56)) s else .ce 1
  | _ =>
    if y.ctx.inst ≠ 0 ∧ s.getF .wlState WL_STATE.STATE = 4 then .tr 3 0 a s
    else .to (.withy (a / 2 ^ 48) (a % 2 ^ 48)) s

/-- Issue one transaction of a piece, with the points of its route (R201, R211). -/
def State.issueTxn (s : State) (p k e : Nat) (y : CeEntry) (q : Piece) (write : Bool) (off len : Nat) (comp : List Nat) : State :=
  let space := if write then y.desc.dspace else y.desc.sspace
  let a := (if write then q.dst else q.src) + off
  match s.remote y space a len write comp with
  | .held => s
  | .ce c => s.ceEntryFault p e y c
  | .tr c l ad s => s.transFault y.ctx c l ad write 0 (s.lcoreNo p)
  | .to pl s =>
    let id := (s.core p).nextId + 1
    let data := if write then (((q.out.getD []).drop off).take len) else []
    let t : Txn :=
      { id := id, write := write, place := pl, piece := q.no, offset := off, len := len, data := data,
        path := s.txnPath p y.ctx.inst pl write, went := false }
    let q' := if write then { q with writes := q.writes.drop 1 } else { q with reads := q.reads.drop 1 }
    let y' := y.setPiece q'
    let s := (s.modCore p fun c => { c with nextId := id }).putEntry p k e { y' with inflight := y'.inflight ++ [t] }
    match write, pl with
    | false, .comp b => s.rdcLines b len (.engineRead p k e id)
    | _, _ => s

/-- TRANSACTION_ISSUE: the queue of engine e, side k, slot p issues its next read (write = false) or its next write transaction
(R201), a read only with a free staging block (R200). Pieces are taken up and written in the order of the rows of R195, each row in ascending
addresses (DEDUCED, log 74): a write issues once every earlier piece has issued its own. comp: the stage-1 table words that the companion
returns for its translation. A piece whose source is local is formed when its first write issues. -/
def execTransactionIssue (p k e : Nat) (write : Bool) (comp : List Nat) (s : State) : Out :=
  match (s.ceQueue p k e).issuing with
  | none => s.when false s
  | some y =>
    let can := s.ceRuns p k e && decide ((s.ceQueue p k e).flying < 8)
    if write then
      match y.pieces.find? fun q => q.out.isNone || !q.writes.isEmpty with
      | some q => match q.writes with
        | (off, len) :: _ => s.when (s.ceRuns p k e && decide (y.inflight.length < 8)) (s.issueTxn p k e y q true off len comp)
        | [] => s.when false s
      | none =>
        if y.desc.sspace ≠ 0 ∨ y.desc.dspace = 0 then s.when false s
        else match s.openPiece p k y with
          | .done => s.when false s
          | .fault c a n => s.when can (s.openFault p e y c a n)
          | .piece q z =>
            let s' := ((s.indexRead p y).putEntry p k e z).pieceLocal p k e z q
            s.when can (match s'.entry? p k e z.id with
              | some z => match z.pieces.find? fun r => r.no == q.no with
                | some r => match r.writes with
                  | (off, len) :: _ => s'.issueTxn p k e z r true off len comp
                  | [] => s'
                | none => s'
              | none => s')
    else
      match y.pieces.find? fun q => !q.reads.isEmpty with
      | some q => match q.reads with
        | (off, len) :: _ => s.when can (s.issueTxn p k e y q false off len comp)
        | [] => s.when false s
      | none =>
        if y.desc.sspace = 0 then s.when false s
        else match s.openPiece p k y with
          | .done => s.when false s
          | .fault c a n => s.when can (s.openFault p e y c a n)
          | .piece q z => match q.reads with
            | (off, len) :: _ => s.when can (((s.indexRead p y).putEntry p k e z).issueTxn p k e z q false off len comp)
            | [] => s.when false s

/-! ## Completing a transaction -/

/-- The transaction leaves its entry, and its flits count toward its instance's bytes moved, for both copies of a mirrored
write (R218, R228). -/
def State.endTxn (s : State) (p k e : Nat) (y : CeEntry) (t : Txn) : State :=
  let flits := (t.len + 63) / 64
  let two := match t.place with | .stack _ => t.write && (s.inst y.ctx.inst).mirror | _ => false
  (s.putEntry p k e { y with inflight := y.inflight.filter fun z => z.id != t.id }).charge y.ctx.inst
    fun a => { a with bytes := a.bytes + 64 * (if two then 2 * flits else flits) }

/-- Data of a read transaction has arrived: the piece goes on when it is the last (R201). -/
def State.readArrived (s : State) (p k e id : Nat) (t : Txn) (bs : List Byte) : State :=
  match s.entry? p k e id with
  | none => s
  | some y =>
    match y.pieces.find? fun q => q.no == t.piece with
    | none => s
    | some q =>
      let q := { q with got := q.got ++ [(t.offset, bs)] }
      let y := y.setPiece q
      let s := s.putEntry p k e y
      if q.reads.isEmpty && y.inflight.all (fun z => z.piece != q.no || z.write) then s.pieceReady p k e y q q.source else s

/-- A write transaction is done: the piece leaves with its last one. -/
def State.writeDone (s : State) (p k e id : Nat) (t : Txn) : State :=
  match s.entry? p k e id with
  | none => s
  | some y =>
    match y.pieces.find? fun q => q.no == t.piece with
    | none => s
    | some q =>
      if q.writes.isEmpty && y.inflight.all fun z => z.piece != q.no then s.putEntry p k e (y.dropPiece q.no) else s

/-- Companion writes of a copy: one transaction a line, whole or partial (R299). -/
def State.compWrite (s : State) (inst ring a : Nat) (bs : List Byte) : State :=
  (granules64 a 70 0 bs.length).foldl (fun s x =>
    s.cclSend (if x.2 = 64 then .wrl else .wrp) (a + x.1) ((bs.drop x.1).take x.2) (.engine inst ring)) s
where
  /-- Parts of n bytes at a by 64-byte line. -/
  granules64 (a : Nat) : Nat → Nat → Nat → List (Nat × Nat)
    | 0, _, _ => []
    | fuel + 1, off, n =>
      if n ≤ off then [] else
        let l := min (n - off) (64 - (a + off) % 64)
        (off, l) :: granules64 a fuel (off + l) n

/-- Sides of a peer core that share the range which a copy reaches: the tenant side, the radio side, or both of a stake core. -/
def State.peerSides (s : State) (q inst : Nat) : List Nat := if inst ≠ 0 then [0] else if s.isStake q then [0, 1] else [1]

/-- Write bytes into a peer's scratchpad (R194, R203): its live weight sources and code regions are guarded there. -/
def State.peerWrite (s : State) (p e : Nat) (y : CeEntry) (q a : Nat) (bs : List Byte) : State ⊕ State :=
  let ks := s.peerSides q y.ctx.inst
  if ks.any fun k => (s.core q).guarded k a bs.length then .inr (s.ceWriteFault p q e y 5 ks a bs.length)
  else if (s.core q).partialBad a bs.length then .inr (s.ceWriteFault p q e y 2 ks a bs.length)
  else .inl (s.spStore q a bs)

/-- Hand a message to a port. -/
def State.wyOut (s : State) (w : Nat) (m : WyMsg) : State := { s with withy := { s.withy with out := s.withy.out ++ [(w, m)] } }

/-- Send a message on its route after hops hops; a spent hop count or an entry with no port drops it with WY_ROUTE, noted at port
at_ (R452, R464). -/
def State.wySend (s : State) (at_ dst hops inst : Nat) (m : WyMsg) : State :=
  match s.wyRoute dst, decide (64 ≤ hops) with
  | some w, false => s.wyOut w m
  | _, spent => s.event (srcWy at_) 1 0x85 0xFF inst (at_ + 16 * dst + 2 ^ 20 * spent.toNat)

/-- The message that carries a held transaction. -/
def WyTxn.msg (t : WyTxn) (src : Nat) : WyMsg :=
  let h : WyHdr := { dst := t.dst, src := src, hops := 0, group := t.group, tid := t.tid, addr := t.addr, ord := t.ord, rank := t.rank == 1 }
  if t.write then .wr h t.data else .rd h t.len

/-- Send a held transaction. -/
def State.wyPost (s : State) (t : WyTxn) : State :=
  s.wySend (s.getF (.wyRoute t.dst) WY_ROUTE.PRI) t.dst 0 t.ctx.inst (t.msg (s.getF .wyDevid WY_DEVID.ID))

/-- A copy engine's transaction reaches its Withy port (R203, R450, R454, R459): it is sent, and held until its answer. -/
def State.withySend (s : State) (p k e : Nat) (y : CeEntry) (t : Txn) (dev a : Nat) : State :=
  let w : WyTxn :=
    { tid := s.withy.next % 2 ^ 32, dst := dev, group := s.getF (.wyGroup y.ctx.inst) WY_GROUP.GROUP,
      ord := y.desc.ord, rank := if y.ctx.inst = 0 then 0 else 1, write := t.write, addr := a, len := t.len, data := t.data,
      ctx := y.ctx, cmd := y.cmd, slot := p, side := k, eng := e, txn := t.id, attempts := 1, at_ := s.gtc }
  { s with withy := { s.withy with next := s.withy.next + 1, held := s.withy.held ++ [w] } }.wyPost w

/-- A read transaction of a copy engine has been sent over Withy and waits for its data. -/
def State.wyHolds (s : State) (p k e id : Nat) : Bool :=
  s.withy.held.any fun t => t.slot == p && t.side == k && t.eng == e && t.txn == id

/-- Ring of a command number (CmdKey.no). -/
def ringOfCmd (cmd : Nat) : Nat := cmd / 128 % 64

/-- A bank that a transaction of an instance needs is held by its refresh (R231). Which of its channel's 32 banks holds a granule row the spec
does not say. -/
def State.bankHeld (s : State) (n a : Nat) (write : Bool) : Bool :=
  let x := s.inst n
  let held (pa : Nat) : Bool :=
    s.stackSet.refreshing.contains ((16 * stackOf pa + channelOf pa) * 32 + Config.bankOf (pa % 2 ^ 37 / 65536) % 32)
  held (x.place a) || (write && match x.mirrorPlace a with | some pb => held pb | none => false)

/-- The lines of a read of companion memory that a CCL port carries (R298), and the state once they have been answered. -/
def State.engineLines (s : State) (p k e id : Nat) : Bool :=
  s.ccl.out.all fun t => t.purpose != .engineRead p k e id || decide (t.port < 2)
def State.engineAnswered (s : State) (p k e id : Nat) : State :=
  let mine := s.ccl.out.filter fun t => t.purpose == .engineRead p k e id
  mine.foldl (fun s t => s.flitAcked t.port)
    { s with ccl := { s.ccl with out := s.ccl.out.filter fun t => t.purpose != .engineRead p k e id } }

/-- WEAVE_TRANSACTION_COMPLETE: transaction id of entry y's queue, which has entered every point of its route (R211, R212), completes (R203).
data: the bytes that companion memory returns
for a read. A Withy write completes when the local port accepts it; a Withy read is sent here and answered by RDDATA, and a write to a
sequencer port is taken by SEQUENCER_REQUEST. -/
def execWeaveTransactionComplete (p k e id : Nat) (data : List Nat) (s : State) : Out :=
  match (s.ceQueue p k e).entries.find? fun y => y.inflight.any fun t => t.id == id with
  | none => s.when false s
  | some y =>
    match y.inflight.find? fun t => t.id == id with
    | none => s.when false s
    | some t =>
      let ok := decide (p < 208) && decide (k < 2) && decide (e < 2) && t.path.isEmpty
      let s1 := s.endTxn p k e y t
      let y1 := { y with inflight := y.inflight.filter fun z => z.id != t.id }
      match t.write, t.place with
      | false, .stack a =>
        s.when (ok && !s.bankHeld y.ctx.inst a false) (match s1.stackRead y.ctx.inst a t.len with
          | (some bs, s) => s.readArrived p k e y.id t bs
          | (none, s) => s.ceEntryFault p e y 2)
      | false, .comp _ =>
        s.when (ok && decide (data.length = t.len) && s.engineLines p k e id) ((s1.engineAnswered p k e id).readArrived p k e y.id t (data.map (BitVec.ofNat 8)))
      | false, .peer q a =>
        s.when ok (if (s.core q).spBad a t.len then (s1.spUncorrectable q a t.len).ceEntryFault p e y 2
          else (s1.spCorrect q a t.len).readArrived p k e y.id t ((s.core q).sp.read a t.len))
      | true, .stack a =>
        let r := s1.settle p y ((match y.pieces.find? fun q => q.no == t.piece with | some q => q.dst | none => 0) + t.offset) t.data
        s.when (ok && !s.bankHeld y.ctx.inst a true) (match r.2.stackWrite y.ctx.inst a r.1 with
          | some s => s.writeDone p k e y.id t
          | none => s1.ceEntryFault p e y 2)
      | true, .comp a =>
        let r := s1.settle p y ((match y.pieces.find? fun q => q.no == t.piece with | some q => q.dst | none => 0) + t.offset) t.data
        s.when ok ((r.2.compWrite y.ctx.inst (ringOfCmd y.cmd) a r.1).writeDone p k e y.id t)
      | true, .peer q a =>
        let r := s1.settle p y ((match y.pieces.find? fun z => z.no == t.piece with | some z => z.dst | none => 0) + t.offset) t.data
        s.when ok (match r.2.peerWrite p e y1 q a r.1 with
          | .inl s => s.writeDone p k e y.id t
          | .inr s => s)
      | true, .withy dev a => s.when (ok && decide (s.withy.held.length < 512)) ((s1.withySend p k e y t dev a).writeDone p k e y.id t)
      | false, .withy dev a =>
        s.when (ok && decide (s.withy.held.length < 512) && !s.wyHolds p k e id) (s.withySend p k e y t dev a)
      | _, _ => s.when false s

/-! ## Completing a descriptor -/

/-- Move the next n pieces of a descriptor whose ends are both in the own scratchpad (or of a FILL into it). The bytes written count
toward the instance's bytes moved (R218). -/
def State.runLocal (s : State) (p k e id : Nat) : Nat → State
  | 0 => s
  | n + 1 =>
    match s.entry? p k e id with
    | none => s
    | some y => match s.openPiece p k y with
      | .done => s
      | .fault c a l => s.openFault p e y c a l
      | .piece q z =>
        let t := ((s.indexRead p y).putEntry p k e z).pieceLocal p k e z q
        if (t.entry? p k e id).isSome then
          State.runLocal (t.charge y.ctx.inst fun a => { a with bytes := a.bytes + q.dlen }) p k e id n
        else t

/-- Pieces that a descriptor has at most. -/
def CopyDesc.pieceBound (d : CopyDesc) : Nat := d.rows * (d.len0 / 32 + 2) + 1

/-- The NOTIFY add (R203): a 32-bit wrapping add to the own-scratchpad word; a guarded word faults as any write. -/
def State.notifyAdd (s : State) (p k e : Nat) (y : CeEntry) : State :=
  if !y.desc.notify then s
  else
    let a := y.desc.naddr
    match s.writeFault p k [(a, 4)] with
    | some 4 => s.ceWriteFault p p e y 5 [k] a 4
    | some c => s.ceWriteFault p p e y c [k] a 4
    | none => s.spStore p a (leBytes 4 ((s.core p).sp.readLE a 4 + y.desc.nval))

/-- COPY_DESCRIPTOR_COMPLETE: the first entry of a queue has written every byte (R202, R203); its NOTIFY add takes effect and
the entry leaves. A descriptor with both ends in the own scratchpad moves its bytes here. -/
def execCopyDescriptorComplete (p k e : Nat) (s : State) : Out :=
  match (s.ceQueue p k e).entries with
  | [] => s.when false s
  | y :: _ =>
    let done := y.opened && y.issued && y.pieces.isEmpty && y.inflight.isEmpty
    let s1 := if y.desc.own then s.runLocal p k e y.id y.desc.pieceBound else s
    s.when (s.ceRuns p k e && y.started && (y.desc.own || done))
      (match s1.entry? p k e y.id with
        | none => s1
        | some y =>
          if y.opened then
            let s2 := (s1.modCe p k e fun q => { q with entries := q.entries.filter fun z => z.id != y.id }).notifyAdd p k e y
            (s2.modCmd y.cmd fun c => if y.thread.isNone then { c with copied := c.copied + 1 } else c).endCheck p y.cmd
          else s1)

/-! ## Pause (R205) -/

/-- Transactions of an entry that the pause stops give their parts back to their pieces: they are issued again, from their first byte, when the
side resumes. keep tells those that go on. -/
def CeEntry.abandon (y : CeEntry) (keep : Txn → Bool) : CeEntry :=
  let gone := y.inflight.filter fun t => !keep t
  let parts (q : Piece) (w : Bool) : List (Nat × Nat) := (gone.filter fun t => t.piece == q.no && t.write == w).map fun t => (t.offset, t.len)
  { y with
    inflight := y.inflight.filter keep
    pieces := y.pieces.map fun q => { q with reads := parts q false ++ q.reads, writes := parts q true ++ q.writes } }

/-- A transaction of slot p holds a grant or has entered a point, so that its data have begun to move. -/
def State.txnMoves (s : State) (p : Nat) (t : Txn) : Bool :=
  t.went || s.weave.points.any fun x => match x.2.grant with | some q => q.isOf p t.id | none => false

/-- Flits that an abandoned read had sent: all once it had passed a point, else what its grant has sent (R218). -/
def State.txnSent (s : State) (p : Nat) (t : Txn) : Nat :=
  if t.went then (t.len + 63) / 64
  else (s.weave.points.map fun x => match x.2.grant with | some q => if q.isOf p t.id then s.wvSent x.1 q else 0 | none => 0).sum

/-- A queue pauses (R205): a copy inside the own scratchpad stops at a destination line, how far it has come being a free value (log 3);
reads that have not arrived are abandoned, their flits counted (R218); writes that hold no grant wait; what has arrived stays staged. -/
def State.pauseQueue (s : State) (p k e : Nat) : State :=
  let s := match (s.ceQueue p k e).entries.head? with
    | some y =>
      if y.started && y.desc.own && s.ceRuns p k e then
        { s with free := s.free + 1 }.runLocal p k e y.id ((Config.freeBits s.free).toNat % (y.desc.pieceBound + 1))
      else s
    | none => s
  let keep (t : Txn) : Bool := t.write && s.txnMoves p t
  let q := s.ceQueue p k e
  let s' := q.entries.foldl (fun s y => (y.inflight.filter fun t => !t.write).foldl (fun s t =>
    let n := s.txnSent p t
    if n = 0 then s else s.charge y.ctx.inst fun a => { a with bytes := a.bytes + 64 * n }) s) s
  s'.modCe p k e fun q => { entries := q.entries.map fun y => y.abandon keep, paused := true }

/-- Pause and resume both queues of a side. -/
def State.pauseCe (s : State) (p k : Nat) : State := ((s.pauseQueue p k 0).pauseQueue p k 1).wvPrune

def CeQueue.resume (q : CeQueue) : CeQueue := { q with paused := false }
def Side.resumeCe (x : Side) : Side := { x with ce0 := x.ce0.resume, ce1 := x.ce1.resume }

/-! ## The scratchpad's scrubber and errors (R186, R187) -/

/-- Words of line n that the bits of bad name. -/
def lineWords (n bad : Nat) : List Nat := ((List.range 8).filter fun j => bad / 2 ^ j % 2 = 1).map (8 * n + ·)

/-- SCRATCHPAD_SCRUB: the scrubber reads line n of the scratchpad of slot p and finds single-bit errors in the words that the bits
of bad name; it corrects them, and an uncorrectable word keeps its syndrome (R186, R187). -/
def execScratchpadScrub (p n bad : Nat) (s : State) : Out :=
  let mark (c : Core) : Core :=
    { c with spCheck := (lineWords n bad).foldl (fun m w =>
        if SMap.get Check.good m w = .good then SMap.put .good m w .single else m) c.spCheck }
  s.when
    (decide (p < 208) && decide (n < 196608) && decide (s.getF (.coreSpEcc p) CORE_SP_ECC.SCRUBEN = 1))
    ((s.modCore p mark).spCorrect p (64 * n) 64)

/-- A reader that meets an uncorrectable word faults as the table of R186 says: kind 0 the scrubber or no reader (the word keeps
its syndrome, a later read faults), 1 issuer i, 2 the feeder of the MMT numbered i, 3 the weight loader (its pass marks the tile),
4 the copy-engine entry numbered i of engine e. -/
def State.eccReader (s : State) (p kind i : Nat) : Option State :=
  let c := s.core p
  match kind with
  | 0 => some s
  | 1 => (c.where_ i).map fun x => s.veFault p 2 x.2.1 (issuerOf i)
  | 2 =>
    let find (k : Nat) : Option State :=
      match ((c.side k).flying.find? fun y => y.1.id == i) with
      | some y => some (s.meFault p k 2 y.1 y.2 y.1.next)
      | none => none
    (find 0).or (find 1)
  | 3 => some s
  | 4 =>
    let all := [(0, 0), (0, 1), (1, 0), (1, 1)]
    all.findSome? fun x => (((c.side x.1).ce x.2).entries.find? fun y => y.id == i).map fun y => s.ceEntryFault p x.2 y 2
  | _ => none

/-- SCRATCHPAD_UNCORRECTABLE_ERROR: word n of the scratchpad of slot p is found with an uncorrectable error by a reader (R186). -/
def execScratchpadUncorrectableError (p n kind i : Nat) (s : State) : Out :=
  let s1 := (s.modCore p fun c => { c with spCheck := SMap.put .good c.spCheck n .double }).spUncorrectable p (8 * n) 8
  match s1.eccReader p kind i with
  | some t => s.when (decide (p < 208) && decide (n < 1572864)) t
  | none => s.when false s

end Sys2Proof.Machine
end

