-- ==== Sys2Proof/Machine/Stacks.lean ====
section
/-!
DEFINITION. The memory stacks: row accesses and their errors, refresh, scrubbing, frames, channels, the loss of a stack (R220 to
R236, R253 to R257), and the journal's copies (R248 to R252).
-/
namespace Sys2Proof.Machine

/-! ## Row accesses (R233 to R236) -/

/-- Count a corrected line of a channel in the present second (R253). -/
def State.countCorr (s : State) (m ch : Nat) : State :=
  let sec := s.gtc / 3600000000
  let old := if s.stackSet.corrSec = sec then s.stackSet.corr else []
  { s with stackSet := { s.stackSet with corr := SMap.modify 0 old (16 * m + ch) (· + 1), corrSec := sec } }

/-- MS_EADDR_LO and MS_EADDR_HI of the latest erroneous line (R257). -/
def State.setEaddr (s : State) (pa syms : Nat) (unc : Bool) : State :=
  let m := stackOf pa
  let s := s.setF (.msEaddrLo m) MS_EADDR_LO.PA (pa / 64)
  ((((s.setF (.msEaddrHi m) MS_EADDR_HI.VALID 1).setF (.msEaddrHi m) MS_EADDR_HI.UNC unc.toNat).setF (.msEaddrHi m)
    MS_EADDR_HI.CH (channelOf pa)).setF (.msEaddrHi m) MS_EADDR_HI.SYMS syms).setF (.msEaddrHi m) MS_EADDR_HI.PA (pa / 2 ^ 32)

/-- A line with 1 or 2 erroneous symbols: corrected and rewritten (R234). -/
def State.lineCorrected (s : State) (pa syms : Nat) : State :=
  let m := stackOf pa
  (((((s.satF (.msEcc m) MS_ECC.CORR 1).health 1 0 0 0).countCorr m (channelOf pa)).setEaddr pa syms false).msRecord m (channelOf pa) syms
    false false)

/-- An uncorrectable line: counted, recorded and rewritten with POISON = 1 (R234). -/
def State.lineUncorrectable (s : State) (pa : Nat) : State :=
  let m := stackOf pa
  let s := ((s.satF (.msEcc m) MS_ECC.UNCORR 1).setEaddr pa 3 true).msRecord m (channelOf pa) 3 false false
  { s with stackSet := { s.stackSet with poison := SMap.put false s.stackSet.poison (pa / 64) true } }

/-- Eight free bytes. -/
def freeLine (n : Nat) : List Byte := (List.range 8).flatMap fun i => leBytes 8 (Config.freeBits (n + i)).toNat

/-- A row access of a line finds syms erroneous symbols. Five or more are not guaranteed to be detected: whether they are, and
what the line then holds, are free values (R233, log 3). -/
def State.rowAccess (s : State) (pa syms : Nat) : State :=
  if syms = 0 ∨ SMap.get false s.stackSet.poison (pa / 64) = true then s
  else if syms ≤ 2 then s.lineCorrected pa syms
  else if syms ≤ 4 then s.lineUncorrectable pa
  else
    let d := (Config.freeBits s.free).toNat % 4
    let bytes := freeLine (s.free + 1)
    let s := { s with free := s.free + 9 }
    if d = 0 then s.lineUncorrectable pa
    else
      let s := s.setMem (s.stackSet.mem.write pa bytes)
      if d = 1 then s else s.lineCorrected pa d

/-- STACK_ROW_ACCESS_COMPLETE: the base die of the stack that holds line address pa completes a row access that found syms
erroneous symbols. -/
def execStackRowAccessComplete (pa syms : Nat) (s : State) : Out :=
  s.when
    (decide (pa < 12 * 2 ^ 37) && decide (pa % 64 = 0) && decide (syms ≤ 71)
      && decide (s.getF (.msStatus (stackOf pa)) MS_STATUS.STATE ≠ 2))
    (s.rowAccess pa syms)

/-- Address of line n of channel ch of stack m, in ascending order (R227, R236): 64 lines a granule, one granule of the channel a
granule row. -/
def scrubLine (m ch n : Nat) : Nat :=
  let row := n / 64
  let hi := row * 16
  let fold := channelOf (hi * 4096)
  m * 2 ^ 37 + (hi + (ch ^^^ fold)) * 4096 + n % 64 * 64

/-- ACLK cycles between two scrub reads of a channel of stack m: MS_CFG.SCRUBIV microseconds, 0 acting as 1 (R236, R257). -/
def State.scrubEvery (s : State) (m : Nat) : Nat := 3600 * max 1 (s.getF (.msCfg m) MS_CFG.SCRUBIV)

/-- STACK_SCRUB: the scrubber of channel ch of stack m reads its next line, with syms erroneous symbols (R236). -/
def execStackScrub (m ch syms : Nat) (s : State) : Out :=
  let key := 16 * m + ch
  let n := SMap.get 0 s.stackSet.scrub key
  let s1 := { s with stackSet := { s.stackSet with
    scrub := SMap.put 0 s.stackSet.scrub key ((n + 1) % 2 ^ 27)
    scrubAt := SMap.put 0 s.stackSet.scrubAt key s.gtc } }
  s.when
    (decide (m < 12) && decide (ch < 16) && decide (syms ≤ 71) && decide (s.getF (.msCfg m) MS_CFG.SCRUBEN = 1)
      && decide (SMap.get 0 s.stackSet.scrubAt key + s.scrubEvery m ≤ s.gtc) && decide (s.getF (.msStatus m) MS_STATUS.STATE ≠ 2))
    (s1.rowAccess (scrubLine m ch n) syms)

/-- STACK_REFRESH: a bank of a channel in which no other is being refreshed is held by its refresh (R231). -/
def execStackRefresh (m ch bank : Nat) (s : State) : Out :=
  let key := (16 * m + ch) * 32 + bank
  s.when (decide (m < 12) && decide (ch < 16) && decide (bank < 32) && !s.stackSet.refreshing.any fun x => x / 32 == 16 * m + ch)
    { s with stackSet := { s.stackSet with refreshing := s.stackSet.refreshing ++ [key] } }

/-- REFRESH_COMPLETE: the refresh of a bank ends; data never change (R231). -/
def execRefreshComplete (m ch bank : Nat) (s : State) : Out :=
  let key := (16 * m + ch) * 32 + bank
  s.when (decide (m < 12) && decide (ch < 16) && decide (bank < 32) && s.stackSet.refreshing.contains key)
    { s with stackSet := { s.stackSet with refreshing := s.stackSet.refreshing.erase key } }

/-! ## Frames (R224, R229) -/

/-- Zeros in bytes a to a + n - 1 of the stacks, POISON clear. -/
def State.clearMem (s : State) (a n : Nat) : State :=
  { s with stackSet := { s.stackSet with
    mem := s.stackSet.mem.clear a n
    poison := s.stackSet.poison.filter fun x => !(decide (a ≤ 64 * x.1) && decide (64 * x.1 < a + n)) } }

def frameBase (f : Frame) : Nat := f.1 * 2 ^ 37 + f.2 * 2 ^ 30

/-- Every frame of an instance is OWNED, or OUT with its stack. -/
def State.framesReady (s : State) (n : Nat) : Bool :=
  (s.inst n).frames.all fun l => l.all fun f => decide (2 ≤ s.getF (.msFrame f.1 f.2) MS_FRAME.STATE)

/-- A RESIZE replies once its new frames have been cleared and its lease has shrunk (R318). -/
def State.resizeCheck (s : State) (n : Nat) : State :=
  let x := s.inst n
  match x.work with
  | some w =>
    (match w.op with
    | .resize _ _ =>
      if s.framesReady n && x.sizeLimit.isNone && !(s.stackSet.releasing.any fun f => s.getF (.msFrame f.1 f.2) MS_FRAME.OWNER == n) then
        (s.modInst n fun x => { x with work := none }).mgmtReply w.ridx w.tag 1 0
      else s
    | _ => s)
  | none => s

/-- FRAME_CLEAR_COMPLETE: the clear of frame f of stack m under its new owner's key ends (R229); a frame that a shrinking quota has
released is then FREE (R318). -/
def execFrameClearComplete (m f : Nat) (s : State) : Out :=
  let r := Reg.msFrame m f
  let n := s.getF r MS_FRAME.OWNER
  let s1 := s.clearMem (frameBase (m, f)) (2 ^ 30)
  let s2 := if s.stackSet.releasing.contains (m, f) then
      { s1 with stackSet := { s1.stackSet with releasing := s1.stackSet.releasing.filter fun x => x != (m, f) } }.setReg r 0
    else s1.setF r MS_FRAME.STATE 2
  s.when
    (decide (m < 12) && decide (f < 128) && decide (s.getF r MS_FRAME.STATE = 1))
    (s2.resizeCheck n)

/-- Release a frame (R229): FREE, without clearing. -/
def State.freeFrame (s : State) (f : Frame) : State :=
  if s.getF (.msFrame f.1 f.2) MS_FRAME.STATE = 3 then s else s.setReg (.msFrame f.1 f.2) 0

/-- Take a frame for an owner: CLEARING, with its slot and index (R224, R229). -/
def State.takeFrame (s : State) (f : Frame) (owner slot idx : Nat) (mirror sys : Bool) : State :=
  let r := Reg.msFrame f.1 f.2
  (((((s.setF r MS_FRAME.STATE 1).setF r MS_FRAME.MIRROR mirror.toNat).setF r MS_FRAME.SYS sys.toNat).setF r MS_FRAME.OWNER
    owner).setF r MS_FRAME.SLOT slot).setF r MS_FRAME.IDX idx

/-! ## Journal copies (R252) -/

/-- JOURNAL event record (R495): severity 3 when lost or without a mirror. -/
def State.journalNote (s : State) (m detail : Nat) : State :=
  s.note (srcStack m) (if detail = 4 ∨ detail = 5 then 3 else 0) 0x14 detail

def State.setJrole (s : State) (f : Option Frame) (role : Nat) : State :=
  match f with
  | some x => s.setF (.msStatus x.1) MS_STATUS.JROLE role
  | none => s

/-- Take the next unused spare as the mirror and start its rebuild, or go on without a mirror. -/
def State.newMirror (s : State) : State :=
  let j := s.stackSet.journal
  let good := j.spares.dropWhile fun f => s.getF (.msStatus f.1) MS_STATUS.STATE == 2
  match good with
  | f :: rest =>
    ((s.setJournal { j with mirror := some f, rebuilding := true, spares := rest }).setJrole (some f) 3).journalNote f.1 2
  | [] => (s.setJournal { j with mirror := none, rebuilding := false, spares := [] }).journalNote
      ((j.primary.map Prod.fst).getD 0) 5

/-- The journal copy on stack m is lost. -/
def State.journalLoss (s : State) (m : Nat) : State :=
  let j := s.stackSet.journal
  let onPrimary := (j.primary.map Prod.fst) == some m
  let onMirror := (j.mirror.map Prod.fst) == some m
  if j.lost then s
  else if onPrimary then
    match j.mirror with
    | some f =>
      if j.rebuilding then
        ((s.setJournal { j with primary := none, mirror := none, rebuilding := false, lost := true }).setJrole
          (some (m, 0)) 0).journalNote m 4
      else ((((s.setJournal { j with primary := some f, mirror := none }).setJrole (some (m, 0)) 0).setJrole (some f) 1)).newMirror
    | none => ((s.setJournal { j with primary := none, lost := true }).setJrole (some (m, 0)) 0).journalNote m 4
  else if onMirror then
    ((s.setJournal { j with mirror := none, rebuilding := false }).setJrole (some (m, 0)) 0).newMirror
  else s

/-- Address of a record's slot in a copy of the journal (R248). -/
def slotPa (f : Frame) (seq : Nat) : Nat := frameBase f + seq % 4194304 * 256

/-- A read of record seq: a line that is bad in one copy is rewritten from the other, with a record (R234). -/
def State.journalRead (s : State) (seq : Nat) : State :=
  let j := s.stackSet.journal
  match j.primary, j.mirror with
  | some f, some g =>
    if j.rebuilding then s
    else (List.range 4).foldl (fun s i =>
      let a := slotPa f seq + 64 * i; let b := slotPa g seq + 64 * i
      let fix (s : State) (a b : Nat) : State :=
        ((s.setMem (s.stackSet.mem.write a (s.stackSet.mem.read b 64))).unpoison a 64).msRecord (stackOf a) (channelOf a) 3 false true
      if s.linesBad a 64 && !s.linesBad b 64 then fix s a b
      else if s.linesBad b 64 && !s.linesBad a 64 then fix s b a
      else s) s
  | _, _ => s

/-- JOURNAL_REBUILD_COMPLETE: the copy of the unretired records ends (R252). -/
def execJournalRebuildComplete (s : State) : Out :=
  let j := s.stackSet.journal
  let copy (s : State) : State :=
    match j.primary, j.mirror with
    | some a, some b =>
      (j.recs.filter fun r => r.written).foldl (fun s r =>
        s.paWrite (slotPa b r.seq) (s.stackSet.mem.read (slotPa a r.seq) 256)) s
    | _, _ => s
  s.when (j.rebuilding && j.mirror.isSome)
    ((((copy s).setJournal { j with rebuilding := false }).setJrole j.mirror 2).journalNote
      ((j.mirror.map Prod.fst).getD 0) 3)

/-! ## Channels and stacks (R253 to R255) -/

/-- CHANNEL_MIGRATION: a logical channel starts to be copied to the spare: its corrected errors in one second exceed the threshold,
or its die controller commands it (R253). -/
def execChannelMigration (m ch : Nat) (command : Bool) (s : State) : Out :=
  let thr := s.getF (.msCfg m) MS_CFG.CETHR
  let above := decide (thr ≠ 0) && decide (16 * thr < SMap.get 0 s.stackSet.corr (16 * m + ch))
    && decide (s.stackSet.corrSec = s.gtc / 3600000000)
  s.when
    (decide (m < 12) && decide (ch < 16) && (command || above) && decide (s.getF (.msStatus m) MS_STATUS.MIGRATING = 0)
      && decide (s.getF (.msStatus m) MS_STATUS.SPARED = 0x1F) && decide (s.getF (.msStatus m) MS_STATUS.STATE ≠ 2))
    (({ s with stackSet := { s.stackSet with migrating := SMap.put none s.stackSet.migrating m (some ch) } }.setF (.msStatus m)
      MS_STATUS.MIGRATING 1).note (srcStack m) 1 0x11 ch)

/-- MIGRATION_COMPLETE: the spare serves the channel (R253). -/
def execMigrationComplete (m : Nat) (s : State) : Out :=
  match SMap.get none s.stackSet.migrating m with
  | none => s.when false s
  | some ch =>
    let s1 := { s with stackSet := { s.stackSet with migrating := SMap.put none s.stackSet.migrating m none } }
    s.when (decide (m < 12) && decide (s.getF (.msStatus m) MS_STATUS.MIGRATING = 1))
      ((((s1.setF (.msStatus m) MS_STATUS.MIGRATING 0).setF (.msStatus m) MS_STATUS.SPARED ch).setF (.msStatus m)
        MS_STATUS.STATE 1).note (srcStack m) 1 0x11 (ch + 16))

/-- Instances that own a frame on stack m. -/
def State.ownersOn (s : State) (m : Nat) : List Nat :=
  ((List.range 65).filter fun n => (s.inst n).frames.any fun l => l.any fun f => f.1 == m)

/-- Owners of unmirrored frames on a failed stack or channel are torn down: tenant instances with CLASS 0x6, and every cell-group
context of I0, whose buffers the model does not place (R254, R255; log 21). -/
def State.tearOwners (s : State) (m : Nat) : State :=
  (s.ownersOn m).foldl (fun s n =>
    if (s.inst n).mirror then s
    else if n = 0 then (List.range 128).foldl (fun s g => if s.cgExists g then s.contextDown g 3 6 else s) s
    else s.faultInstance n 6 0xFF) s

/-- The loss of a stack that holds a save frame loses every save image, one that is being spilled among them, and tears down every instance that
holds one; the slots are
laid out afresh over the frames left (R283, R289). -/
def State.loseImages (s : State) (m : Nat) : State :=
  if s.beat.saveFrames.any fun f => f.1 == m then
    let spills := s.cores.filterMap fun x => x.2.takeover.bind fun k => k.slot.map fun _ => k.from_
    let holders := (s.images.filterMap (fun x => x.2.map (·.inst)) ++ spills).eraseDups
    let s := { s with images := [], beat := { s.beat with saveFrames := s.beat.saveFrames.filter fun f => f.1 != m } }
    holders.foldl (fun s n => s.faultInstance n 6 0xFF) s
  else s

/-- A stack is lost (R255): its domain is off (R526), its frames read OUT, unmirrored owners are torn down, a journal copy there is replaced. -/
def State.stackLost (s : State) (m : Nat) : State :=
  let s := (s.setF (.msStatus m) MS_STATUS.STATE 2).setDomain (208 + m) false
  let s := (List.range 128).foldl (fun s f => s.setF (.msFrame m f) MS_FRAME.STATE 3) s
  let s := s.note (srcStack m) 3 0x13 m
  let s := { s with
    stackSet := { s.stackSet with
      migrating := SMap.put none s.stackSet.migrating m none
      rebuilding := SMap.put none s.stackSet.rebuilding m none } }
  (((((s.setSeqQueue m []).loseImages m).tearOwners m).journalLoss m).showBusy m).journalBusy

/-- STACK_LOST: the base die of stack m stops responding (R255). -/
def execStackLost (m : Nat) (s : State) : Out :=
  s.when (decide (m < 12) && decide (s.getF (.msStatus m) MS_STATUS.STATE ≠ 2)) (s.stackLost m)

/-- Bytes of logical channel ch of stack m vanish. -/
def State.emptyChannel (s : State) (m ch : Nat) : State :=
  let gone (pa : Nat) : Bool := stackOf pa == m && channelOf pa == ch
  { s with stackSet := { s.stackSet with
    mem := s.stackSet.mem.filter fun c => !gone c.1
    poison := s.stackSet.poison.filter fun x => !gone (64 * x.1) } }

/-- CHANNEL_FAIL: channel ch of stack m stops responding (R254): the empty spare takes its number, or, with the spare in use, the
stack fails. -/
def execChannelFail (m ch : Nat) (s : State) : Out :=
  let ok := decide (m < 12) && decide (ch < 16) && decide (s.getF (.msStatus m) MS_STATUS.STATE ≠ 2)
  let s1 := s.note (srcStack m) 3 0x12 ch
  let inUse := decide (s.getF (.msStatus m) MS_STATUS.SPARED ≠ 0x1F) || decide (s.getF (.msStatus m) MS_STATUS.MIGRATING = 1)
  if inUse then s.when ok (s1.stackLost m)
  else
    let s2 := ((s1.setF (.msStatus m) MS_STATUS.SPARED ch).setF (.msStatus m) MS_STATUS.STATE 1).emptyChannel m ch
    let mir := (s2.ownersOn m).any fun n => (s2.inst n).mirror
    let s3 := if mir then { s2 with stackSet := { s2.stackSet with rebuilding := SMap.put none s2.stackSet.rebuilding m (some ch) } } else s2
    s.when ok ((s3.tearOwners m).journalLoss m)

/-- Pairs of a frame on stack m and its partner frame, of mirrored instances (R228). -/
def State.partners (s : State) (m : Nat) : List (Frame × Frame) :=
  (List.range 65).flatMap fun n =>
    let x := s.inst n
    if !x.mirror then []
    else
      let h := x.stackSet.length / 2
      (List.range h).flatMap fun k =>
        (((x.frames[k]?).getD []).zip ((x.frames[k + h]?).getD [])).flatMap fun y =>
          (if y.1.1 = m then [(y.1, y.2)] else []) ++ (if y.2.1 = m then [(y.2, y.1)] else [])

/-- Copy the lines of a channel of frame f from its partner frame g. -/
def State.copyChannel (s : State) (ch : Nat) (f g : Frame) : State :=
  let a := frameBase f; let b := frameBase g
  let there (pa : Nat) : Bool := decide (b ≤ pa) && decide (pa < b + 2 ^ 30) && channelOf (pa - b + a) == ch
  let cells := s.stackSet.mem.filter fun c => there c.1
  let bad := s.stackSet.poison.filter fun x => there (64 * x.1)
  { s with stackSet := { s.stackSet with
    mem := cells.foldl (fun m c => m.setByte (c.1 - b + a) c.2) s.stackSet.mem
    poison := bad.foldl (fun m x => SMap.put false m ((64 * x.1 - b + a) / 64) true) s.stackSet.poison } }

/-- MIRROR_REBUILD_COMPLETE: the mirrored lines of the failed channel of stack m are whole again (R254). -/
def execMirrorRebuildComplete (m : Nat) (s : State) : Out :=
  match SMap.get none s.stackSet.rebuilding m with
  | none => s.when false s
  | some ch =>
    let s1 := (s.partners m).foldl (fun s y => s.copyChannel ch y.1 y.2) s
    s.when (decide (m < 12))
      { s1 with stackSet := { s1.stackSet with rebuilding := SMap.put none s1.stackSet.rebuilding m none } }

end Sys2Proof.Machine
end

