-- ==== Sys2Proof/Machine/Rings.lean ====
section
/-!
DEFINITION. Command rings: enabling, fetching, checking and accepting descriptors, and the completion effects (R152 to R164,
R304 to R310, R322 to R325, R344, R345).
-/
namespace Sys2Proof.Machine

/-- n bytes of a record at offset a, little-endian. -/
def fieldAt (bs : List Byte) (a n : Nat) : Nat := leNat ((bs.drop a).take n)

/-- Every byte of offsets a to b - 1 is 0. -/
def zeroAt (bs : List Byte) (a b : Nat) : Bool := ((bs.drop a).take (b - a)).all fun x => x == 0

/-! ## Watched lines (R301, R304, R307) -/

/-- At least one CCL port is up (R298). -/
def State.cclUp (s : State) : Bool := s.cclPort 0 != 2

/-- Read the watched line of a ring by RDS (R301). -/
def State.readWatched (s : State) (n r : Nat) : State :=
  let s := s.modRing n r fun x => { x with shared := false }
  match s.ringPlace n (s.getF (ringRegs n r).wline IW_RING_WLINE.ADDR * 64) false with
  | some (.comp a) => (s.uncache a).cclSend .rds a [] (.watched n r)
  | some _ => s
  | none => s.ringError n r 3

/-- PROD and CCONS of a watched line reach the ring: at enabling PROD is the start (R305), else they are checked (R307). -/
def State.watchedLine (s : State) (n r prod ccons : Nat) : State :=
  let x := s.ring n r
  if x.enabling then
    let s := s.setRing n r { x with
      prod := prod, ccons := ccons, cmdcons := prod, cplprod := prod, next := prod, acked := prod, fetched := [], posted := [],
      prevStep := none, stepStart := none, due := none, shared := true, enabling := false }
    if ccons + 2 ^ s.ringL n r < prod then s.ringError n r 2 else s
  else
    let s := s.setRing n r { x with prod := prod, ccons := ccons, shared := true }
    if s.getF (ringRegs n r).status IW_RING_STATUS.STATE = 3 then s
    else if prod < x.cmdcons then s.ringError n r 1
    else if ccons + 2 ^ s.ringL n r < prod then s.ringError n r 2
    else s

/-- I0's rings lie in stack memory (R410), where the device reads PROD and CCONS as it fetches. -/
def State.readOwnLine (s : State) (n r : Nat) : State :=
  if n = 0 then
    match s.ringPlace 0 (s.getF (ringRegs 0 r).wline IW_RING_WLINE.ADDR * 64) false with
    | some (.stack a) =>
      match s.stackRead 0 a 16 with
      | (some bs, s) => s.watchedLine 0 r (fieldAt bs 0 8) (fieldAt bs 8 8)
      | (none, s) => s.tearDown (.cg (SMap.get 127 s.radio.ringCtx r)) 4 0xFF
    | _ => s.ringError 0 r 3
  else s

/-! ## DESCRIPTOR_FETCH (R306, R307, R250) -/

/-- The instance's state lets its rings fetch (R306, R316). -/
def State.ringLive (s : State) (n r : Nat) : Bool :=
  s.ringEn n r && s.getF (ringRegs n r).status IW_RING_STATUS.STATE == 1 && (decide (65 ≤ n) || s.instState n == stACTIVE)

/-- The journal has a free slot (R250). -/
def State.journalRoom (s : State) : Bool := decide (s.stackSet.journal.recs.length < 4194304)

/-- Request descriptor x: its two lines by RDC, or from I0's stack memory at once. -/
def State.requestDescr (s : State) (n r x : Nat) (last : Bool) : State :=
  let a := s.getF (ringRegs n r).cmdbase IW_RING_CMDBASE.ADDR * 64 + 128 * (x % 2 ^ s.ringL n r)
  let put (s : State) (lo hi : Option (List Byte)) : State := s.modRing n r fun y =>
    { y with
      next := x + 1
      fetched := y.fetched ++ [⟨x, lo, hi, last, false, 0, 0, (s.inst n).sizeLimit⟩] }
  if s.getF (ringRegs n r).status IW_RING_STATUS.STATE = 3 then s
  else match s.ringPlace n a false, s.ringPlace n (a + 64) false with
  | some (.comp p), some (.comp q) =>
    ((put s none none).cclSend .rdc p [] (.descriptor n r x)).cclSend .rdc q [] (.descriptor n r x)
  | some (.stack p), some (.stack q) =>
    (match s.stackRead n p 64 with
    | (some lo, s) =>
      (match s.stackRead n q 64 with
      | (some hi, s) => put s (some lo) (some hi)
      | (none, s) => s.tearDown (.cg (SMap.get 127 s.radio.ringCtx r)) 4 0xFF)
    | (none, s) => s.tearDown (.cg (SMap.get 127 s.radio.ringCtx r)) 4 0xFF)
  | _, _ => s.ringError n r 3

/-- Number of descriptors that a fetch of the ring may request now (R306). -/
def State.fetchCount (s : State) (n r : Nat) : Nat :=
  let x := s.ring n r
  min (8 - x.fetched.length) (min (x.prod - x.next) (x.ccons + 2 ^ s.ringL n r - x.next))

/-- DESCRIPTOR_FETCH: ring r of instance n (65: the management ring 0, the device ring 1) requests every descriptor that it may,
up to 8 ahead; with the journal full, fetching stops (R250). -/
def execDescriptorFetch (n r : Nat) (s : State) : Out :=
  let s1 := s.readOwnLine n r
  let k := s1.fetchCount n r
  let x := (s1.ring n r).next
  let j := s1.stackSet.journal
  let t :=
    if s1.ringLive n r = false ∨ k = 0 then s1
    else if s1.journalRoom = false then
      if j.full then s1 else (s1.setJournal { j with full := true }).journalNote s1.journalStack 0
    else (List.range k).foldl (fun s i => s.requestDescr n r (x + i) (i + 1 == k)) s1
  s.when (decide (n ≤ 65) && decide (r < 64) && s.ringLive n r && s.cclUp && !(s.ring n r).enabling
      && (decide (n = 0) || s.cacheRoom 2)
      && !s.boot.warm && (decide (n = 0) || !s.boot.recover)) t

/-! ## DESCRIPTOR_CHECK (R152 to R164) -/

/-- Body of a descriptor by KIND. -/
def bodyOf (bs : List Byte) : CmdBody :=
  match fieldAt bs 0 1 % 16 with
  | 1 => .kernel
      { code := fieldAt bs 32 4
        codeLen := fieldAt bs 36 4
        entry := fieldAt bs 40 4
        pentry := fieldAt bs 44 4
        first := fieldAt bs 48 2
        count := fieldAt bs 50 2
        strands := fieldAt bs 52 4 + 1
        kp := fieldAt bs 56 1 % 16 + 1
        nreg := 8 * fieldAt bs 57 1
        localBytes := 64 * fieldAt bs 58 2
        sharedBytes := 64 * fieldAt bs 60 4
        args := (List.range 4).map fun i => BitVec.ofNat 64 (fieldAt bs (64 + 8 * i) 8) }
  | 2 => .copy ⟨fieldAt bs 32 8, fieldAt bs 40 4, fieldAt bs 44 1, fieldAt bs 48 2⟩
  | 3 => .barrier ⟨fieldAt bs 32 1, fieldAt bs 40 8, fieldAt bs 48 8, fieldAt bs 62 4, fieldAt bs 58 4, fieldAt bs 56 2⟩
  | 4 => .fence (fieldAt bs 32 1 % 2 == 1) (fieldAt bs 32 1 / 2 % 2 == 1)
  | _ => .signal ⟨fieldAt bs 32 1, fieldAt bs 40 8, fieldAt bs 48 8, fieldAt bs 56 2⟩

/-- Common fields and body of a descriptor (R152). -/
def descrOf (bs : List Byte) : Descr :=
  let f := fieldAt bs 1 1
  let m := fieldAt bs 2 1
  { stepb := f % 2 == 1, irq := f / 2 % 2 == 1, launch := f / 4 % 2 == 1, dlog := f / 8 % 2 == 1,
    amode := m / 16 % 2 * 16 + m % 4, dur := fieldAt bs 4 4, tag := fieldAt bs 8 8, step := fieldAt bs 16 8,
    cg := fieldAt bs 24 1 % 128, body := bodyOf bs }

/-- Reserved bits and bytes of a descriptor are 0 (R152, R158, R161 to R164). -/
def descrClean (bs : List Byte) : Bool :=
  let kind := fieldAt bs 0 1 % 16
  decide (fieldAt bs 0 1 < 16) && decide (fieldAt bs 1 1 < (if kind = 1 then 16 else 4))
    && decide (fieldAt bs 2 1 / 32 = 0) && decide (fieldAt bs 2 1 / 4 % 4 = 0) && decide (fieldAt bs 24 1 < 128) && zeroAt bs 25 32
    && (match kind with
      | 1 => decide (fieldAt bs 56 1 < 16) && zeroAt bs 96 128
      | 2 => zeroAt bs 45 48 && zeroAt bs 52 128
      | 3 => zeroAt bs 33 40 && zeroAt bs 66 128
      | 4 => decide (fieldAt bs 32 1 < 4) && zeroAt bs 33 128
      | _ => zeroAt bs 33 40 && zeroAt bs 58 128)

/-- Cause 0x08: a launch field of a KERNEL lies outside its range (R158). -/
def kernelBad (bs : List Byte) (launch : Bool) : Bool :=
  let len := fieldAt bs 36 4
  decide (len < 8) || decide (2 ^ 20 < len) || decide (len ≤ fieldAt bs 40 4)
    || (if launch then
          decide (len ≤ fieldAt bs 44 4) || decide (fieldAt bs 57 1 < 1) || decide (8 < fieldAt bs 57 1)
            || decide (64 < fieldAt bs 58 2) || decide (16384 < fieldAt bs 60 4)
        else !(zeroAt bs 44 48 && zeroAt bs 52 64))

/-- Cause 0x09: alignment, reserved codes, counts, vectors, TREL (R154). -/
def formBad (bs : List Byte) : Bool :=
  match fieldAt bs 0 1 % 16 with
  | 1 => decide (fieldAt bs 32 4 % 64 ≠ 0) || decide (fieldAt bs 36 4 % 8 ≠ 0) || decide (fieldAt bs 40 4 % 8 ≠ 0)
      || decide (fieldAt bs 44 4 % 8 ≠ 0)
  | 2 => decide (fieldAt bs 32 8 % 64 ≠ 0) || decide (fieldAt bs 40 4 < 1) || decide (2 ^ 20 < fieldAt bs 40 4)
      || decide (1 < fieldAt bs 44 1)
  | 3 => decide (1 < fieldAt bs 32 1) || decide (fieldAt bs 40 8 % 8 ≠ 0) || decide (999999999 < fieldAt bs 58 4)
      || (decide (fieldAt bs 32 1 = 0) && !zeroAt bs 56 66)
  | 4 => decide (fieldAt bs 32 1 = 0)
  | _ => decide (1 < fieldAt bs 32 1) || decide (fieldAt bs 40 8 % 8 ≠ 0) || decide (2047 < fieldAt bs 56 2)

/-- The core set breaks R159. -/
def State.coresBad (s : State) (n : Nat) (limit : Option Nat) (bs : List Byte) : Bool :=
  let first := fieldAt bs 48 2
  let count := fieldAt bs 50 2
  let size := if n = 0 then 192 else min (s.inst n).lease.length (limit.getD 192)
  decide (count < 1) || decide (192 < count) || decide (size < first + count) || (decide (fieldAt bs 0 1 % 16 = 2) && decide (count ≠ 1))

/-- First failing cause of a descriptor, 0 where it passes (R154). -/
def State.checkDescr (s : State) (n r : Nat) (limit : Option Nat) (bs : List Byte) : Nat :=
  let kind := fieldAt bs 0 1 % 16
  let dur := fieldAt bs 4 4
  let step := fieldAt bs 16 8
  let cg := fieldAt bs 24 1 % 128
  if kind = 0 ∨ 5 < kind then 1
  else if fieldAt bs 3 1 ≠ 1 then 2
  else if descrClean bs = false then 3
  else if (if kind ≤ 2 then dur < 1 ∨ s.beat.length < dur else dur ≠ 0) then 4
  else if (match (s.ring n r).prevStep with
      | some p => decide (step ≠ p + fieldAt bs 1 1 % 2)
      | none => false) = true then 5
  else if (if n = 0 then s.cgExists cg = false else cg ≠ 0) then 6
  else if kind ≤ 2 ∧ s.coresBad n limit bs = true then 7
  else if kind = 1 ∧ kernelBad bs (fieldAt bs 1 1 / 4 % 2 == 1) = true then 8
  else if formBad bs = true then 9
  else 0

/-- A management request whose OP is reserved, or with a byte other than its own that is not 0, is rejected with cause 0x01 (R316). -/
def mgmtMalformed (bs : List Byte) : Bool :=
  let op := fieldAt bs 0 1
  let used (i : Nat) : Bool :=
    decide (i < 2) || (decide (8 ≤ i) && decide (i < 16))
      || (match op with
        | 1 => decide (16 ≤ i) && decide (i ≤ 22) || decide (i = 24) || decide (i = 25)
        | 2 => decide (i = 18) || decide (i = 24) || decide (i = 25)
        | 3 => decide (i = 18) || (decide (28 ≤ i) && decide (i ≤ 31))
        | 4 => decide (i = 16) || decide (i = 19)
        | 5 => decide (16 ≤ i) && decide (i ≤ 18) || (decide (32 ≤ i) && decide (i ≤ 55))
        | 6 => decide (i = 16)
        | _ => false)
  decide (op = 0) || decide (10 < op) || (bs.zipIdx.any fun x => !used x.2 && x.1 != 0)

/-- The same of a device request, whose byte 1 is 0 (R514). -/
def devMalformed (bs : List Byte) : Bool :=
  let op := fieldAt bs 0 1
  let used (i : Nat) : Bool :=
    decide (i = 0) || (decide (8 ≤ i) && decide (i < 16))
      || (match op with
        | 0x21 => (decide (16 ≤ i) && decide (i ≤ 32)) || (decide (40 ≤ i) && decide (i ≤ 71))
        | 0x22 => decide (16 ≤ i) && decide (i ≤ 27)
        | 0x23 => decide (i = 16)
        | 0x26 => decide (16 ≤ i) && decide (i ≤ 27)
        | _ => false)
  decide (op < 0x21) || decide (0x27 < op) || (bs.zipIdx.any fun x => !used x.2 && x.1 != 0)
    || (decide (op = 0x23) && decide (1 < fieldAt bs 16 1)) || (decide (op = 0x21) && decide (1 < fieldAt bs 32 1))

/-- The lines of a checked descriptor leave the line cache (R300). -/
def State.dropLines (s : State) (n r x : Nat) : State :=
  match s.ringPlace n (s.getF (ringRegs n r).cmdbase IW_RING_CMDBASE.ADDR * 64 + 128 * (x % 2 ^ s.ringL n r)) false with
  | some (.comp a) => (s.uncache a).uncache (a + 64)
  | _ => s

/-- DESCRIPTOR_CHECK: the oldest unchecked descriptor of the ring is checked and its journal record is started; a management or
device request is handed to Grizor. -/
def execDescriptorCheck (n r : Nat) (s : State) : Out :=
  let x := s.ring n r
  match x.fetched.find? fun f => !f.checked with
  | some ⟨ridx, some lo, some hi, last, _, _, _, limit⟩ =>
    let bs := lo ++ hi
    let tag := fieldAt bs 8 8
    if n < 65 then
      let cause := s.checkDescr n r limit bs
      let step := fieldAt bs 16 8
      let s1 := s.setRing n r { x with
        prevStep := if cause = 0 then some step else x.prevStep
        fetched := x.fetched.map fun f => if f.ridx = ridx then { f with checked := true, tag := tag, step := step } else f }
      let s1 := s1.dropLines n r ridx
      s.when (decide (r < 64) && s.journalRoom)
        (if cause = 0 then s1.journalPut .accept 0 ⟨n, r, ridx⟩ step bs else s1.journalPut .reject cause ⟨n, r, ridx⟩ step [])
    else
      let s1 := (s.setRing n r { x with fetched := x.fetched.filter fun f => f.ridx != ridx, cmdcons := ridx + 1 }).dropLines n r ridx
      let s1 := if r = 0 then
          (if mgmtMalformed bs then s1.mgmtReply ridx tag 2 1 else { s1 with mgmtQ := s1.mgmtQ ++ [⟨ridx, bs⟩] })
        else if devMalformed bs then s1.postCompletion ⟨65, 1, ridx⟩ ⟨tag, 2, 1, 0, 0, 0, 0, 0, none, s.gtc⟩ id
        else { s1 with devQ := s1.devQ ++ [⟨ridx, bs⟩] }
      s.when (decide (n = 65) && decide (r < 2))
        (if last && (s1.ring n r).cplprod == x.cplprod then s1.statusLine n r else s1)
  | _ => s.when false s

/-- A write of a SIGNAL has not been acknowledged. -/
def State.signalOut (s : State) (k : CmdKey) : Bool := s.ccl.out.any fun t => t.purpose == .signalWrite k

/-! ## JOURNAL_RECORD_DURABLE (R249, R309, R322 to R325, R344, R345) -/

def State.modJrec (s : State) (seq : Nat) (f : JRec → JRec) : State :=
  let j := s.stackSet.journal
  s.setJournal { j with recs := j.recs.map fun q => if q.seq = seq then f q else q }

/-- Write the status line for the last record of a fetch, unless a completion has just written it (R309). -/
def State.fetchLine (s : State) (n r cplprod : Nat) (last : Bool) : State :=
  if last && (s.ring n r).cplprod == cplprod then s.statusLine n r else s

/-- The ring takes the outcome of a descriptor: it leaves the fetched ones and CMDCONS passes it. -/
def State.descrDone (s : State) (n r ridx : Nat) : State :=
  s.modRing n r fun x => { x with fetched := x.fetched.filter fun f => f.ridx != ridx, cmdcons := max x.cmdcons (ridx + 1) }

/-- An ACCEPT record is durable: the command is accepted (R154, R249). A command that opens a step becomes the ring's step start,
and the earlier step's records go (R324, R325). A command of an instance that a fault, RESET or REMOVE has torn down is retired at once (R320, R321). -/
def State.accepted (s : State) (q : JRec) (last : Bool) : State :=
  let n := q.inst; let r := q.ring
  let d := descrOf q.body
  let c : Cmd :=
    { inst := n, ring := r, ridx := q.ridx, d := d, phase := .waiting, order := q.seq, cores := [], left := [], todo := [],
      fetched := 0, copied := 0, ovr := 0, rerun := 0, silent := false, flags := 0, result := 0, digests := [], folded := 0, peers := [],
      status := 0, cause := 0, waddr := none, word := none, saddr := none, atTrel := none }
  let x := s.ring n r
  let opens := d.stepb || x.stepStart.isNone
  let s := s.descrDone n r q.ridx
  let s := if opens then s.modRing n r fun x => { x with stepStart := some q.ridx } else s
  let kept := if opens then
      s.cmds.filter fun y => !(y.inst == n && y.ring == r && y.phase == .committed && decide (y.ridx < q.ridx))
    else s.cmds
  let s := { s with cmds := kept ++ [c] }
  let s := if opens then s.retireRing n r else s
  let s := if n = 0 then s
    else if s.instState n = stFAULTED then s.endCommand c.key.no 3 (s.getF (.iwFault n) IW_FAULT.CLASS)
    else if s.instState n = stRESETTING ∨ s.instState n = stREMOVING then s.endCommand c.key.no 4 0
    else s
  s.fetchLine n r x.cplprod last

/-- Post the completion of a command, and keep what it says until its record is retired (R326). -/
def State.report (s : State) (k : CmdKey) (c : Completion) (between : State → State) : State :=
  let s := s.postCompletion k c between
  let j := s.stackSet.journal
  let l := [c.tag, c.status, c.cause, c.flags, c.ovr, c.step, c.rerun, c.result, (match c.irq with | some v => v + 1 | none => 0),
    c.gtc]
  s.setJournal { j with recs := j.recs.map fun q => if q.key = k ∧ q.kind ≠ .accept then { q with reply := l } else q }

/-- A REJECT record is durable: the rejection is reported (R154). -/
def State.rejected (s : State) (q : JRec) (tag : Nat) (last : Bool) : State :=
  let n := q.inst; let r := q.ring
  let cpl := (s.ring n r).cplprod
  let irq := if s.ringRejirq n r then some (s.ringVec n r) else none
  ((s.descrDone n r q.ridx).report q.key ⟨tag, 2, q.cause, 0, 0, q.step, 0, 0, irq, s.gtc⟩ id).fetchLine n r cpl last

/-- The command digest of R343. -/
def Cmd.digest (c : Cmd) : Nat :=
  crc64 ((List.range c.cores.length).flatMap fun p => leBytes 8 (SMap.get 0 c.digests p))

/-- Append the record of a DLOG command to its instance's digest log (R344). -/
def State.digestLog (s : State) (c : Cmd) : State :=
  let n := c.inst
  if c.d.dlog = false ∨ c.status ≠ 1 ∨ s.getF (.imDlogCtl n) IM_DLOG_CTL.EN = 0 then s
  else
    let prod := (s.reg (.imDlogProd n)).toNat
    let a := s.getF (.imDlogBase n) IM_DLOG_BASE.ADDR * 64 + 64 * (prod % 2 ^ s.getF (.imDlogCtl n) IM_DLOG_CTL.L)
    let bs := leBytes 8 c.ridx ++ leBytes 8 c.d.tag ++ leBytes 8 c.d.step ++ leBytes 8 c.digest ++ leBytes 8 c.folded
      ++ [BitVec.ofNat 8 c.ring, BitVec.ofNat 8 n, BitVec.ofNat 8 c.cores.length, BitVec.ofNat 8 (min c.rerun 255)]
      ++ leBytes 4 0 ++ leBytes 8 s.gtc ++ leBytes 8 0
    let s1 := s.setReg (.imDlogProd n) (BitVec.ofNat 64 (prod + 1))
    match s.stage2 n a 64 true a with
    | .ok (.comp pa) => s1.cclSend .wrl pa bs (.digest n)
    | .ok (.stack b) => (s1.stackWrite n b bs).getD s1
    | .ok _ | .held => s.transFault c.ctx 4 0 a true 2 0xFF
    | .fault cause level addr => s.transFault c.ctx cause level addr true 2 0xFF

/-- RESULT goes to the place that the read of a SIGNAL has found. -/
def State.signalPut (s : State) (c : Cmd) (result : Nat) : State :=
  match c.waddr, c.saddr with
  | some a, _ => s.cclSend .wrp a (leBytes 8 result) (.signalWrite c.key)
  | none, some a => (s.stackWrite c.inst a (leBytes 8 result)).getD s
  | none, none => s

/-- Step 4 of a SIGNAL: RESULT is written to SADDR (R323). While no CCL port reaches the stage-1 tables, the translation of its read serves
(DESIGN CHOICE, log 75). -/
def State.signalWrite (s : State) (c : Cmd) (comp : List Nat) : State :=
  match c.d.body with
  | .signal b =>
    if c.status ≠ 1 then s
    else
      let bs := leBytes 8 c.result
      (match s.xlate c.inst b.saddr 8 true comp with
      | (.ok (.comp pa), s) => s.cclSend .wrp pa bs (.signalWrite c.key)
      | (.ok (.stack a), s) => (s.stackWrite c.inst a bs).getD s
      | (.ok _, s) => s.transFault c.ctx 4 0 b.saddr true 2 0xFF
      | (.held, s) => s.signalPut c c.result
      | (.fault cause level addr, s) => s.transFault c.ctx cause level addr true 2 0xFF)
  | _ => s

/-- A COMMIT record is durable: the completion effects of its command (R309, R322, R323). -/
def State.committed (s : State) (c : Cmd) (comp : List Nat) : State :=
  let s := s.modCmd c.key.no fun c => { c with phase := .committed }
  let rec_ : Completion :=
    { tag := c.d.tag, status := c.status, cause := c.cause, flags := c.flags, ovr := c.ovr, step := c.d.step, rerun := c.rerun,
      result := if c.status = 1 then c.result else 0, irq := s.completionIrq c (c.status != 1), gtc := s.gtc }
  let s := s.report c.key rec_ fun s => (s.signalWrite c comp).digestLog c
  if c.status = 1 then s else { s with cmds := s.cmds.filter fun y => y.key != c.key }

/-- A core that an instance held passes through zeroing to ROLE 0b00 (R278, R282, R321). -/
def State.releaseCore (s : State) (n p : Nat) : State :=
  if s.getF (.coreCqPlan p) CORE_CQ_PLAN.OWNER = n then
    ((s.setF (.coreCqPlan p) CORE_CQ_PLAN.OWNER 0).setF (.coreCqPlan p) CORE_CQ_PLAN.ROLE 0).modCore p fun c =>
      { c with takeover := some { phase := .zero, from_ := n, to_ := 0, role := s.role p, since := s.gtc, spillAt := 0, slot := none, restore := none } }
  else s

/-- Every retired command of the instance has been reported, and no journal record of a descriptor of its rings is on its way. -/
def State.retired (s : State) (n : Nat) : Bool :=
  !(s.cmds.any fun c => c.inst == n && c.phase != .committed) && (List.range 64).all fun r => (s.ring n r).fetched.isEmpty

/-- A ring as RESET leaves it: CMDCONS and CPLPROD at its PROD, any error cleared (R321). -/
def State.resetRing (s : State) (n r : Nat) : State :=
  let s := s.modRing n r fun x =>
    { x with cmdcons := x.prod, cplprod := x.prod, next := x.prod, fetched := [], posted := [], prevStep := none, stepStart := none, due := none }
  let s := (s.setF (.iwRingStatus n r) IW_RING_STATUS.STATE (if s.ringEn n r then 2 else 0)).setF (.iwRingStatus n r) IW_RING_STATUS.ERR 0
  if s.ringEn n r then s.statusLine n r else s

/-- RESET ends once the instance's retired commands have been reported: every ring starts afresh, and the instance is QUIESCED (R321, R322). -/
def State.finishReset (s : State) (n : Nat) : State :=
  match (s.inst n).work with
  | some w =>
    if w.op = .reset ∧ s.retired n = true then
      let s := { s with cmds := s.cmds.filter fun c => c.inst != n }
      let s := (List.range 64).foldl (fun s r => s.resetRing n r) s
      let s := s.modInst n fun x => { x with work := none }
      (s.setInstState n stQUIESCED).mgmtReply w.ridx w.tag 1 0
    else s
  | none => s

/-- REMOVE ends once the instance's retired commands have been reported: cores, save slots, frames, key, weight and regions go, and
the instance is ABSENT (R321, R239). -/
def State.finishRemove (s : State) (n : Nat) : State :=
  let x := s.inst n
  match x.work with
  | some w =>
    if w.op = .remove ∧ s.retired n = true then
      let s := { s with cmds := s.cmds.filter fun c => c.inst != n }
      let s := (List.range 64).foldl (fun s r => s.resetRing n r) s
      let s := (List.range 208).foldl (fun s p => s.releaseCore n p) s
      let s := s.dropImages n
      let s := x.frames.flatten.foldl State.freeFrame s
      let s := s.dropKey x.stackSet n
      let s := s.setF (.wvWeight n) WV_WEIGHT.WEIGHT 0
      let s := (((s.setF (.iwState n) IW_STATE.FIXED 0).setF (.iwState n) IW_STATE.PRIO 0).setF (.iwState n) IW_STATE.CORES 0).setF
        (.iwState n) IW_STATE.MINCORES 0
      let s := s.setReg (.iwMem n) 0
      let s := s.setInst n { Instance.absent with acct := x.acct }
      (s.setInstState n stABSENT).mgmtReply w.ridx w.tag 1 0
    else s
  | none => s

/-- JOURNAL_RECORD_DURABLE: the oldest written record becomes durable. A record of a descriptor that a RESET has dropped has no
effect. comp holds the stage-1 table words that the companion returns for a SIGNAL's write. -/
def execJournalRecordDurable (comp : List Nat) (s : State) : Out :=
  match s.stackSet.journal.recs.find? fun q => !q.durable with
  | none => s.when false s
  | some q =>
    let s1 := (s.modJrec q.seq fun q => { q with durable := true }).journalBusy
    let gone := s1.modJrec q.seq fun q => { q with retired := true }
    let f := ((s.ring q.inst q.ring).fetched.find? fun f => f.ridx == q.ridx && f.checked)
    s.when q.written
      (((State.retireRing (match q.kind, f, s.cmd q.key.no with
        | .accept, some f, _ => s1.accepted q f.last
        | .reject, some f, _ => s1.rejected q f.tag f.last
        | .commit, _, some c => if c.phase = CmdPhase.ended then s1.committed c comp else gone
        | _, _, _ => gone) q.inst q.ring).finishReset q.inst).finishRemove q.inst)

/-- JOURNAL_SLOT_FREED: the oldest record is retired, its slot frees, and fetching that a full journal stopped resumes (R250). -/
def execJournalSlotFreed (s : State) : Out :=
  let j := s.stackSet.journal
  let s1 := s.setJournal { j with recs := j.recs.dropWhile fun q => q.retired, full := false }
  s.when (j.recs.head?.any fun q => q.retired)
    (if j.full then s1.journalNote s.journalStack 1 else s1)

end Sys2Proof.Machine
end

