-- ==== Sys2Proof/Machine/Commands.lean ====
section
/-!
DEFINITION. Accepted commands: KERNEL, COPY, BARRIER, FENCE, SIGNAL, the synchronised start, and re-running a ring (R153 to
R164, R322 to R326, R353 to R355).
-/
namespace Sys2Proof.Machine

/-! ## Order (R157) -/

/-- The command has completed: it has ended on all of its cores; a SIGNAL once RESULT has been written (R157, R323). -/
def State.done (s : State) (c : Cmd) : Bool :=
  match c.d.body with
  | .signal _ => c.phase == .committed && !s.signalOut c.key
  | _ => c.phase == .ended || c.phase == .committed

/-- The next command of a ring: its first one that has not ended, once every earlier one has completed (R157). A cell-group
context that is torn down starts nothing (R435). Nothing starts during a warm reset, and no tenant command before Grizor has read the
journal after one (R326, R508). -/
def State.head (s : State) (n r : Nat) : Option Cmd :=
  if s.boot.warm = true ∨ (s.boot.recover = true ∧ n ≠ 0) then none
  else match s.cmds.find? fun c => c.inst == n && c.ring == r && c.open_ with
  | some c =>
    if (s.cmds.all fun y => !(y.inst == n && y.ring == r && decide (y.ridx < c.ridx)) || s.done y)
        && (decide (n ≠ 0) || (SMap.get RCtx.up s.radio.ctxs c.d.cg).down.isNone) then some c
    else none
  | none => none

/-- A synchronised start that is due (R353) is taken; one that is past is recorded (R355). -/
def State.takeDue (s : State) (n r : Nat) : State :=
  match (s.ring n r).due with
  | some t =>
    let s1 := s.modRing n r fun x => { x with due := none }
    if t < s.gtc then s1.event srcIm 0 0x42 0xFF n (min (s.gtc - t) (2 ^ 28 - 1)) else s1
  | none => s

/-- No synchronised start of the ring lies ahead. -/
def State.duePast (s : State) (n r : Nat) : Bool := match (s.ring n r).due with | some t => decide (t ≤ s.gtc) | none => true

/-! ## Positions (R159, R194) -/

/-- Logical cores of a command's positions now. -/
def State.positions (s : State) (c : Cmd) : List Nat :=
  let at_ (first count : Nat) : List Nat :=
    if c.inst = 0 then (List.range count).map (first + ·) else ((s.inst c.inst).lease.drop first).take count
  match c.d.body with
  | .kernel b => at_ b.first b.count
  | .copy b => at_ b.first 1
  | _ => []

/-- Number of positions. -/
def Cmd.size (c : Cmd) : Nat := match c.d.body with | .kernel b => b.count | .copy _ => 1 | _ => 0

/-- The command with its positions mapped, once, at its first start (R159). -/
def State.mapped (s : State) (c : Cmd) : Cmd :=
  if c.cores.isEmpty then
    let l := s.positions c
    { c with cores := l, left := l, todo := l, peers := if c.inst = 0 then List.range 192 else (s.inst c.inst).lease }
  else c

/-- A free thread for a KERNEL: thread 0 of a tenant, the lowest free one of a stake core (R134). -/
def State.freeThread (s : State) (p n : Nat) : Option Nat :=
  (if n = 0 then List.range 16 else [0]).find? fun t => !((s.core p).thread t).running

/-- Side and thread on which a command can begin on slot p now: tenant work on a core that the entry in force gives to the instance,
not borrowed, taken over, stopped or throttled; I0's on a stake core (R134, R157, R262, R270, R286). -/
def State.beginAt (s : State) (c : Cmd) (p : Nat) : Option (Nat × Nat) :=
  let q := s.core p
  let free (t : Nat) : Option (Nat × Nat) :=
    let k := if c.inst = 0 then (match c.d.body with | .copy _ => 1 | _ => threadSide t) else 0
    if (q.side k).stop = .run then some (k, t) else none
  if s.powered p = false ∨ q.waking = true ∨ q.throttled = true ∨ q.failed = true ∨ q.borrow.isSome = true ∨ q.takeover.isSome = true then
    none
  else if (if c.inst = 0 then s.isStake p = false
      else s.role p < 2 ∨ s.getF (.coreCqPlan p) CORE_CQ_PLAN.OWNER ≠ c.inst) then none
  else match c.d.body with
    | .copy _ => free 0
    | _ => (s.freeThread p c.inst).bind free

/-- Where the command can begin now, of the cores where it has not begun: slot, side, thread. -/
def State.starts (s : State) (c : Cmd) : List (Nat × Nat × Nat) :=
  c.todo.filterMap fun l => match s.slotOf l with
    | some p => (s.beginAt c p).map fun x => (p, x.1, x.2)
    | none => none

/-- Begin on the given slots; a launch without room faults at once, before a strand runs (R141). -/
def State.beginAll (s : State) (c : Cmd) (l : List (Nat × Nat × Nat)) : State :=
  (l.map fun x => x.1).foldl State.kickCore (l.foldl (fun s x => s.beginOn x.1 x.2.1 x.2.2 c) (s.modCmd c.key.no fun _ => c))

def Cmd.isKernel (c : Cmd) : Bool := match c.d.body with | .kernel _ => true | _ => false
def Cmd.isCopy (c : Cmd) : Bool := match c.d.body with | .copy _ => true | _ => false

/-- KERNEL: the ring's next command, a KERNEL, begins on every core of its set that can take it now. -/
def execKernel (n r : Nat) (s : State) : Out :=
  match s.head n r with
  | none => s.when false s
  | some c0 =>
    let c := s.mapped c0
    s.when (c.isKernel && (s.ring n r).due.isNone && c.cores.length == c.size && !(s.starts c).isEmpty)
      (s.beginAll c (s.starts c))

/-- SYNCHRONISED_START: 512 cycles after a SCOPE 1 release, or when it can, the ring's next KERNEL or COPY begins on every core of
its set at once (R353, R355). -/
def execSynchronisedStart (n r : Nat) (s : State) : Out :=
  match s.head n r with
  | none => s.when false s
  | some c0 =>
    let c := s.mapped c0
    s.when
      ((c.isKernel || c.isCopy) && (s.ring n r).due.isSome && s.duePast n r && c.phase == .waiting && c.cores.length == c.size
        && (s.starts c).length == c.size)
      ((s.takeDue n r).beginAll c (s.starts c))

/-! ## COPY (R161) -/

/-- A flit that the work of instance n moves (R218). -/
def State.movedFlit (s : State) (n : Nat) : State := s.charge n fun a => { a with bytes := a.bytes + 64 }

/-- Read the 64-byte copy descriptor at a VA: its bytes and the rest of the companion's data, or the fault that it raises. A read of companion
memory waits while no CCL port carries it (R298). -/
def State.listDescr (s : State) (c : Cmd) (p e va : Nat) (data comp : List Nat) : (Option (List Byte) × List Nat) × State :=
  match s.xlate c.inst va 64 false comp with
  | (.ok (.stack a), s) =>
    (match s.stackRead c.inst a 64 with
    | (some bs, s) => ((some bs, data), s.movedFlit c.inst)
    | (none, s) => ((none, data), s.ceFault p 2 c.ctx e))
  | (.ok (.comp a), s) =>
    if s.cclPort a = 2 then ((none, data), s)
    else ((some ((List.range 64).map fun i => BitVec.ofNat 8 ((data[i]?).getD 0)), data.drop 64), (s.rdcNow a 64).movedFlit c.inst)
  | (.held, s) => ((none, data), s)
  | (.ok _, s) => ((none, data), s.transFault c.ctx 4 0 va false 0 (s.lcoreNo p))
  | (.fault cause level addr, s) => ((none, data), s.transFault c.ctx cause level addr false 0 (s.lcoreNo p))

/-- Enter up to m further descriptors of a COPY's list into its engine's queue. -/
def State.copyFill (c : Cmd) (b : CopyBody) (p k : Nat) : Nat → List Nat → List Nat → State → State
  | 0, _, _, s => s
  | m + 1, data, comp, s =>
    match s.cmd c.key.no with
    | none => s
    | some c1 =>
      let va := (b.dlist + 64 * c1.fetched) % 2 ^ 64
      if b.dcount ≤ c1.fetched ∨ c1.phase ≠ .running then s
      else
        match s.listDescr c p b.engine va data comp with
        | ((some bs, rest), s) =>
          State.copyFill c b p k m rest comp
            ((s.enqueueCe p k b.engine none c.ctx c.key.no (CopyDesc.ofBytes bs) c1.peers).modCmd c.key.no
              fun x => { x with fetched := x.fetched + 1 })
        | ((none, _), s) => s

/-- Descriptors that one fill enters: the queue's room, and no further than the list's present 4 KiB page. -/
def State.copyRoom (s : State) (b : CopyBody) (p k fetched : Nat) : Nat :=
  min (16 - (s.ceQueue p k b.engine).entries.length) (64 - (b.dlist / 64 + fetched) % 64)

/-- COPY: the ring's next command, a COPY, begins on its core, or its engine's queue takes further descriptors of its list. data:
the bytes that companion memory returns for the list; comp: the table words of its translation. -/
def execCopy (n r : Nat) (data comp : List Nat) (s : State) : Out :=
  match s.head n r with
  | none => s.when false s
  | some c0 =>
    let c := s.mapped c0
    match c.d.body with
    | .copy b =>
      if c.phase = .waiting then
        (match s.starts c with
        | x :: _ =>
          let s1 := s.beginAll c [x]
          s.when ((s.ring n r).due.isNone && c.cores.length == 1)
            (State.copyFill c b x.1 x.2.1 (s1.copyRoom b x.1 x.2.1 0) data comp s1)
        | [] => s.when false s)
      else
        (match (c.cores.head?).bind s.slotOf with
        | some p =>
          (match (s.core p).resident c.key.no with
          | some x =>
            s.when (s.ceRuns p x.side b.engine && decide (c.fetched < b.dcount)
                && decide ((s.ceQueue p x.side b.engine).entries.length < 16))
              (State.copyFill c b p x.side (s.copyRoom b p x.side c.fetched) data comp s)
          | none => s.when false s)
        | none => s.when false s)
    | _ => s.when false s

/-! ## BARRIER (R162, R353, R355, R360) -/

/-- The expansion of a 32-bit seconds field nearest to the seconds of a time base (R360). -/
def expandSeconds (now sec : Nat) : Nat :=
  let d := (sec + 2 ^ 32 - now % 2 ^ 32) % 2 ^ 32
  if d ≤ 2 ^ 31 ∨ now < 2 ^ 32 - d then now + d else now + d - 2 ^ 32

/-- TREL in ns. -/
def State.trel (s : State) (b : BarrierBody) : Rat :=
  let now := (s.tbValue 2 / 1000000000).floor.toNat
  ((expandSeconds now b.sec * 1000000000 + b.ns : Nat) : Rat) + ((b.subns : Nat) : Rat) / 65536

/-- The conditions of a BARRIER that are not about time. -/
def State.barrierMet (s : State) (c : Cmd) (b : BarrierBody) : Bool :=
  (s.cmds.all fun y => y.inst != c.inst || decide (c.order ≤ y.order) || s.done y)
    && (decide (b.waddr = 0) || (match c.word with | some w => decide (b.wval ≤ w) | none => false))

/-- BARRIER: the ring's next command, a BARRIER, starts to hold its ring and watches WADDR; a WADDR that does not lead to readable
companion memory is a translation fault. One that starts past its TREL has missed it (R355). comp: the table words of its translation. -/
def execBarrier (n r : Nat) (comp : List Nat) (s : State) : Out :=
  match s.head n r with
  | none => s.when false s
  | some c =>
    match c.d.body with
    | .barrier b =>
      let late := decide (b.scope = 1) && decide (s.trel b ≤ s.tbValue 2)
      let s1 := (s.takeDue n r).modCmd c.key.no fun c =>
        { c with phase := .running, atTrel := if late then some (s.tbState 2, false) else none }
      s.when (c.phase == .waiting && s.duePast n r)
        (if b.waddr = 0 then s1
         else match s1.xlate n b.waddr 8 false comp with
          | (.ok (.comp pa), s2) =>
            (s2.modCmd c.key.no fun c => { c with waddr := some pa, word := none }).cclSend .rds (pa / 64 * 64) [] (.barrierWord c.key)
          | (.ok _, s2) => s2.transFault c.ctx 4 0 b.waddr false 2 0xFF
          | (.held, _) => s
          | (.fault cause level addr, s2) => s2.transFault c.ctx cause level addr false 2 0xFF)
    | _ => s.when false s

/-- The state of TB2 and the other conditions of a BARRIER in the cycle in which TB2 has reached TREL (R355). -/
def State.trelMark (s : State) (c : Cmd) : State :=
  match c.d.body with
  | .barrier b =>
    if c.phase = .running ∧ b.scope = 1 ∧ c.atTrel = none ∧ s.trel b ≤ s.tbValue 2 then
      s.modCmd c.key.no fun x => { x with atTrel := some (s.tbState 2, s.barrierMet c b) }
    else s
  | _ => s

/-- Records of a SCOPE 1 release (R355): BAR_LATE when the other conditions were met only after TREL, BAR_UNLOCKED when TB2 was not locked at
TREL. -/
def State.barrierNotes (s : State) (c : Cmd) (t : Rat) : State :=
  let x := c.atTrel.getD (s.tbState 2, true)
  let s := if x.2 then s else s.event srcIm 0 0x40 0xFF c.inst (min (s.tbValue 2 - t).floor.toNat (2 ^ 28 - 1))
  if x.1 = tbLOCKED then s else s.event srcIm 0 0x41 0xFF c.inst (s.tbState 2)

/-- The word of a BARRIER that has released leaves the line cache, unless another one watches its line (R300). -/
def State.dropWord (s : State) (c : Cmd) : State :=
  match c.waddr with
  | some a =>
    if s.cmds.any fun x => x.phase == .running && (match x.waddr with | some b => b / 64 == a / 64 | none => false) then s
    else s.uncache (a / 64 * 64)
  | none => s

/-- BARRIER_RELEASE: every earlier command of the instance has completed, the word has reached WVAL and, with SCOPE 1, TB2 has reached
TREL; the next command of the ring is then due 512 cycles later. -/
def execBarrierRelease (n r : Nat) (s : State) : Out :=
  match s.head n r with
  | none => s.when false s
  | some c =>
    match c.d.body with
    | .barrier b =>
      let t := s.trel b
      let s1 := if b.scope = 1 then (s.barrierNotes c t).modRing n r fun x => { x with due := some (s.gtc + 512) } else s
      s.when (c.phase == .running && s.barrierMet c b && (decide (b.scope ≠ 1) || decide (t ≤ s.tbValue 2)))
        ((s1.endCommand c.key.no 1 0).dropWord c)
    | _ => s.when false s

/-! ## FENCE (R163) -/

/-- The named conditions are met: no companion write of the ring, no remote write of the ring awaits its acknowledgement. -/
def State.fenceMet (s : State) (n r : Nat) (comp withy : Bool) : Bool :=
  (!comp || !(s.ccl.out.any fun t => t.purpose == .engine n r))
    && (!withy || !(s.withy.held.any fun t => t.write && t.ctx.inst == n && ringOfCmd t.cmd == r))

/-- FENCE: the ring's next command, a FENCE, starts to hold its ring; with its conditions met it completes at once. -/
def execFence (n r : Nat) (s : State) : Out :=
  match s.head n r with
  | none => s.when false s
  | some c =>
    match c.d.body with
    | .fence comp withy =>
      let s1 := (s.takeDue n r).modCmd c.key.no fun c => { c with phase := .running }
      s.when (c.phase == .waiting && s.duePast n r) (if s.fenceMet n r comp withy then s1.endCommand c.key.no 1 0 else s1)
    | _ => s.when false s

/-- FENCE_COMPLETE: the last awaited acknowledgement has arrived. -/
def execFenceComplete (n r : Nat) (s : State) : Out :=
  match s.head n r with
  | none => s.when false s
  | some c =>
    match c.d.body with
    | .fence comp withy => s.when (c.phase == .running && s.fenceMet n r comp withy) (s.endCommand c.key.no 1 0)
    | _ => s.when false s

/-! ## SIGNAL (R164, R323) -/

/-- RESULT of a SIGNAL from the word read; the command then ends. -/
def State.signalRead (s : State) (c : Cmd) (word : Nat) : State :=
  match c.d.body with
  | .signal b =>
    (s.modCmd c.key.no fun c => { c with result := if b.op = 0 then b.sval else (word + b.sval) % 2 ^ 64 }).endCommand c.key.no 1 0
  | _ => s

/-- A SIGNAL of the instance is under way (R323). -/
def State.signalling (s : State) (n : Nat) : Bool :=
  s.cmds.any fun c => c.inst == n && (match c.d.body with
    | .signal _ => c.phase == .running || c.phase == .ended || s.signalOut c.key
    | _ => false)

/-- SIGNAL: the ring's next command, a SIGNAL, reads SADDR: at once in stack memory, by RDC in companion memory. comp: the table
words of its translation. -/
def execSignal (n r : Nat) (comp : List Nat) (s : State) : Out :=
  match s.head n r with
  | none => s.when false s
  | some c =>
    match c.d.body with
    | .signal b =>
      let s1 := (s.takeDue n r).modCmd c.key.no fun c => { c with phase := .running }
      s.when (c.phase == .waiting && s.duePast n r && !s.signalling n)
        (match s1.xlate n b.saddr 8 false comp with
        | (.ok (.comp pa), s2) =>
          (s2.modCmd c.key.no fun c => { c with waddr := some pa }).cclSend .rdc (pa / 64 * 64) [] (.signalRead c.key)
        | (.held, _) => s
        | (.ok (.stack a), s2) =>
          (match (s2.modCmd c.key.no fun c => { c with saddr := some a }).stackRead n a 8 with
          | (some bs, s3) => s3.signalRead c (leNat bs)
          | (none, s3) => s3.tearDown c.ctx 4 0xFF)
        | (.ok _, s2) => s2.transFault c.ctx 4 0 b.saddr false 2 0xFF
        | (.fault cause level addr, s2) => s2.transFault c.ctx cause level addr false 2 0xFF)
    | _ => s.when false s

/-! ## Re-running (R326) -/

/-- Remove a command from a side's queues. -/
def Side.dropCmd (x : Side) (no : Nat) : Side :=
  { x with
    meQ := x.meQ.filter fun e => e.cmd != no
    ce0 := { x.ce0 with entries := x.ce0.entries.filter fun e => e.cmd != no }
    ce1 := { x.ce1 with entries := x.ce1.entries.filter fun e => e.cmd != no } }

/-- Remove a command's work from a core. -/
def Core.dropCmd (c : Core) (no : Nat) : Core :=
  { c with
    threads := c.threads.filter fun x => x.2.cmd != no || !x.2.running
    plaits := c.plaits.filter fun x => x.2.cmd != no
    residents := c.residents.filter fun r => r.cmd != no
    t := c.t.dropCmd no
    r := c.r.dropCmd no
    tiles := c.tiles.filter fun x => x.cmd != no
    radioQ := c.radioQ.filter fun x => x.2 != no }

/-- A command as it stands before its first start. -/
def Cmd.fresh (c : Cmd) : Cmd :=
  { c with
    phase := .waiting
    cores := []
    left := []
    todo := []
    fetched := 0
    copied := 0
    flags := if c.silent then c.flags else 0
    digests := if c.silent then c.digests else []
    folded := if c.silent then c.folded else 0
    waddr := none
    word := none
    saddr := none
    atTrel := none }

/-- Re-run a ring of a tenant from its step start (R325, R326): committed commands run again silently, the others normally, and
positions map afresh. A failed command of an earlier step, whose records have gone (R324), runs again too. -/
def State.rerunRing (s : State) (n r : Nat) : State :=
  let failed := (s.cmds.filter fun c => c.inst == n && c.ring == r && c.phase == .running).map fun c => c.ridx
  let start := failed.foldl min (((s.ring n r).stepStart).getD 0)
  let inStep (c : Cmd) : Bool := c.inst == n && c.ring == r && decide (start ≤ c.ridx)
  let running := (s.cmds.filter fun c => inStep c && c.phase == .running).map fun c => c.key.no
  let drop (c : Core) : Core := running.foldl Core.dropCmd c
  let s := (s.mapCores fun _ c => drop c).unwait
  { s.modRing n r fun x => { x with due := none } with
    images := s.images.map fun x => (x.1, x.2.map fun i => { i with core := drop i.core })
    cmds := s.cmds.map fun c =>
      if inStep c then
        (match c.phase with
        | .waiting => c
        | .committed => { c with silent := true }.fresh
        | _ => { c with rerun := if c.silent then c.rerun else c.rerun + 1 }.fresh)
      else c }

/-- A re-run of a command of I0 can start within the beat in which it started: it started in the present beat, and its cores serve (R412). -/
def State.rerunNow (s : State) (c : Cmd) : Bool :=
  c.cores.all fun l => match s.slotOf l with
    | some p => !(s.core p).failed && (match (s.core p).resident c.key.no with
      | some r => decide (s.beat.boundary ≤ r.began)
      | none => true)
    | none => false

/-- Re-run what an event has stopped: the rings of the commands named; a cell-group context whose re-run cannot start within the beat goes down
instead (R326, R412). -/
def State.rerunFor (s : State) (hit : List Cmd) : State :=
  let down := (hit.filterMap fun c => if c.inst = 0 ∧ s.rerunNow c = false then some c.d.cg else none).eraseDups
  let rings := (hit.filterMap fun c => if c.inst = 0 ∧ down.contains c.d.cg = true then none else some (c.inst, c.ring)).eraseDups
  let s := rings.foldl (fun s x => s.rerunRing x.1 x.2) s
  let s := if rings.any fun x => x.1 == 0 then s.cores.foldl (fun s y => s.radioNext y.1) s else s
  down.foldl (fun s g => s.contextDown g 4 0) s

end Sys2Proof.Machine
end

