-- ==== Sys2Proof/Machine/Mgmt.lean ====
section
/-!
DEFINITION. Management requests and the life cycle of instances (R225, R311, R313, R316 to R321, R327), and the stake set (R20, R21).
-/
namespace Sys2Proof.Machine

/-! ## The stake set -/

/-- A core of compute die d is under a fixed lease (R285): step 2 of an activation waits for it at that die (R517). -/
def State.dieFixed (s : State) (d : Nat) : Bool :=
  (List.range 24).any fun i =>
    (match s.slotOf (24 * d + i) with | some p => s.role p == 3 | none => false)
      || s.insts.any fun x => s.getF (.iwState x.1) IW_STATE.FIXED == 1 && x.2.lease.contains (24 * d + i)

/-- Step 2 of an activation waits for a fixed lease (R517). -/
def State.actWaits (s : State) : Bool := match s.boot.act with
  | some a => a.step == 2 && s.dieFixed a.inst
  | none => false

/-- The controller of compute die d is being loaded: its cores are unavailable (R517). -/
def State.dieLoading (s : State) (d : Nat) : Bool := match s.boot.act with
  | some a => a.step == 2 && a.inst == d && !s.dieFixed d
  | none => false

/-- Available logical cores (R18, R559): mapped, not found failed (R17), not under a re-test of a new row map (R106), and not on a die
whose controller is being loaded (R517). -/
def State.available (s : State) (l : Nat) : Bool :=
  match s.slotOf l with
  | some p => !(s.core p).failed && !(s.core p).testing && !s.dieLoading (l / 24)
  | none => false

/-- S of R20. -/
def State.stakeCount (s : State) : Nat := 8 * s.getF .timePlancfg TIME_PLANCFG.S8

/-- The stake cores of R20 by their numbers. -/
def State.stakeBase (s : State) : List Nat :=
  let k := s.getF .timePlancfg TIME_PLANCFG.S8
  (List.range 8).flatMap fun d => (List.range k).map fun i => 24 * d + 24 - k + i

/-- Replace one unavailable stake core (R21): the highest-numbered available non-stake core of the die with the most of them. -/
def State.stakeSub (s : State) (set : List Nat) : Option Nat :=
  let left (d : Nat) : List Nat := ((List.range 24).map (24 * d + ·)).filter fun l => s.available l && !set.contains l
  let best := (List.range 8).foldl (fun b d => if (left b).length < (left d).length then d else b) 0
  (left best).getLast?

/-- The stake cores in force, in ascending order. -/
def State.stakeSet (s : State) : List Nat :=
  let good := s.stakeBase.filter s.available
  let lost := s.stakeBase.length - good.length
  let set := (List.range lost).foldl (fun set _ => match s.stakeSub set with | some l => set ++ [l] | none => set) good
  (List.range 192).filter set.contains

/-! ## Requests -/

def Req.op (q : Req) : Nat := fieldAt q.bytes 0 1
def Req.inst (q : Req) : Nat := fieldAt q.bytes 1 1
def Req.tag (q : Req) : Nat := fieldAt q.bytes 8 8
def Req.f (q : Req) (a n : Nat) : Nat := fieldAt q.bytes a n

/-- The instance is quiescing at a request. -/
def State.quiescing (s : State) (n : Nat) : Bool :=
  match (s.inst n).work with | some w => w.op == .quiesce | none => false

/-- The request of instance n that runs next, if it has this OP: one at a time, in ring order (R317). RESET and REMOVE, which are
allowed in QUIESCING (R316), do not wait for a QUIESCE in progress. -/
def State.nextReq (s : State) (n op : Nat) : Option Req :=
  match s.mgmtQ.find? fun q => q.inst == n with
  | some q =>
    if q.op = op ∧ ((s.inst n).work.isNone ∨ 9 ≤ op ∧ s.quiescing n = true) then some q else none
  | none => none

def State.dropReq (s : State) (q : Req) : State := { s with mgmtQ := s.mgmtQ.filter fun x => x.ridx != q.ridx }

/-- Reply DONE, or REJECTED with a cause other than 0. -/
def State.answer (s : State) (q : Req) (cause : Nat) : State :=
  s.mgmtReply q.ridx q.tag (if cause = 0 then 1 else 2) cause

/-- Begin to run a request whose reply comes later. -/
def State.begin_ (s : State) (n : Nat) (op : MgmtOp) (q : Req) : State :=
  s.modInst n fun x => { x with work := some ⟨op, q.ridx, q.tag⟩ }

/-- INST names an instance and its state is among those of R316. -/
def State.allowed (s : State) (n : Nat) (states : List Nat) : Bool :=
  decide (1 ≤ n) && decide (n ≤ 64) && states.contains (s.instState n)

/-- One request: its refusal cause, else its effect with its reply. Grizor serves management requests from stage 4 (R506) and refuses them
in MAINT (R507). -/
def mgmt (n op : Nat) (operands : Bool) (cause : State → Req → Nat) (eff : State → Req → State) (s : State) : Out :=
  match s.nextReq n op with
  | none => s.when false s
  | some q =>
    let s1 := s.dropReq q
    let c := if s.getF .mpBootstat MP_BOOTSTAT.STAGE = 7 then 2 else cause s1 q
    let stage := s.getF .mpBootstat MP_BOOTSTAT.STAGE
    s.when (s.mpServes && decide (4 ≤ stage) && decide (stage ≤ 7) && (decide (c ≠ 0) || operands)) (if c ≠ 0 then s1.answer q c else eff s1 q)

/-! ## Frames and quotas (R225, R229) -/

/-- Stacks of a stack set. -/
def stacksOf (mask : Nat) : List Nat := (List.range 12).filter fun k => mask / 2 ^ k % 2 = 1

/-- Quota Q over n stacks (R225). -/
def quotaOk (n q : Nat) (mirror : Bool) : Bool :=
  [1, 2, 3, 4, 6, 12].contains n && (if mirror then decide (n % 2 = 0) && decide (q % (n / 2) = 0) else decide (q % n = 0))

/-- Frames that each stack of the set gives. -/
def perSlot (n q : Nat) (mirror : Bool) : Nat := if mirror then q / (n / 2) else q / n

/-- FREE frames of a stack. -/
def State.freeFrames (s : State) (m : Nat) : List Nat :=
  if s.getF (.msStatus m) MS_STATUS.STATE = 2 then []
  else (List.range 128).filter fun f => s.getF (.msFrame m f) MS_FRAME.STATE == 0

/-- The stacks have c FREE frames each. -/
def State.framesLeft (s : State) (stackSet : List Nat) (c : Nat) : Bool :=
  stackSet.all fun m => decide (c ≤ (s.freeFrames m).length)

/-- Grizor's choice of frames: c FREE ones, without repetition, of each stack. -/
def State.framesChosen (s : State) (stackSet : List Nat) (c : Nat) (frames : List (List Nat)) : Bool :=
  decide (frames.length = stackSet.length)
    && (stackSet.zip frames).all fun x => decide (x.2.length = c) && decide (x.2.eraseDups.length = c)
      && x.2.all fun f => (s.freeFrames x.1).contains f

/-- Take frames for an instance, after those it has in each slot. -/
def State.takeFrames (s : State) (n : Nat) (frames : List (List Nat)) : State :=
  let x := s.inst n
  let half := x.spread
  let one (s : State) (k m base : Nat) (l : List Nat) : State :=
    (l.zipIdx).foldl (fun s f => s.takeFrame (m, f.1) n k (base + f.2) (x.mirror && decide (half ≤ k)) false) s
  let s := ((x.stackSet.zip frames).zipIdx).foldl (fun s y =>
    one s y.2 y.1.1 ((x.frames[y.2]?).getD []).length y.1.2) s
  s.modInst n fun x =>
    { x with frames := ((x.stackSet.zip frames).zipIdx).map fun y =>
        (x.frames[y.2]?).getD [] ++ y.1.2.map fun f => (y.1.1, f) }

/-! ## Cores -/

/-- Logical cores that no tenant holds, outside the stake set. -/
def State.freeCores (s : State) : List Nat :=
  let used := s.insts.flatMap fun x => x.2.lease
  (List.range 192).filter fun l => s.available l && !s.stakeSet.contains l && !used.contains l

/-- The numbers rise strictly. -/
def rising : List Nat → Bool
  | a :: b :: l => decide (a < b) && rising (b :: l)
  | _ => true

/-- Grizor's choice of new cores for a lease: free ones in ascending order, above the highest position (R159, R318). -/
def State.coresChosen (s : State) (n k : Nat) (cores : List Nat) : Bool :=
  decide (cores.length = k) && cores.all s.freeCores.contains && rising ((s.inst n).lease.getLast?.toList ++ cores)

/-- Free cores above the highest position of a lease; none while the instance holds a save image (R278). -/
def State.coresAbove (s : State) (n : Nat) : Nat :=
  let x := s.inst n
  if x.yielded ≠ [] then 0
  else (s.freeCores.filter fun l => match x.lease.getLast? with | some t => decide (t < l) | none => true).length

/-- Room for k fixed-lease cores of instance n (R263, R265). -/
def State.fixedRoom (s : State) (n k : Nat) : Bool :=
  let other := (s.insts.map fun x => if x.1 ≠ n ∧ s.getF (.iwState x.1) IW_STATE.FIXED = 1 then x.2.lease.length else 0).sum
  decide (other + k ≤ 192 - s.stakeCount - s.getF .timePlancfg TIME_PLANCFG.BPEAK)

/-- IW_STATE and IW_MEM show the lease (R303). -/
def State.showLease (s : State) (n : Nat) : State := s.setF (.iwState n) IW_STATE.CORES (s.inst n).lease.length

/-! ## CREATE (R317, R225, R237) -/

def createCause (n : Nat) (s : State) (q : Req) : Nat :=
  let cores := q.f 18 1; let stackSet := stacksOf (q.f 20 2); let mirror := q.f 22 1 == 1; let quota := q.f 24 2
  if s.allowed n [stABSENT] = false then 2
  else if 7 < q.f 16 1 ∨ cores < 1 ∨ 192 < cores ∨ cores < q.f 17 1 ∨ q.f 19 1 < 1 ∨ 2 ^ 12 ≤ q.f 20 2 ∨ 1 < q.f 22 1
      ∨ quotaOk stackSet.length quota mirror = false then 3
  else if s.freeCores.length < cores ∨ s.framesLeft stackSet (perSlot stackSet.length quota mirror) = false then 4
  else 0

/-- A repeat of the CREATE in force (R327). -/
def State.sameCreate (s : State) (n : Nat) (q : Req) : Bool :=
  let r := Reg.iwState n
  decide (1 ≤ n) && decide (n ≤ 64) && decide (s.instState n ≠ stABSENT) && decide (s.getF r IW_STATE.PRIO = q.f 16 1)
    && decide (s.getF r IW_STATE.MINCORES = q.f 17 1)
    && decide (s.getF r IW_STATE.CORES = q.f 18 1) && decide (s.getF (.wvWeight n) WV_WEIGHT.WEIGHT = q.f 19 1)
    && decide (s.getF (.iwMem n) IW_MEM.STACKSET = q.f 20 2) && decide (s.getF (.iwMem n) IW_MEM.MIRROR = q.f 22 1)
    && decide (s.getF (.iwMem n) IW_MEM.QGIB = q.f 24 2)

def createEff (n : Nat) (cores : List Nat) (frames : List (List Nat)) (s : State) (q : Req) : State :=
  let stackSet := stacksOf (q.f 20 2)
  let s := s.setInst n { Instance.absent with
    lease := cores
    stackSet := stackSet
    mirror := q.f 22 1 == 1
    quota := q.f 24 2
    root := s.reg (.iwS1root n)
    frames := stackSet.map fun _ => [] }
  let s := s.takeFrames n frames
  let s := s.drawKey stackSet n
  let s := s.setF (.wvWeight n) WV_WEIGHT.WEIGHT (q.f 19 1)
  let s := ((s.setF (.iwState n) IW_STATE.PRIO (q.f 16 1)).setF (.iwState n) IW_STATE.MINCORES (q.f 17 1)).showLease n
  let s := ((s.setF (.iwMem n) IW_MEM.STACKSET (q.f 20 2)).setF (.iwMem n) IW_MEM.MIRROR (q.f 22 1)).setF (.iwMem n) IW_MEM.QGIB (q.f 24 2)
  (s.setInstState n stCREATING).begin_ n .create q

/-- CREATE: request of instance n; cores and frames are those that Grizor takes. -/
def execCreate (n : Nat) (cores : List Nat) (frames : List (List Nat)) (s : State) : Out :=
  mgmt n 1
    (match s.nextReq n 1 with
    | some q =>
      let stackSet := stacksOf (q.f 20 2)
      s.sameCreate n q || (s.coresChosen n (q.f 18 1) cores
        && s.framesChosen stackSet (perSlot stackSet.length (q.f 24 2) (q.f 22 1 == 1)) frames)
    | none => false)
    (fun s q => if s.sameCreate n q then 0 else createCause n s q)
    (fun s q => if s.sameCreate n q then s.answer q 0 else createEff n cores frames s q) s

/-- CREATE_COMPLETE: the frames of instance n have been cleared; CREATE replies and leaves the instance QUIESCED. -/
def execCreateComplete (n : Nat) (s : State) : Out :=
  match (s.inst n).work with
  | some w =>
    s.when (w.op == .create && s.framesReady n)
      (((s.modInst n fun x => { x with work := none }).setInstState n stQUIESCED).mgmtReply w.ridx w.tag 1 0)
  | none => s.when false s

/-! ## RESIZE (R318) -/

/-- End of the highest STACK region. -/
def Instance.stackTop (x : Instance) : Nat :=
  (x.regions.filterMap Prod.snd).foldl (fun m r => if r.type = .stack then max m (r.target + r.size) else m) 0

def resizeCause (n : Nat) (s : State) (q : Req) : Nat :=
  let x := s.inst n
  let cores := q.f 18 1; let quota := q.f 24 2
  let per := perSlot x.stackSet.length quota x.mirror
  let old := perSlot x.stackSet.length x.quota x.mirror
  if s.allowed n [stACTIVE, stQUIESCED] = false then 2
  else if cores < 1 ∨ 192 < cores ∨ cores < s.getF (.iwState n) IW_STATE.MINCORES ∨ quotaOk x.stackSet.length quota x.mirror = false then 3
  else if s.coresAbove n < cores - x.lease.length ∨ (s.getF (.iwState n) IW_STATE.FIXED = 1 ∧ s.fixedRoom n cores = false)
      ∨ s.framesLeft x.stackSet (per - old) = false then 4
  else if quota * 2 ^ 30 < x.stackTop then 5
  else 0

/-- Release the top frames of each slot beyond c: they are cleared under the system key. -/
def State.shrinkFrames (s : State) (n c : Nat) : State :=
  let gone := (s.inst n).frames.flatMap fun l => l.drop c
  let s := gone.foldl (fun s f =>
    if s.getF (.msFrame f.1 f.2) MS_FRAME.STATE = 3 then s
    else
      let s := s.takeFrame f 0x7F 0 0 false true
      { s with stackSet := { s.stackSet with releasing := s.stackSet.releasing ++ [f] } }) s
  s.modInst n fun x => { x with frames := x.frames.map fun l => l.take c }

def resizeEff (n : Nat) (cores : List Nat) (frames : List (List Nat)) (s : State) (q : Req) : State :=
  let x := s.inst n
  let want := q.f 18 1; let quota := q.f 24 2
  let s := s.shrinkFrames n (perSlot x.stackSet.length quota x.mirror)
  let s := (s.takeFrames n frames).modInst n fun x =>
    { x with quota := quota, lease := x.lease ++ cores, sizeLimit := if want < x.lease.length then some want else none }
  ((((s.setF (.iwMem n) IW_MEM.QGIB quota).showLease n).begin_ n (.resize want quota) q)).resizeCheck n

/-- RESIZE: request of instance n; cores and frames are those that Grizor adds. -/
def execResize (n : Nat) (cores : List Nat) (frames : List (List Nat)) (s : State) : Out :=
  mgmt n 2
    (match s.nextReq n 2 with
    | some q =>
      let x := s.inst n
      s.coresChosen n (q.f 18 1 - x.lease.length) cores
        && s.framesChosen x.stackSet
          (perSlot x.stackSet.length (q.f 24 2) x.mirror - perSlot x.stackSet.length x.quota x.mirror) frames
    | none => false)
    (resizeCause n) (resizeEff n cores frames) s

/-- At a boundary a shrinking lease loses its highest positions once no accepted, uncompleted command reaches them, and none that was
fetched before the request is on its way (R318). -/
def State.shrinkLease (s : State) (n : Nat) : State :=
  let x := s.inst n
  match x.sizeLimit with
  | some k =>
    let reaches (c : Cmd) : Bool := c.inst == n && c.phase != .committed && c.phase != .ended && (match c.d.body with
      | .kernel b => decide (k < b.first + b.count)
      | .copy b => decide (k < b.first + 1)
      | _ => false)
    let coming := (List.range 64).any fun r => (s.ring n r).fetched.any fun f => f.limit != some k
    if s.cmds.any reaches || coming then s
    else ((s.modInst n fun x => { x with lease := x.lease.take k, yielded := x.yielded.filter (x.lease.take k).contains, sizeLimit := none }).showLease
      n).resizeCheck n
  | none => s

/-! ## FIXLEASE, SETW, MAP, UNMAP (R313, R319, R327) -/

/-- A core of the instance is yielded, or it holds one that another instance has yielded. -/
def State.yieldedAny (s : State) (n : Nat) : Bool :=
  (s.inst n).yielded != [] || s.insts.any fun x => x.1 != n && x.2.yielded.any (s.inst n).lease.contains

/-- A repeat of the fixed lease in force (R327). -/
def State.sameFix (s : State) (n : Nat) (q : Req) : Bool :=
  decide (1 ≤ n) && decide (n ≤ 64) && decide (s.getF (.iwState n) IW_STATE.FIXED = 1)
    && decide ((s.inst n).lease.length = q.f 18 1) && decide ((s.inst n).fixedTerm = q.f 28 4)

/-- The state allows a FIXLEASE, and it repeats the one in force. -/
def State.fixAgain (s : State) (n : Nat) (q : Req) : Bool := s.allowed n [stQUIESCED] && s.sameFix n q

def fixCause (n : Nat) (s : State) (q : Req) : Nat :=
  let cores := q.f 18 1
  if s.allowed n [stQUIESCED] = false then 2
  else if cores < 1 ∨ 192 < cores ∨ q.f 28 4 < 1 ∨ cores < s.getF (.iwState n) IW_STATE.MINCORES then 3
  else if s.actWaits = true then 4
  else if s.yieldedAny n = true ∨ s.fixedRoom n cores = false ∨ s.coresAbove n < cores - (s.inst n).lease.length then 4
  else 0

def fixEff (n : Nat) (cores : List Nat) (s : State) (q : Req) : State :=
  let s := s.modInst n fun x => { x with lease := x.lease.take (q.f 18 1) ++ cores, fixedTerm := q.f 28 4, fixedLeft := none }
  ((s.setF (.iwState n) IW_STATE.FIXED 1).showLease n).answer q 0

/-- FIXLEASE: the whole lease, of CORES cores, becomes a fixed lease of TERM beats; cores are those that Grizor adds. -/
def execFixlease (n : Nat) (cores : List Nat) (s : State) : Out :=
  mgmt n 3
    (match s.nextReq n 3 with
    | some q => s.fixAgain n q || s.coresChosen n (q.f 18 1 - (s.inst n).lease.length) cores
    | none => false)
    (fun s q => if s.fixAgain n q then 0 else fixCause n s q)
    (fun s q => if s.fixAgain n q then s.answer q 0 else fixEff n cores s q) s

def execSetw (n : Nat) (s : State) : Out :=
  mgmt n 4 true
    (fun s q => if s.allowed n [1, 2, 3, 4, 5, 6, 7] = false then 2 else if 7 < q.f 16 1 ∨ q.f 19 1 < 1 then 3 else 0)
    (fun s q => ((s.setF (.wvWeight n) WV_WEIGHT.WEIGHT (q.f 19 1)).setF (.iwState n) IW_STATE.PRIO (q.f 16 1)).answer q 0) s

/-- The region that a MAP names. -/
def regionOf (q : Req) : RegionEnt :=
  { ipa := q.f 32 8, size := q.f 40 8, type := if q.f 17 1 = 2 then .comp else if q.f 17 1 = 3 then .seq else .stack, target := q.f 48 8,
    r := q.f 18 1 % 2 == 1, w := q.f 18 1 / 2 % 2 == 1 }

def mapCause (n : Nat) (s : State) (q : Req) : Nat :=
  let x := s.inst n
  let r := regionOf q
  let overlap := x.regions.any fun y => y.1 != q.f 16 1 && (match y.2 with
    | some z => decide (z.ipa < r.ipa + r.size) && decide (r.ipa < z.ipa + z.size)
    | none => false)
  if s.allowed n [stQUIESCED] = false then 2
  else if 63 < q.f 16 1 ∨ q.f 17 1 < 1 ∨ 3 < q.f 17 1 ∨ 3 < q.f 18 1 ∨ r.ipa % 4096 ≠ 0 ∨ r.size % 4096 ≠ 0 ∨ r.size = 0
      ∨ 2 ^ 48 < r.ipa + r.size then 3
  else if (match r.type with
      | .stack => false
      | .comp => decide (r.target % 4096 ≠ 0) || decide (2 ^ 51 < r.target + r.size)
      | .seq => decide (r.size ≠ 65536) || r.r || !r.w || !x.stackSet.contains r.target) = true then 3
  else if overlap = true ∨ (r.type = .stack ∧ x.quota * 2 ^ 30 < r.target + r.size) then 5
  else 0

/-- The region table changes; Grizor invalidates the cached translations (R314). -/
def State.setRegion (s : State) (n k : Nat) (r : Option RegionEnt) : State :=
  (s.modInst n fun x => { x with regions := SMap.put none x.regions k r }).flushTlb n

def execMap (n : Nat) (s : State) : Out :=
  mgmt n 5 true (mapCause n) (fun s q => (s.setRegion n (q.f 16 1) (some (regionOf q))).answer q 0) s

def execUnmap (n : Nat) (s : State) : Out :=
  mgmt n 6 true (fun s q => if s.allowed n [stQUIESCED] = false then 2 else if 63 < q.f 16 1 then 3 else 0)
    (fun s q => (s.setRegion n (q.f 16 1) none).answer q 0) s

/-! ## QUIESCE and RESUME (R317) -/

/-- Fetching stops: descriptors fetched and not yet checked are fetched again later. -/
def State.stopFetch (s : State) (n : Nat) : State :=
  (List.range 64).foldl (fun s r => s.modRing n r fun x =>
    let kept := x.fetched.filter fun f => f.checked
    { x with next := x.next - (x.fetched.length - kept.length), fetched := kept }) (s.holdRings n)

def execQuiesce (n : Nat) (s : State) : Out :=
  mgmt n 7 true (fun s _ => if s.allowed n [stACTIVE] = false then 2 else 0)
    (fun s q => ((s.stopFetch n).setInstState n stQUIESCING).begin_ n .quiesce q) s

/-- QUIESCE_COMPLETE: every accepted command of the quiescing instance has completed; it keeps its lease and its cores' state (R349). -/
def execQuiesceComplete (n : Nat) (s : State) : Out :=
  match (s.inst n).work with
  | some w =>
    let idle := s.cmds.all fun c => c.inst != n || (c.phase == .committed && !s.signalOut c.key)
    let none_ := (List.range 64).all fun r => (s.ring n r).fetched.isEmpty
    s.when (w.op == .quiesce && idle && none_)
      (((s.modInst n fun x => { x with work := none }).setInstState n stQUIESCED).mgmtReply w.ridx w.tag 1 0)
  | none => s.when false s

/-- Rings with EN = 1 fetch again. -/
def State.startRings (s : State) (n : Nat) : State :=
  (List.range 64).foldl (fun s r =>
    if s.ringEn n r ∧ s.getF (.iwRingStatus n r) IW_RING_STATUS.STATE = 2 then s.setF (.iwRingStatus n r) IW_RING_STATUS.STATE 1 else s) s

def execResume (n : Nat) (s : State) : Out :=
  mgmt n 8 true (fun s _ => if s.allowed n [stQUIESCED] = false then 2 else 0)
    (fun s q => ((s.setInstState n stACTIVE).startRings n).answer q 0) s

/-! ## RESET and REMOVE (R321) -/

/-- A QUIESCE in progress replies DONE. -/
def State.endQuiesce (s : State) (n : Nat) : State :=
  match (s.inst n).work with
  | some w => if w.op = .quiesce then (s.modInst n fun x => { x with work := none }).mgmtReply w.ridx w.tag 1 0 else s
  | none => s

/-- Descriptors of a ring that no journal record names yet are dropped (DEDUCED, log 23); those whose record is on its way take its outcome. -/
def State.dropUnchecked (s : State) (n r : Nat) : State := s.modRing n r fun x => { x with fetched := x.fetched.filter fun f => f.checked }

/-- What RESET and REMOVE do first: fetching stops and the running work is torn down. -/
def State.resetInst (s : State) (n : Nat) : State :=
  let s := s.endQuiesce n
  let s := s.stopTenant n
  let s := s.retireAll n 4 0
  let s := (List.range 64).foldl (fun s r => s.dropUnchecked n r) (s.holdRings n)
  ((s.setReg (.iwFault n) 0).setReg (.iwTfault n) 0).dropClaims n

def execReset (n : Nat) (s : State) : Out :=
  mgmt n 9 true
    (fun s _ => if s.allowed n [stACTIVE, stQUIESCING, stQUIESCED, stFAULTED] = false then 2 else 0)
    (fun s q => (((s.setInstState n stRESETTING).resetInst n).begin_ n .reset q).finishReset n) s

/-- REMOVE: of an ABSENT instance it replies DONE and changes nothing (R327). -/
def execRemove (n : Nat) (s : State) : Out :=
  mgmt n 10 true (fun s _ => if s.allowed n [0, 1, 2, 3, 4, 5, 6, 7] = false then 2 else 0)
    (fun s q =>
      if s.instState n = stABSENT then s.answer q 0
      else (((s.setInstState n stREMOVING).resetInst n).begin_ n .remove q).finishRemove n) s

end Sys2Proof.Machine
end

