-- ==== Sys2Proof/Machine/Borrow.lean ====
section
/-!
DEFINITION. Stopping a side, borrowing a core, returning it, and take-overs (R99 to R102, R148, R175, R267 to R274, R281 to R289).
-/
namespace Sys2Proof.Machine

/-! ## Stops (R148, R175, R267) -/

/-- A tenant command is resident on the core (R292). -/
def Core.tenantResident (c : Core) : Bool := c.residents.any fun r => r.side == 0

/-- Instance of the tenant commands resident, 0 for none. -/
def Core.tenantOf (c : Core) : Nat := ((c.residents.find? fun r => r.side == 0).map fun r => r.ctx.inst).getD 0

def State.setPhase (s : State) (p n : Nat) : State := s.setF (.coreCqPre p) CORE_CQ_PRE.PHASE n

/-- Begin the stop of the tenant side: the stop-issue step, with its copy queues pausing (R205). -/
def State.stopSide (s : State) (p : Nat) : State :=
  if (s.core p).t.stop = .run then
    ((s.pauseCe p 0).modCore p fun c => { c with t := { c.t with stop := .stopIssue } }).setPhase p 1
  else s

/-- Tenant issue resumes in place; stopped MMTs are re-issued (R101, R102). -/
def State.resumeTenant (s : State) (p : Nat) : State :=
  ((s.modCore p fun c => { c with t := { c.t.resumeCe with stop := .run } }).meResume p 0).setPhase p 0

/-- Next step of a take-over whose side has stopped: spill, or zeroing where the state is discarded (R282). -/
def State.takeStep (s : State) (p : Nat) : State :=
  (s.modCore p fun c => { c with takeover := c.takeover.map fun k =>
    if k.phase = .stopping then { k with phase := if k.slot.isSome then .spill else .zero, spillAt := s.gtc } else k }).setPhase p 7

/-- The tenant side has stopped, or had nothing to stop: a borrow switches banks, a take-over goes on, a throttled core stays gated
(R537), else issue resumes. -/
def State.afterStop (s : State) (p : Nat) : State :=
  let c := s.core p
  match c.borrow with
  | some b =>
    if b.phase = .stopping then (s.modCore p fun c => { c with borrow := some { b with phase := .bankSwitch } }).setPhase p 4 else s
  | none =>
    if c.takeover.isSome then s.takeStep p
    else if c.throttled then s.setPhase p 0
    else s.resumeTenant p

/-- STOP_ISSUE_COMPLETE: the stop-issue step of the tenant side of slot p ends; threads with an open region run on, else the ME drains. -/
def execStopIssueComplete (p : Nat) (s : State) : Out :=
  let c := s.core p
  let regions := c.threads.any fun x => threadSide x.1 == 0 && x.2.running && x.2.region.isSome
  let step := if regions then Stop.regionWait else Stop.drain
  s.when (decide (p < 208) && c.t.stop == .stopIssue)
    ((s.setCore p { c with t := { c.t with stop := step } }).setPhase p (if regions then 2 else 3))

/-- ME_DRAIN_COMPLETE: the ME of slot p has drained (R99, R100). stops: for each entry in progress, in queue order, the next vector or
row, at which it stopped. -/
def execMeDrainComplete (p : Nat) (stops : List Nat) (s : State) : Out :=
  let s1 := s.meStop p 0 stops
  s.when (decide (p < 208) && (s.core p).t.stop == .drain)
    ((s1.modCore p fun c => { c with t := { c.t with stop := .stopped } }).afterStop p)

/-! ## Borrowing (R269 to R272) -/

/-- A borrow of slot p starts for a radio command: the tenant side stops if a tenant command is resident, which counts as a
pre-emption (R291). During a take-over nothing of the tenant is left to stop, or its stop is under way. -/
def State.startBorrow (s : State) (p : Nat) (x : Ctx × Nat) : State :=
  let c := s.core p
  let n := if c.takeover.isSome then 0 else c.tenantOf
  let stopping := (c.tenantResident && c.t.stop != .stopped) || (c.t.stop != .run && c.t.stop != .stopped)
  let s := s.modCore p fun c =>
    { c with borrow := some { phase := if stopping then .stopping else .bankSwitch, ctx := x.1, cmd := x.2, at_ := s.gtc, charged := n } }
  let s := if n ≠ 0 then s.charge n fun a => { a with npre := a.npre + 1 } else s
  if stopping then s.stopSide p else s.setPhase p 4

/-- Serve the radio queue of slot p where the entry in force allows it: a new borrow, or the abandonment of a return (R269, R272). -/
def State.serveRadio (s : State) (p : Nat) : State :=
  match s.radioReady p with
  | none => s
  | some x =>
    match (s.core p).borrow with
    | none => if s.powered p && !(s.core p).waking && !(s.core p).failed then s.startBorrow p x else s
    | some b =>
      if b.phase = .switchBack ∨ b.phase = .reload then
        (s.modCore p fun c => { c with borrow := some { b with phase := .bankSwitch } }).setPhase p 4
      else s

/-- BORROW_REQUEST: command number no of I0, at the head of its ring, is ready for slot p, a core of its set without the stake role. -/
def execBorrowRequest (p no : Nat) (s : State) : Out :=
  match s.cmd no with
  | none => s.when false s
  | some c0 =>
    let c := s.mapped c0
    let l := s.lcoreNo p
    let s1 := (s.modCmd no fun _ => c).modCore p fun q => { q with radioQ := q.radioQ ++ [(c.ctx, no)], req := s.gtc }
    s.when
      (decide (p < 208) && decide (c.inst = 0) && (c.isKernel || c.isCopy) && (s.head 0 c.ring == some c0) && s.duePast 0 c.ring
        && c.todo.contains l && !s.isStake p && !((s.core p).radioQ.any fun y => y.2 == no))
      (((s1.takeDue 0 c.ring).serveRadio p))

/-- The end of a return (R271): held-off time is charged, the radio side's weights no longer count (R24, R76), and the take-over that has
waited, the throttle or the tenant side goes on. -/
def State.endReturn (s : State) (p : Nat) : State :=
  let c := s.core p
  match c.borrow with
  | none => s
  | some b =>
    let s := if b.charged ≠ 0 then s.charge b.charged fun a => { a with held := a.held + (s.gtc - b.at_) } else s
    let s := s.modCore p fun c => { c with borrow := none, extension := 0, tiles := c.tiles.filter fun t => t.side != 1 }
    if c.takeover.isSome then s.takeStep p
    else if c.throttled then s.setPhase p 0
    else s.resumeTenant p

/-- BANK_SWITCH_COMPLETE: the switch to the radio side is followed by the radio dispatch; the switch back by the weight reload where
an MMT was stopped, else by the end of the return. -/
def execBankSwitchComplete (p : Nat) (s : State) : Out :=
  let c := s.core p
  let stopped := c.t.meQ.any fun e => e.phase == .stopped && (match e.op with | .mmt _ => true | _ => false)
  match c.borrow with
  | none => s.when false s
  | some b =>
    let t :=
      if b.phase = .bankSwitch then s.setCore p { c with radio := true, borrow := some { b with phase := .dispatch } }
      else
        let s := s.setCore p { c with radio := false, borrow := some { b with phase := .reload } }
        if stopped && c.takeover.isNone then s else s.endReturn p
    s.when (decide (p < 208) && (b.phase == .bankSwitch || b.phase == .switchBack)) t

/-- RADIO_DISPATCH_COMPLETE: the first radio instruction issues; LAST shows the cycles since the latest request. -/
def execRadioDispatchComplete (p : Nat) (s : State) : Out :=
  match (s.core p).borrow with
  | none => s.when false s
  | some b =>
    let s1 := s.modCore p fun c => { c with borrow := some { b with phase := .radio } }
    let s1 := (s1.setF (.coreCqPre p) CORE_CQ_PRE.LAST (min (s.gtc - (s.core p).req) 0xFFFF)).setPhase p 5
    s.when (decide (p < 208) && b.phase == .dispatch) ((s1.radioNext p).kickCore p)

/-- WEIGHT_RELOAD_COMPLETE: the tenant side has its active tiles again, read from their sources; tenant issue resumes, and shadow tiles follow
in a second pass (R101, R271). -/
def execWeightReloadComplete (p : Nat) (s : State) : Out :=
  match (s.core p).borrow with
  | none => s.when false s
  | some b => s.when (decide (p < 208) && b.phase == .reload) ((s.reloadWeights p).endReturn p)

/-- DL_ABORT: at the end of the extension of slot p the radio commands still running are stopped, and their contexts torn down with
cause 0x2 (R274). -/
def execDlAbort (p : Nat) (s : State) : Out :=
  let late := (s.core p).residents.filter fun r => r.side == 1
  let one (s : State) (r : Resident) : State :=
    let g := r.ctx.group
    if ((s.core p).resident r.cmd).isNone then s
    else (s.event (srcCore p) 2 0x36 (s.lcoreNo p) g (min (s.gtc - r.began) (2 ^ 28 - 1))).contextDown g 2 5
  s.when (decide (p < 208) && decide ((s.core p).extension = 2) && !late.isEmpty) (late.foldl one s)

/-! ## Take-overs (R281 to R286) -/

/-- Save slots in all (R283). -/
def State.saveSlots (s : State) : Nat :=
  let f := s.beat.saveFrames.length
  if f = 0 then 0 else 262144 / ((4096 + f - 1) / f)

/-- Save slots that hold an image, or that a spill in progress will fill. -/
def State.usedSlots (s : State) : List Nat :=
  s.images.map Prod.fst ++ s.cores.filterMap fun x => x.2.takeover.bind fun k => k.slot

/-- Lowest free save slot. -/
def State.freeSlot (s : State) : Option Nat := (List.range s.saveSlots).find? fun n => !s.usedSlots.contains n

/-- Image of instance n for logical core l in its slot. -/
def State.imageOf (s : State) (n l : Nat) : Option (Nat × Image) :=
  s.images.findSome? fun x => x.2.bind fun i => if i.inst = n ∧ i.lcore = l then some (x.1, i) else none

/-- Tenant plait slots of a core whose tenant range ends at top: all 256 of a fixed lease, else 224 (R138, R281; log 70), and tenant threads
(R134). -/
def tenantPlait (top k : Nat) : Bool := decide (k < if top = 0xC00000 then 256 else 224)
def tenantThread (t : Nat) : Bool := decide (t < 12)

/-- Registers of the tenant side that an image carries. -/
def arithRegs (p : Nat) : List Reg := [.coreAmode p 0, .coreAflags p 0, .coreDig p 0]

/-- Tenant state of a core, up to scratchpad address top; the weight cells are not part of it, only which tiles there were (R281). -/
def Core.tenantPart (c : Core) (top : Nat) : Core :=
  { Core.zero with
    sp := c.sp.filter fun x => decide (x.1 < top)
    spCheck := c.spCheck.filter fun x => decide (8 * x.1 < top)
    threads := c.threads.filter fun x => tenantThread x.1
    t := c.t
    tiles := (c.tiles.filter fun x => x.side == 0).map fun x => { x with cols := [] }
    reload := c.reload
    plaits := c.plaits.filter fun x => tenantPlait top x.1
    residents := c.residents.filter fun r => r.side == 0
    nextId := c.nextId }

/-- The core without its tenant state, its scratchpad zero below top. -/
def Core.withoutTenant (c : Core) (top : Nat) : Core :=
  { c with
    sp := c.sp.filter fun x => decide (top ≤ x.1)
    spCheck := c.spCheck.filter fun x => decide (top ≤ 8 * x.1)
    threads := c.threads.filter fun x => !tenantThread x.1
    t := .zero
    tiles := c.tiles.filter fun x => x.side != 0
    reload := []
    plaits := c.plaits.filter fun x => !tenantPlait top x.1
    residents := c.residents.filter fun r => r.side != 0 }

/-- A core with the tenant state of an image. -/
def Core.withTenant (c : Core) (i : Core) : Core :=
  { c with
    sp := mergeMap (c.sp.length + i.sp.length + 1) i.sp (c.sp.filter fun x => !i.sp.any fun y => y.1 == x.1)
    spCheck := mergeMap (c.spCheck.length + i.spCheck.length + 1) i.spCheck (c.spCheck.filter fun x => !i.spCheck.any fun y => y.1 == x.1)
    threads := mergeMap 33 i.threads c.threads
    t := i.t
    tiles := c.tiles ++ i.tiles
    reload := c.reload ++ i.reload
    plaits := mergeMap 513 i.plaits c.plaits
    residents := c.residents ++ i.residents
    nextId := max c.nextId i.nextId }

/-- Where the scratchpad part of an image begins in its save slot (R281). -/
def saveSpOffset : Nat := 0x290000

/-- The scratchpad part of an image is written to save slot j, in whole lines (R281, R283). -/
def State.saveSp (s : State) (j : Nat) (sp : Memory) : State :=
  let mine (pa : Nat) : Bool := match s.saveAt pa with | some (k, o) => k == j && decide (saveSpOffset ≤ o) | none => false
  let mem := s.stackSet.mem.filter fun c => !mine c.1
  { s with stackSet := { s.stackSet with
    mem := sp.foldl (fun m c => m.setByte (s.savePa j (saveSpOffset + c.1)) c.2) mem
    poison := s.stackSet.poison.filter fun x => !mine (64 * x.1) } }

/-- The scratchpad bytes below top that save slot j holds. -/
def State.savedSp (s : State) (j top : Nat) : Memory :=
  s.stackSet.mem.foldl (fun m c => match s.saveAt c.1 with
    | some (k, o) => if k = j ∧ saveSpOffset ≤ o ∧ o < saveSpOffset + top then m.setByte (o - saveSpOffset) c.2 else m
    | none => m) []

/-- A line of save slot j is poisoned. -/
def State.saveBad (s : State) (j : Nat) : Bool :=
  s.stackSet.poison.any fun x => match s.saveAt (64 * x.1) with | some (k, _) => k == j | none => false

/-- Locks 0 to 47 of a core become FREE with LAST 0 (R177). -/
def State.freeLocks (s : State) (p : Nat) : State := (List.range 48).foldl (fun s n => s.resetReg (.coreCqLock p n)) s

/-- End of the scratchpad range that a take-over zeroes (R282): all of it where a fixed lease begins or ends. -/
def State.zeroTop (s : State) (p role : Nat) : Nat := if role = 3 ∨ s.role p = 3 then 0xC00000 else 0xB00000

/-- SPILL_COMPLETE: the image of the previous holder is in its slot, its scratchpad part in the save frames (R281, R283; log 69); the spill is charged (R284); zeroing follows. -/
def execSpillComplete (p : Nat) (s : State) : Out :=
  let c := s.core p
  match c.takeover with
  | some k =>
    let part := c.tenantPart (if k.role = 3 then 0xC00000 else 0xB00000)
    let img : Image :=
      { inst := k.from_, lcore := s.lcoreNo p, role := k.role, core := part, locks := (List.range 48).map fun n => s.reg (.coreCqLock p n),
        arith := (arithRegs p).map s.reg }
    let bytes := imageBytes (k.role == 3) (!part.plaits.isEmpty)
    let s1 := match k.slot with
      | some j => { s.saveSp j part.sp with images := SMap.put none s.images j (some { img with core := { part with sp := [] } }) }
      | none => s
    let s1 := s1.charge k.from_ fun a => { a with npre := a.npre + 1, held := a.held + (s.gtc - k.since), bytes := a.bytes + bytes }
    s.when (decide (p < 208) && k.phase == .spill && c.borrow.isNone && !c.throttled)
      (s1.modCore p fun c => { c with takeover := some { k with phase := .zero, slot := none } })
  | none => s.when false s

/-- The take-over is over: the side starts. -/
def State.endTake (s : State) (p : Nat) : State :=
  let s := s.modCore p fun c => { c with takeover := none }
  if (s.core p).throttled then s.setPhase p 0 else s.resumeTenant p

/-- ZEROING_COMPLETE: the tenant range, bank A, vector bank 0, the plait state and locks 0 to 47 are zero (R96, R119, R177, R188, R282). -/
def execZeroingComplete (p : Nat) (s : State) : Out :=
  let c := s.core p
  match c.takeover with
  | some k =>
    let s1 := (s.modCore p fun c => c.withoutTenant (s.zeroTop p k.role)).freeLocks p
    let s1 := (arithRegs p).foldl State.resetReg s1
    s.when (decide (p < 208) && k.phase == .zero && c.borrow.isNone && !c.throttled)
      (if k.restore.isSome then s1.modCore p fun c => { c with takeover := some { k with phase := .restore } } else s1.endTake p)
  | none => s.when false s

/-- RESTORE_COMPLETE: the owner's image is on the core again, its weight tiles are reloaded from their sources, its slot is free, and its
flits count (R281 to R284). Poisoned data in the slot fault the instance as a copy's would (R234; log 69). -/
def execRestoreComplete (p : Nat) (s : State) : Out :=
  let c := s.core p
  match c.takeover with
  | some k =>
    let t := match k.restore.bind fun j => (SMap.get none s.images j).map fun i => (j, i) with
      | some (j, i) =>
        let img := { i.core with sp := s.savedSp j (if i.role = 3 then 0xC00000 else 0xB00000) }
        let s1 := { s.modCore p fun c => c.withTenant img with images := SMap.erase s.images j }
        let s1 := (i.locks.zipIdx).foldl (fun s x => s.setReg (.coreCqLock p x.2) x.1) s1
        let s1 := ((arithRegs p).zip i.arith).foldl (fun s x => s.setReg x.1 x.2) s1
        if s.saveBad j then s.ceFault p 2 (.tenant i.inst) 0
        else ((s1.reloadWeights p).charge i.inst fun a => { a with bytes := a.bytes + imageBytes (i.role == 3) (!i.core.plaits.isEmpty) }).endTake p
      | none => s.endTake p
    s.when (decide (p < 208) && k.phase == .restore && c.borrow.isNone && !c.throttled) t
  | none => s.when false s

end Sys2Proof.Machine
end

