-- ==== Sys2Proof/Machine/Beat.lean ====
section
/-!
DEFINITION. The beat sequencer: plans, the latch, the boundary and what happens there (R17 to R31, R106, R180, R258 to R290,
R318, R319, R527, R528, R535 to R537).
-/
namespace Sys2Proof.Machine

/-! ## Plan entries (R262) -/

def eRole (e : Nat) : Nat := e / 2 ^ 30 % 4
def eBrw (e : Nat) : Bool := e / 2 ^ 29 % 2 == 1
def eOwner (e : Nat) : Nat := e / 2 ^ 15 % 128
def eTko (e : Nat) : Bool := e / 2 ^ 14 % 2 == 1
def eRst (e : Nat) : Bool := e / 2 ^ 13 % 2 == 1

/-- Tenant of an entry, 0 for none. -/
def eTenant (e : Nat) : Nat := if 2 ≤ eRole e then eOwner e else 0

/-- The entry with TKO and RST cleared. -/
def eKeep (e : Nat) : Nat := e / 2 ^ 15 * 2 ^ 15

def stakeEntry (tko : Bool) : Nat := 2 ^ 30 + tko.toNat * 2 ^ 14

/-- Entry in force for logical core l; for a core that was not awake in time, the entry that it missed (R528). -/
def State.entry (s : State) (l : Nat) : Nat :=
  match SMap.find? s.beat.late l with
  | some e => e
  | none => match s.slotOf l with
    | some p => (s.reg (.coreCqPlan p)).toNat
    | none => 0

/-- The entry of logical core l as R264 repeats it, and as it binds a latched entry where a core has become unavailable since:
a tenant core of a die whose controller is being loaded passes to ROLE 0b00 with TKO (R517). -/
def State.bindEntry (s : State) (l e : Nat) : Nat :=
  if s.available l = false then
    (if s.dieLoading (l / 24) = true ∧ eTenant (s.entry l) ≠ 0 then 2 ^ 14 else 0)
  else if s.stakeSet.contains l then (if eRole e = 1 then e else stakeEntry (eTenant (s.entry l) ≠ 0))
  else if eRole e = 1 then 0
  else e

/-- Beats of a plan period (R260). -/
def State.periodBeats (s : State) : Nat := s.perMs * 2 ^ s.getF .timePlancfg TIME_PLANCFG.PERIOD / 8

/-- Beats of a hyperframe (R28). -/
def State.hyperBeats (s : State) : Nat := 10240 * s.perMs

/-- Number of the k-th beat from now; before the first boundary it is counted from the first beat. -/
def State.beatNo (s : State) (k : Nat) : Nat := (s.getF .timeBeat TIME_BEAT.NUM + k) % s.hyperBeats

/-- Entries of beat nb in the most recently committed plan that covers it. -/
def State.planAt (s : State) (nb : Nat) : Option (SMap Nat) :=
  s.beat.plans.reverse.findSome? fun x => if x.first ≤ nb then x.beats[nb - x.first]? else none

/-- First beat of the period that the MP prepares (R29, R260): the one after the running one; before the first boundary the one of the first
beat. -/
def State.nextPeriod (s : State) : Nat :=
  let b := s.periodBeats
  if s.beat.first then s.beatNo 0 / b * b else (s.beatNo 0 / b + 1) * b % s.hyperBeats

/-- Cores of lease order that are not yielded. -/
def Instance.kept (x : Instance) : List Nat := x.lease.filter fun l => !x.yielded.contains l

/-- Accepted, uncompleted work of instance n in core-cycles, by the commands' DUR and core counts (R280). -/
def State.demand (s : State) (n : Nat) : Nat :=
  ((s.cmds.filter fun c => c.inst == n && c.open_).map fun c => c.d.dur * (match c.d.body with | .kernel b => b.count | _ => 1)).sum

/-- That work exceeds what the lease can run in a plan period (R280). -/
def State.overBooked (s : State) (n : Nat) : Bool :=
  decide ((s.inst n).lease.length * (s.periodBeats * s.beat.length) < s.demand n)

/-- Take-overs that entries m make from the entries in force: core, victim, taker; a return of a yielded core is none (R277, R278). -/
def State.planTakes (s : State) (m : SMap Nat) : List (Nat × Nat × Nat) :=
  (List.range 192).filterMap fun l =>
    let a := eTenant (s.entry l); let b := eTenant (SMap.get 0 m l)
    if a ≠ 0 ∧ b ≠ 0 ∧ a ≠ b ∧ (s.inst b).yielded.contains l = false then some (l, a, b) else none

/-- With the cores of gone taken, R277 lets instance b take the highest-numbered core that a has left. -/
def State.takeable (s : State) (gone : List Nat) (a b : Nat) : Bool :=
  let kept := (s.inst a).kept.filter fun l => !gone.contains l
  match kept.getLast? with
  | some l => a != b && decide (s.getF (.iwState a) IW_STATE.PRIO < s.getF (.iwState b) IW_STATE.PRIO) && eRole (s.entry l) == 2
      && eTenant (s.entry l) == a && (s.inst b).lease.all (fun k => decide (k < l))
      && decide (s.getF (.iwState a) IW_STATE.MINCORES < kept.length) && decide (s.images.length + gone.length < s.saveSlots)
  | none => false

/-- Instance a is taken from before c: lower priority, between equals the lower number (R280). -/
def State.victimFirst (s : State) (a c : Nat) : Bool :=
  let x := s.getF (.iwState a) IW_STATE.PRIO; let y := s.getF (.iwState c) IW_STATE.PRIO
  decide (x < y) || (x == y && decide (a < c))

/-- The take-overs of a plan are those of R280: for an instance whose commands exceed its lease, and only for such a one, from the
lowest-priority instance first. -/
def State.takesPlanned (s : State) (m : SMap Nat) : Bool :=
  let ts := s.planTakes m
  let gone := ts.map Prod.fst
  let ns := s.insts.map Prod.fst
  ts.all (fun t => s.overBooked t.2.2 && ns.all fun a => !(s.victimFirst a t.2.1 && s.takeable gone a t.2.2))
    && ns.all fun b => !s.overBooked b || ts.any (fun t => t.2.2 == b) || ns.all fun a => !s.takeable gone a b

/-- The tenant that lost core l to an instance which has been removed since: it holds an image for it, and no one holds the core (R278). -/
def State.returnTo (s : State) (l : Nat) : Option Nat :=
  if eTenant (s.entry l) = 0 then
    (List.find? (fun x => x.2.yielded.contains l && !s.insts.any fun y => y.1 != x.1 && y.2.lease.contains l) s.insts).map Prod.fst
  else none

/-- Every core whose taker has been removed goes back, with RST in the first beat (R278), and no instance gets a core above one for which it
holds a save image (R278). -/
def State.returnsPlanned (s : State) (beats : List (SMap Nat)) : Bool :=
  (List.range 192).all fun l =>
    (match s.returnTo l with
      | some n => !s.available l || s.stakeSet.contains l
          || (beats.all (fun m => eTenant (SMap.get 0 m l) == n) && beats.head?.all fun m => eRst (SMap.get 0 m l))
      | none => true)
    && beats.all fun m =>
      let n := eTenant (SMap.get 0 m l)
      n == 0 || n == eTenant (s.entry l) || s.images.all fun x => match x.2 with
        | some i => i.inst != n || decide (l ≤ i.lcore)
        | none => true

/-- PLAN_PREPARATION: the MP commits the plan of the period that begins with beat first; beats holds the entry of each logical core
for each beat. Take-overs follow R280, returns R278. excess: arbitration points whose forecast rank-0 share stays above the budget, with the share in percent (R217).
drop: cells whose neural estimation the MP drops for want of cores (R426). What else the MP plans is its choice, within R263. -/
def execPlanPreparation (first : Nat) (beats : List (List (Nat × Nat))) (excess : List (Nat × Nat)) (drop : List Nat) (s : State) : Out :=
  let plan : PeriodPlan := ⟨first, beats.map fun b => b.foldl (fun m x => SMap.put 0 m x.1 x.2) []⟩
  let s1 := excess.foldl (fun s x => s.note srcMp 0 0x32 (x.1 % 4096 + min x.2 127 * 4096)) s
  let s1 := drop.foldl (fun s phy => match s.cell phy with
    | some c => if c.model.isSome ∧ c.fallback = 0 then s.fallBack phy c else s
    | none => s) s1
  s.when
    (s.boot.grizor && s.beat.started && decide (first = s.nextPeriod) && decide (beats.length = s.periodBeats)
      && (plan.beats.getLast?.all s.takesPlanned) && s.returnsPlanned plan.beats && beats.all (fun b => b.all fun x => decide (x.1 < 192) && decide (x.2 < 2 ^ 32))
      && excess.all fun x => decide (x.1 < 450) && decide (min 100 (WV_RBUDGET.PCT.get s.weave.rbudget) < x.2))
    { s1 with beat := { s1.beat with plans := ((s1.beat.plans ++ [plan]).drop (s1.beat.plans.length - 1)) } }

/-! ## Validation (R263, R277, R278) -/

/-- The tenant holds a save image for logical core l, or one is being taken: its slot and the ROLE under which it was taken. -/
def State.imageFor (s : State) (n l : Nat) : Option (Nat × Nat) :=
  match s.imageOf n l with
  | some (j, i) => some (j, i.role)
  | none => match s.slotOf l with
    | some p => (s.core p).takeover.bind fun k => if k.from_ = n ∧ n ≠ 0 then k.slot.map fun j => (j, k.role) else none
    | none => none

/-- Logical cores that pass from tenant a to tenant b. -/
def State.passing (s : State) (m : SMap Nat) (a b : Nat) : List Nat :=
  (List.range 192).filter fun l => eTenant (s.entry l) == a && eTenant (SMap.get 0 m l) == b

/-- Conditions of R277 and R278 for the cores that pass from tenant a to tenant b in one beat. -/
def State.passOk (s : State) (m : SMap Nat) (a b : Nat) : Bool :=
  let ls := s.passing m a b
  let x := s.inst a; let y := s.inst b
  let back := ls.filter y.yielded.contains
  let take := ls.filter fun l => !y.yielded.contains l
  let fixed (l : Nat) : Bool := eRole (s.entry l) == 3 || eRole (SMap.get 0 m l) == 3
  let backOk := back.isEmpty || (decide (x.lease.drop (x.lease.length - back.length) = back)
    && back.all fun l => eTko (SMap.get 0 m l) && eRst (SMap.get 0 m l))
  let gone := (List.range 192).filter fun l => eTenant (s.entry l) == a && eTenant (SMap.get 0 m l) != a && eTenant (SMap.get 0 m l) != 0
    && !(s.inst (eTenant (SMap.get 0 m l))).yielded.contains l
  let takeOk := take.isEmpty || (
    decide (s.getF (.iwState a) IW_STATE.PRIO < s.getF (.iwState b) IW_STATE.PRIO) && !take.any fixed
      && decide (x.kept.drop (x.kept.length - gone.length) = gone)
      && y.lease.all (fun k => take.all fun l => decide (k < l))
      && decide (s.getF (.iwState a) IW_STATE.MINCORES ≤ x.kept.length - gone.length)
      && (s.images.all fun z => match z.2 with
          | some i => i.inst != b || take.all fun l => decide (l ≤ i.lcore)
          | none => true))
  backOk && takeOk

/-- Condition c of R263 holds for the entries m of the next beat. -/
def State.planCond (s : State) (m : SMap Nat) (c : Nat) : Bool :=
  let e (l : Nat) : Nat := SMap.get 0 m l
  let ls := List.range 192
  match c with
  | 1 => ls.all fun l => (eRole (e l) == 1) == s.stakeSet.contains l && (eRole (e l) != 1 || (eOwner (e l) == 0 && !eBrw (e l)))
  | 2 => ls.all fun l => s.available l || (eRole (e l) == 0 && !eBrw (e l))
  | 3 => ls.all fun l => decide (eRole (e l) < 2) || (decide (1 ≤ eOwner (e l)) && decide (eOwner (e l) ≤ 64)
      && decide (s.instState (eOwner (e l)) ≠ stABSENT))
  | 4 => (ls.all fun l => !eBrw (e l) || eRole (e l) == 0 || eRole (e l) == 2)
      && decide ((ls.filter fun l => eBrw (e l)).length ≤ s.getF .timePlancfg TIME_PLANCFG.BPEAK)
  | 5 => decide ((ls.filter fun l => eRole (e l) == 3).length ≤ 192 - s.stakeCount - s.getF .timePlancfg TIME_PLANCFG.BPEAK)
      && ls.all fun l => eRole (s.entry l) != 3 || (match (s.inst (eTenant (s.entry l))).fixedLeft with
        | some k => decide (k ≤ 1) || (eRole (e l) == 3 && eOwner (e l) == eOwner (s.entry l))
        | none => true)
  | 6 => ls.all fun l => eTko (e l) == (eTenant (s.entry l) != 0
      && (eTenant (e l) != eTenant (s.entry l) || eRole (e l) != eRole (s.entry l)))
  | 7 => ls.all fun l => match s.imageFor (eTenant (e l)) l with
      | some (_, role) => eTenant (e l) != 0 && eRst (e l) && role == eRole (e l)
      | none => !eRst (e l)
  | _ =>
    let moved := ls.filter fun l => eTenant (s.entry l) != 0 && eTenant (e l) != 0 && eTenant (s.entry l) != eTenant (e l)
    let pairs := (moved.map fun l => (eTenant (s.entry l), eTenant (e l))).eraseDups
    let takes := s.planTakes m
    pairs.all (fun x => s.passOk m x.1 x.2) && (takes.isEmpty || decide (takes.length + s.usedSlots.length ≤ s.saveSlots))

/-- First condition of R263 that fails. -/
def State.planFault (s : State) (m : SMap Nat) : Option Nat := [1, 2, 3, 4, 5, 6, 7, 8].find? fun c => !s.planCond m c

/-- Count a miss or a refusal (R264). -/
def State.planCount (s : State) : State := s.satF .timePlanstat TIME_PLANSTAT.COUNT 1

/-- A plan is refused: PLAN_INVALID names the first condition that fails. -/
def State.refusePlan (s : State) (c : Nat) : State :=
  let s := ((s.setF .timePlanstat TIME_PLANSTAT.INVALID 1).planCount).note srcBeat 0 0x31 c
  { s with beat := { s.beat with latched := none, refused := true } }

/-- PLAN_LATCH (R261): the entries of the next beat are latched from the most recently committed plan and validated. The VCORE target
for that beat is sent: a multiple of 5 mV from 650 mV to 850 mV that the spec leaves to the device (R531, log 3). -/
def execPlanLatch (s : State) : Out :=
  let at_ := if s.beat.first then s.beat.boundary else s.beat.boundary + s.beat.length
  let nb := if s.beat.first then s.beatNo 0 else s.beatNo 1
  let v := 650 + 5 * ((Config.freeBits s.free).toNat % 41)
  let s1 := { s with free := s.free + 1, beat := { s.beat with latchDone := true } }.setF .gctlVcore GCTL_VCORE.TARGET v
  s.when
    (s.beat.started && !s.beat.latchDone && decide (at_ ≤ s.gtc + s.getF .timePlancfg TIME_PLANCFG.LATCH))
    (match s.planAt nb with
    | none => s1
    | some m => match s.planFault m with
      | some c => s1.refusePlan c
      | none => { s1 with beat := { s1.beat with latched := some m } })

/-! ## Take-overs at the boundary (R277, R278, R282, R283) -/

/-- Tenant commands resident on slot p. -/
def State.tenantCmds (s : State) (p : Nat) : List Cmd :=
  (s.core p).residents.filterMap fun r => if r.side = 0 ∧ r.ctx.inst ≠ 0 then s.cmd r.cmd else none

/-- The tenant state of slot p is discarded: its commands re-run from their step starts (R264, R319). -/
def State.discard (s : State) (p : Nat) : State := s.rerunFor (s.tenantCmds p)

/-- Held-off time of a borrow is charged up to the boundary at which a spill begins to be charged. -/
def State.heldToBoundary (s : State) (p : Nat) : State :=
  match (s.core p).borrow with
  | some b =>
    if b.charged = 0 then s
    else (s.charge b.charged fun a => { a with held := a.held + (s.gtc - b.at_) }).modCore p
      fun c => { c with borrow := some { b with charged := 0 } }
  | none => s

/-- The take-over of slot p begins, or goes on once the radio side returns (R274), or once the stop under way ends. -/
def State.startTake (s : State) (p : Nat) (k : TakeOver) : State :=
  let c := s.core p
  let s := s.setCore p { c with takeover := some k }
  if c.borrow.isSome then s
  else if c.t.stop = .run ∧ c.tenantResident = true then s.stopSide p
  else if c.t.stop = .run ∨ c.t.stop = .stopped then s.takeStep p
  else s

/-- The lease changes of a core that passes from tenant a to tenant b, 0 for none (R277, R278). -/
def State.passLease (s : State) (l a b : Nat) : State :=
  let back := b != 0 && (s.inst b).yielded.contains l
  let s := if back then s.modInst b fun x => { x with yielded := x.yielded.filter fun k => k != l } else s
  if a = 0 ∨ b = 0 ∨ a = b then s
  else if back then (s.modInst a fun x => { x with lease := x.lease.filter fun k => k != l }).showLease a
  else ((s.modInst a fun x => { x with yielded := x.yielded ++ [l] }).modInst b fun y => { y with lease := y.lease ++ [l] }).showLease b

/-- Apply the entry e to logical core l on slot p. repeated: the entry is a repeat of R264. A core that leaves the stake role is zeroed before a
tenant gets its range (R188); I0 work found there goes the way of a core that leaves the plans (R272, R326; DESIGN CHOICE, log 71). -/
def State.applyEntry (s : State) (l p e : Nat) (repeated : Bool) : State :=
  let prev := s.entry l
  let a := eTenant prev; let b := eTenant e
  let c := s.core p
  let put (s : State) (e : Nat) : State := s.setReg (.coreCqPlan p) (BitVec.ofNat 64 e)
  let restore := if eRst e then (s.imageFor b l).map Prod.fst else none
  match c.takeover with
  | some k =>
    if eTko e || eRst e then
      let k := { k with to_ := b, restore := restore, phase := if k.phase = .restore then TakePhase.zero else k.phase }
      (put (s.modCore p fun c => { c with takeover := some k }) e).passLease l a b
    else put s e
  | none =>
    if eTko e then
      let st := s.instState a
      let spill := a != b && st != stABSENT && st != stREMOVING
      let k : TakeOver := { phase := .stopping, from_ := a, to_ := b, role := eRole prev, since := s.gtc, spillAt := 0, slot := none, restore := restore }
      if spill then
        match s.freeSlot with
        | some j => (put ((s.heldToBoundary p).startTake p { k with slot := some j }) e).passLease l a b
        | none =>
          if repeated then (put ((s.discard p).startTake p k) e).passLease l a b
          else
            put ((s.setF .timePlanstat TIME_PLANSTAT.DEFER 1).event srcBeat 0 0x33 l a b) (eKeep prev)
      else (put ((s.discard p).startTake p k) e).passLease l a b
    else if eRole prev = 1 ∧ eRole e ≠ 1 then
      let s := s.rerunFor ((s.core p).residents.filterMap fun r => s.cmd r.cmd)
      (put (s.startTake p { phase := .zero, from_ := 0, to_ := b, role := 1, since := s.gtc, spillAt := 0, slot := none, restore := restore }) e).passLease l a b
    else if eRst e then
      let k : TakeOver := { phase := .restore, from_ := 0, to_ := b, role := eRole e, since := s.gtc, spillAt := 0, slot := none, restore := restore }
      (put (s.startTake p k) e).passLease l a b
    else put s e

/-! ## Failed cores (R17, R18) -/

/-- Logical cores whose slot has been found failed. -/
def State.failedCores (s : State) : List Nat :=
  (List.range 192).filter fun l => match s.slotOf l with | some p => (s.core p).failed | none => true

/-- Failed cores leave every lease, and the commands that run there re-run once the plan excludes them (R17, R326). -/
def State.dropFailed (s : State) : State :=
  let bad := s.failedCores
  let hit := s.cmds.filter fun c => c.phase == .running && c.left.any bad.contains
  let s := s.insts.foldl (fun s x =>
    if x.2.lease.any bad.contains then
      (s.modInst x.1 fun y => { y with
        lease := y.lease.filter fun l => !bad.contains l
        yielded := y.yielded.filter fun l => !bad.contains l }).showLease x.1
    else s) s
  let s := { s with images := s.images.filter fun x => match x.2 with | some i => !bad.contains i.lcore | none => false }
  s.rerunFor hit

/-- CORE_FAILED: slot p is found failed in service; what it holds is lost. -/
def execCoreFailed (p : Nat) (s : State) : Out :=
  let c := s.core p
  s.when (decide (p < 208) && !c.failed)
    ((s.heldToBoundary p).setCore p { Core.zero with failed := true, nextId := c.nextId })

/-- Spare slots of a die that are good and carry no logical core, ascending. -/
def State.spareSlots (s : State) (d : Nat) : List Nat :=
  ((List.range 26).map (26 * d + ·)).filter fun q => (s.lcoreOf q).isNone && !(s.core q).failed

/-- SPARE_SUBSTITUTION (R17, R18): logical core l, which has left every lease and on which no command is resident, passes to the
lowest free spare slot of its die, or becomes unavailable. The repair record names the failed slot, the logical core and its new slot. -/
def execSpareSubstitution (l : Nat) (s : State) : Out :=
  match s.slotOf l with
  | none => s.when false s
  | some p =>
    let d := l / 24
    let busy := (s.insts.any fun x => x.2.lease.contains l) || s.cmds.any fun c => c.phase == .running && c.left.contains l
    let q := (s.spareSlots d).head?
    let rec_ : DevRec := ⟨true, 0x8001, s.boot.rver, s.boot.flash.records.length, p, l :: q.toList⟩
    let t := match q with
      | some q =>
        (((s.setF (.gctlCmap l) GCTL_CMAP.SLOT q).setF (.gctlCmap l) GCTL_CMAP.SPARE 1).event (srcDie d) 3 0x03 l 0x7F (p + 256 * q))
      | none => (s.setF (.gctlCmap l) GCTL_CMAP.VALID 0).event (srcDie d) 3 0x03 l 0x7F (p + 256 * 0xFF)
    s.when (decide (l < 192) && (s.core p).failed && decide (s.entry l = 0) && !busy)
      { t with boot := { t.boot with flash := { t.boot.flash with records := t.boot.flash.records ++ [rec_] } } }

/-- Stacks attached to a die (R10). -/
def dieStacks : Nat → List Nat
  | 0 => [0, 1] | 1 => [2] | 2 => [3] | 3 => [4, 5] | 4 => [6, 7] | 5 => [8] | 6 => [9] | 7 => [10, 11] | _ => []

/-- DIE_FAIL: a compute die fails (R255, R326, R526): its cores are failed, its attached stacks are lost, its Weave fabric is off. -/
def execDieFail (d : Nat) (s : State) : Out :=
  let s1 := s.note (srcDie d) 3 0x23 d
  let s1 := (List.range 26).foldl (fun s k =>
    let p := 26 * d + k
    (s.heldToBoundary p).setCore p { Core.zero with failed := true, nextId := (s.core p).nextId }) s1
  let s1 := (dieStacks d).foldl (fun s m => if s.getF (.msStatus m) MS_STATUS.STATE = 2 then s else s.stackLost m) s1
  s.when (decide (d < 8) && s.domainOn (260 + d)) (s1.setDomain (260 + d) false)

/-! ## Known-answer tests and wakes (R106, R112, R527, R528) -/

/-- CORE_ME_SPARE0 to 3 of slot p from the repair map (R104, R112). -/
def State.spareRows (s : State) (p : Nat) : State :=
  let rows := ((List.range 260).filter fun r => s.boot.rows.any fun x => x.1 == p && x.2 == r)
  (List.range 4).foldl (fun s k => match rows[k]? with
    | some r => (s.setF (.coreMeSpare p k) CORE_ME_SPARE.VALID 1).setF (.coreMeSpare p k) CORE_ME_SPARE.FROW r
    | none => s.resetReg (.coreMeSpare p k)) s

/-- KNOWN_ANSWER_TEST_COMPLETE: the test of an unleased core ends; rows: the physical rows that it finds failed. New rows are mapped
out, and the core stays out of plans until a test passes; a core that needs a fifth spare row is failed. -/
def execKnownAnswerTestComplete (p : Nat) (rows : List Nat) (s : State) : Out :=
  let fresh := (rows.filter fun r => !s.boot.rows.any fun x => x.1 == p && x.2 == r).eraseDups
  let all := (s.boot.rows.filter fun x => x.1 == p).length + fresh.length
  let c := s.core p
  let s1 := fresh.foldl (fun s r => s.event (srcDie (p / 26)) 1 0x04 (s.lcoreNo p) 0x7F (r + if 4 < all then 512 else 0)) s
  s.when
    (decide (p < 208) && s.powered p && !c.waking && !c.failed && c.residents.isEmpty && c.takeover.isNone && c.borrow.isNone
      && decide (s.role p = 0) && decide (s.getF (.coreCqPlan p) CORE_CQ_PLAN.BRW = 0) && rows.all fun r => decide (r < 260))
    (if fresh.isEmpty then s.setCore p { c with testing := false }
     else if 4 < all then s1.setCore p { c with failed := true, testing := false }
     else ({ s1 with boot := { s1.boot with rows := s1.boot.rows ++ fresh.map fun r => (p, r) } }.setCore p { c with testing := true }).spareRows p)

/-- Registers of slot p at their reset values. -/
def State.clearCoreRegs (s : State) (p : Nat) : State :=
  { s with regs := s.regs.filter fun x => !(decide (0x800000 + 0x8000 * p ≤ x.1.offset) && decide (x.1.offset < 0x808000 + 0x8000 * p)) }

/-- Slot p loses power and all state but the commands that wait for it. -/
def State.powerDown (s : State) (p : Nat) : State :=
  let c := s.core p
  ((s.clearCoreRegs p).setDomain p false).setCore p { Core.zero with failed := c.failed, radioQ := c.radioQ, nextId := c.nextId }

/-- CORE_WAKE_COMPLETE: the spare map is written and the core is zero. -/
def execCoreWakeComplete (p : Nat) (s : State) : Out :=
  let c := s.core p
  s.when (decide (p < 208) && c.waking)
    ((s.setCore p { Core.zero with failed := c.failed, testing := c.testing, radioQ := c.radioQ, nextId := c.nextId }).spareRows p)

/-- The entry of logical core l for the k-th beat from now: from the plans, else a repeat (R528). -/
def State.ahead (s : State) (l k : Nat) : Nat :=
  match s.planAt (s.beatNo k) with
  | some m => SMap.get 0 m l
  | none => s.bindEntry l (eKeep (s.entry l))

/-- The entry needs no power. -/
def eIdle (e : Nat) : Bool := eRole e == 0 && !eBrw e

/-- Power-downs and wakes at a boundary (R527, R528). -/
def State.gatePower (s : State) : State :=
  let gate := s.getF .gctlPwrcfg GCTL_PWRCFG.CGATE == 1
  (List.range 192).foldl (fun s l => match s.slotOf l with
    | some p =>
      let c := s.core p
      if s.powered p then
        if !c.waking && c.residents.isEmpty && c.takeover.isNone && c.borrow.isNone && !c.testing && eIdle (s.entry l)
            && (c.failed || (gate && eIdle (s.ahead l 1) && eIdle (s.ahead l 2))) then s.powerDown p
        else s
      else if s.available l && !eIdle (s.ahead l 2) then (s.setDomain p true).modCore p fun c => { c with waking := true }
      else s
    | none => s) s

/-! ## Throttling (R533 to R537) -/

/-- Update k_d of compute die d at a boundary. -/
def State.throttleDie (s : State) (avg : Nat) (alert : Bool) (d : Nat) : State :=
  let r := Reg.gctlDietemp d
  let t := SMap.get 0 s.power.top d
  let lim := s.getF .gctlPwrcfg GCTL_PWRCFG.PLIMIT
  let stack := SMap.get false s.power.dram d
  let hot := decide (4 * s.getF .gctlThermcfg GCTL_THERMCFG.HI ≤ t) || stack
  let s := (s.setF r GCTL_DIETEMP.TEMP t).setF r GCTL_DIETEMP.HOT hot.toNat
  if 8 ≤ d then s
  else
    let above := decide (lim < avg)
    let ext := alert && s.getF .gctlPwrcfg GCTL_PWRCFG.PAEN == 1
    let k := s.getF r GCTL_DIETEMP.K
    let up := min 24 (k + s.getF .gctlPwrcfg GCTL_PWRCFG.THSTEP)
    let n :=
      if hot || above || ext then up
      else if decide (t < 4 * s.getF .gctlThermcfg GCTL_THERMCFG.LO) && decide (100 * avg < 95 * lim) && !alert then k - 1
      else k
    if n = k then s
    else
      let s := (s.setF r GCTL_DIETEMP.K n).note srcBeat 1 0xB1 (d + 16 * n + 512 * hot.toNat + 1024 * above.toNat + 2048 * ext.toNat)
      if k < n then s.health 0 0 1 0 else s

/-- Eligible cores of a die, highest number first (R536). -/
def State.eligible (s : State) (d : Nat) : List Nat :=
  ((List.range 24).map fun i => 24 * d + 23 - i).filter fun l => match s.slotOf l with
    | some p =>
      let e := (s.reg (.coreCqPlan p)).toNat
      (eRole e == 0 || eRole e == 2) && !eBrw e && !eTko e && !eRst e && s.powered p && s.available l
    | none => false

/-- Throttle the cores of a die for the beat that begins (R536, R537). -/
def State.throttleCores (s : State) (d : Nat) : State :=
  let hit := (s.eligible d).take (s.getF (.gctlDietemp d) GCTL_DIETEMP.K)
  ((List.range 24).map (24 * d + ·)).foldl (fun s l => match s.slotOf l with
    | some p =>
      let c := s.core p
      if hit.contains l then
        let s := s.setCore p { c with throttled := true }
        if c.tenantResident && c.takeover.isNone then s.stopSide p else s
      else if c.throttled then
        let s := s.setCore p { c with throttled := false }
        if c.t.stop = .stopped ∧ c.borrow.isNone = true ∧ c.takeover.isNone = true then s.resumeTenant p else s
      else s
    | none => s) s

/-- The thermal state at a boundary: temperatures, power, throttle counts, THERMALERT_N (R533 to R537). -/
def State.thermal (s : State) (avg : Nat) (alert : Bool) : State :=
  let s := (List.range 10).foldl (fun s d => s.throttleDie avg alert d) s
  let s := (s.setF .gctlPwrest GCTL_PWREST.AVG avg).setF .gctlPwrest GCTL_PWREST.PEAK (max avg (s.getF .gctlPwrest GCTL_PWREST.PEAK))
  let s := s.setF .gctlPwrest GCTL_PWREST.LIMIT (decide (s.getF .gctlPwrcfg GCTL_PWRCFG.PLIMIT < avg)).toNat
  let k := (List.range 8).any fun d => s.getF (.gctlDietemp d) GCTL_DIETEMP.K != 0
  let s := { s with power := { s.power with top := [], alert := alert, thermalert := k || s.power.crit.any fun x => x.2 } }
  (List.range 8).foldl State.throttleCores s

/-! ## The boundary (R266) -/

/-- Lock leases fall by one (R180). -/
def decrLeases (regs : List (Reg × BitVec 64)) : List (Reg × BitVec 64) :=
  regs.map fun x => match x.1 with
    | .coreCqLock _ _ =>
      if CORE_CQ_LOCK.STATE.get x.2 = 1 ∧ CORE_CQ_LOCK.NP.get x.2 = 0 then
        (x.1, CORE_CQ_LOCK.LEASE.set x.2 (CORE_CQ_LOCK.LEASE.get x.2 - 1))
      else x
    | _ => x

/-- LOCK_LEASE_EXPIRY: lock n of slot p has no lease left and becomes BROKEN (R180). -/
def execLockLeaseExpiry (p n : Nat) (s : State) : Out :=
  let r := Reg.coreCqLock p n
  s.when
    (decide (p < 208) && decide (n < 64) && decide (s.getF r CORE_CQ_LOCK.STATE = 1) && decide (s.getF r CORE_CQ_LOCK.NP = 0)
      && decide (s.getF r CORE_CQ_LOCK.LEASE = 0))
    (((s.setF r CORE_CQ_LOCK.STATE 2).setF r CORE_CQ_LOCK.LAST (s.getF r CORE_CQ_LOCK.OWNER)).setF r CORE_CQ_LOCK.OWNER 0)

/-- Overrun counts of the tenant commands that have started and not completed (R31, R266, R291). -/
def State.countOverruns (s : State) : State :=
  let hit (c : Cmd) : Bool := c.inst != 0 && c.phase == .running && (c.isKernel || c.isCopy)
  let ns := (s.cmds.filter hit).map fun c => c.inst
  let s := { s with cmds := s.cmds.map fun c => if hit c then { c with ovr := c.ovr + 1 } else c }
  ns.foldl (fun s n => s.charge n fun a => { a with ovr := a.ovr + 1 }) s

/-- Radio commands that still run on slot p (R273, R274): each is a radio deadline event of I0 (R291), the boundary that ends an extension
included. -/
def State.radioDeadline (s : State) (p : Nat) : State :=
  let c := s.core p
  let late := c.residents.filter fun r => r.ctx.inst == 0 && decide (r.began < s.gtc)
  let count (s : State) (_ : Resident) : State := s.charge 0 fun a => { a with ovr := a.ovr + 1 }
  if late.isEmpty then (if c.extension = 0 then s else s.setCore p { c with extension := 0 })
  else
    let ok := s.isStake p || late.all fun r => s.mayBorrow p r.ctx.group
    let note (cls : Nat) (s : State) (r : Resident) : State :=
      count (s.event (srcCore p) 1 cls (s.lcoreNo p) r.ctx.group (min (s.gtc - r.began) (2 ^ 28 - 1))) r
    let past (s : State) (r : Resident) : State :=
      { s with radio := { s.radio with overrun := SMap.put false s.radio.overrun r.ctx.group true } }.modelHit r.ctx.group
    if ok then late.foldl past (late.foldl (note 0x34) (s.setCore p { c with extension := 0 }))
    else if c.extension = 0 then late.foldl (note 0x35) (s.setCore p { c with extension := 1 })
    else late.foldl count (s.setCore p { c with extension := 2 })

/-- Terms of fixed leases: they begin at the first boundary at which a core takes ROLE 3 (R319). -/
def State.fixedTerms (s : State) : State :=
  s.insts.foldl (fun s x =>
    if s.getF (.iwState x.1) IW_STATE.FIXED = 0 then s
    else match x.2.fixedLeft with
      | some k => s.modInst x.1 fun y => { y with fixedLeft := some (k - 1) }
      | none =>
        if x.2.lease.any fun l => eRole (s.entry l) == 3 && eOwner (s.entry l) == x.1 then
          s.modInst x.1 fun y => { y with fixedLeft := some y.fixedTerm }
        else s) s

/-- FIXED_LEASE_END: the term of instance n has run out; its cores return to ROLE 2, their tenant state is discarded, and commands that
run there re-run (R282, R285, R319). -/
def execFixedLeaseEnd (n : Nat) (s : State) : Out :=
  let s1 := (s.modInst n fun x => { x with fixedLeft := none, fixedTerm := 0 }).setF (.iwState n) IW_STATE.FIXED 0
  let one (s : State) (l : Nat) : State := match s.slotOf l with
    | some p =>
      if s.role p = 3 ∧ s.getF (.coreCqPlan p) CORE_CQ_PLAN.OWNER = n then
        let k : TakeOver := { phase := .stopping, from_ := n, to_ := n, role := 3, since := s.gtc, spillAt := 0, slot := none, restore := none }
        ((s.setF (.coreCqPlan p) CORE_CQ_PLAN.ROLE 2).discard p).startTake p k
      else s
    | none => s
  s.when (decide (1 ≤ n) && decide (n ≤ 64) && decide ((s.inst n).fixedLeft = some 0))
    ((s.inst n).lease.foldl one s1)

/-- The boundary stop of a tenant side that is issuing and whose entry stays (R266, R267); radio work of a stake core continues (R273). -/
def State.boundaryStop (s : State) (p : Nat) : State :=
  let c := s.core p
  if !s.isStake p && c.tenantResident && c.borrow.isNone && c.takeover.isNone then s.stopSide p else s

/-- The entries of the beat that begins, and whether they are a repeat: the latched ones, else the previous ones (R30, R264). -/
def State.nextEntries (s : State) : SMap Nat × Bool :=
  match s.beat.latched with
  | some m => ((List.range 192).map fun l => (l, s.bindEntry l (SMap.get 0 m l)), false)
  | none => ((List.range 192).map fun l => (l, s.bindEntry l (eKeep (s.entry l))), true)

/-- The entries take force on every mapped core; a core that is not awake gets none for this beat (R528). -/
def State.applyEntries (s : State) (m : SMap Nat) (repeated : Bool) : State :=
  let late := m.filter fun x => !eIdle x.2 && (match s.slotOf x.1 with
    | some p => !s.powered p || (s.core p).waking
    | none => false)
  let one (s : State) (x : Nat × Nat) : State := match s.slotOf x.1 with
    | some p =>
      if late.any fun y => y.1 == x.1 then (s.setReg (.coreCqPlan p) 0).event srcBeat 1 0xB4 x.1 0x7F x.1
      else s.applyEntry x.1 p x.2 repeated
    | none => s
  let s := m.foldl one s
  { s with beat := { s.beat with late := late.map fun x => (x.1, eKeep x.2) } }

/-- Numbering and length of the beat that begins (R28, R258, R259); with a plan period the plans of the periods before it lapse (R29, R30). -/
def State.nextBeat (s : State) : State :=
  if s.beat.first then { s with beat := { s.beat with first := false } }
  else
    let num := s.beatNo 1
    let s := { s with
      beat := { s.beat with boundary := s.beat.boundary + s.beat.length }
      time := { s.time with ideal := s.time.ideal + s.beatNs } }
    let s := s.setF .timeBeat TIME_BEAT.NUM num
    let s := if num % s.periodBeats = 0 then
        { s with beat := { s.beat with plans := s.beat.plans.filter fun x => x.first == num } }
      else s
    if num = 0 then { s with beat := { s.beat with length := beatCycles (s.getF .timeBeat TIME_BEAT.DIV) } } else s

/-- The first boundary makes the chip radio-ready (R506). -/
def State.radioReadyNote (s : State) : State :=
  let s := s.setF .mpBootstat MP_BOOTSTAT.STAGE 6
  (s.note srcMp 0 0xA0 6).note srcMp 0 0xA2 (min (s.gtc / 3600000) (2 ^ 28 - 1))

/-- What the cores do at a boundary, in the order of R266. -/
def State.boundaryCores (s : State) : State :=
  let slots := (List.range 192).filterMap s.slotOf
  let s := { s with regs := decrLeases s.regs }.countOverruns
  let s := slots.foldl State.boundaryStop s
  let s := { s with radio := { s.radio with overrun := [] } }
  let s := slots.foldl State.radioDeadline s
  slots.foldl State.serveRadio s

/-- BEAT_BOUNDARY: cycle 0 of a beat. avg: the estimated power over the last ms in W; alert: PWRALERT_N is asserted. -/
def execBeatBoundary (avg : Nat) (alert : Bool) (s : State) : Out :=
  let due := if s.beat.first then s.beat.boundary else s.beat.boundary + s.beat.length
  let wasFirst := s.beat.first
  let miss := s.beat.latched.isNone && !s.beat.refused
  let s1 := s.dropFailed
  let ents := s1.nextEntries
  let s2 := s1.nextBeat
  let s3 := if miss then
      ((s2.setF .timePlanstat TIME_PLANSTAT.MISS 1).planCount).note srcBeat 0 0x30 (s2.beatNo 0 % s2.periodBeats)
    else s2
  let s4 := s3.applyEntries ents.1 ents.2
  let s5 := { s4 with beat := { s4.beat with latched := none, latchDone := false, refused := false } }
  let s6 := (s5.boundaryCores.fixedTerms.thermal avg alert).gatePower
  let s7 := (List.range 64).foldl (fun s n => s.shrinkLease (n + 1)) s6
  let s8 := (if wasFirst then s7 else s7.beatAlign).beatTrace (decide (s7.getF .timeBeat TIME_BEAT.NUM = 0))
  s.when (s.beat.started && decide (due ≤ s.gtc) && decide (avg < 4096))
    (if wasFirst then s8.radioReadyNote else s8)

end Sys2Proof.Machine
end

