-- ==== Sys2Proof/Machine/Radio.lean ====
section
/-!
DEFINITION. The radio layer-1 service: FAPI messages, admission, slots, contexts, models, DPD training (R408 to R439).
-/
namespace Sys2Proof.Machine

/-! ## Enabling a queue pair (R418) -/

/-- Read a watched line of a queue pair by RDS (R301, R414). -/
def State.qpWatch (s : State) (q : Nat) (out : Bool) : State :=
  let ipa := 64 * if out then s.getF (.rlQpOutwline q) RL_QP_OUTWLINE.ADDR else s.getF (.rlQpInwline q) RL_QP_INWLINE.ADDR
  match s.qpPlace ipa false with
  | some a => s.cclSend .rds a [] (.queuePair q out)
  | none => s.qpError q

/-- A watched line of a queue pair has arrived: PROD of the inbound ring, or CONS of the outbound ring. -/
def State.qpLine (s : State) (q : Nat) (out : Bool) (v : Nat) : State :=
  let x := s.qp q
  let g := s.getF (.rlQpCtl q) RL_QP_CTL.CTX
  if x.enabling ≠ 0 then
    let s := s.setQp q (if out then { x with enabling := x.enabling - 1, outProd := v, outCons := v }
      else { x with enabling := x.enabling - 1, inProd := v, inCons := v })
    if x.enabling = 1 then s.showGroup g else s
  else if out then State.qpFlush ((x.held.length + 1)) q (s.setQp q { x with outCons := v })
  else s.setQp q { x with inProd := v }

/-- Record of an ignored write to a register of window n (R303, R555). -/
def State.regIgnored (s : State) (n off : Nat) : State := s.event srcRegs 0 0x08 0xFF n off

/-- QUEUE_PAIR_ENABLE: v is written to RL_QPq_CTL and takes EN from 0 to 1. -/
def execQueuePairEnable (q v : Nat) (s : State) : Out :=
  let w := BitVec.ofNat 64 v
  let size (f : Fld) : Bool := decide (16 ≤ f.get w) && decide (f.get w ≤ 26)
  let ok := decide (s.getF (.rlQpStatus q) RL_QP_STATUS.STATE ≤ 1) && size RL_QP_CTL.LIN && size RL_QP_CTL.LOUT
    && decide (RL_QP_CTL.CTX.get w ≠ 127)
  let s1 := s.setReg (.rlQpCtl q) (BitVec.ofNat 64 (v / 2 ^ 13 * 2 ^ 13 + v % 2 ^ 11))
  let s1 := ((s1.setF (.rlQpStatus q) RL_QP_STATUS.STATE 0).setF (.rlQpStatus q) RL_QP_STATUS.FAULTS 0).setQp q { Qp.off with enabling := 2 }
  s.when
    (decide (q < 64) && decide (v < 2 ^ 32) && decide (RL_QP_CTL.EN.get w = 1) && decide (s.getF (.rlQpCtl q) RL_QP_CTL.EN = 0))
    (if ok then (s1.qpWatch q false).qpWatch q true else s.regIgnored 0 (0x4000 + 0x80 * q))

/-! ## Reading a record (R415, R416) -/

/-- The inbound record at the reading position is consumed: the status line shows CONS. -/
def State.qpTake (s : State) (q len : Nat) (above : Bool) : State :=
  let x := s.qp q
  let l := 2 ^ s.getF (.rlQpCtl q) RL_QP_CTL.LIN
  let n := recordSize len
  let need := ringNeed l x.inCons n
  let cons := if above then x.inProd else x.inCons + need
  let s := s.setQp q { x with inCons := cons, inSeq := x.inSeq + 1 + if need = n then 0 else 1 }
  s.qpWrite q (s.getF (.rlQpInsline q) RL_QP_INSLINE.ADDR * 64) (leBytes 8 cons ++ leBytes 56 0) (.qpStatus q false)

/-- A CONFIG.request for cell phy waits for Grizor on a queue pair of context g. -/
def State.configWaits (s : State) (g phy : Nat) : Bool :=
  s.radio.p5.any fun w => w.phy == phy && s.getF (.rlQpCtl w.qp) RL_QP_CTL.CTX == g && (match w.msg with | .config _ => true | _ => false)

/-- Handle one inbound record of queue pair q: SEQ, LEN and PHYID are checked, then the message has its effect. idle: the message may
name a cell that is IDLE. -/
def fapiMsg (q seq len phy : Nat) (idle : Bool) (eff : State → State) (s : State) : Out :=
  let x := s.qp q
  let l := 2 ^ s.getF (.rlQpCtl q) RL_QP_CTL.LIN
  let n := recordSize len
  let need := ringNeed l x.inCons n
  let above := decide (x.inProd < x.inCons + need)
  let member := match s.cell phy with
    | some c => c.ctx == s.getF (.rlQpCtl q) RL_QP_CTL.CTX
    | none => (idle || s.configWaits (s.getF (.rlQpCtl q) RL_QP_CTL.CTX) phy) && decide (phy < 1024)
  let good := !above && decide (seq = x.inSeq + if need = n then 0 else 1) && member
  let s1 := s.qpTake q len above
  s.when (decide (q < 64) && s.qpLive q && decide (x.inCons < x.inProd))
    (if good then eff s1 else s1.errorInd q phy 0x80 [])

/-! ## Admission (R408, R409, R419, R423, R424, R427 to R429) -/

/-- A row of the cell-cost table: numerology, bandwidth, antennas, DL and UL layers, cost, neural adder. -/
structure CostRow where
  mu : Nat
  bw : Nat
  ant : Nat
  dl : Nat
  ul : Nat
  cost : Nat
  adder : Nat

def costTable : List CostRow :=
  [⟨1, 100, 4, 4, 4, 30, 6⟩, ⟨1, 40, 4, 4, 4, 13, 3⟩, ⟨0, 20, 4, 4, 4, 8, 2⟩, ⟨1, 100, 8, 4, 4, 42, 9⟩, ⟨1, 100, 32, 8, 4, 88, 36⟩,
    ⟨1, 100, 64, 16, 8, 160, 64⟩, ⟨3, 200, 2, 2, 2, 62, 16⟩, ⟨3, 400, 2, 2, 2, 120, 30⟩]

/-- Smallest row that meets or exceeds a cell, with its place in the table (R427). -/
def costRow (c : CellCfg) : Option (CostRow × Nat) :=
  let fit := costTable.zipIdx.filter fun x => x.1.mu == c.mu && decide (c.bw ≤ x.1.bw) && decide (c.ant ≤ x.1.ant) && decide (c.dl ≤ x.1.dl)
    && decide (c.ul ≤ x.1.ul)
  fit.foldl (fun b x => match b with
    | some y => if x.1.cost < y.1.cost then some x else b
    | none => some x) none

/-- Cost units of a cell (R427, R430): an FDD cell at 30 kHz costs 8/5 of its row; the adder is the one that the model declares. -/
def State.cellCost (s : State) (c : CellCfg) : Option Nat :=
  (costRow c).bind fun x =>
    let base := if c.mu = 1 ∧ c.fdd = true then (x.1.cost * 8 + 4) / 5 else x.1.cost
    match c.model with
    | none => some base
    | some n => (SMap.get none s.radio.models n).map fun l => base + (l[x.2]?).getD 0

/-- Cores that count toward the radio capacity (R428, R429). -/
def State.radioCores (s : State) : Nat :=
  let free := (List.range 192).filter fun l => s.available l && (match s.slotOf l with | some p => s.role p != 3 | none => false)
  min (s.stakeCount + s.getF .timePlancfg TIME_PLANCFG.BPEAK) free.length

/-- Cost units in force but for one cell; 512 are the service's own (R427). -/
def State.costWithout (s : State) (phy : Nat) : Nat :=
  512 + (s.radio.cells.map fun x => match x.2 with | some c => if x.1 = phy then 0 else c.cost | none => 0).sum

/-- Contexts in use: those that hold a cell, and the DPD context. -/
def State.contexts (s : State) : List Nat :=
  ((s.radio.cells.filterMap fun x => x.2.map (·.ctx)) ++ s.radio.dpdCtx.toList).eraseDups

/-- Sub-ports of a port mode (R381). -/
def subPorts : Nat → Nat
  | 0 => 1 | 1 => 2 | 2 => 4 | _ => 0

/-- The flow entries of a request name ports, entries and sub-ports that exist (R385). -/
def State.flowsOk (s : State) (c : CellCfg) : Bool :=
  let sub (p k : Nat) : Bool := decide (p < 24) && decide (k < subPorts (s.getF (.fhCfg p) FH_CFG.MODE))
  c.flows.all (fun x => decide (x.2.1 < 1024) && sub x.1 (FH_FLOW_HI.SUB.get (BitVec.ofNat 64 x.2.2.2)))
    && c.wins.all (fun x => sub x.1 x.2.1) && c.shapers.all (fun x => sub x.1 x.2.1)

/-- The carrier is one of R419: numerology, bandwidth in MHz, duplex, antenna ports, layers. -/
def carrierOk (mu bw ant dl ul : Nat) (fdd : Bool) : Bool :=
  (match mu with
    | 0 => decide (5 ≤ bw) && decide (bw ≤ 50)
    | 1 => decide (5 ≤ bw) && decide (bw ≤ 100)
    | 3 => [50, 100, 200, 400].contains bw && !fdd
    | _ => false)
    && [1, 2, 4, 8, 32, 64].contains ant && decide (1 ≤ dl) && decide (dl ≤ 16) && decide (1 ≤ ul) && decide (ul ≤ 8)

/-- Contents of the refusal of a CONFIG.request, none where it is accepted: the error code, then the vendor TLV: 0x8C and the broken
limit, or the remaining capacity. -/
def State.configRefusal (s : State) (phy g : Nat) (c : CellCfg) : Option (List Nat) :=
  let new := (s.cell phy).isNone
  let used := s.contexts
  let cap := 64 * s.radioCores
  let pools := (s.radio.cells.map fun x => match x.2 with | some y => if x.1 = phy then 0 else y.pool | none => 0).sum + c.pool
  if (match s.cell phy with | some x => x.phase == .running | none => false) = true then some [errSTATE]
  else if new = true ∧ used.contains g = false ∧ 64 ≤ used.length then some [errCONFIG, 0x8C, 0]
  else if new = true ∧ 16 ≤ (s.cellsOf g).length then some [errCONFIG, 0x8C, 1]
  else if new = true ∧ 512 ≤ (s.radio.cells.filter fun x => x.2.isSome).length then some [errCONFIG, 0x8C, 2]
  else if carrierOk c.mu c.bw c.ant c.dl c.ul c.fdd = false ∨ s.slotBeats c.mu < 8 ∨ s.flowsOk c = false then some [errCONFIG]
  else if 250000 / 2 ^ c.mu < c.t1a ∨ 250000 / 2 ^ c.mu < c.ta4 then some [errCONFIG]
  else if (s.inst 0).quota * 2 ^ 30 < pools then some [errCONFIG]
  else match s.cellCost c with
    | none => some [errCONFIG]
    | some k => if cap < s.costWithout phy + k then some [errCONFIG, cap - s.costWithout phy] else none

/-- Write the flow entries, windows and shapers of a cell (R386, R417). -/
def State.writeFlows (s : State) (c : CellCfg) : State :=
  let s := c.flows.foldl (fun s x =>
    (s.setReg (.fhFlowLo x.1 x.2.1) (BitVec.ofNat 64 (x.2.2.1 / 2 ^ 24 * 2 ^ 24))).setReg (.fhFlowHi x.1 x.2.1)
      (BitVec.ofNat 64 (x.2.2.2 / 2 ^ 14 * 2 ^ 14))) s
  let s := c.wins.foldl (fun s x => s.setReg (.fhWin x.1 x.2.1) (BitVec.ofNat 64 x.2.2)) s
  c.shapers.foldl (fun s x => (s.setF (.fhShport x.1 x.2.1) FH_SHPORT.RATE (x.2.2 / 2 ^ 32)).setF (.fhShport x.1 x.2.1) FH_SHPORT.BURST x.2.2) s

/-- Clear what a cell has written. -/
def State.clearFlows (s : State) (phy : Nat) (c : Cell) : State :=
  let others := s.radio.cells.filterMap fun x => if x.1 = phy then none else x.2
  let s := c.flows.foldl (fun s x => (s.setReg (.fhFlowLo x.1 x.2) 0).setReg (.fhFlowHi x.1 x.2) 0) s
  let s := (c.wins.filter fun w => !others.any fun y => y.wins.contains w).foldl (fun s x => s.setReg (.fhWin x.1 x.2) 0) s
  (c.shapers.filter fun w => !others.any fun y => y.shapers.contains w).foldl (fun s x => s.setReg (.fhShport x.1 x.2) 0) s

/-! ## P5 messages (R417) -/

def State.configure (s : State) (phy g : Nat) (c : CellCfg) : State :=
  let s := if s.contexts.contains g then s else s.setRctx g .up
  let s := match s.cell phy with | some x => s.clearFlows phy x | none => s
  let s := s.setCell phy (some
    { ctx := g
      phase := .configured
      mu := c.mu
      cost := (s.cellCost c).getD 0
      pool := c.pool
      model := c.model
      fallback := 0
      flows := c.flows.map fun x => (x.1, x.2.1)
      wins := c.wins.map fun x => (x.1, x.2.1)
      shapers := c.shapers.map fun x => (x.1, x.2.1)
      start := none
      stopping := false
      accepted := [] })
  (s.writeFlows c).showGroup g

/-- Cycle of the first radio frame that starts at least 2 ms from now. -/
def State.nextFrame (s : State) : Nat :=
  let f := 10 * s.perMs
  let t := s.beat.boundary + (f - s.getF .timeBeat TIME_BEAT.NUM % f) * s.beat.length
  if s.gtc + 7200000 ≤ t then t else t + f * s.beat.length

/-- CELL_START: the radio frame has come; the cell is RUNNING. -/
def execCellStart (phy : Nat) (s : State) : Out :=
  match s.cell phy with
  | some c =>
    s.when (match c.start with | some t => decide (t ≤ s.gtc) | none => false)
      ((s.modCell phy fun c => { c with phase := .running, start := none }).showGroup c.ctx)
  | none => s.when false s

/-- The cell has stopped: CONFIGURED, with STOP.indication (R417). -/
def State.cellStopped (s : State) (phy : Nat) (c : Cell) : State :=
  let s := s.modCell phy fun c => { c with phase := .configured, stopping := false, start := none, accepted := [] }
  ((s.qpsOf c.ctx).foldl (fun s q => s.fapi q ⟨msgSTOPIND, phy, []⟩) s).showGroup c.ctx

/-! ## P7 messages (R424, R425) -/

/-- A request of type t for a slot, with its deadline lead beats before the slot. For a late DL_TTI.request the slot carries section type 0
(R425). -/
def p7 (t q seq len phy slot : Nat) (lead : Nat → Nat) (eff : State → Cell → State) (s : State) : Out :=
  fapiMsg q seq len phy false
    (fun s => match s.cell phy with
      | some c =>
        if c.phase ≠ .running ∨ c.stopping = true ∨ s.beat.started = false then s.errorInd q phy errSTATE [t, slot]
        else
          let late := (s.errorInd q phy errSLOT [t, slot]).event srcMp 0 0x72 0xFF c.ctx (phy % 1024 + 1024 * t)
          let late := if t = 0x80 then late.idleSlot c slot else late
          let b := s.slotBeats c.mu
          if hyperSlots c.mu ≤ slot then s.errorInd q phy errSFN [t, slot]
          else match s.beatsTo c.mu slot with
            | none => late
            | some k =>
              if k < lead b ∨ (k = lead b ∧ s.beat.boundary < s.gtc) then late
              else if 64 * b < k then s.errorInd q phy errSFN [t, slot]
              else eff s c
      | none => s) s

/-- Deadlines of R424: slot n - 2, beat BPS/2 for downlink, slot n - 1, beat 0 for UL_TTI. -/
def dlLead (b : Nat) : Nat := 2 * b - b / 2
def ulLead (b : Nat) : Nat := b

/-- Add a slot to those accepted for processing. -/
def State.acceptSlot (s : State) (phy : Nat) (w : SlotWork) : State :=
  s.modCell phy fun c => if c.accepted.any fun x => x.no == w.no && x.dl == w.dl then c else { c with accepted := c.accepted ++ [w] }

def execDlTtiRequest (q seq len phy slot : Nat) (s : State) : Out :=
  p7 0x80 q seq len phy slot dlLead (fun s _ => s.acceptSlot phy ⟨slot, true, 0, 0, 0, 0⟩) s

def execUlDciRequest (q seq len phy slot : Nat) (s : State) : Out :=
  p7 0x83 q seq len phy slot dlLead (fun s _ => s.acceptSlot phy ⟨slot, true, 0, 0, 0, 0⟩) s

def execTxDataRequest (q seq len phy slot : Nat) (s : State) : Out :=
  p7 0x84 q seq len phy slot dlLead (fun s _ => s.acceptSlot phy ⟨slot, true, 0, 0, 0, 0⟩) s

/-- UL_TTI_REQUEST: with the numbers of its PUSCH and UCI PDUs and of its PRBs. -/
def execUlTtiRequest (q seq len phy slot pusch uci prbs : Nat) (s : State) : Out :=
  p7 0x81 q seq len phy slot ulLead (fun s _ => s.acceptSlot phy ⟨slot, false, pusch, uci, prbs, 0⟩) s

/-! ## Models and DPD (R430 to R434) -/

/-- RL_DPD record and DPD_TRAIN.response. -/
def State.dpdAnswer (s : State) (q phy g code : Nat) (l : List Nat) : State :=
  (s.fapi q ⟨msgDPDRESP, phy, l⟩).event srcMp 0 0x75 0xFF g (phy % 1024 + 1024 * code)

/-- The limits of R432 on the orders, the samples of the capture and the number of coefficients. -/
def dpdOk (orders : List Nat) (samples coeffs : Nat) : Bool :=
  (match orders with
    | [k, m, c] => [1, 3, 5, 7, 9].contains k && decide (1 ≤ m) && decide (m ≤ 8) && decide (c ≤ 4)
    | _ => false) && decide (4096 ≤ samples) && decide (samples ≤ 1048576) && decide (coeffs ≤ 128)

/-! ## Grizor's messages (R417): queued under load and never dropped -/

/-- A CONFIG.request: the cell is admitted and configured, or refused (R409, R428). -/
def State.p5Config (s : State) (q phy : Nat) (cfg : CellCfg) : State :=
  let g := s.getF (.rlQpCtl q) RL_QP_CTL.CTX
  match s.configRefusal phy g cfg with
  | some l => s.fapi q ⟨msgCONFIGRESP, phy, l⟩
  | none => (s.configure phy g cfg).fapi q ⟨msgCONFIGRESP, phy, [errOK]⟩

/-- A START.request: the cell starts at a radio frame (R417); a HALTED context is taken up again (R436). -/
def State.p5Start (s : State) (q phy : Nat) : State :=
  match s.cell phy with
  | some c =>
    if c.phase = .configured then
      let s := s.modCell phy fun c => { c with start := some s.nextFrame }
      (s.setRctx c.ctx { s.rctx c.ctx with halted := false, recent := if (s.rctx c.ctx).halted then [] else (s.rctx c.ctx).recent }).showGroup c.ctx
    else s.errorInd q phy errSTATE [0x04]
  | none => s

/-- A STOP.request: a RUNNING cell stops after its accepted slots; a CONFIGURED cell returns to IDLE (R408, R417; log 27). -/
def State.p5Stop (s : State) (q phy : Nat) : State :=
  match s.cell phy with
  | some c =>
    if c.phase = .running then
      (if c.accepted.isEmpty then s.cellStopped phy c else s.modCell phy fun c => { c with stopping := true })
    else (((s.clearFlows phy c).setCell phy none).showGroup c.ctx).fapi q ⟨msgSTOPIND, phy, []⟩
  | none => s

/-- A MODEL_LOAD.request: model no, image size in bytes, cost adders, no V-flagged word, signature correct (R430). The vendor code of a
refusal is free (log 3); the image lies in I0's frames in a layout of the service's own (log 77). -/
def State.p5Model (s : State) (q phy no size : Nat) (adders : List Nat) (clean signed : Bool) : State :=
  if no < 64 ∧ size ≤ 2 ^ 28 ∧ clean = true ∧ signed = true then
    { s with radio := { s.radio with models := SMap.put none s.radio.models no (some adders) } }.fapi q ⟨msgMODELRESP, phy, [0, no]⟩
  else { s with free := s.free + 1 }.fapi q ⟨msgMODELRESP, phy, [0x80 + (Config.freeBits s.free).toNat % 13, no]⟩

/-- A DPD_TRAIN.request is queued for the DPD context, or refused (R432, R434). -/
def State.p5Dpd (s : State) (q phy chain : Nat) (orders : List Nat) (samples coeffs : Nat) : State :=
  if dpdOk orders samples coeffs then
    { s with radio := { s.radio with dpd := s.radio.dpd ++ [⟨q, phy, chain, orders ++ [coeffs], samples, s.gtc⟩] } }
  else s.dpdAnswer q phy (s.getF (.rlQpCtl q) RL_QP_CTL.CTX) 7 [0x87, chain]

/-- Grizor handles a message. -/
def State.p5Do (s : State) (w : P5Work) : State :=
  match w.msg with
  | .param => s.fapi w.qp ⟨msgPARAMRESP, w.phy, [errOK]⟩
  | .config cfg => s.p5Config w.qp w.phy cfg
  | .start => s.p5Start w.qp w.phy
  | .stop => s.p5Stop w.qp w.phy
  | .modelLoad no size adders clean signed => s.p5Model w.qp w.phy no size adders clean signed
  | .dpdTrain chain orders samples coeffs => s.p5Dpd w.qp w.phy chain orders samples coeffs

/-- Grizor can handle a message now; a START needs the beat. -/
def State.p5Ready (s : State) (w : P5Work) : Bool := s.mpServes && (w.msg != .start || s.beat.started)

/-- Grizor handles up to n of the messages that wait, in order. -/
def State.p5Run : Nat → State → State
  | 0, s => s
  | n + 1, s => match s.radio.p5 with
    | [] => s
    | w :: rest => if s.p5Ready w then State.p5Run n ({ s with radio := { s.radio with p5 := rest } }.p5Do w) else s

/-- A message for Grizor has been read. -/
def State.p5Take (s : State) (w : P5Work) : State :=
  State.p5Run (s.radio.p5.length + 1) { s with radio := { s.radio with p5 := s.radio.p5 ++ [w] } }

/-- PARAM_REQUEST, answered by PARAM.response. -/
def execParamRequest (q seq len phy : Nat) (s : State) : Out := fapiMsg q seq len phy true (fun s => s.p5Take ⟨q, phy, .param⟩) s

def execConfigRequest (q seq len phy : Nat) (cfg : CellCfg) (s : State) : Out :=
  fapiMsg q seq len phy true (fun s => s.p5Take ⟨q, phy, .config cfg⟩) s

def execStartRequest (q seq len phy : Nat) (s : State) : Out := fapiMsg q seq len phy false (fun s => s.p5Take ⟨q, phy, .start⟩) s

def execStopRequest (q seq len phy : Nat) (s : State) : Out := fapiMsg q seq len phy false (fun s => s.p5Take ⟨q, phy, .stop⟩) s

def execModelLoadRequest (q seq len phy no size : Nat) (adders : List Nat) (clean signed : Bool) (s : State) : Out :=
  fapiMsg q seq len phy true (fun s => s.p5Take ⟨q, phy, .modelLoad no size adders clean signed⟩) s

def execDpdTrainRequest (q seq len phy chain : Nat) (orders : List Nat) (samples coeffs : Nat) (s : State) : Out :=
  fapiMsg q seq len phy false (fun s => s.p5Take ⟨q, phy, .dpdTrain chain orders samples coeffs⟩) s

/-! ## DPD training (R432 to R434) -/

def State.dropDpd (s : State) (j : DpdJob) : State := { s with radio := { s.radio with dpd := s.radio.dpd.filter fun x => x != j } }

/-- DPD_TRAIN_COMPLETE: the fit of a request ends; capture: the samples in the buffer that it named (R433). -/
def execDpdTrainComplete (phy chain : Nat) (capture : List Nat) (s : State) : Out :=
  match s.radio.dpd.find? fun j => j.phy == phy && j.chain == chain with
  | some j =>
    s.when (s.radio.dpdCtx.isSome && decide (capture.length = j.len) && decide (s.gtc ≤ j.at_ + s.radio.dpdMax))
      ((s.dropDpd j).dpdAnswer j.qp phy (s.radio.dpdCtx.getD 127) 0 ([0, chain] ++ Config.dpdFit capture j.orders))
  | none => s.when false s

/-- DPD_TRAIN_TIMEOUT: DPD_TMAX has expired (R434). -/
def execDpdTrainTimeout (phy chain : Nat) (s : State) : Out :=
  match s.radio.dpd.find? fun j => j.phy == phy && j.chain == chain with
  | some j =>
    s.when (decide (j.at_ + s.radio.dpdMax ≤ s.gtc))
      ((s.dropDpd j).dpdAnswer j.qp phy (s.radio.dpdCtx.getD 127) 8 [0x88, chain])
  | none => s.when false s

/-! ## Slot starts (R417, R424, R429, R435, R437, R438) -/

/-- Slots from slot a to the present one. -/
def State.slotsSince (s : State) (mu a : Nat) : Nat := (s.slotNo mu + hyperSlots mu - a % hyperSlots mu) % hyperSlots mu

/-- A slot is over when its uplink front end must be ready: retired at the second slot start after it. -/
def State.slotOver (s : State) (mu no : Nat) : Bool := let k := s.slotsSince mu no; decide (2 ≤ k) && decide (k < hyperSlots mu / 2)

/-- Erasures of an uplink slot beyond the threshold are reported (R438). -/
def State.erasures (s : State) (phy : Nat) (c : Cell) (w : SlotWork) : State :=
  if !w.dl && decide (s.radio.erase * w.prbs < 100 * (w.prbs - w.got)) then
    (s.cellError c.ctx phy 0x85 [w.no]).event srcMp 1 0x73 0xFF c.ctx (phy % 1024 + 1024 * 1)
  else s

/-- What a slot start means for one cell. -/
def State.cellSlot (s : State) (phy : Nat) (c : Cell) : State :=
  let s := if c.phase = .running then (s.qpsOf c.ctx).foldl (fun s q => s.fapi q ⟨msgSLOT, phy, [s.slotNo c.mu]⟩) s else s
  let above := c.accepted.filter fun w => s.slotOver c.mu w.no
  let s := above.foldl (fun s w => s.erasures phy c w) s
  let left := c.accepted.filter fun w => !s.slotOver c.mu w.no
  let s := s.modCell phy fun c => { c with accepted := left, fallback := if 1 < c.fallback then c.fallback - 1 else c.fallback }
  if c.stopping && left.isEmpty then s.cellStopped phy c else s

/-- A cell's slots that a teardown has cost: a CRC failure for every PUSCH, every UCI not detected (R435). -/
def State.loseSlots (s : State) (phy : Nat) (c : Cell) : State :=
  let lost (w : SlotWork) : Bool := decide (s.slotsSince c.mu w.no < hyperSlots c.mu / 2)
  let s := (c.accepted.filter fun w => lost w && !w.dl).foldl (fun s w =>
    (s.qpsOf c.ctx).foldl (fun s q => (s.fapi q ⟨msgCRC, phy, [w.no, w.pusch, 1]⟩).fapi q ⟨msgUCI, phy, [w.no, w.uci, 1]⟩) s) s
  s.modCell phy fun c => { c with accepted := c.accepted.filter fun w => !lost w }

/-- A context that is down is re-created at a slot start of its finest numerology, after the end of a warm reset (R435, R437). -/
def State.recreate (s : State) (mu g : Nat) : State :=
  let x := s.rctx g
  match x.down with
  | some t =>
    if s.finest g ≠ mu ∨ x.halted = true ∨ s.boot.warm = true then s
    else
      let len := s.slotBeats mu * s.beat.length
      let lost := (s.gtc - t + len - 1) / len
      let hs := hyperSlots mu
      let first := (s.slotNo mu + hs - lost % hs) % hs
      let last := (s.slotNo mu + hs - 1) % hs
      let s := (s.cellsOf g).foldl (fun s y => s.loseSlots y.1 y.2) s
      let s := (s.setRctx g { x with down := none, warm := false }).showGroup g
      let s := s.event srcMp 0 0x71 0xFF g (1024 * min lost (2 ^ 18 - 1))
      let phy := ((s.cellsOf g).head?.map Prod.fst).getD 0xFFFF
      s.cellError g phy (if x.warm then 0x8B else 0x82) [first, last]
  | none => s

/-- A fall of the radio capacity is reported once (R429). -/
def State.capacityCheck (s : State) : State :=
  let n := s.radioCores
  let s1 := { s with radio := { s.radio with capCores := n } }
  if n < s.radio.capCores then
    ((List.range 64).filter fun q => s.qpLive q).foldl (fun s q => s.errorInd q 0xFFFF 0x89 [64 * n]) s1
  else s1

/-- SLOT_START: a slot of numerology mu starts (R417). -/
def execSlotStart (mu : Nat) (s : State) : Out :=
  let s1 := { s with radio := { s.radio with slotMark := SMap.put 0 s.radio.slotMark mu (s.beat.boundary + 1), missed := [] } }
  let s2 := (List.range 127).foldl (fun s g => s.recreate mu g) s1.capacityCheck
  let mine := s2.radio.cells.filterMap fun x => match x.2 with | some c => if c.mu = mu then some (x.1, c) else none | none => none
  s.when
    ([0, 1, 3].contains mu && s.beat.started && !s.beat.first && decide (0 < s.slotBeats mu)
      && decide (s.getF .timeBeat TIME_BEAT.NUM % s.slotBeats mu = 0) && decide (SMap.get 0 s.radio.slotMark mu ≠ s.beat.boundary + 1))
    (mine.foldl (fun s x => s.cellSlot x.1 x.2) s2)

/-- CONTEXT_HALT: a context torn down three times within 1 s enters HALTED; its cells stop (R436). -/
def execContextHalt (g : Nat) (s : State) : Out :=
  let x := s.rctx g
  let k := (x.recent.filter fun t => decide (s.gtc < t + 3600000000)).length
  let cells := (s.cellsOf g).filter fun y => y.2.phase == .running
  let s1 := cells.foldl (fun s y => s.cellStopped y.1 y.2) (s.setRctx g { x with halted := true })
  let phy := ((s.cellsOf g).head?.map Prod.fst).getD 0xFFFF
  s.when (decide (g < 127) && !x.halted && decide (3 ≤ k))
    (((s1.cellError g phy 0x84 [k]).showGroup g).event srcMp 2 0x76 0xFF g (1024 * k))

/-- CE_FALLBACK_END: after 1,000 slots the cell returns to its model (R431). -/
def execCeFallbackEnd (phy : Nat) (s : State) : Out :=
  s.when (match s.cell phy with | some c => decide (c.fallback = 1) | none => false)
    (s.modCell phy fun c => { c with fallback := 0 })

/-- INDICATION_DISCARD: the oldest held indication of queue pair q has waited 4 slots of its group's finest numerology (R416). -/
def execIndicationDiscard (q : Nat) (s : State) : Out :=
  let len := s.slotBeats (s.finest (s.getF (.rlQpCtl q) RL_QP_CTL.CTX)) * s.beat.length
  s.when
    (decide (q < 64) && (match (s.qp q).held.head? with | some x => decide (x.1 + 4 * len ≤ s.gtc) | none => false))
    (s.modQp q fun x => { x with held := x.held.drop 1, discarded := x.discarded + 1 })

/-! ## The fronthaul as the cells see it (R438) -/

/-- A change of link state, or a packet-engine restart: ERROR.indication 0x8A for every cell with a flow there; cause 2 link, 3 packet
engine. sub: the sub-port, none for the whole port. -/
def State.fronthaulFault (s : State) (p : Nat) (sub : Option Nat) (cause : Nat) : State :=
  let on (f : Nat × Nat) : Bool := f.1 == p && (match sub with
    | some k => s.getF (.fhFlowHi p f.2) FH_FLOW_HI.SUB == k
    | none => true)
  s.radio.cells.foldl (fun s x => match x.2 with
    | some c =>
      if c.flows.any on then (s.cellError c.ctx x.1 0x8A [p, sub.getD 4]).event srcMp 1 0x73 0xFF c.ctx (x.1 % 1024 + 1024 * cause) else s
    | none => s) s

/-- PRBs of a frame that reached the cell's slot (R438). -/
def State.gotPrbs (s : State) (p f slot n : Nat) : State :=
  { s with radio := { s.radio with cells := s.radio.cells.map fun x => (x.1, x.2.map fun c =>
    if c.flows.contains (p, f) then
      { c with accepted := c.accepted.map fun w =>
          if !w.dl && w.no % (2560 * 2 ^ c.mu) == slot then { w with got := w.got + n } else w }
    else c) } }

end Sys2Proof.Machine
end

