-- ==== Sys2Proof/Machine/Withy.lean ====
section
/-!
DEFINITION. The Withy links: bring-up, retry, routed transactions, ring time and the cable ledger (R440 to R464).
-/
namespace Sys2Proof.Machine

def State.wyPort (s : State) (w : Nat) : WyPort := SMap.get .zero s.withy.ports w
def State.setWyPort (s : State) (w : Nat) (x : WyPort) : State :=
  { s with withy := { s.withy with ports := SMap.put .zero s.withy.ports w x } }
def State.modWyPort (s : State) (w : Nat) (f : WyPort → WyPort) : State := s.setWyPort w (f (s.wyPort w))

/-! ## Link states (R443, R444) -/

def wyDOWN : Nat := 0
def wyIDENTITY : Nat := 1
def wyTRAINING : Nat := 2
def wyUP : Nat := 3
def wyRETRAIN : Nat := 4
def wyFENCED : Nat := 5
def wyREFUSED : Nat := 6

def State.wyState (s : State) (w : Nat) : Nat := s.getF (.wyStatus w) WY_STATUS.STATE
def State.devid (s : State) : Nat := s.getF .wyDevid WY_DEVID.ID
def State.wyPeer (s : State) (w : Nat) : Nat := s.getF (.wyStatus w) WY_STATUS.PEERID

/-- A record of port w (R464, R566). -/
def State.wyNote (s : State) (w sev cls detail : Nat) : State := s.note (srcWy w) sev cls (w + 16 * detail)

/-- Move a port to a state without a record. -/
def State.setWyState (s : State) (w st : Nat) : State := s.setF (.wyStatus w) WY_STATUS.STATE st

/-- Move a port to a state with its WY_LINK record: bits 6:4 of the detail the state, bit 7 a mode mismatch, bit 8 equal IDs (R464). -/
def State.wyLink (s : State) (w st : Nat) (mode same : Bool) : State :=
  (s.setWyState w st).wyNote w (if st = wyDOWN ∨ st = wyFENCED ∨ st = wyREFUSED then 3 else 0) 0x80
    (st + 8 * mode.toNat + 16 * same.toNat)

/-- A port goes down: no lane is active. -/
def State.wyDown (s : State) (w : Nat) (mode same : Bool) : State :=
  (s.setF (.wyStatus w) WY_STATUS.WIDTH 0).wyLink w wyDOWN mode same

/-- Bring-up starts on a DOWN port that is in service, with a cable and a device ID (R443). -/
def State.wyStart (s : State) (w : Nat) : State :=
  if s.getF (.wyCfg w) WY_CFG.EN = 1 ∧ (s.wyPort w).cable = true ∧ s.devid ≠ 0xFFFF ∧ s.wyState w = wyDOWN then
    s.setWyState w wyIDENTITY
  else s

/-- WY_CABLE_LIFE, once for each quantity that has reached LIFETHR percent of the declared life (R462). -/
def State.wyLife (s : State) (w : Nat) : State :=
  let x := s.wyPort w
  let above (n life : Nat) : Bool := decide (s.getF (.wyCfg w) WY_CFG.LIFETHR * life ≤ 100 * n)
  let m := x.serial.isSome && !x.notedMates && above (s.getF (.wyLife w) WY_LIFE.MATES) x.lifeMates
  let h := x.serial.isSome && !x.notedHours && above (s.getF (.wyLife w) WY_LIFE.LANEHRS) x.lifeHours
  let s := s.setWyPort w { x with notedMates := x.notedMates || m, notedHours := x.notedHours || h }
  let s := if m then s.wyNote w 1 0x83 1 else s
  if h then s.wyNote w 1 0x83 2 else s

/-- Grizor writes the counts of a port's cable into the ledger (R462). -/
def State.wyLedger (s : State) (w : Nat) : State :=
  match (s.wyPort w).serial with
  | some n =>
    { s with withy := { s.withy with
      ledger := SMap.put (0, 0) s.withy.ledger n (s.getF (.wyLife w) WY_LIFE.MATES, s.getF (.wyLife w) WY_LIFE.LANEHRS) } }
  | none => s

/-- CABLE_DETECTED: a cable is inserted at port w, which is DOWN or REFUSED; the insertion counts, and bring-up starts where the port
is in service (R443, R462). -/
def execCableDetected (w : Nat) (s : State) : Out :=
  let s1 := (s.setWyPort w { WyPort.zero with cable := true, fresh := true, exch := (s.wyPort w).exch }).satF (.wyLife w) WY_LIFE.MATES 1
  s.when (decide (w < 16) && (decide (s.wyState w = wyDOWN) || decide (s.wyState w = wyREFUSED)))
    ((s1.setWyState w wyDOWN).wyStart w)

/-- Counters of a port's cable start from the ledger's record, and an insertion that has not been counted there counts (R462). -/
def State.wyCounts (s : State) (w serial : Nat) (fresh : Bool) : State :=
  let led := SMap.get (0, 0) s.withy.ledger serial
  (s.setF (.wyLife w) WY_LIFE.MATES (min (led.1 + fresh.toNat) 65535)).setF (.wyLife w) WY_LIFE.LANEHRS led.2

/-- CABLE_IDENTITY_READ_COMPLETE: the cable's identity record has been read (empty when there is none); its serial number and declared
life stand beside it, and signed says whether its signature verifies (R461). -/
def execCableIdentityReadComplete (w : Nat) (record : List Nat) (serial mates hours : Nat) (signed : Bool) (s : State) : Out :=
  let there := !record.isEmpty
  let sig := there && signed
  let bs := record.map (BitVec.ofNat 8)
  let x := s.wyPort w
  let s1 := (List.range 16).foldl (fun s k => s.setReg (.wyCable w k) (BitVec.ofNat 64 (leNat ((bs.drop (8 * k)).take 8)))) s
  let s2 := s1.setF (.wyLife w) WY_LIFE.SIGOK sig.toNat
  let s3 := if there && x.serial.isNone then s2.wyCounts w serial x.fresh else s2
  let y : WyPort := { x with fresh := x.fresh && !there, serial := if there then some serial else none, lifeMates := mates, lifeHours := hours }
  let s4 := s3.setWyPort w y
  let s5 := if there && x.fresh && s.boot.grizor then s4.wyLedger w else s4
  let s6 := if there then s5.wyLife w else s5
  let s7 := if sig then s6 else s6.wyNote w 1 0x82 (if there then 2 else 1)
  s.when
    (decide (w < 16) && decide (s.wyState w = wyIDENTITY) && (record.isEmpty || decide (record.length = 128)))
    (if sig || s.getF (.wyCfg w) WY_CFG.CABPOL == 1 then s7.setWyState w wyTRAINING else s7.wyLink w wyREFUSED false false)

/-- The member table calls a device dead or expelled (R475). -/
def State.fencedPeer (s : State) (d : Nat) : Bool :=
  (List.range 1024).any fun k =>
    s.getF (.wlMember k) WL_MEMBER.ID == d
      && (s.getF (.wlMember k) WL_MEMBER.STATE == 3 || s.getF (.wlMember k) WL_MEMBER.STATE == 4)

/-- f_src with FSRC 2 is the offset measured on WPORT (R370, R446). -/
def State.wySource (s : State) : State :=
  let w := s.getF .timeClk TIME_CLK.WPORT
  if s.getF .timeClk TIME_CLK.FSRC = 2 ∧ s.wyState w = wyUP then
    { s with time := { s.time with
      fsrc := clampQ (-1 / 10000) (1 / 10000) (((signed 32 (s.getF (.wyFofs w) WY_FOFS.FOFS) : Int) : Rat) / 256000000000) } }
  else s

/-- LINK_UP: handshake, training and alignment end with the peer's device ID and MODE, the lanes that work (4 or 2) and the peer's
frequency offset in units of 2^-8 ppb; SEQ is 0 and the credits are full (R443, R444, R446). A peer that Waling has fenced stays fenced (R453, R475). -/
def execLinkUp (w peer : Nat) (lr : Bool) (lanes : Nat) (fofs : Int) (s : State) : Out :=
  let mode := decide (s.getF (.wyCfg w) WY_CFG.MODE ≠ lr.toNat)
  let same := decide (peer = s.devid)
  let s1 := s.setF (.wyStatus w) WY_STATUS.PEERID peer
  let s2 := (s1.setF (.wyStatus w) WY_STATUS.WIDTH lanes).setF (.wyFofs w) WY_FOFS.FOFS (satField 32 fofs)
  let s2 := s2.modWyPort w fun x => { x with seq := 0, first := 0, used0 := 0, used1 := 0, got := 0 }
  s.when
    (decide (w < 16) && decide (peer < 65535) && (decide (lanes = 2) || decide (lanes = 4))
      && (decide (s.wyState w = wyTRAINING) || decide (s.wyState w = wyRETRAIN)))
    (if mode || same then s1.wyDown w mode same
     else (s2.wyLink w (if s.fencedPeer peer then wyFENCED else wyUP) false false).wySource)

/-- A retrain of a port, which counts 64 toward the health input rt (R444, R480). -/
def State.wyRetrain (s : State) (w detail : Nat) : State :=
  ((s.modWyPort w fun x => { x with crcMs := 0 }).setWyState w wyRETRAIN).wyNote w 1 0x81 detail |>.health 0 64 0 0

/-- RETRAIN: loss of symbol lock, more than RETHR CRC errors within one ms, or a lane that has failed; lanes counts the lanes of the
good pairs, 4, 2 or 0 (R441, R444). -/
def execRetrain (w : Nat) (lock : Bool) (lanes : Nat) (s : State) : Out :=
  let crc := decide (s.getF (.wyCfg w) WY_CFG.RETHR < (s.wyPort w).crcMs)
  let drop := decide (lanes < 4)
  let s1 := (s.wyRetrain w (crc.toNat + 2 * lock.toNat + 4 * drop.toNat)).setF (.wyStatus w) WY_STATUS.WIDTH lanes
  s.when
    (decide (w < 16) && decide (s.wyState w = wyUP) && (lock || crc || drop) && [0, 2, 4].contains lanes)
    (if lanes = 0 then s1.wyDown w false false else s1)

/-! ## Flits and retry (R450) -/

/-- n flits arrive at port w. Every flit acknowledges the flits that this end has sent and brings back their credits (DESIGN CHOICE, log
78). -/
def State.wyGot (s : State) (w n : Nat) : State :=
  s.modWyPort w fun x => { x with got := x.got + n, first := x.seq, used0 := 0, used1 := 0 }

/-- FLIT_CRC_ERROR: a flit with a CRC error arrives; it is dropped, as are the flits after it until the repeat arrives (after of them, of
the at most 512 that the sender holds), and a NAK names the last good SEQ. -/
def execFlitCrcError (w after : Nat) (s : State) : Out :=
  s.when (decide (w < 16) && decide (after < 512) && decide (s.wyState w = wyUP))
    (((s.satF (.wyErr w) WY_ERR.CRC 1).modWyPort w fun x => { x with crcMs := x.crcMs + 1 }).wyOut w
      (.nak (((s.wyPort w).got + 1023) % 1024)))

/-- NAK: the peer's last good SEQ is good; every flit after it is repeated from the replay buffer, which holds at most 512. Byte 5 of its
flit returns credits in units of 4 slots: bits 3:0 of rank 0, bits 7:4 of rank 1 (R449). -/
def execNak (w good credits : Nat) (s : State) : Out :=
  let x := s.wyPort w
  let n := (x.seq % 1024 + 2047 - good) % 1024
  s.when (decide (w < 16) && decide (good < 1024) && decide (credits < 256) && decide (s.wyState w = wyUP) && decide (0 < n) && decide (x.first + n ≤ x.seq))
    (((((s.satF (.wyErr w) WY_ERR.RETRY 1).modWyPort w fun x =>
      { x with first := x.seq - n, used0 := x.used0 - 4 * (credits % 16), used1 := x.used1 - 4 * (credits / 16) }).wyOut w (.replay
      ((List.range n).map fun i => (good + 1 + i) % 1024))).health 0 1 0 0))

/-! ## Remote access: the target (R452 to R459) -/

/-- The operands of a transaction that arrives at a port fit their fields (R450). -/
def wyFits (h : WyHdr) : Bool :=
  decide (h.dst < 65536) && decide (h.src < 65536) && decide (h.hops < 256) && decide (h.group < 65536) && decide (h.tid < 2 ^ 32)
    && decide (h.addr < 2 ^ 48)

/-- A transaction arrives at port w: dropped at a fenced port (R453), sent on to another device with one hop more (R452), or handled
here. -/
def State.wyArrive (s : State) (w : Nat) (h : WyHdr) (fits : Bool) (fwd : WyHdr → WyMsg) (here : State → State) : Out :=
  let t := s.wyGot w (fwd h).flits
  s.when (decide (w < 16) && wyFits h && fits && (decide (s.wyState w = wyUP) || decide (s.wyState w = wyFENCED)))
    (if s.wyState w = wyFENCED then t
     else if h.dst = s.devid then here t
     else t.wySend w h.dst (h.hops + 1) 0x7F (fwd { h with hops := h.hops + 1 }))

/-- Header of the answer to a transaction. -/
def State.wyAnswer (s : State) (h : WyHdr) : WyHdr :=
  { dst := h.src, src := s.devid, hops := 0, group := h.group, tid := h.tid, addr := 0, ord := false, rank := h.rank }

/-- The target keeps the last 4,096 TIDs of each source that it has completed (R459). -/
def State.wySeen (s : State) (h : WyHdr) : Bool := (SMap.get [] s.withy.completed h.src).contains h.tid
def State.wyDone (s : State) (h : WyHdr) : State :=
  { s with withy := { s.withy with
    stalled := s.withy.stalled.filter fun q => !(q.src == h.src && q.tid == h.tid)
    completed := SMap.put [] s.withy.completed h.src ((h.tid :: SMap.get [] s.withy.completed h.src).take 4096) } }

/-- A transaction that cannot be applied yet; its source sends it again (R459). -/
def State.wyStall (s : State) (h : WyHdr) : State :=
  if s.withy.stalled.any fun q => q.src == h.src && q.tid == h.tid then s
  else { s with withy := { s.withy with stalled := s.withy.stalled ++ [h] } }

/-- A transaction with ORD waits: one before it from its source to its instance has not been applied (R458). -/
def State.wyWaits (s : State) (h : WyHdr) : Bool :=
  h.ord && s.withy.stalled.any fun q => q.src == h.src && q.group == h.group && decide (0 < (h.tid + 2 ^ 32 - q.tid) % 2 ^ 32)
    && decide ((h.tid + 2 ^ 32 - q.tid) % 2 ^ 32 < 2 ^ 31)

/-- Refuse a transaction with NACK and WY_REMOTE_REFUSED (R457). -/
def State.wyRefuse (s : State) (w : Nat) (h : WyHdr) (inst cause : Nat) : State :=
  ({ s with withy.stalled := s.withy.stalled.filter fun q => !(q.src == h.src && q.tid == h.tid) } : State) |> fun s =>
  (s.event (srcWy w) 0 0x84 0xFF inst (w + 16 * cause + 2 ^ 12 * h.src)).wySend w h.src 0 inst (.nack (s.wyAnswer h) cause)

/-- The instance that a group tag names, where it may be reached (R454, R457). -/
def State.groupInst (s : State) (g : Nat) : Option Nat :=
  if g = 0 then none
  else ((List.range 65).find? fun n => s.getF (.wyGroup n) WY_GROUP.GROUP == g).bind fun n =>
    if [stACTIVE, stQUIESCING, stQUIESCED].contains (s.instState n) then some n else none

/-- Slot and address of the scratchpad form of a Withy address (R455): for I0 the lease position is a logical core number, as in R194
(DEDUCED, log 31). -/
def State.wyScratch (s : State) (n addr len : Nat) : Option (Nat × Nat) :=
  if addr / 2 ^ 40 % 128 ≠ 0 ∨ addr / 2 ^ 24 % 256 ≠ 0 then none
  else
    let pos := addr / 2 ^ 32 % 256
    let l := if n = 0 then some pos else (s.inst n).lease[pos]?
    (l.bind s.slotOf).bind fun p => if s.inRange p (if n = 0 then 1 else 0) (addr % 2 ^ 24) len then some (p, addr % 2 ^ 24) else none

/-- Flits of a completed transaction count toward its instance (R456), for both copies of a mirrored write (R228). -/
def State.wyCharge (s : State) (n len : Nat) (two : Bool) : State :=
  s.charge n fun a => { a with bytes := a.bytes + (if two then 128 else 64) * ((len + 63) / 64) }

/-- Apply a WR here (R456, R457, R458); one that covers in part a scratchpad word with an uncorrectable error is dropped (R186) and refused with
CAUSE 5 (DESIGN CHOICE, log 31). -/
def State.wyWrite (s : State) (w : Nat) (h : WyHdr) (data : List Byte) (comp : List Nat) : State :=
  let len := data.length
  match s.groupInst h.group with
  | none => s.wyRefuse w h 0x7F 6
  | some n =>
    let ack (s : State) (two : Bool) : State := ((s.wyDone h).wyCharge n len two).wySend w h.src 0 n (.ack (s.wyAnswer h))
    if h.addr / 2 ^ 47 = 1 then
      match s.wyScratch n h.addr len with
      | none => s.wyRefuse w h n 8
      | some (p, a) =>
        if (s.core p).partialBad a len then (s.partUncorrectable p a len).wyRefuse w h n 5 else ack (s.spStore p a data) false
    else match s.xlate n h.addr len true comp with
      | (.fault c _ _, s) => s.wyRefuse w h n c
      | (.held, _) => s.wyStall h
      | (.ok (.stack a), s) =>
        (match s.stackWrite n a data with
          | some s => ack s (s.inst n).mirror
          | none => s.wyRefuse w h n 5)
      | (.ok (.comp a), s) => ack (s.compWrite n 0 a data) false
      | (.ok _, s) => s.wyRefuse w h n 4

/-- WR: a write transaction arrives at port w. comp: the stage-1 table words that the companion returns. -/
def execWr (w : Nat) (h : WyHdr) (data : List Nat) (comp : List Nat) (s : State) : Out :=
  let bs := data.map (BitVec.ofNat 8)
  s.wyArrive w h (decide (0 < data.length) && decide (h.addr % 4096 + data.length ≤ 4096)) (fun h => .wr h bs)
    (fun s => if s.wySeen h then s else if s.wyWaits h then s.wyStall h else s.wyWrite w h bs comp)

/-- Answer an RD here (R455, R457): the scratchpad form allows only writes. A read of companion memory is not answered while no CCL port is up
(R298); the source repeats it. An uncorrectable line is refused with CAUSE 5 (DESIGN
CHOICE, log 31). -/
def State.wyRead (s : State) (w : Nat) (h : WyHdr) (len : Nat) (comp data : List Nat) : State :=
  match s.groupInst h.group with
  | none => s.wyRefuse w h 0x7F 6
  | some n =>
    let reply (s : State) (bs : List Byte) : State := ((s.wyDone h).wyCharge n len false).wySend w h.src 0 n (.rddata (s.wyAnswer h) bs)
    if h.addr / 2 ^ 47 = 1 then s.wyRefuse w h n 8
    else match s.xlate n h.addr len false comp with
      | (.fault c _ _, s) => s.wyRefuse w h n c
      | (.held, _) => s.wyStall h
      | (.ok (.stack a), s) =>
        (match s.stackRead n a len with
          | (some bs, s) => reply s bs
          | (none, s) => s.wyRefuse w h n 5)
      | (.ok (.comp a), s) => if s.cclPort a = 2 then s.wyStall h else reply (s.rdcNow a len) ((data.map (BitVec.ofNat 8)).take len ++ List.replicate (len - data.length) 0)
      | (.ok _, s) => s.wyRefuse w h n 4

/-- RD: a read transaction of len bytes arrives at port w. data: the bytes that companion memory returns. -/
def execRd (w : Nat) (h : WyHdr) (len : Nat) (comp data : List Nat) (s : State) : Out :=
  s.wyArrive w h (decide (0 < len) && decide (h.addr % 4096 + len ≤ 4096)) (fun h => .rd h len)
    (fun s => if s.wySeen h then s else if s.wyWaits h then s.wyStall h else s.wyRead w h len comp data)

/-! ## Remote access: the source (R456, R457, R459) -/

def State.wyHeld (s : State) (tid : Nat) : Option WyTxn := s.withy.held.find? fun t => t.tid == tid
def State.wyFree (s : State) (tid : Nat) : State :=
  { s with withy := { s.withy with held := s.withy.held.filter fun t => t.tid != tid } }

/-- The copy-engine transaction behind a held one is done: a read's data arrive. -/
def State.wyDeliver (s : State) (t : WyTxn) (bs : List Byte) : State :=
  match (s.ceQueue t.slot t.side t.eng).entries.find? fun y => y.inflight.any fun z => z.id == t.txn with
  | none => s
  | some y => match y.inflight.find? fun z => z.id == t.txn with
    | none => s
    | some z => (s.endTxn t.slot t.side t.eng y z).readArrived t.slot t.side t.eng y.id z bs

/-- RDDATA: read data arrive at port w. -/
def execRddata (w : Nat) (h : WyHdr) (data : List Nat) (s : State) : Out :=
  let bs := data.map (BitVec.ofNat 8)
  s.wyArrive w h (decide (data.length ≤ 4096)) (fun h => .rddata h bs)
    (fun s => match s.wyHeld h.tid with
      | some t => if t.write = false ∧ t.len = data.length then (s.wyFree h.tid).wyDeliver t bs else s
      | none => s)

/-- ACK: the target has applied a write; the held transaction is freed. -/
def execAck (w : Nat) (h : WyHdr) (s : State) : Out :=
  s.wyArrive w h true (fun h => .ack h)
    (fun s => match s.wyHeld h.tid with
      | some t => if t.write then s.wyFree h.tid else s
      | none => s)

/-- The context of a held transaction still works. -/
def State.ctxLive (s : State) : Ctx → Bool
  | .tenant n => [stACTIVE, stQUIESCING, stQUIESCED].contains (s.instState n)
  | .cg g => (SMap.get RCtx.up s.radio.ctxs g).down.isNone

/-- The sender's context faults (R457): a translation fault with CAUSE 1 to 5, with CAUSE 3 for 6, a copy-engine fault with CAUSE 1
for 8. -/
def State.wyNacked (s : State) (t : WyTxn) (cause : Nat) : State :=
  if s.ctxLive t.ctx = false then s
  else if cause = 8 then s.ceFault t.slot 1 t.ctx t.eng
  else s.transFault t.ctx (if cause = 6 then 3 else cause) 0 (t.dst * 2 ^ 48 + t.addr) t.write 0 (s.lcoreNo t.slot)

/-- NACK: the target has refused a transaction with a CAUSE. -/
def execNack (w : Nat) (h : WyHdr) (cause : Nat) (s : State) : Out :=
  s.wyArrive w h ([1, 2, 3, 4, 5, 6, 8].contains cause) (fun h => .nack h cause)
    (fun s => match s.wyHeld h.tid with
      | some t => (s.wyFree h.tid).wyNacked t cause
      | none => s)

/-- Send a held transaction again, or after 4 attempts abandon its descriptor: its command re-runs from its step start (R459, R326). -/
def State.wyResend (s : State) (t : WyTxn) : State :=
  if t.attempts < 4 then
    ({ s with withy.held := s.withy.held.map fun (x : WyTxn) => if x.tid = t.tid then { x with attempts := x.attempts + 1, at_ := s.gtc } else x } : State).wyPost t
  else (s.wyFree t.tid).rerunFor (s.cmds.filter fun c => c.key.no == t.cmd)

/-- TRANSACTION_TIMEOUT: transaction tid has not been answered within WY_RTO.TIMEOUT µs (R459). -/
def execTransactionTimeout (tid : Nat) (s : State) : Out :=
  match s.wyHeld tid with
  | none => s.when false s
  | some t => s.when (decide (t.at_ + 3600 * s.getF .wyRto WY_RTO.TIMEOUT ≤ s.gtc)) (s.wyResend t)

/-! ## Link-control messages (R468, R561, R564) -/

/-- Precedence of a link-control message: PROBE_ACK, PROBE, HB, TIME. -/
def controlRank : Nat → Nat
  | 4 => 0
  | 3 => 1
  | 1 => 2
  | _ => 3

/-- Put a message before the first waiting link-control message of the port that it precedes. -/
def controlInsert (w type : Nat) (fields : List Nat) : List (Nat × WyMsg) → List (Nat × WyMsg)
  | [] => [(w, .control type fields)]
  | (v, .control t f) :: rest =>
    if v = w ∧ controlRank type < controlRank t then (w, .control type fields) :: (v, .control t f) :: rest
    else (v, .control t f) :: controlInsert w type fields rest
  | x :: rest => x :: controlInsert w type fields rest

/-- A link-control message is ready at a port. -/
def State.wyControl (s : State) (w type : Nat) (fields : List Nat) : State :=
  { s with withy := { s.withy with out := controlInsert w type fields s.withy.out } }

/-! ## Ring time (R447, R448) -/

/-- TB2 takes its phase from ring time on port w. -/
def State.ringPort (s : State) (w : Nat) : Bool :=
  s.psrc 2 == 4 && s.getF (.timeTbCfg 2) TIME_TB_CFG.PPORT == w && decide (s.tbState 2 ≠ tbOFF)

/-- Hop count that this device sends: 0 at a root, else the upstream count plus 1; none before an upstream count is known (R448). -/
def State.ringHops (s : State) : Option Nat :=
  if s.psrc 2 = 4 then s.withy.hops.map fun n => min (n + 1) 255 else some 0

/-- A time in ns as a timestamp field: units of 2^-4 ns, 24 bits (R468). -/
def stamp24 (t : Rat) : Nat := ((t * 16).floor % 16777216).toNat

/-- A difference of timestamps in units of 2^-4 ns, taken in the nearest range of 24 bits. -/
def wrap24 (x : Rat) : Rat := x - 16777216 * (((x / 16777216 + 1 / 2).floor : Int) : Rat)

/-- RING_TIME_EXCHANGE: every 64 µs port w starts an exchange toward its downstream peer. -/
def execRingTimeExchange (w : Nat) (s : State) : Out :=
  match s.ringHops with
  | none => s.when false s
  | some n => s.when
      (decide (w < 16) && decide (s.wyState w = wyUP) && decide (s.tbState 2 ≠ tbOFF) && !s.ringPort w
        && decide ((s.wyPort w).exch + 230400 ≤ s.gtc))
      ((s.modWyPort w fun x => { x with exch := s.gtc }).wyControl w 2 [n, 0, stamp24 (s.tbValue 2)])

/-- A TIME message of kind 0 SYNC, 1 DREQ, 2 DRESP with hop count n and timestamp ts; t is TB2 at its arrival. The servo takes the
phase source minus the time base (R363; log 29). -/
def State.timeMessage (s : State) (w kind n ts : Nat) (t : Rat) : State :=
  if kind = 1 then
    match s.ringHops with
    | some m => s.wyControl w 2 [m, 2, stamp24 t]
    | none => s
  else if s.ringPort w = false then s
  else if 32 ≤ n then ({ s with withy := { s.withy with hops := some n, sync := none } }).wyNote w 1 0x86 n
  else
    let s := { s with withy := { s.withy with hops := some n } }
    if kind = 0 then
      ({ s with withy := { s.withy with sync := some (ts, t, t) } }).wyControl w 2 [min (n + 1) 255, 1, 0]
    else match s.withy.sync with
      | none => s
      | some (t1, t2, t3) =>
        let d1 := wrap24 (t2 * 16 - (t1 : Rat))
        let d2 := wrap24 ((ts : Rat) - t3 * 16)
        ({ s with withy := { s.withy with sync := none } }).measure 2 (-((d1 - d2) / 2 / 16))

/-- TIME: a ring-time message arrives at port w, frac / 256 of a cycle after the start of this one (R361, R447, R448). -/
def execTime (w kind n ts frac : Nat) (s : State) : Out :=
  s.when (decide (w < 16) && decide (s.wyState w = wyUP) && decide (kind < 3) && decide (n < 256) && decide (ts < 2 ^ 24) && decide (frac < 256))
    ((s.wyGot w 1).timeMessage w kind n ts (subNs (s.tbValue 2 + s.addend 2 * ((frac : Rat) / 256))))

/-! ## The lifetime ledger (R462) -/

/-- LANE_HOUR_TICK: lane l of port w has spent another hour in UP. -/
def execLaneHourTick (w l : Nat) (s : State) : Out :=
  s.when (decide (w < 16) && decide (l < s.getF (.wyStatus w) WY_STATUS.WIDTH) && decide (s.wyState w = wyUP))
    ((s.satF (.wyLife w) WY_LIFE.LANEHRS 1).wyLife w)

/-- LEDGER_COPY: hourly, Grizor copies the counts into the ledger; it defers the copy at load level 1 and above (R462, R521). -/
def execLedgerCopy (s : State) : Out :=
  s.when (s.boot.grizor && decide (s.getF .mpLoad MP_LOAD.LEVEL = 0)) ((List.range 16).foldl State.wyLedger s)

end Sys2Proof.Machine
end

