-- ==== Sys2Proof/Machine/Waling.lean ====
section
/-!
DEFINITION. The Waling unit: heartbeats, death tokens, commits, fencing, health, the expulsion budget, claims and admission (R465 to
R491).
-/
namespace Sys2Proof.Machine

/-! ## The unit, its ring ports and its member table (R465 to R468) -/

def wlOFF : Nat := 0
def wlJOINING : Nat := 1
def wlMEMBER : Nat := 2
def wlKEPT : Nat := 3
def wlFENCED : Nat := 4

def State.wlState (s : State) : Nat := s.getF .wlState WL_STATE.STATE

/-- Waling runs (R467). -/
def State.wlOn (s : State) : Bool := s.getF .wlCfg WL_CFG.EN == 1 && s.devid != 0xFFFF

/-- This device is a member in service. -/
def State.wlActive (s : State) : Bool := s.wlOn && (s.wlState == wlMEMBER || s.wlState == wlKEPT)

/-- Ring port of side x: 0 PORTA, 1 PORTB. -/
def State.wlPort (s : State) (x : Nat) : Nat := if x = 0 then s.getF .wlCfg WL_CFG.PORTA else s.getF .wlCfg WL_CFG.PORTB

def State.nbr (s : State) (x : Nat) : WlNbr := SMap.get .idle s.waling.nbrs x
def State.setNbr (s : State) (x : Nat) (n : WlNbr) : State :=
  { s with waling := { s.waling with nbrs := SMap.put .idle s.waling.nbrs x n } }

/-- Ring neighbour on side x. -/
def State.nbrId (s : State) (x : Nat) : Nat := s.wyPeer (s.wlPort x)

/-- Entries of the member table in ring order: place, device, state. -/
def State.members (s : State) : List (Nat × Nat × Nat) :=
  (List.range 1024).filterMap fun k =>
    let st := s.getF (.wlMember k) WL_MEMBER.STATE
    if st = 0 then none else some (k, s.getF (.wlMember k) WL_MEMBER.ID, st)

/-- Members in service: member, suspect or degraded-kept. -/
def inService (st : Nat) : Bool := st == 1 || st == 2 || st == 5
def State.serving (s : State) : List Nat := (s.members.filter fun x => inService x.2.2).map fun x => x.2.1

def State.memberState (s : State) (d : Nat) : Nat := ((s.members.find? fun x => x.2.1 == d).map fun x => x.2.2).getD 0
def State.setMember (s : State) (d st : Nat) : State :=
  match s.members.find? fun x => x.2.1 == d with
  | some x => s.setF (.wlMember x.1) WL_MEMBER.STATE st
  | none => s

/-- A record of the Waling unit; it stands on X0, and its records carry the number of X0's die controller (DESIGN CHOICE, log 32:
the table of R377 names no number for it). -/
def State.wlNote (s : State) (sev cls detail : Nat) : State := s.note (srcDie 8) sev cls detail

/-- Send a LINK transaction on ring side x: over an UP or a FENCED port only (R453, R468). -/
def State.wlSend (s : State) (x type : Nat) (m : WlMsg) : State :=
  let w := s.wlPort x
  if s.wyState w = wyUP ∨ s.wyState w = wyFENCED then s.wyOut w (.link type m) else s

def WlMsg.blank : WlMsg :=
  { hops := 0, origin := 0xFFFF, subject := 0xFFFF, witness := 0xFFFF, result := 0, run := [], window := 0, count := 0, inserv := 0, key := 0,
    group := 0, winner := 0xFFFF, arith := 0, score := 0, best := 0xFFFF, bestScore := 1023 }

/-- The fields of a message fit its body, and a port or side takes it. -/
def wlFits (m : WlMsg) : Bool :=
  decide (m.hops < 256) && decide (m.origin < 65536) && decide (m.subject < 65536) && decide (m.witness < 65536) && decide (m.result < 256)
    && decide (m.run.length ≤ 20) && decide (m.window < 2 ^ 32) && decide (m.count < 65536) && decide (m.inserv < 65536)
    && decide (m.key < 2 ^ 48) && decide (m.group < 65536) && decide (m.winner < 65536)

/-- A LINK transaction can arrive on ring side x. -/
def State.wlTakes (s : State) (x : Nat) : Bool :=
  decide (x < 2) && (s.wyState (s.wlPort x) == wyUP || s.wyState (s.wlPort x) == wyFENCED)

/-- Expulsion window number (R482). -/
def State.wlWindow (s : State) : Nat := (s.tbValue 2 / (1000000000 * (max (s.getF .wlExpel WL_EXPEL.WINDOW) 1 : Nat) : Rat)).floor.toNat % 2 ^ 32

/-- End of the heartbeat window that holds a cycle (R469). -/
def wlNextWindow (gtc : Nat) : Nat := (gtc / 28800 + 1) * 28800

/-- The neighbour on side x starts with a whole window; seen: it has just taken part in an admission. One that has not been heard since counts as
absent (R467; DESIGN CHOICE, log 32). -/
def State.wlWatch (s : State) (x : Nat) (seen : Bool) : State :=
  s.setNbr x { WlNbr.idle with seen := seen, winEnd := wlNextWindow s.gtc + 28800 }

/-- A LINK transaction arrives on ring side x: one flit (R449, R450). -/
def State.wlGot (s : State) (x : Nat) : State := s.wyGot (s.wlPort x) 1

/-! ## Fencing and routes (R452, R453, R475, R477) -/

/-- This device becomes FENCED: cause 0 a commit that names it, 1 FENCE, 2 a minority (R477). -/
def State.wlFence (s : State) (cause : Nat) : State :=
  if s.wlState = wlFENCED then s else (s.setF .wlState WL_STATE.STATE wlFENCED).wlNote 3 0x93 cause

/-- A route entry as the fenced devices leave it: no port valid for a fenced destination, none whose peer is fenced (R475). -/
def State.routeWord (s : State) (d : Nat) (w : BitVec 64) : BitVec 64 :=
  let gone (port : Nat) : Bool := s.fencedPeer (s.wyPeer port)
  let w := if s.fencedPeer d || gone (WY_ROUTE.PRI.get w) then WY_ROUTE.PRIV.set w 0 else w
  if s.fencedPeer d || gone (WY_ROUTE.ALT.get w) then WY_ROUTE.ALTV.set w 0 else w

/-- Rewrite the route table for the member table in force. -/
def State.wlRoutes (s : State) : State :=
  let ds := (s.regs.filterMap fun x => match x.1 with | .wyRoute d => some d | _ => none) ++ s.waling.routes.map Prod.fst
  ds.eraseDups.foldl (fun s d =>
    let base := match SMap.find? s.waling.routes d with | some w => BitVec.ofNat 64 w | none => s.reg (.wyRoute d)
    let w := s.routeWord d base
    let keep := if w = base then SMap.erase s.waling.routes d else SMap.insert s.waling.routes d base.toNat
    { s with waling := { s.waling with routes := keep } }.setReg (.wyRoute d) w) s

/-- Held transactions whose route has changed are sent again in TID order (R459). -/
def State.wlReroute (s old : State) : State :=
  (s.withy.held.filter fun t => s.wyRoute t.dst != old.wyRoute t.dst).foldl (fun s t => s.wyResend t) s

/-- Fence every port whose peer is one of the devices, and send FENCE over it (R475). -/
def State.wlFencePorts (s : State) (ds : List Nat) (m : WlMsg) : State :=
  (List.range 16).foldl (fun s w =>
    if ds.contains (s.wyPeer w) && (s.wyState w == wyUP || s.wyState w == wyRETRAIN) then
      (s.wyLink w wyFENCED false false).wyOut w (.link 4 m)
    else s) s

/-- Claims: the grants of dead winners are lost, and a claim that waits for a dead umpire ends with NO_UMPIRE (R487). -/
def State.claimResult (s : State) (status winner : Nat) : State :=
  let s := (s.setF .wlClaimRes WL_CLAIM_RES.STATUS status).setF .wlClaimRes WL_CLAIM_RES.WINNER winner
  let s := (s.setF .wlClaimCtl WL_CLAIM_CTL.BUSY 0).wlNote 0 0x99 (status + 8 * winner)
  let s := if status = 2 ∧ s.waling.primary = true then s.health 0 0 0 1 else s
  { s with waling := { s.waling with primary := false } }

def State.wlClaimsDead (s : State) (ds : List Nat) : State :=
  let s := { s with waling := { s.waling with claims := s.waling.claims.filter fun c => !ds.contains c.winner } }
  if s.getF .wlClaimCtl WL_CLAIM_CTL.BUSY = 1 ∧ ds.contains (s.getF .wlClaimKey WL_CLAIM_KEY.UMPIRE) = true then s.claimResult 3 0xFFFF else s

/-- The neighbour state of fenced devices and tokens that concern them are dropped. -/
def State.wlForget (s : State) (ds : List Nat) : State :=
  let s := [0, 1].foldl (fun s x => if ds.contains (s.nbrId x) then s.setNbr x .idle else s) s
  { s with waling := { s.waling with
    tokens := s.waling.tokens.filter fun t => !ds.contains t.subject
    probes := s.waling.probes.filter fun t => !ds.contains t.1.subject } }

/-! ## Applying a change (R466, R475, R483, R488) -/

def State.epochUp (s : State) (n : Nat) : State :=
  s.setF .wlEpoch WL_EPOCH.EPOCH ((s.getF .wlEpoch WL_EPOCH.EPOCH + n) % 2 ^ 32)

/-- Devices out of service: routes, ports, claims and neighbours follow. -/
def State.wlOut (s : State) (ds : List Nat) (m : WlMsg) : State :=
  ((((s.wlFencePorts ds m).wlRoutes.wlClaimsDead ds).wlForget ds).wlReroute s)

/-- A death: every device of the run that is in service (R472, R475). -/
def State.applyDeath (s : State) (m : WlMsg) : State :=
  let ds := (m.subject :: m.run).filter fun d => inService (s.memberState d)
  let s1 := ds.foldl (fun s d => s.setMember d 3) s
  let s2 := ((s1.epochUp ds.length).wlNote 3 0x91 (m.subject + 2 ^ 16 * m.run.length)).wlOut ds m
  if (m.subject :: m.run).contains s.devid then s2.wlFence 0 else s2

/-- An expulsion (R483, R484, R489). -/
def State.applyExpulsion (s : State) (m : WlMsg) : State :=
  let s1 := ((s.setMember m.subject 4).epochUp 1).wlNote 3 0x95 (m.subject + 2 ^ 16 * (m.count % 16))
  let g := s1.waling
  let s2 := { s1 with waling := { g with
    window := m.window
    expelled := if g.window = m.window then g.expelled + 1 else 1
    expelledHere := g.expelledHere || m.subject == s.devid } }
  let s3 := s2.wlOut [m.subject] m
  if m.subject = s.devid then s3.wlFence 0 else s3

/-- Write the member table from a list of device, state and score in ring order. -/
def State.putMembers (s : State) (l : List (Nat × Nat × Nat)) : State :=
  (List.range 1024).foldl (fun s k =>
    match l[k]? with
    | some (d, st, sc) => ((s.setF (.wlMember k) WL_MEMBER.ID d).setF (.wlMember k) WL_MEMBER.STATE st).setF (.wlMember k) WL_MEMBER.SCORE sc
    | none => s.resetReg (.wlMember k)) s

/-- Place of a joiner between its two ring neighbours a and b in a table (R489): after the first of them, or at the end where others
in service stand between them. -/
def joinPlace (l : List (Nat × Nat × Nat)) (a b : Nat) : Nat :=
  let i := l.findIdx fun x => x.1 == a
  let j := l.findIdx fun x => x.1 == b
  let lo := min i j; let hi := max i j
  if l.length ≤ lo then l.length
  else if l.length ≤ hi then lo + 1
  else if ((l.drop (lo + 1)).take (hi - lo - 1)).any fun x => inService x.2.1 then l.length
  else lo + 1

/-- An admission (R488, R489): the joiner, between ORIGIN and WITNESS, is a member; ports to it leave FENCED, and its routes are valid. -/
def State.applyAdmission (s : State) (m : WlMsg) : State :=
  let l := (s.members.filter fun x => x.2.1 != m.subject).map fun x => (x.2.1, x.2.2, s.getF (.wlMember x.1) WL_MEMBER.SCORE)
  let p := joinPlace l m.origin m.witness
  let s1 := (s.putMembers (l.take p ++ [(m.subject, 1, 0)] ++ l.drop p)).epochUp 1
  let mine := decide (m.subject = s.devid)
  let s2 := (List.range 16).foldl (fun s w =>
    if s.wyState w = wyFENCED ∧ (mine = true ∨ s.wyPeer w = m.subject) then s.wyLink w wyUP false false else s) s1
  let s3 := (s2.wlRoutes).wlReroute s
  if mine then
    let s4 := s3.setF .wlState WL_STATE.STATE wlMEMBER
    let s5 := ((s4.setF .wlHealth WL_HEALTH.DEMERIT 0).setF .wlHealth WL_HEALTH.SCORE 1023).setF .wlHealth WL_HEALTH.LOWRUN 0
    { s5 with waling := { s5.waling with candidate := false, low := false, highRun := 0, tokens := [], probes := [] } }.wlWatch 0 true |>.wlWatch 1 true
  else [0, 1].foldl (fun s x => if s.nbrId x = m.subject then s.wlWatch x true else s) s3

/-- A degraded-kept marking (R483). -/
def State.applyKept (s : State) (m : WlMsg) : State :=
  let s1 := (s.setMember m.subject 5).epochUp 1
  if m.subject = s.devid then s1.setF .wlState WL_STATE.STATE wlKEPT else s1

/-- A change that this device has applied already (R466, R473). -/
def State.applied (s : State) (m : WlMsg) : Bool :=
  match m.result with
  | 1 => (m.subject :: m.run).all fun d => !inService (s.memberState d)
  | 2 => !inService (s.memberState m.subject)
  | 3 => inService (s.memberState m.subject)
  | _ => s.memberState m.subject == 5

/-- Apply a COMMIT: RESULT 1 death, 2 expulsion, 3 admission, 4 degraded-kept. -/
def State.applyCommit (s : State) (m : WlMsg) : State :=
  match m.result with
  | 1 => s.applyDeath m
  | 2 => s.applyExpulsion m
  | 3 => s.applyAdmission m
  | 4 => s.applyKept m
  | _ => s

/-- This device commits a change: it sends COMMIT both ways and applies it (R473). -/
def State.commit (s : State) (m : WlMsg) : State := ((s.wlSend 0 3 m).wlSend 1 3 m).applyCommit m

/-- Commit a death of a run. -/
def State.commitDeath (s : State) (subject : Nat) (run : List Nat) : State :=
  s.commit { WlMsg.blank with origin := s.devid, subject := subject, run := run, result := 1 }

/-- COMMIT on ring side x: applied and sent on, or absorbed as applied already. -/
def execCommit (x : Nat) (m : WlMsg) (s : State) : Out :=
  s.when (s.wlTakes x && wlFits m && decide (0 < m.result) && decide (m.result < 5))
    (if !s.wlOn || s.applied m then s.wlGot x
     else (if s.wlState = wlFENCED then s.wlGot x else (s.wlGot x).wlSend (1 - x) 3 m).applyCommit m)

/-- FENCE_NOTICE: FENCE arrives at port w (R477). -/
def execFenceNotice (w : Nat) (s : State) : Out :=
  s.when (decide (w < 16) && (s.wyState w == wyUP || s.wyState w == wyFENCED))
    (if s.wlOn then (s.wyGot w 1).wlFence 1 else s.wyGot w 1)

/-! ## Heartbeats and suspicion (R469, R470) -/

/-- HEARTBEAT_SEND: every 8 µs a member sends HB on both ring ports. -/
def execHeartbeatSend (s : State) : Out :=
  let h := s.reg .wlHealth
  let v := WL_HEALTH.SCORE.get h + 1024 * s.wlState
  let fields := [s.waling.hbSeq, v % 256, v / 256, s.getF .wlEpoch WL_EPOCH.EPOCH % 256, s.getF .wlEpoch WL_EPOCH.EPOCH / 256 % 256]
  let s1 := { s with waling := { s.waling with hbSeq := (s.waling.hbSeq + 1) % 256, hbAt := s.gtc } }
  s.when (s.wlActive && decide (s.waling.hbAt + 28800 ≤ s.gtc))
    ([0, 1].foldl (fun s x => if s.wyState (s.wlPort x) = wyUP then s.wyControl (s.wlPort x) 1 fields else s) s1)

/-- HEARTBEAT_MISS_WINDOW: the window of the member on ring side x ends without a heartbeat. A neighbour where Waling does not run is not
suspected (R467). -/
def execHeartbeatMissWindow (x : Nat) (s : State) : Out :=
  let n := s.nbr x
  s.when
    (decide (x < 2) && s.wlActive && (s.memberState (s.nbrId x) == 1 || s.memberState (s.nbrId x) == 5) && n.seen && !n.heard
      && decide (n.winEnd ≤ s.gtc))
    (s.setNbr x { n with misses := n.misses + 1, winEnd := wlNextWindow s.gtc })

/-! ## Death tokens (R471 to R475) -/

/-- A token returns to the device that started it as UNREACHABLE. -/
def State.unreachable (s : State) (side : Nat) (m : WlMsg) : State :=
  s.wlSend side 2 { m with witness := s.devid, result := 2 }

/-- Members on this device's part of the ring, in order from this device away from side x: neighbours in the table. -/
def State.awayFrom (s : State) (d : Nat) : List Nat :=
  let l := s.serving
  let i := l.findIdx fun e => e == s.devid
  let up := l.drop i ++ l.take i
  let down := s.devid :: (up.drop 1).reverse
  if up[1]? = some d then down else up

/-- The majority decision of a device whose token found no witness (R475): it commits the death of every member that it could not
reach, at most 21 a COMMIT, or fences itself. -/
def State.majority (s : State) (subject inserv : Nat) : State :=
  let l := s.awayFrom subject
  let part := l.take inserv
  let rest := l.drop inserv
  let lowest := s.serving.foldl min 0xFFFF
  if l.length < 2 * inserv ∨ (l.length = 2 * inserv ∧ part.contains lowest = true) then
    (List.range (rest.length / 21 + 1)).foldl (fun s k =>
      match (rest.drop (21 * k)).take 21 with
      | [] => s
      | d :: run => s.commitDeath d run) s
  else s.wlFence 2

/-- DREPLY reaches the device that started the token. -/
def State.tokenAnswered (s : State) (m : WlMsg) : State :=
  match [0, 1].find? fun x => s.nbrId x == m.subject && (s.nbr x).token with
  | none => s
  | some x =>
    let s1 := s.setNbr x { s.nbr x with token := false }
    if m.result = 1 then
      let w := s.wlPort x
      let s2 := s1.wlNote 1 0x92 (m.subject + 2 ^ 16 * w)
      if s.wyState w = wyUP then s2.wyRetrain w 0 else s2
    else s1.majority m.subject m.inserv

/-- The answer LIVE of this device as the witness of a token (R471), which it may have started itself. -/
def State.answerLive (s : State) (t : WlToken) : State :=
  let s := { s with waling := { s.waling with
    probes := s.waling.probes.filter fun q => q.1 != t, tokens := s.waling.tokens.filter fun q => q != t } }
  let m : WlMsg := { WlMsg.blank with
    origin := t.origin, subject := t.subject, witness := s.devid, result := 1, run := t.run, inserv := t.inserv }
  if t.side = 2 then s.tokenAnswered m else s.wlSend t.side 2 m

/-- Probes of device d whose 16 µs have not passed are answered LIVE. -/
def State.probesLive (s : State) (d : Nat) : State :=
  (s.waling.probes.filter fun q => (q.1.subject :: q.1.run).contains d && decide (s.gtc < q.2 + 57600)).foldl (fun s q => s.answerLive q.1) s

/-- HB on ring side x with a score (R470): the neighbour is present; a suspect for which no token has started is a member again. -/
def execHb (x score : Nat) (s : State) : Out :=
  let d := s.nbrId x
  let n := s.nbr x
  let back := n.suspect && !n.token
  let s1 := s.setNbr x { n with seen := true, heard := true, misses := if back then 0 else n.misses, suspect := n.suspect && !back }
  let s2 := if back && s.memberState d == 2 then s1.setMember d 1 else s1
  let s3 := match s.members.find? fun e => e.2.1 == d with
    | some e => s2.setF (.wlMember e.1) WL_MEMBER.SCORE score
    | none => s2
  s.when (decide (x < 2) && decide (score < 1024) && s.wlOn && s.wyState (s.wlPort x) == wyUP) ((s3.wlGot x).probesLive d)

/-- A token that this device holds goes on toward the witness over side x, or this device is the witness (R471, R472). from_: the side on
which its answer leaves; none where this device has started it, which makes it the witness in a ring of two. -/
def State.passToken (s : State) (x : Nat) (from_ : Option Nat) (m : WlMsg) : State :=
  let d := s.nbrId x
  let back (s : State) : State := match from_ with
    | some y => s.unreachable y m
    | none => s.majority m.subject m.inserv
  if (m.subject :: m.run).contains d then
    if (s.nbr x).suspect then s.commitDeath m.subject m.run
    else
      let t : WlToken := ⟨m.subject, m.run, m.origin, from_.getD 2, m.inserv⟩
      let s := { s with waling := { s.waling with probes := s.waling.probes ++ [(t, s.gtc)] } }
      if s.wyState (s.wlPort x) = wyUP then s.wyControl (s.wlPort x) 3 [s.devid % 256, s.devid / 256, 0, 0, 0] else s
  else if (s.nbr x).suspect then
    if m.run.length < 20 then s.commitDeath m.subject (m.run ++ [d]) else back (s.wlNote 1 0x9A m.subject)
  else if s.wyState (s.wlPort x) = wyUP then s.wlSend x 1 { m with inserv := m.inserv + 1 }
  else back s

/-- SUSPECT: after 4 consecutive misses the neighbour on ring side x is SUSPECT, and a DEATH token leaves away from it. -/
def execSuspect (x : Nat) (s : State) : Out :=
  let d := s.nbrId x
  let n := s.nbr x
  let s1 := ((s.setNbr x { n with suspect := true, token := true }).setMember d 2).wlNote 0 0x90 d
  s.when (decide (x < 2) && s.wlActive && decide (4 ≤ n.misses) && !n.suspect
      && (s.memberState d == 1 || s.memberState d == 5))
    (s1.passToken (1 - x) none { WlMsg.blank with origin := s.devid, subject := d, inserv := 1 })

/-- DEATH on ring side x: committed where the token for its subject has come from both directions (R473), else passed on. A fenced
device sends no token (R477). -/
def execDeath (x : Nat) (m : WlMsg) (s : State) : Out :=
  let old := s
  let both := s.waling.tokens.any fun t => t.subject == m.subject && t.side != x
  let t : WlToken := ⟨m.subject, m.run, m.origin, x, m.inserv⟩
  let s := s.wlGot x
  let s1 := { s with waling := { s.waling with tokens := s.waling.tokens ++ [t] } }
  old.when (old.wlTakes x && wlFits m)
    (if !s.wlActive || !inService (s.memberState m.subject) || (m.subject :: m.run).contains s.devid then s
     else if both then s.commitDeath m.subject m.run
     else s1.passToken (1 - x) (some x) m)

/-- PROBE from a device arrives at port w and is answered (R471). -/
def execProbe (w prober : Nat) (s : State) : Out :=
  s.when (decide (w < 16) && decide (prober < 65536) && s.wyState w == wyUP)
    (if s.wlOn then (s.wyGot w 1).wyControl w 4 [prober % 256, prober / 256, 0, 0, 0] else s.wyGot w 1)

/-- The end of a re-probe with RESULT (R479). -/
def State.reprobed (s : State) (result : Nat) : State :=
  let s := (s.setF .wlReprobe WL_REPROBE.BUSY 0).setF .wlReprobe WL_REPROBE.RESULT result
  ({ s with waling := { s.waling with reprobe := none } }).wlNote 0 0x98 (s.getF .wlReprobe WL_REPROBE.ID + 2 ^ 16 * result)

/-- PROBE_ACK for a prober arrives at port w: the witness answers LIVE, or a re-probe ends with ALIVE; one for another device goes on along its
route (DEDUCED, log 32). -/
def execProbeAck (w prober : Nat) (s : State) : Out :=
  let s0 := s.wyGot w 1
  let s1 := s0.probesLive (s.wyPeer w)
  s.when (decide (w < 16) && decide (prober < 65536) && s.wyState w == wyUP)
    (if prober ≠ s.devid then
       (match s.wyRoute prober with
        | some v => s0.wyControl v 4 [prober % 256, prober / 256, 0, 0, 0]
        | none => s0)
     else if s.waling.reprobe.isSome && s.wyRoute (s.getF .wlReprobe WL_REPROBE.ID) == some w then s1.reprobed 1 else s1)

/-- WITNESS_PROBE_TIMEOUT: 16 µs have passed since this device as the witness probed a subject; it commits the death. -/
def execWitnessProbeTimeout (subject : Nat) (s : State) : Out :=
  match s.waling.probes.find? fun q => q.1.subject == subject with
  | none => s.when false s
  | some q =>
    s.when (decide (q.2 + 57600 ≤ s.gtc))
      (({ s with waling := { s.waling with probes := s.waling.probes.filter fun z => z != q } }).commitDeath subject q.1.run)

/-- DREPLY on ring side x: the device that started the token takes it, others send it on. -/
def execDreply (x : Nat) (m : WlMsg) (s : State) : Out :=
  let s0 := s.wlGot x
  let s1 := { s0 with waling := { s0.waling with tokens := s0.waling.tokens.filter fun t => t.subject != m.subject } }
  s.when (s.wlTakes x && wlFits m && (m.result == 1 || m.result == 2))
    (if !s.wlActive then s0
     else if m.origin = s.devid then s1.tokenAnswered m
     else s1.wlSend (1 - x) 2 m)

/-! ## Re-probes (R479) -/

/-- REPROBE: v, with GO, is written to WL_REPROBE. While a probe is in progress, or while Waling does not run, nothing is sent (DESIGN
CHOICE, log 32). -/
def execReprobe (v : Nat) (s : State) : Out :=
  let id := v % 65536
  let s1 := ((s.setF .wlReprobe WL_REPROBE.ID id).setF .wlReprobe WL_REPROBE.BUSY 1).setF .wlReprobe WL_REPROBE.RESULT 0
  let s2 := { s1 with waling := { s1.waling with reprobe := some s.gtc } }
  s.when (decide (v < 2 ^ 32) && decide (v / 2 ^ 31 = 1))
    (if s.getF .wlReprobe WL_REPROBE.BUSY = 1 then s
     else if s.wlOn = false then s.setF .wlReprobe WL_REPROBE.ID id
     else match s.wyRoute id with
       | some w => if s.wyState w = wyUP then s2.wyControl w 3 [s.devid % 256, s.devid / 256, 0, 0, 0] else s2
       | none => s2)

/-- REPROBE_TIMEOUT: 16 µs for each of the hops to the device have passed. -/
def execReprobeTimeout (hops : Nat) (s : State) : Out :=
  match s.waling.reprobe with
  | none => s.when false s
  | some t =>
    s.when (decide (0 < hops) && decide (t + 57600 * hops ≤ s.gtc))
      (s.reprobed (if (s.wyRoute (s.getF .wlReprobe WL_REPROBE.ID)).isSome then 2 else 3))

/-! ## Health (R480, R481) -/

/-- HEALTH_UPDATE: every 100 ms the demerit decays by 1/16, rounded half up (R49), takes the penalty, and gives the score. A heartbeat that is due
goes first (R563). -/
def execHealthUpdate (s : State) : Out :=
  let g := s.waling
  let wt (f : Fld) : Nat := s.getF .wlHweight f
  let p := g.ce * wt WL_HWEIGHT.WCE + g.rt * wt WL_HWEIGHT.WRT + 16 * g.th * wt WL_HWEIGHT.WTH + 16 * g.st * wt WL_HWEIGHT.WST
  let d0 := s.getF .wlHealth WL_HEALTH.DEMERIT
  let d := min (d0 - (d0 + 8) / 16 + p) 1023
  let score := 1023 - d
  let expel := s.getF .wlHthr WL_HTHR.EXPEL
  let low := decide (score < s.getF .wlHthr WL_HTHR.WARN)
  let run := if score < expel then min (s.getF .wlHealth WL_HEALTH.LOWRUN + 1) 3 else 0
  let s1 := ((s.setF .wlHealth WL_HEALTH.SCORE score).setF .wlHealth WL_HEALTH.DEMERIT d).setF .wlHealth WL_HEALTH.LOWRUN run
  let s2 := { s1 with waling := { g with
    ce := 0, rt := 0, th := 0, st := 0, low := low, highRun := if expel ≤ score then g.highRun + 1 else 0, healthAt := s.gtc } }
  s.when (decide (g.healthAt + 360000000 ≤ s.gtc) && !(s.wlActive && decide (g.hbAt + 28800 ≤ s.gtc))) (if low && !g.low then s2.wlNote 1 0x94 score else s2)

/-- EXPULSION_CANDIDATE: three consecutive scores below EXPEL make the device a candidate, three at or above it clear it. -/
def execExpulsionCandidate (s : State) : Out :=
  let g := s.waling
  s.when
    (if g.candidate then decide (3 ≤ g.highRun) else decide (s.getF .wlHealth WL_HEALTH.LOWRUN = 3))
    { s with waling := { g with candidate := !g.candidate } }

/-! ## The expulsion budget (R482 to R484) -/

/-- The budget token as it leaves this device: its window is brought up to date, a lap that ends here names its candidate, and this
device enters the present lap when it is one (R483). -/
def State.budgetMsg (s : State) (m : WlMsg) : WlMsg :=
  let now := s.wlWindow
  let m := if m.window < now then { m with window := now, count := 0 } else m
  let m := if m.origin = s.devid then { m with subject := m.best, score := m.bestScore, best := 0xFFFF, bestScore := 1023 } else m
  let sc := s.getF .wlHealth WL_HEALTH.SCORE
  if s.waling.candidate && (decide (sc < m.bestScore) || (decide (sc = m.bestScore) && decide (s.devid < m.best))) then
    { m with best := s.devid, bestScore := sc }
  else m

/-- The token reaches the candidate that it names (R483). -/
def State.budgetOwn (s : State) (m : WlMsg) : WlMsg × State :=
  let noBudget := decide (s.getF .wlExpel WL_EXPEL.BUDGET ≤ m.count)
  let noFloor := decide (s.serving.length - 1 < s.getF .wlExpel WL_EXPEL.FLOOR)
  if !noBudget && !noFloor then
    let m' := { m with count := m.count + 1, subject := 0xFFFF }
    (m', s.commit { WlMsg.blank with origin := s.devid, subject := s.devid, result := 2, window := m.window, count := m.count + 1 })
  else if s.wlState = wlKEPT then (m, s)
  else (m, (s.commit { WlMsg.blank with origin := s.devid, subject := s.devid, result := 4 }).wlNote 1 0x96
      (s.devid + 2 ^ 16 * noBudget.toNat + 2 ^ 17 * noFloor.toNat))

/-- BUDGET on ring side x: of two tokens the one started by the lower device ID stays (R484). -/
def execBudget (x : Nat) (m : WlMsg) (s : State) : Out :=
  let g := s.waling
  let other := match g.budgetAt with
    | some t => decide (s.gtc < t + 28800000) && decide (g.budgetFrom < m.origin)
    | none => false
  let m1 := s.budgetMsg m
  let s0 := s.wlGot x
  let s1 := { s0 with waling := { g with budgetAt := some s.gtc, budgetFrom := m.origin } }
  let r := if m1.subject = s.devid ∧ g.candidate = true then s1.budgetOwn m1 else (m1, s1)
  s.when (s.wlTakes x && wlFits m)
    (if !s.wlActive || other then s0 else r.2.wlSend (1 - x) 5 r.1)

/-- BUDGET_TOKEN_TIMEOUT: 8 ms without a token; the member with the lowest ID among those in service starts one (R484). -/
def execBudgetTokenTimeout (s : State) : Out :=
  let g := s.waling
  let now := s.wlWindow
  let m : WlMsg := { WlMsg.blank with origin := s.devid, window := now, count := if g.window = now then g.expelled else 0 }
  let s1 := { s with waling := { g with budgetAt := some s.gtc, budgetFrom := s.devid } }
  s.when
    (s.wlActive && decide (g.budgetAt.getD 0 + 28800000 ≤ s.gtc) && s.serving.all fun d => decide (s.devid ≤ d))
    ((s1.wlNote 0 0x9B g.budgetAt.isSome.toNat).wlSend 1 5 (s1.budgetMsg { m with origin := s.devid }))

/-! ## Claims (R485 to R487) -/

/-- The umpire resolves a claim: STATUS, WINNER and the state after it (R486). A release by another device than the winner changes nothing
and reports LOST with the winner, or RELEASED where no slot is held (DESIGN CHOICE, log 32). -/
def State.umpire (s : State) (m : WlMsg) : Nat × Nat × State :=
  let local_ := decide (m.group ≠ 0) && (List.range 65).any fun n => s.getF (.wyGroup n) WY_GROUP.GROUP == m.group
  let cs := s.waling.claims
  let put (l : List WlClaim) : State := { s with waling := { s.waling with claims := l } }
  if !local_ then (4, 0xFFFF, s)
  else match cs.find? fun c => c.tag == m.group && c.key == m.key with
    | none =>
      if m.result % 2 = 1 then (6, 0xFFFF, s)
      else if 4096 ≤ cs.length then (5, 0xFFFF, s)
      else (1, m.origin, put (cs ++ [⟨m.group, m.key, m.origin⟩]))
    | some c =>
      if c.winner = m.origin then
        (if m.result % 2 = 1 then (6, m.origin, put (cs.filter fun z => z != c)) else (1, m.origin, s))
      else (2, c.winner, s)

/-- CLAIM_SEND: v, with GO, is written to WL_CLAIM_CTL (R486). A dead umpire gives NO_UMPIRE (R487). -/
def execClaimSend (v : Nat) (s : State) : Out :=
  let w := BitVec.ofNat 64 v
  let f (g : Fld) : Nat := g.get w
  let inst := f WL_CLAIM_CTL.INST
  let ump := s.getF .wlClaimKey WL_CLAIM_KEY.UMPIRE
  let s1 := ((s.setF .wlClaimCtl WL_CLAIM_CTL.OP (f WL_CLAIM_CTL.OP)).setF .wlClaimCtl WL_CLAIM_CTL.PRIMARY (f WL_CLAIM_CTL.PRIMARY)).setF
    .wlClaimCtl WL_CLAIM_CTL.INST inst
  let s2 := s1.setF .wlClaimCtl WL_CLAIM_CTL.BUSY 1
  let s3 := { s2 with waling := { s2.waling with primary := f WL_CLAIM_CTL.PRIMARY == 1 && f WL_CLAIM_CTL.OP == 0 } }
  let m : WlMsg := { WlMsg.blank with
    origin := s.devid
    subject := ump
    result := f WL_CLAIM_CTL.OP + 128 * f WL_CLAIM_CTL.PRIMARY
    key := s.getF .wlClaimKey WL_CLAIM_KEY.KEY
    group := s.getF (.wyGroup inst) WY_GROUP.GROUP }
  s.when (decide (v < 2 ^ 32) && decide (v / 2 ^ 31 = 1))
    (if 64 < inst then s.note srcRegs 0 0x08 0x38
     else if s.getF .wlClaimCtl WL_CLAIM_CTL.BUSY = 1 then s1
     else if s.fencedPeer ump then s3.claimResult 3 0xFFFF
     else if ump = s.devid then (let r := s3.umpire m; r.2.2.claimResult r.1 r.2.1)
     else s3.wySend (s.getF (.wyRoute ump) WY_ROUTE.PRI) ump 0 inst (.link 7 m))

/-- CLAIM at port w: routed on to its umpire, or resolved here and answered (R468, R486); a FENCED device does not answer it (R477). -/
def execClaim (w : Nat) (m : WlMsg) (s : State) : Out :=
  let s0 := s.wyGot w 1
  let r := s0.umpire m
  s.when (decide (w < 16) && wlFits m && s.wyState w == wyUP)
    (if !s.wlOn then s0
     else if m.subject ≠ s.devid then s0.wySend w m.subject (m.hops + 1) 0x7F (.link 7 { m with hops := m.hops + 1 })
     else if s.wlState = wlFENCED then s0
     else r.2.2.wySend w m.origin 0 0x7F (.link 8 { m with hops := 0, result := r.1, winner := r.2.1 }))

/-- CLAIM_RES at port w: routed on to the claimant, or taken into WL_CLAIM_RES. -/
def execClaimRes (w : Nat) (m : WlMsg) (s : State) : Out :=
  s.when (decide (w < 16) && wlFits m && decide (m.result < 8) && s.wyState w == wyUP)
    (if m.origin ≠ s.devid then (s.wyGot w 1).wySend w m.origin (m.hops + 1) 0x7F (.link 8 { m with hops := m.hops + 1 })
     else if s.getF .wlClaimCtl WL_CLAIM_CTL.BUSY = 1 then (s.wyGot w 1).claimResult m.result m.winner
     else s.wyGot w 1)

/-! ## Admission (R488, R489) -/

/-- WL_ADMIT shows a phase or a refusal, with its record. -/
def State.admitPhase (s : State) (phase cause : Nat) : State :=
  let s := ((s.setF .wlAdmit WL_ADMIT.PHASE phase).setF .wlAdmit WL_ADMIT.CAUSE cause).wlNote 0 0x97 (phase + 8 * cause)
  if phase = 5 ∧ s.wlState = wlJOINING then s.setF .wlState WL_STATE.STATE wlOFF else s

/-- ADMISSION: v, with GO, is written to WL_ADMIT. Only a FENCED device, or one that is OFF, may start, one admission at a time. -/
def execAdmission (v : Nat) (s : State) : Out :=
  let ph := s.getF .wlAdmit WL_ADMIT.PHASE
  s.when (decide (v < 2 ^ 32) && decide (v / 2 ^ 31 = 1))
    (if s.wlOn && (s.wlState == wlOFF || s.wlState == wlFENCED) && (ph == 0 || ph == 5) then
       (if s.wlState = wlOFF then s.setF .wlState WL_STATE.STATE wlJOINING else s).admitPhase 1 0
     else s.note srcRegs 0 0x08 0x24)

/-- ADMISSION_PHASE_COMPLETE: the self-test of phase 1, or the known-answer tests of phase 2, end; after phase 2 the joiner asks its
ring neighbour for the token's lap. -/
def execAdmissionPhaseComplete (pass : Bool) (s : State) : Out :=
  let ph := s.getF .wlAdmit WL_ADMIT.PHASE
  let m : WlMsg := { WlMsg.blank with
    origin := s.devid, subject := s.devid, arith := (s.reg .gctlArithrev).toNat, count := s.waling.expelledHere.toNat }
  s.when (ph == 1 || ph == 2)
    (if !pass then s.admitPhase 5 ph
     else if ph = 1 then s.admitPhase 2 0
     else (s.admitPhase 3 0).wlSend 0 6 m)

/-- Cause for which this member refuses a joiner, 0 for none (R489). -/
def State.admitCause (s : State) (m : WlMsg) : Nat :=
  if m.arith ≠ (s.reg .gctlArithrev).toNat then 3
  else if inService (s.memberState m.subject) then 4
  else if m.count ≠ 0 then 5
  else if (s.members.filter fun x => x.2.1 != m.subject).length ≥ 1024 then 6
  else 0

/-- ADMIT on ring side x: the joiner's neighbour starts the lap, unless a change of the same subject is in flight; each member checks
the joiner; the last one, the joiner's other neighbour, hands it the result; the joiner commits, or is refused. -/
def execAdmit (x : Nat) (m : WlMsg) (s : State) : Out :=
  let start := decide (m.origin = m.subject)
  let busy := s.waling.tokens.any fun t => t.subject == m.subject
  let m1 := if start then { m with origin := s.devid } else m
  let m2 := if m.result = 0 then { m1 with result := s.admitCause m } else m1
  let m3 := if s.nbrId (1 - x) = m.subject then { m2 with witness := s.devid } else m2
  s.when (s.wlTakes x && wlFits m)
    (if m.subject = s.devid then
       (if s.getF .wlAdmit WL_ADMIT.PHASE ≠ 3 then s.wlGot x
        else if m.result ≠ 0 then (s.wlGot x).admitPhase 5 (m.result % 16)
        else (((s.wlGot x).admitPhase 4 0).commit { m with result := 3 }).setF .wlAdmit WL_ADMIT.PHASE 0)
     else if !s.wlActive || (start && busy) then s.wlGot x
     else (s.wlGot x).wlSend (1 - x) 6 m3)

end Sys2Proof.Machine
end

