-- ==== Sys2Proof/Machine/Ccl.lean ====
section
/-!
DEFINITION. The Companion Coherent Link: ports, snoops, returned lines, acknowledgements (R295 to R301, R309, R310, R324); the event
log unit (R377, R492 to R494); the event timer (R563).
-/
namespace Sys2Proof.Machine

/-! ## Emitting event records (R492 to R494) -/

/-- The 32 bytes of an emitted record (R492). -/
def EvOut.bytes (e : EvOut) : List Byte :=
  leBytes 8 e.ev.gtc ++ leBytes 2 (e.ev.source % 2 ^ 12 + e.ev.sev % 4 * 2 ^ 12) ++ [BitVec.ofNat 8 e.ev.cls, 0]
    ++ leBytes 4 e.seq ++ leBytes 8 e.ev.payload ++ leBytes 2 e.devid ++ leBytes 6 0

/-- The record with a SEQ that the on-chip ring still holds. -/
def State.logRecord (s : State) (seq : Nat) : Option EvOut :=
  match SMap.get none s.log.ring (seq % 16384) with
  | some e => if e.seq = seq then some e else none
  | none => none

/-- Write the records that companion memory has not received, from the oldest one still held on chip (R494). -/
def State.logFlush (s : State) : State :=
  if s.getF .gctlElogCtl GCTL_ELOG_CTL.EN = 1 ∧ s.cclUp = true then
    let first := max s.log.compNext (s.log.nextSeq - 16384)
    let base := s.getF .gctlElogBase GCTL_ELOG_BASE.ADDR * 32
    let size := 2 ^ s.getF .gctlElogCtl GCTL_ELOG_CTL.L
    let s := (List.range (s.log.nextSeq - first)).foldl (fun s i => match s.logRecord (first + i) with
      | some e => s.cclSend .wrl (base + 32 * ((first + i) % size)) e.bytes (.logRecord (first + i))
      | none => s) s
    if first < s.log.nextSeq then
      { s with log := { s.log with compNext := s.log.nextSeq } }.setReg .gctlElogProd (BitVec.ofNat 64 s.log.nextSeq)
    else s
  else s

/-- EVENT_RECORD_EMIT: the first held record, in the order of R377, is emitted 1,024 cycles after its GTC. -/
def execEventRecordEmit (s : State) : Out :=
  match s.log.held with
  | [] => s.when false s
  | e :: rest =>
    let seq := s.log.nextSeq
    let o : EvOut := ⟨e, seq, s.getF .wyDevid WY_DEVID.ID⟩
    let off := s.getF .gctlElogCtl GCTL_ELOG_CTL.EN == 0
    let s1 := { s with
      log := { s.log with
        held := rest
        nextSeq := seq + 1
        ring := SMap.put none s.log.ring (seq % 16384) (some o)
        compNext := if off then seq + 1 else s.log.compNext } }
    s.when (decide (e.gtc + 1024 ≤ s.gtc)) s1.logFlush

/-- A record takes its place among the held ones: by GTC, then source, then order of detection (R377). -/
def insertRec (e : EvRec) : List EvRec → List EvRec
  | [] => [e]
  | x :: l => if e.gtc < x.gtc ∨ (e.gtc = x.gtc ∧ e.source < x.source) then e :: x :: l else x :: insertRec e l

/-- The sources deliver their records; a run of drops at a source is reported in one EV_LOST record (R493). -/
def State.deliverLog (s : State) : State :=
  let pay (x : Nat × Nat) : Nat := evPayload (s.getF .timeBeat TIME_BEAT.NUM) 0xFF 0x7F (x.1 % 4096 + 4096 * min x.2 65535)
  let lost : List EvRec := s.log.dropped.map fun x => ⟨s.gtc, srcLog, 0, 0x0F, pay x⟩
  { s with log := { s.log with queued := [], dropped := [], held := (s.log.queued ++ lost).foldl (fun h e => insertRec e h) s.log.held } }

/-! ## Ports (R295 to R298) -/

/-- CCL_PORT record (R495). -/
def State.cclNote (s : State) (i : Nat) : State :=
  let st := s.getF (.cclPortStatus i) CCL_PORT_STATUS.STATE
  s.note (srcCcl i) (if st = 0 then 3 else 0) 0x22 (i + 2 * st + 8 * s.getF (.cclPortStatus i) CCL_PORT_STATUS.WIDTH)

def State.setCclPort (s : State) (i state width : Nat) : State :=
  ((s.setF (.cclPortStatus i) CCL_PORT_STATUS.STATE state).setF (.cclPortStatus i) CCL_PORT_STATUS.WIDTH width).cclNote i

/-- CCL_PORT_UP: port i has trained at 16 lanes, or at 8 once lanes have failed; what was held while both ports were down goes out. The first
configuration exchange brings the base of the register space (R297). -/
def execCclPortUp (i : Nat) (up : CclUp) (s : State) : Out :=
  let s1 := { s with ccl := { s.ccl with base := some (s.ccl.base.getD up.base) } }
  let s2 := s1.modLink i fun x => { x with next := 0, first := 0, replay := [], narrow := x.narrow || decide (up.lanes = 8) }
  s.when
    (decide (i < 2) && (decide (up.lanes = 16) && !(s.cclLink i).narrow || decide (up.lanes = 8)) && decide (up.base < 2 ^ 51) && s.domainOn (270 + i)
      && decide (s.getF (.cclPortStatus i) CCL_PORT_STATUS.STATE ≠ 2))
    ((s2.setCclPort i 2 up.lanes).cclRoute fun t => t.port == 2).logFlush

/-- CCL_PORT_DOWN: port i keeps lanes good lanes: with 8 or more it retrains at 8, with fewer it goes down; its transactions in flight
are re-issued on the other port, or held. -/
def execCclPortDown (i lanes : Nat) (s : State) : Out :=
  let s1 := s.modLink i fun x => { x with next := 0, first := 0, replay := [], narrow := true }
  s.when (decide (i < 2) && decide (lanes < 16) && decide (s.getF (.cclPortStatus i) CCL_PORT_STATUS.STATE ≠ 0))
    ((s1.setCclPort i (if 8 ≤ lanes then 1 else 0) 0).cclRoute fun t => t.port == i)

/-- CCL_RETRY: a CRC error on port i; the flits from the first unacknowledged one are repeated (R296), and the retry is counted. -/
def execCclRetry (i : Nat) (s : State) : Out :=
  let s1 := s.modLink i fun x => { x with replay := (List.range (x.next - x.first)).map (x.first + ·) }
  s.when (decide (i < 2) && decide (s.getF (.cclPortStatus i) CCL_PORT_STATUS.STATE = 2))
    ((s1.satF (.cclPortStatus i) CCL_PORT_STATUS.RETRY 1).health 0 1 0 0)

/-! ## Watched lines (R299 to R301) -/

/-- Companion address of the watched line of a ring. -/
def State.watchedAt (s : State) (n r : Nat) : Option Nat :=
  match s.ringPlace n (s.getF (ringRegs n r).wline IW_RING_WLINE.ADDR * 64) false with
  | some (.comp a) => some a
  | _ => none

/-- Companion address of a watched line of a queue pair. -/
def State.qpLineAt (s : State) (q : Nat) (out : Bool) : Option Nat :=
  s.qpPlace (64 * if out then s.getF (.rlQpOutwline q) RL_QP_OUTWLINE.ADDR else s.getF (.rlQpInwline q) RL_QP_INWLINE.ADDR) false

/-- Every ring of the register space: those of instances, the management ring, the device ring. -/
def allRings : List (Nat × Nat) := ((List.range 65).flatMap fun n => (List.range 64).map fun r => (n, r)) ++ [(65, 0), (65, 1)]

/-- Read again by RDS the watched lines whose address, none where it does not lead to companion memory, a test selects, and the words of
running BARRIERs. -/
def State.rereadLines (s : State) (hit : Option Nat → Bool) : State :=
  let s := allRings.foldl (fun s x => if s.ringEn x.1 x.2 && hit (s.watchedAt x.1 x.2) then s.readWatched x.1 x.2 else s) s
  let s := (List.range 64).foldl (fun s q =>
    if s.getF (.rlQpCtl q) RL_QP_CTL.EN = 0 then s
    else
      let s := if hit (s.qpLineAt q false) then s.qpWatch q false else s
      if hit (s.qpLineAt q true) then s.qpWatch q true else s) s
  s.cmds.foldl (fun s c => match c.d.body, c.waddr with
    | .barrier _, some a =>
      if c.phase = .running ∧ hit (some (a / 64 * 64)) = true then s.cclSend .rds (a / 64 * 64) [] (.barrierWord c.key) else s
    | _, _ => s) s

/-- The home invalidates the device's copy of line a: it becomes I, and where it is watched it is read again by RDS (R299, R301). -/
def State.snooped (s : State) (a : Nat) : State := (s.uncache a).rereadLines fun b => b == some a

/-- SNPINV: the companion invalidates line address a; the device acknowledges it, marks the line I and reads it again by RDS. -/
def execSnpinv (a : Nat) (s : State) : Out :=
  s.when (decide (a % 64 = 0) && decide (a < 2 ^ 51) && s.cclUp)
    ({ s with ccl := { s.ccl with acks := s.ccl.acks ++ [a] } }.snooped a)

/-- WATCHED_LINE_REREAD: once per ms every watched line is read again; a ring whose line no longer leads to companion memory enters error
state (R307). -/
def execWatchedLineReread (s : State) : Out :=
  s.when (decide (s.ccl.rereadAt + 3600000 ≤ s.gtc))
    ({ s with ccl := { s.ccl with rereadAt := s.gtc } }.rereadLines fun _ => true)

/-- What a returned line is for (R301, R306, R162, R164, R414). -/
def State.lineReturned (s : State) (t : CclTxn) (bs : List Byte) : State :=
  match t.purpose with
  | .watched n r => if s.ringEn n r then s.watchedLine n r (fieldAt bs 0 8) (fieldAt bs 8 8) else s
  | .descriptor n r x => s.modRing n r fun y =>
      { y with fetched := y.fetched.map fun f =>
          if f.ridx = x then (if t.addr / 64 % 2 = 0 then { f with lo := some bs } else { f with hi := some bs }) else f }
  | .barrierWord k => s.modCmd k.no fun c => match c.waddr with
      | some a => { c with word := some (fieldAt bs (a % 64) 8) }
      | none => c
  | .signalRead k => match s.cmd k.no with
      | some c => if c.phase = .running then s.signalRead c (fieldAt bs ((c.waddr.getD 0) % 64) 8) else s
      | none => s
  | .queuePair q out => if s.getF (.rlQpCtl q) RL_QP_CTL.EN = 1 then s.qpLine q out (fieldAt bs 0 8) else s
  | _ => s

/-- The line of a read enters the line cache. A BARRIER word that finds no free line is not cached: it is watched by the re-read of each ms
alone, and REG_IGNORED is written once (R565). -/
def State.keepLine (s : State) (t : CclTxn) : State :=
  match t.purpose with
  | .barrierWord k =>
    if s.cacheRoom 1 || s.ccl.cache.contains t.addr then s.cacheLine t.addr
    else if (match s.cmd k.no with | some c => c.word.isNone | none => false) then s.event srcRegs 0 0x08 0xFF k.inst 0
    else s
  | _ => s.cacheLine t.addr

/-- The read belongs to a transaction of a copy engine that is still under way: WEAVE_TRANSACTION_COMPLETE brings its data (R299). -/
def State.engineWaits (s : State) (t : CclTxn) : Bool :=
  match t.purpose with
  | .engineRead p k e id => (s.ceQueue p k e).entries.any fun y => y.inflight.any fun z => z.id == id
  | _ => false

/-- LINE_DATA_RETURN: the companion answers the j-th outstanding transaction, a read, with the 64 bytes of its line. -/
def execLineDataReturn (j : Nat) (data : List Nat) (s : State) : Out :=
  match s.ccl.out[j]? with
  | none => s.when false s
  | some t =>
    let s1 := { s with ccl := { s.ccl with out := s.ccl.out.eraseIdx j } }.flitAcked t.port
    let s2 := if t.cached then s1.keepLine t else s1
    s.when
      ((t.kind == .rds || t.kind == .rdc) && decide (t.port ≠ 2) && decide (data.length = 64) && (data.all fun b => decide (b < 256))
        && !s.engineWaits t)
      (s2.lineReturned t (data.map fun b => BitVec.ofNat 8 b))

/-- What an acknowledged write is for (R310, R324, R416, R494). -/
def State.writeAcked (s : State) (pu : CclPurpose) : State :=
  match pu with
  | .status n r _ cpl line => s.statusAcked n r cpl line
  | .qpStatus q true => s.msi (s.getF (.rlQpCtl q) RL_QP_CTL.MSIVEC)
  | .logRecord seq => match s.logRecord seq with
    | some e => if s.getF .gctlElogCtl GCTL_ELOG_CTL.IRQSEV ≤ e.ev.sev then s.msi (s.getF .gctlElogCtl GCTL_ELOG_CTL.MSIVEC) else s
    | none => s
  | _ => s

/-- WRITE_ACKNOWLEDGE: the companion acknowledges the j-th outstanding transaction, a write. The home has invalidated every copy of its line, the
device's own too (R299). -/
def execWriteAcknowledge (j : Nat) (s : State) : Out :=
  match s.ccl.out[j]? with
  | none => s.when false s
  | some t =>
    let s1 := { s with ccl := { s.ccl with out := s.ccl.out.eraseIdx j } }.flitAcked t.port
    let line := t.addr / 64 * 64
    let s2 := if s1.ccl.cache.contains line then s1.snooped line else s1
    s.when ((t.kind == .wrl || t.kind == .wrp) && decide (t.port ≠ 2)) (s2.writeAcked t.purpose).sendMsis

/-! ## The event timer (R563) -/

/-- EVENT_TIMER_TICK: the timer raises its MSI vector; a heartbeat or a health update that is due goes first, and later ticks do not
move. -/
def execEventTimerTick (s : State) : Out :=
  let first := (s.wlActive && decide (s.waling.hbAt + 28800 ≤ s.gtc)) || decide (s.waling.healthAt + 360000000 ≤ s.gtc)
  let s1 := { s with time := { s.time with timerAt := s.time.timerAt + 3600 * s.getF .gctlEtimer GCTL_ETIMER.PERIOD } }
  s.when (decide (s.getF .gctlEtimer GCTL_ETIMER.EN = 1) && decide (s.time.timerAt ≤ s.gtc) && !first)
    (s1.msi (s.getF .gctlEtimer GCTL_ETIMER.MSIVEC))

end Sys2Proof.Machine
end

