-- ==== Sys2Proof/Machine/Fronthaul.lean ====
section
/-!
DEFINITION. The fronthaul ports: registers, flow table, ingress and egress, shaping, links, modules, packet engines (R365, R366,
R381 to R407).
-/
namespace Sys2Proof.Machine

def State.fhEn (s : State) (p : Nat) : Bool := s.getF (.fhCfg p) FH_CFG.EN == 1
def State.fhUp (s : State) (p sub : Nat) : Bool := s.getF (.fhStatus p) ⟨28 + sub, 28 + sub⟩ == 1

/-- Count in FH_CNTk (R406). -/
def State.fhCount (s : State) (p k n : Nat) : State := s.setF (.fhCnt p k) FH_CNT.VALUE (s.getF (.fhCnt p k) FH_CNT.VALUE + n)

/-- A drop of a flow's frame. -/
def State.flowDrop (s : State) (p f : Nat) : State := s.satF (.fhFlowLo p f) FH_FLOW_LO.DROPS 1

/-- A record of port p (R407). -/
def State.fhNote (s : State) (p sub sev cls ctx detail : Nat) : State := s.event (srcFh p) sev cls 0xFF ctx (p + 32 * sub + 128 * detail)

/-- FH_CFG_IGNORED for a write at an offset of the port's register file. -/
def State.fhIgnored (s : State) (p off : Nat) : State := s.fhNote p 0 0 0x64 0x7F off

/-! ## Links (R383) -/

/-- A sub-port changes state: LINK, the record, the cells with a flow on it (R438). -/
def State.setLink (s : State) (p sub : Nat) (up : Bool) : State :=
  let s := (s.setF (.fhStatus p) ⟨28 + sub, 28 + sub⟩ up.toNat).fhNote p sub (if up then 0 else 3) 0x60 0x7F up.toNat
  s.fronthaulFault p (some sub) 2

/-- The frame on a sub-port's line is lost (R405). -/
def State.loseLine (s : State) (p sub : Nat) : State :=
  if (SMap.get none (s.fhp p).line sub).isSome then
    (s.modFhp p fun x => { x with line := SMap.put none x.line sub none }).fhCount p 12 1
  else s

def execSubportUp (p sub : Nat) (s : State) : Out :=
  s.when (decide (p < 24) && s.fhEn p && decide (sub < subPorts (s.getF (.fhCfg p) FH_CFG.MODE)) && !s.fhUp p sub)
    (s.setLink p sub true)

def execSubportDown (p sub : Nat) (s : State) : Out :=
  s.when (decide (p < 24) && decide (sub < 4) && s.fhUp p sub) ((s.setLink p sub false).loseLine p sub)

/-! ## FH_CFG and the flow table (R383, R386, R387, R396) -/

/-- Domains of the port switches and of the management buses follow the ports (R526). -/
def State.portDomains (s : State) : State :=
  let fh (a b : Nat) : Bool := (List.range 24).any fun p => decide (a ≤ p) && decide (p < b) && s.fhEn p
  let wy (a b : Nat) : Bool := (List.range 16).any fun w => decide (a ≤ w) && decide (w < b) && s.getF (.wyCfg w) WY_CFG.EN == 1
  let x0 := fh 0 12 || wy 0 8
  let x1 := fh 12 24 || wy 8 16
  ((s.setDomain 268 x0).setDomain 269 x1).setDomain 284 (x0 || x1)

/-- Port p goes into or out of service (R396, R526). -/
def State.fhSwitch (s : State) (p : Nat) (en : Bool) : State :=
  if en then
    (s.modFhp p fun x => { x with credits := [], subCredits := [], tokens := [] }).setDomain (220 + p) true
  else
    let s := [0, 1, 2, 3].foldl (fun s k => if s.fhUp p k then (s.setLink p k false).loseLine p k else s) s
    let q := (s.fhp p).queue
    let s := q.foldl (fun s f => if f.cls < 3 then s.fhCount p 12 1 else (s.fhCount p 12 1).flowDrop p f.flow) s
    (s.modFhp p fun x => { x with queue := [], stop := none, seqs := [] }).setDomain (220 + p) false

/-- Write FH_CFG: MODE, TXPOL and RXPOL only while EN is 0 (R383); MODE 3 is reserved (R381). -/
def State.writeFhCfg (s : State) (p v : Nat) : State :=
  let r := Reg.fhCfg p
  let w := BitVec.ofNat 64 v
  let old := s.reg r
  let held := [FH_CFG.MODE, FH_CFG.TXPOL, FH_CFG.RXPOL]
  if FH_CFG.EN.get old = 1 ∧ held.any (fun f => f.get w != f.get old) = true then s.fhIgnored p 0
  else if FH_CFG.MODE.get w = 3 then s.fhIgnored p 0
  else
    let s := s.setReg r (BitVec.ofNat 64 (v / 2 ^ 29 * 2 ^ 29 + v % 2 ^ 24))
    if FH_CFG.EN.get w = FH_CFG.EN.get old then s else (s.fhSwitch p (FH_CFG.EN.get w = 1)).portDomains

/-- FH_PORT_ENABLE: v is written to FH_CFG of port p and changes EN. -/
def execFhPortEnable (p v : Nat) (s : State) : Out :=
  s.when (decide (p < 24) && decide (v < 2 ^ 32) && decide (v / 2 ^ 31 ≠ s.getF (.fhCfg p) FH_CFG.EN)) (s.writeFhCfg p v)

/-- FLOW_STAGING_WRITE: v is written to bits 63:0 of flow entry f, by Grizor or by the companion (R386, R387). -/
def execFlowStagingWrite (p f v : Nat) (grizor : Bool) (s : State) : Out :=
  s.when (decide (p < 24) && decide (f < 1024) && decide (v < 2 ^ 64))
    (if s.fhEn p && !grizor then s.fhIgnored p (0x4000 + 16 * f)
     else s.modFhp p fun x => { x with staging := some (f, v) })

/-- FLOW_ENTRY_REPLACE: v is written to bits 127:64 of flow entry f. -/
def execFlowEntryReplace (p f v : Nat) (grizor : Bool) (s : State) : Out :=
  let lo := match (s.fhp p).staging with
    | some (k, w) => if k = f then w else (s.reg (.fhFlowLo p f)).toNat
    | none => (s.reg (.fhFlowLo p f)).toNat
  s.when (decide (p < 24) && decide (f < 1024) && decide (v < 2 ^ 64))
    (if s.fhEn p && !grizor then s.fhIgnored p (0x4000 + 16 * f + 8)
     else ((s.setReg (.fhFlowLo p f) (BitVec.ofNat 64 (lo / 2 ^ 24 * 2 ^ 24))).setReg (.fhFlowHi p f)
        (BitVec.ofNat 64 (v / 2 ^ 14 * 2 ^ 14))).modFhp p fun x => { x with staging := none })

/-! ## Compression (R392 to R394) -/

/-- x divided by 2 ^ s, ties toward +infinity (R394). -/
def prbRound (x : Int) (s : Nat) : Int := if s = 0 then x else (x + ((2 ^ (s - 1) : Nat) : Int)) / ((2 ^ s : Nat) : Int)

/-- Exponent and mantissas of a PRB at width w (R394). -/
def prbCompress (w : Nat) (xs : List Int) : Nat × List Int :=
  let lim : Int := ((2 ^ (w - 1) - 1 : Nat) : Int)
  let fits (s : Nat) : Bool := xs.all fun x => let m := prbRound x s; decide (-lim ≤ m) && decide (m ≤ lim)
  let e := (((List.range 17).find? fits).getD 16)
  (e, xs.map fun x => prbRound x e)

/-- A decompressed value and whether it was clamped (R393). -/
def prbValue (e : Nat) (m : Int) : Int × Bool :=
  let v := m * ((2 ^ e : Nat) : Int)
  if 32767 < v then (32767, true) else if v < -32767 then (-32767, true) else (v, false)

/-- The bytes of a PRB (R392): with BFP its udCompParam byte, then 24 values of w bits, most significant bit first. -/
def prbPack (bfp : Bool) (w e : Nat) (ms : List Int) : List Byte :=
  let v := ms.foldl (fun a m => a * 2 ^ w + unsignedOf w m) 0
  (if bfp then [BitVec.ofNat 8 (e % 16)] else []) ++ (List.range (3 * w)).map fun i => BitVec.ofNat 8 (v / 2 ^ (8 * (3 * w - 1 - i)))

/-- Exponent and values of the bytes of a PRB (R392). -/
def prbUnpack (bfp : Bool) (w : Nat) (bs : List Nat) : Nat × List Int :=
  let v := ((if bfp then bs.drop 1 else bs).take (3 * w)).foldl (fun a b => a * 256 + b % 256) 0
  (if bfp then bs.headD 0 % 16 else 0, (List.range 24).map fun i => signed w (v / 2 ^ (w * (23 - i)) % 2 ^ w))

/-- Width of a WIDTH field: 0 means 16 (R385). -/
def flowWidth (w : Nat) : Nat := if w = 0 then 16 else w

/-! ## PTP (R365, R366, R399, R400) -/

def State.ptp (s : State) (n : Nat) : Ptp := SMap.get .idle s.time.ptp n
def State.setPtp (s : State) (n : Nat) (x : Ptp) : State := { s with time := { s.time with ptp := SMap.put .idle s.time.ptp n x } }

/-- Time bases that take their phase from PTP on port p. -/
def State.ptpBases (s : State) (p : Nat) : List Nat :=
  [0, 1].filter fun n => s.psrc n == 1 && s.getF (.timeTbCfg n) TIME_TB_CFG.PPORT == p && decide (s.tbState n ≠ tbOFF)

/-- A Delay_Resp closes the exchange: the offset of R366, with the asymmetry added to t2 - t1. The servo takes the phase source minus
the time base, the negative of the formula's value (R363; log 29). -/
def State.ptpMeasure (s : State) (n : Nat) (t1 t2 t3 t4 : Rat) : State :=
  let asym : Rat := ((signed 8 (s.getF (.timeTbServo n) TIME_TB_SERVO.ASYM) : Int) : Rat)
  s.measure n (-(((t2 - t1 + asym) - (t4 - t3)) / 2))

/-- The message belongs to the domain of time base n: 24 to 43 over Ethernet, 44 to 63 over UDP (R365, R380). -/
def State.ptpDomain (s : State) (n : Nat) (m : PtpMsg) (ether : Bool) : Bool :=
  decide (m.domain = 24 + s.getF (.timeTbCfg n) TIME_TB_CFG.DOMAIN) && (if ether then decide (m.domain < 44) else decide (44 ≤ m.domain))

/-- One data set comes before another, number by number. -/
def setBefore : List Nat → List Nat → Bool
  | a :: l, b :: r => decide (a < b) || (a == b && setBefore l r)
  | [], _ :: _ => true
  | _, [] => false

/-- An Announce message: Grizor, while it serves, chooses the master whose data set comes first (R365; the comparison is that of the profile,
PRESUMED, log 29). While it is busy the choice stays (R366). -/
def State.ptpAnnounce (s : State) (n : Nat) (m : PtpMsg) : State :=
  let x := s.ptp n
  let seen := (x.masters.filter fun y => y.1 != m.master) ++ [(m.master, m.quality)]
  let best := seen.foldl (fun (b : Option (Nat × List Nat)) y => match b with
    | some z => if setBefore (y.2 ++ [y.1]) (z.2 ++ [z.1]) then some y else b
    | none => some y) none
  s.setPtp n { x with masters := seen, chosen := if s.mpServes then best.map Prod.fst else x.chosen }

/-- A PTP message for time base n; at_ is its receive timestamp in that base. A Sync counts from the master that Grizor has chosen: a change takes effect there
(R366). -/
def State.ptpMessage (s : State) (n : Nat) (m : PtpMsg) (at_ : Rat) : State :=
  let x := s.ptp n
  let corr : Rat := ((m.corr : Int) : Rat) / 65536
  let time : Rat := (m.time : Rat)
  if m.type = 11 then s.ptpAnnounce n m
  else if m.type = 0 then
    if x.chosen ≠ some m.master then s
    else s.setPtp n { x with
      t1 := if m.twoStep then none else some (time + corr)
      t2 := some at_
      corr := corr
      syncSeq := m.seq
      master := m.master }
  else if m.type = 8 then
    if m.seq = x.syncSeq ∧ m.master = x.master ∧ x.t2.isSome = true then s.setPtp n { x with t1 := some (time + x.corr + corr) } else s
  else if m.type = 9 then
    match x.t1, x.t2, x.t3 with
    | some t1, some t2, some t3 =>
      if m.seq = x.reqSeq ∧ m.master = x.master then
        (s.setPtp n { x with t1 := none, t2 := none, t3 := none }).ptpMeasure n t1 t2 t3 (time - corr)
      else s
    | _, _, _ => s
  else s

/-- DELAY_REQ_SEND: the slave port of time base n sends a Delay_Req, a 64-byte frame of the first egress class, on
sub-port 0 (R365, R366, R398; its length and sub-port: DESIGN CHOICE, log 30). -/
def execDelayReqSend (n : Nat) (s : State) : Out :=
  let p := s.getF (.timeTbCfg n) TIME_TB_CFG.PPORT
  let x := s.ptp n
  s.when (decide (n < 2) && decide (p < 24) && (s.ptpBases p).contains n && s.fhEn p && x.t2.isSome)
    ((s.setPtp n { x with reqSeq := (x.reqSeq + 1) % 2 ^ 16, t3 := none }).fhQueue p
      { id := 0, cls := 1, sub := 0, flow := 0, len := 64, earliest := 0, latest := 0, slot := 0, wire := [], tb := n, idle := false, got := none, sent := none })

/-! ## Ingress (R388 to R391) -/

/-- Flits of n bytes count as bytes moved by I0 (R391). -/
def State.fhFlits (s : State) (n : Nat) : State := s.charge 0 fun a => { a with bytes := a.bytes + (n + 63) / 64 * 64 }

/-- Keep the first 128 bytes of a dropped frame (R389). -/
def State.fhCapture (s : State) (p : Nat) (f : FhRx) : State :=
  let bs := (f.head.take 128).map (BitVec.ofNat 8)
  let s := (List.range 16).foldl (fun s k => s.setReg (.fhExccap p k) (BitVec.ofNat 64 (leNat ((bs.drop (8 * k)).take 8)))) s
  (s.setF (.fhExcsub p) FH_EXCSUB.VALID 1).setF (.fhExcsub p) FH_EXCSUB.SUB f.sub

/-- Destinations that a sub-port takes (R388): its address, broadcast, and the PTP and slow-protocol multicast addresses (their values
are those of IEEE 1588 and IEEE 802.3; PRESUMED, log 30). -/
def State.fhDest (s : State) (p : Nat) (f : FhRx) : Bool :=
  f.dst == s.getF (.fhMac p f.sub) FH_MAC.MAC || [0xFFFFFFFFFFFF, 0x000000191B01, 0x0E0000C28001, 0x020000C28001].contains f.dst

/-- Lowest valid ingress U-plane entry that matches (R385). -/
def State.fhMatch (s : State) (p : Nat) (f : FhRx) : Option Nat :=
  (List.range 1024).find? fun k =>
    let w := s.reg (.fhFlowHi p k)
    FH_FLOW_HI.VALID.get w == 1 && FH_FLOW_HI.DIR.get w == 0 && FH_FLOW_HI.PLANE.get w == 0 && FH_FLOW_HI.SUB.get w == f.sub
      && FH_FLOW_HI.VID.get w == f.vid && FH_FLOW_HI.EAXC.get w == f.pcid

/-- Slot of a frame within the 2.56 s that its frame number counts (R390). -/
def frameSlot (f : FhRx) (mu : Nat) : Nat := (f.frame % 256 * 10 + f.subframe) * 2 ^ mu + f.slot

/-- Start of the frame's first symbol from the start of its 2.56 s, in ns: NR symbol times with the normal cyclic prefix (PRESUMED,
log 30). -/
def frameOffset (f : FhRx) (mu : Nat) : Rat :=
  let k := 14 * f.slot + f.symbol
  let long := (if 0 < k then 1 else 0) + (if 7 * 2 ^ mu < k then 1 else 0)
  let tc : Rat := 1000000000 / (480000 * 4096)
  (((f.frame % 256 * 10 + f.subframe) * 1000000 : Nat) : Rat) + ((k * 2192 * 64 / 2 ^ mu + long * 1024 : Nat) : Rat) * tc

/-- Air time of the frame nearest to a time t of TBR (R390). -/
def State.airTime (s : State) (f : FhRx) (mu : Nat) (t : Rat) : Rat :=
  let o := s.hyper0 + frameOffset f mu
  let per : Rat := 2560000000
  o + (((t - o) / per + 1 / 2).floor : Rat) * per

/-- Sections that a flow allows: compression and width of each (R388 step 10). -/
def State.fhSections (s : State) (p k : Nat) (f : FhRx) : Option (List ((Nat × Nat) × FhSection)) :=
  let w := s.reg (.fhFlowHi p k)
  let form (x : FhSection) : Nat × Nat :=
    if FH_FLOW_HI.DYNHDR.get w = 1 then (x.meth, flowWidth x.width) else (FH_FLOW_HI.COMP.get w, flowWidth (FH_FLOW_HI.WIDTH.get w))
  if f.sections.all fun x => decide ((form x).1 ≤ 1) && decide (8 ≤ (form x).2) && decide ((form x).2 ≤ 16) then
    some (f.sections.map fun x => (form x, x))
  else none

/-- CI16 values of the sections, with the number of clamped ones. -/
def fhDecompress (l : List ((Nat × Nat) × FhSection)) : List Int × Nat :=
  let vs := l.flatMap fun x => x.2.prbs.flatMap fun b =>
    let u := prbUnpack (x.1.1 == 1) x.1.2 b
    u.2.map fun m => prbValue u.1 m
  (vs.map Prod.fst, (vs.filter Prod.snd).length)

/-- Steps 7 to 11 of R388 for a frame of flow k; t is its arrival in TBR. -/
def State.fhDeliver (s : State) (p k : Nat) (f : FhRx) (t : Rat) : State :=
  let x := s.fhp p
  let w := s.reg (.fhFlowHi p k)
  let mu := FH_FLOW_HI.SCS.get w
  let rate := SMap.get 0 x.rates k
  let n := (f.len + x.ovh) * 256
  let tok := SMap.get 0 x.tokens k
  if rate ≠ 0 ∧ tok < n then (s.fhCount p 5 1).flowDrop p k
  else
    let s := if rate = 0 then s else s.modFhp p fun x => { x with tokens := SMap.put 0 x.tokens k (tok - n) }
    let air := s.airTime f mu t
    let lo : Rat := ((signed 32 (s.getF (.fhWin p f.sub) FH_WIN.TA4MIN) : Int) : Rat)
    let hi : Rat := ((signed 32 (s.getF (.fhWin p f.sub) FH_WIN.TA4MAX) : Int) : Rat)
    if air + hi < t then (s.fhCount p 7 1).flowDrop p k
    else
      let s := if t < air + lo then s.fhCount p 6 1 else s
      let old := SMap.get 0 x.seqs k
      let s := if old ≠ 0 ∧ f.seq % 256 ≠ old % 256 then s.fhCount p 8 1 else s
      let s := s.modFhp p fun x => { x with seqs := SMap.put 0 x.seqs k (f.seq % 256 + 1) }
      match s.fhSections p k f with
      | none => s.fhCount p 4 1
      | some l =>
        let d := fhDecompress l
        let s := ((s.fhCount p 9 d.2).fhCount p 0 1).fhFlits (2 * d.1.length)
        (s.modFhp p fun x => { x with iq := SMap.put [] x.iq k d.1 }).gotPrbs p k (frameSlot f mu) ((f.sections.map fun x => x.prbs.length).sum)

/-- What becomes of a received frame (R388). -/
def State.fhReceive (s : State) (p : Nat) (f : FhRx) (frac : Nat) : State :=
  let part : Rat := (frac : Rat) / 256
  let corr : Rat := ((signed 32 (s.getF (.fhTscorr p f.sub) FH_TSCORR.RX) : Int) : Rat) / 65536
  if f.fcs = false ∨ f.len < 64 ∨ 9216 < f.len then s.fhCount p 1 1
  else if s.fhDest p f = false then s.fhCount p 2 1
  else if f.etype = 0x88F7 ∨ f.etype = 0x8809 ∨ ((f.etype = 0x0800 ∨ f.etype = 0x86DD) ∧ f.ptp.isSome = true) then
    let s := match f.ssm with
      | some q => if f.etype = 0x8809 then { s with time := { s.time with quality := SMap.put 0 s.time.quality p (q % 16 + 1) } } else s
      | none => s
    match f.ptp with
    | some m => if f.etype = 0x8809 then s else
      ((s.ptpBases p).filter fun n => s.ptpDomain n m (f.etype == 0x88F7)).foldl (fun s n =>
        s.ptpMessage n m (subNs ((s.tb n).value + s.addend n * part - corr))) s
    | none => s
  else if f.etype ≠ 0xAEFE then (s.fhCount p 3 1).fhCapture p f
  else if f.rev ≠ 1 ∨ f.sized = false ∨ (f.mtype ≠ 0 ∧ f.mtype ≠ 5) ∨ f.ebit = false then (s.fhCount p 4 1).fhCapture p f
  else if f.mtype = 5 then
    s.fhQueue p
      { id := 0, cls := 2, sub := f.sub, flow := 0, len := f.len, earliest := 0, latest := 0, slot := 0, wire := [], tb := 0,
        idle := false, got := some (subNs (s.tbr + s.addend s.tbSel * part - corr)), sent := none }
  else match s.fhMatch p f with
    | none => (s.fhCount p 3 1).fhCapture p f
    | some k => s.fhDeliver p k f (subNs (s.tbr + s.addend s.tbSel * part - corr))

/-- INGRESS_FRAME: port p receives a frame, the end of its start-of-frame delimiter frac / 256 of a cycle after the start of this one. -/
def execIngressFrame (p : Nat) (f : FhRx) (frac : Nat) (s : State) : Out :=
  s.when (decide (p < 24) && decide (f.sub < 4) && s.fhUp p f.sub && decide (frac < 256))
    (if (s.fhp p).stop.isSome then s.fhCount p 13 1 else s.fhReceive p f frac)

/-! ## Egress (R396 to R398) -/

/-- EGRESS_FRAME_QUEUE: I0 queues a frame of a flow: class 3 C-plane or 4 U-plane, length, times in ns of TBR, the slot that it serves
and the values of its PRBs; without compression they go out in 16 bits (DESIGN CHOICE, log 30). -/
def execEgressFrameQueue (p cls flow len earliest latest slot : Nat) (prbs : List (List Int)) (s : State) : Out :=
  let w := s.reg (.fhFlowHi p flow)
  let wire := prbs.map fun x =>
    if FH_FLOW_HI.COMP.get w = 1 then
      let wd := flowWidth (FH_FLOW_HI.WIDTH.get w)
      prbPack true wd (prbCompress wd x).1 (prbCompress wd x).2
    else prbPack false 16 0 x
  s.when
    (decide (p < 24) && decide (flow < 1024) && s.fhEn p && (s.fhp p).stop.isNone && decide (FH_FLOW_HI.DIR.get w = 1)
      && decide (cls = 3 + if FH_FLOW_HI.PLANE.get w = 1 then 0 else 1) && decide (64 ≤ len) && decide (len ≤ s.getF (.fhMtu p) FH_MTU.MTU)
      && (decide (cls = 4) || prbs.isEmpty) && prbs.all fun x => x.length == 24 && x.all fun v => decide (-32767 ≤ v) && decide (v ≤ 32767))
    ((s.fhFlits len).fhQueue p
      { id := 0, cls := cls, sub := FH_FLOW_HI.SUB.get w, flow := flow, len := len, earliest := earliest, latest := latest, slot := slot,
        wire := wire, tb := 0, idle := false, got := none, sent := none })

/-- A frame may start now (R398). -/
def State.fhEligible (s : State) (p : Nat) (f : FhFrame) : Bool :=
  let x := s.fhp p
  decide (f.cls < 3) || (decide ((f.earliest : Rat) ≤ s.tbr) && decide (0 ≤ SMap.get 0 x.credits f.flow) && decide (0 ≤ SMap.get 0 x.subCredits f.sub))

/-- The frame whose turn it is: the highest class, then the flow after the one that sent last, then the oldest. -/
def State.fhTurn (s : State) (p sub : Nat) : Option FhFrame :=
  let x := s.fhp p
  let fs := x.queue.filter fun f => f.sub == sub && s.fhEligible p f
  [1, 2, 3, 4].findSome? fun c =>
    let g := fs.filter fun f => f.cls == c
    let last := SMap.get 0 x.turn (8 * sub + c)
    let key (f : FhFrame) : Nat := if last ≤ f.flow then f.flow else f.flow + 1024
    g.foldl (fun b f => match b with
      | some y => if key f < key y then some f else b
      | none => some f) none

/-- EGRESS_FRAME_START: the frame whose turn it is starts on the free line of a sub-port, or is dropped at its turn (R398, R405); PTP
messages and type 5 responses are timestamped (R399, R400). -/
def execEgressFrameStart (p sub : Nat) (s : State) : Out :=
  match s.fhTurn p sub with
  | none => s.when false s
  | some f =>
    let x := s.fhp p
    let s1 := s.modFhp p fun x =>
      { x with
        queue := x.queue.filter fun y => y.id != f.id
        turn := if f.cls < 3 then x.turn else SMap.put 0 x.turn (8 * sub + f.cls) (f.flow + 1) }
    let gone := !s.fhUp p sub || (decide (3 ≤ f.cls) && s.getF (.fhFlowHi p f.flow) FH_FLOW_HI.VALID == 0)
    let n : Int := (((f.len + x.ovh) * 256 : Nat) : Int)
    let tx : Rat := ((signed 32 (s.getF (.fhTscorr p sub) FH_TSCORR.TX) : Int) : Rat) / 65536
    let at_ := subNs ((if f.cls = 1 then (s.tb f.tb).value else s.tbr) + tx)
    let s2 := s1.modFhp p fun x =>
      { x with
        line := SMap.put none x.line sub (some (if f.cls < 3 then { f with sent := some at_ } else f))
        credits := if f.cls < 3 then x.credits else SMap.put 0 x.credits f.flow (SMap.get 0 x.credits f.flow - n)
        subCredits := if f.cls < 3 then x.subCredits else SMap.put 0 x.subCredits sub (SMap.get 0 x.subCredits sub - n) }
    let s3 := if f.cls = 1 then s2.setPtp f.tb { s2.ptp f.tb with t3 := some at_ } else s2
    s.when
      (decide (p < 24) && decide (sub < 4) && s.fhEn p && x.stop.isNone && (SMap.get none x.line sub).isNone)
      (if gone then (if f.cls < 3 then s1.fhCount p 12 1 else (s1.fhCount p 12 1).flowDrop p f.flow) else s3)

/-- EGRESS_FRAME_END: the frame on the line is out. -/
def execEgressFrameEnd (p sub : Nat) (s : State) : Out :=
  s.when (decide (p < 24) && decide (sub < 4) && (SMap.get none (s.fhp p).line sub).isSome)
    ((s.modFhp p fun x => { x with line := SMap.put none x.line sub none }).fhCount p 10 1)

/-- EGRESS_FRAME_LATE: the latest time of a waiting frame has passed (R398); after a radio overrun of the flow's context a missed U-plane
frame is reported once for its slot (R436). -/
def execEgressFrameLate (p id : Nat) (s : State) : Out :=
  match (s.fhp p).queue.find? fun f => f.id == id with
  | none => s.when false s
  | some f =>
    let g := s.getF (.fhFlowHi p f.flow) FH_FLOW_HI.CGC
    let s1 := ((s.modFhp p fun x => { x with queue := x.queue.filter fun y => y.id != id }).fhCount p 11 1).flowDrop p f.flow
    let tell := decide (f.cls = 4) && SMap.get false s.radio.overrun g && !s.radio.missed.contains (g, f.slot)
    let s2 := (s1.radio.cells.filterMap fun x => match x.2 with
        | some c => if c.flows.contains (p, f.flow) then some (x.1, c) else none
        | none => none).foldl (fun s x => s.cellError x.2.ctx x.1 0x83 [f.slot])
      { s1 with radio := { s1.radio with missed := s1.radio.missed ++ [(g, f.slot)] } }
    s.when (decide (p < 24) && decide (3 ≤ f.cls) && decide ((f.latest : Rat) < s.tbr)) (if tell then s2 else s1)

/-- Refill period in cycles (R396, R406). -/
def refillCycles (n : Nat) : Nat := 64 * max 4 n

/-- REFILL: credits and tokens are refilled, and new rates, period and OVH take effect (R395 to R397). -/
def execRefill (p : Nat) (s : State) : Out :=
  let x := s.fhp p
  let cfg := s.reg (.fhCfg p)
  let flows := (List.range 1024).filter fun f => s.getF (.fhFlowHi p f) FH_FLOW_HI.VALID == 1
  let rate (f : Nat) : Nat := s.getF (.fhFlowLo p f) FH_FLOW_LO.RATE
  let burst (f : Nat) : Nat := 256 * s.getF (.fhFlowLo p f) FH_FLOW_LO.BURST
  let out (f : Nat) : Bool := s.getF (.fhFlowHi p f) FH_FLOW_HI.DIR == 1
  let cap (wait : Bool) (c : Int) (r b : Nat) : Int := min (c + (r : Int)) (if wait then (b : Int) else 0)
  let sr (k : Nat) : Nat := s.getF (.fhShport p k) FH_SHPORT.RATE
  let y := { x with
    rates := flows.foldl (fun m f => SMap.put 0 m f (rate f)) []
    subRates := [0, 1, 2, 3].foldl (fun m k => SMap.put 0 m k (sr k)) []
    period := FH_CFG.REFILL.get cfg
    ovh := FH_CFG.OVH.get cfg
    credits := (flows.filter out).foldl (fun m f =>
      SMap.put 0 m f (cap (x.queue.any fun q => decide (3 ≤ q.cls) && q.flow == f) (SMap.get 0 x.credits f) (rate f) (burst f))) []
    subCredits := [0, 1, 2, 3].foldl (fun m k =>
      SMap.put 0 m k (cap (x.queue.any fun q => q.sub == k) (SMap.get 0 x.subCredits k) (sr k) (256 * s.getF (.fhShport p k) FH_SHPORT.BURST))) []
    tokens := (flows.filter fun f => !out f).foldl (fun m f => SMap.put 0 m f (min (SMap.get 0 x.tokens f + rate f) (burst f))) []
    refilled := s.gtc + 1 }
  s.when (decide (p < 24) && s.fhEn p && decide (s.gtc % refillCycles x.period = 0) && decide (x.refilled ≠ s.gtc + 1)) (s.setFhp p y)

/-! ## Modules (R401, R402) -/

/-- FH_MODULE record: the new state, and whether the module is refused or has timed out. -/
def State.moduleNote (s : State) (p state : Nat) (refused : Bool) : State :=
  s.fhNote p 0 (if state = 5 ∨ refused = true then 3 else 0) 0x61 0x7F (state + 8 * refused.toNat)

/-- Laser age in percent, 0xFF when not advertised; the record comes when it first reaches LIFETHR. -/
def State.laserAge (s : State) (p age : Nat) : State :=
  let s := s.setF (.fhMod p) FH_MOD.LASERAGE age
  if age ≠ 0xFF ∧ s.getF (.fhMod p) FH_MOD.LIFETHR ≤ age ∧ (s.fhp p).laser = false then
    (s.modFhp p fun x => { x with laser := true }).fhNote p 0 1 0x62 0x7F age
  else s

/-- MODULE_INSERTION: identifier byte, CMIS revision, laser age, what its pages hold (R382, R401); ready: the module has reached
ModuleReady. -/
def execModuleInsertion (p ident cmis age : Nat) (pages : ModulePages) (ready : Bool) (s : State) : Out :=
  let ok := decide (cmis = 0x40) || decide (cmis / 16 = 5)
  let st := if !ok then 1 else if ready then 3 else 2
  let s1 := ((s.setF (.fhStatus p) FH_STATUS.MODPRS 1).setF (.fhStatus p) FH_STATUS.MODSTATE st).setF (.fhMod p) FH_MOD.IDENT ident
  let s1 := s1.setF (.fhMod p) FH_MOD.CMISVER cmis
  let s1 := (pages.words.take 8).zipIdx.foldl (fun s x => s.setReg (.fhModid p x.2) (BitVec.ofNat 64 x.1)) s1
  let s1 := s1.modFhp p fun x => { x with inserted := if ok && !ready then some s.gtc else none, laser := false, readAt := s.gtc, txEq := pages.eq.take 4 }
  s.when (decide (p < 24) && s.boot.grizor && decide (cmis < 256) && decide (ident < 256) && decide (age < 256))
    ((s1.moduleNote p st (!ok)).laserAge p age)

/-- MODULE_READY_TIMEOUT: a module has not reached ModuleReady within 60 s; it stays in low power. -/
def execModuleReadyTimeout (p : Nat) (s : State) : Out :=
  s.when (decide (p < 24) && (match (s.fhp p).inserted with | some t => decide (t + 216000000000 ≤ s.gtc) | none => false))
    (((s.modFhp p fun x => { x with inserted := none }).setF (.fhStatus p) FH_STATUS.MODSTATE 1).moduleNote p 1 true)

/-- Grizor reads the flags of a module: its state and laser age. -/
def State.readModule (s : State) (p state age : Nat) : State :=
  let old := s.getF (.fhStatus p) FH_STATUS.MODSTATE
  let s1 := (s.setF (.fhStatus p) FH_STATUS.MODSTATE state).modFhp p fun x => { x with inserted := if state = 3 then none else x.inserted }
  (if old = state then s1 else s1.moduleNote p state false).laserAge p age

/-- MODULE_INTERRUPT: IntL. -/
def execModuleInterrupt (p state age : Nat) (s : State) : Out :=
  s.when (decide (p < 24) && s.boot.grizor && decide (s.getF (.fhStatus p) FH_STATUS.MODPRS = 1) && decide (state < 6) && decide (age < 256))
    (s.readModule p state age)

/-- MODULE_PERIODIC_READ: every 10 s Grizor reads the flags and the laser age, unless telemetry is shed (R402, R521). -/
def execModulePeriodicRead (p : Nat) (read : ModuleRead) (s : State) : Out :=
  s.when
    (decide (p < 24) && s.boot.grizor && decide (s.getF (.fhStatus p) FH_STATUS.MODPRS = 1) && decide (read.state < 6) && decide (read.age < 256)
      && decide ((s.fhp p).readAt + 36000000000 ≤ s.gtc) && decide (s.getF .mpLoad MP_LOAD.LEVEL = 0))
    ((s.modFhp p fun x => { x with readAt := s.gtc }).readModule p read.state read.age)

/-! ## Packet engines (R403, R404) -/

/-- A packet engine stops: what is queued and on the lines is lost. -/
def State.peStop (s : State) (p : Nat) (why : PeStop) : State :=
  let s := [0, 1, 2, 3].foldl (fun s k => s.loseLine p k) s
  let n := (s.fhp p).queue.length
  (((s.modFhp p fun x => { x with queue := [], stop := some why }).fhCount p 12 n)).setF (.fhStatus p) FH_STATUS.PESTOP 1

/-- PE_WATCHDOG_EXPIRY: the packet engine of port p has made no progress for 100 µs. -/
def execPeWatchdogExpiry (p : Nat) (s : State) : Out :=
  s.when (decide (p < 24) && s.fhEn p && (s.fhp p).stop.isNone) (s.peStop p .watchdog)

/-- PE_RESTART_COMPLETE: the microprogram runs again (R404, R438); the restart of a warm reset writes no record. -/
def execPeRestartComplete (p : Nat) (s : State) : Out :=
  let s1 := (s.modFhp p fun x => { x with stop := none }).setF (.fhStatus p) FH_STATUS.PESTOP 0
  match (s.fhp p).stop with
  | some w =>
    s.when (decide (p < 24))
      (match w with
      | .watchdog => (s1.fhNote p 0 1 0x63 0x7F 0).fronthaulFault p none 3
      | .update => (s1.fhNote p 0 0 0x63 0x7F 1).fronthaulFault p none 3
      | .reset => s1.fronthaulFault p none 3)
  | none => s.when false s

end Sys2Proof.Machine
end

