-- ==== Sys2Proof/Machine/RegWrite.lean ====
section
/-!
DEFINITION. Writes of the register space (R6, R7, R551 to R556, R558, R563), and the registers whose writes have rows of their own
(R293, R305, R310, R314, R344).
-/
namespace Sys2Proof.Machine

/-! ## Refused writes (R555, R377) -/

/-- Base of the block that holds an offset (R551). -/
def blockBase (o : Nat) : Nat :=
  if o < 0x200000 then o / 0x100000 * 0x100000
  else if o < 0x300000 then 0x200000 + (o - 0x200000) / 0x8000 * 0x8000
  else if o < 0x380000 then 0x300000 + (o - 0x300000) / 0x8000 * 0x8000
  else if o < 0x400000 then 0x380000
  else if o < 0x600000 then o / 0x100000 * 0x100000
  else if o < 0x700000 then 0x600000 + (o - 0x600000) / 0x10000 * 0x10000
  else if o < 0x800000 then 0x700000
  else if o < 0xE80000 then 0x800000 + (o - 0x800000) / 0x8000 * 0x8000
  else if o < 0x1000000 then o / 0x100000 * 0x100000
  else if o < 0x1820000 then 0x1000000 + (o - 0x1000000) / 0x20000 * 0x20000
  else 0

/-- Instance of the window that holds an offset, 0x7F elsewhere. -/
def windowInst (o : Nat) : Nat := if 0x1000000 ≤ o ∧ o < 0x1820000 then (o - 0x1000000) / 0x20000 else 0x7F

/-- REG_IGNORED of an access (R552, R553, R555). -/
def State.accessIgnored (s : State) (o : Nat) : State := s.event srcRegs 0 0x08 0xFF (windowInst o) (o - blockBase o)

/-- The record of a write that its block refuses: CFG_IGNORED, FH_CFG_IGNORED, WV_CFG_IGNORED, else REG_IGNORED (R555). -/
def State.writeIgnored (s : State) (o : Nat) : State :=
  let d := o - blockBase o
  if 0x100000 ≤ o ∧ o < 0x200000 then s.event srcRegs 0 0x37 0xFF 0x7F d
  else if 0x200000 ≤ o ∧ o < 0x300000 then s.fhIgnored ((o - 0x200000) / 0x8000) d
  else if 0x500000 ≤ o ∧ o < 0x600000 then s.event srcRegs 0 0x21 0xFF 0x7F d
  else s.accessIgnored o

/-! ## Fields -/

/-- The word after a write of v over old: each field by its access code (R7); RWL fields stay once sealed. -/
def Reg.merge (r : Reg) (locked : Bool) (old v : BitVec 64) : BitVec 64 :=
  r.fields.foldl (fun w f => match f.acc with
    | .ro | .wo => w
    | .rw | .rws => f.fld.set w (f.fld.get v)
    | .rwl => if locked then w else f.fld.set w (f.fld.get v)
    | .w1c => if f.fld.get v = 1 then f.fld.set w 0 else w) old

/-- The written value differs from an RWL field of a sealed device (R555). -/
def Reg.lockedDiffers (r : Reg) (locked : Bool) (old v : BitVec 64) : Bool :=
  locked && r.fields.any fun f => f.acc == .rwl && f.fld.get v != f.fld.get old

/-- Every field of a word, reserved bits 0. -/
def Reg.clean (r : Reg) (v : BitVec 64) : BitVec 64 := r.fields.foldl (fun w f => f.fld.set w (f.fld.get v)) 0

/-- Every field lies within the range of its table. -/
def Reg.rangeOk (r : Reg) (w : BitVec 64) : Bool :=
  let g (f : Fld) : Nat := f.get w
  let mid (a b x : Nat) : Bool := decide (a ≤ x) && decide (x ≤ b)
  match r with
  | .wvCfg => mid 64 1024 (g WV_CFG.MAXHOLD) && mid 64 4096 (g WV_CFG.WINDOW)
  | .wvSysw => decide (g WV_SYSW.WEIGHT ≠ 0)
  | .timePlancfg =>
    mid 2 12 (g TIME_PLANCFG.S8) && decide (g TIME_PLANCFG.BPEAK ≤ 96) && decide (g TIME_PLANCFG.BPEAK + 8 * g TIME_PLANCFG.S8 ≤ 128)
      && mid 512 4096 (g TIME_PLANCFG.LATCH)
  | .timeTbCfg _ =>
    decide (g TIME_TB_CFG.FSEL ≠ 3) && decide (g TIME_TB_CFG.PPORT ≤ if g TIME_TB_CFG.PSRC = 4 then 15 else 23)
      && decide (g TIME_TB_CFG.FPORT ≤ 23) && decide (g TIME_TB_CFG.DOMAIN ≤ 39) && decide (g TIME_TB_CFG.LOSS ≠ 0)
  | .timeTbServo _ => decide (g TIME_TB_SERVO.LOCKNS ≠ 0)
  | .timeRadio => mid 1 10 (g TIME_RADIO.SLEW)
  | .timeClk => decide (g TIME_CLK.FSRC ≠ 3)
  | .gctlEtimer => decide (g GCTL_ETIMER.EN = 0) || decide (g GCTL_ETIMER.PERIOD ≠ 0)
  | .gctlPinmux => decide (g GCTL_PINMUX.PPSLAND ≠ 3)
  | .gctlElogCtl => mid 10 24 (g GCTL_ELOG_CTL.L)
  | .gctlPwrcfg => decide (g GCTL_PWRCFG.THSTEP ≠ 0) && mid 1000 3000 (g GCTL_PWRCFG.PLIMIT)
  | .gctlThermcfg =>
    mid 60 94 (g GCTL_THERMCFG.WARN) && decide (g GCTL_THERMCFG.LO < g GCTL_THERMCFG.HI) && decide (g GCTL_THERMCFG.HI ≤ 94)
  | .imDlogCtl _ => mid 4 20 (g IM_DLOG_CTL.L)
  | .iwRingCtl _ _ | .mpMgmtCtl | .mpDevCtl => mid 4 20 (g IW_RING_CTL.L)
  | .rlQpCtl _ => decide (g RL_QP_CTL.CTX ≤ 126) && mid 16 26 (g RL_QP_CTL.LIN) && mid 16 26 (g RL_QP_CTL.LOUT)
  | .fhMtu _ => mid 1518 9216 (g FH_MTU.MTU)
  | .wyCfg _ => decide (g WY_CFG.RETHR ≠ 0)
  | .wyRto => decide (100 ≤ g WY_RTO.TIMEOUT)
  | .wlExpel => decide (g WL_EXPEL.FLOOR ≤ 1024) && decide (g WL_EXPEL.WINDOW ≠ 0)
  | _ => true

/-- The state allows a companion write of new over the register (R55, R218, R305, R344, R418, R443, R454); a core is drained while no command
of any instance is resident on it (R17). -/
def State.writeAllowed (s : State) (r : Reg) (new : BitVec 64) : Bool :=
  let idle (n : Nat) : Bool := decide (n ≠ 0) && s.instState n == stQUIESCED
  match r with
  | .iwRingCtl n _ | .iwRingCmdbase n _ | .iwRingCplbase n _ | .iwRingWline n _ | .iwRingSline n _ => idle n
  | .imDlogCtl n | .imDlogBase n => s.instState n == stQUIESCED
  | .wyGroup n => idle n
  | .rlQpCtl q | .rlQpInbase q | .rlQpInwline q | .rlQpInsline q | .rlQpOutbase q | .rlQpOutwline q | .rlQpOutsline q =>
    decide (s.getF (.rlQpStatus q) RL_QP_STATUS.STATE ≤ 1)
  | .coreAmode p _ | .coreAflags p _ => (s.core p).residents.isEmpty && (s.core p).takeover.isNone
  | .wyCfg _ => WY_CFG.EN.get (s.reg r) == 0 || WY_CFG.MODE.get new == WY_CFG.MODE.get (s.reg r)
  | .wvWeight n => if n ≠ 0 ∧ s.instState n = stABSENT then WV_WEIGHT.WEIGHT.get new == 0 else WV_WEIGHT.WEIGHT.get new != 0
  | _ => true

/-! ## What a write of a register does besides -/

/-- A ring comes into service: its watched line is read (R305, R316). -/
def State.ringEnabled (s : State) (n r : Nat) : State :=
  let g := ringRegs n r
  let s := if s.getF g.status IW_RING_STATUS.STATE = 3 then s else s.setF g.status IW_RING_STATUS.STATE (if 65 ≤ n then 1 else 2)
  (s.modRing n r fun x => { x with enabling := true }).readWatched n r

/-- EN of a ring has been written. -/
def State.ringSwitched (s : State) (n r : Nat) (old new : Nat) : State :=
  if old = 0 ∧ new = 1 then s.ringEnabled n r
  else if new = 0 ∧ s.getF (ringRegs n r).status IW_RING_STATUS.STATE ≠ 3 then s.setF (ringRegs n r).status IW_RING_STATUS.STATE 0
  else s

/-- Domains that follow the time inputs and outputs (R526): they are powered by the configuration, and go off for good. -/
def State.timeDomains (s : State) (boot : Bool) : State :=
  let named := [0, 1, 2, 3].any fun n => s.getF (.timeTbCfg n) TIME_TB_CFG.EN == 1
    && (s.psrc n == 2 || s.psrc n == 3 || s.getF (.timeTbCfg n) TIME_TB_CFG.FSEL == 2)
  let out := s.getF .timeTod TIME_TOD.EN == 1 || s.getF .timePpsout TIME_PPSOUT.EN == 1
  let s := s.setDomain 282 (named && (boot || s.domainOn 282))
  s.setDomain 283 (out && (boot || s.domainOn 283))

/-- A Withy port goes into or out of service (R443, R526). -/
def State.wySwitch (s : State) (w : Nat) (en : Bool) : State :=
  let s := s.setDomain (244 + w) en
  let s := if en then s.wyStart w else if s.wyState w = wyDOWN then s else s.wyDown w false false
  s.portDomains

/-- An MSI vector is unmasked: a held interrupt is sent once (R310). -/
def State.unmask (s : State) (v : Nat) : State :=
  if s.getF (.cclMsic v) CCL_MSIC.MASK = 0 ∧ s.getF (.cclMsic v) CCL_MSIC.PEND = 1 then (s.setF (.cclMsic v) CCL_MSIC.PEND 0).msi v else s

/-- Effects of a register's new word, with the old one. -/
def State.written (s : State) (r : Reg) (old new : BitVec 64) : State :=
  match r with
  | .timeTbCfg n => ((s.tbConfigured n old).clockSource).timeDomains false
  | .timeClk => s.clockSource
  | .timeTod | .timePpsout => s.timeDomains false
  | .timeRadio =>
    if TIME_RADIO.ACTIVE.get new = TIME_RADIO.ACTIVE.get old then s
    else ((s.setF .timeRadio TIME_RADIO.ACTIVE (TIME_RADIO.ACTIVE.get old)).switchTo (TIME_RADIO.ACTIVE.get new)).clockSource
  | .gctlEtimer => { s with time := { s.time with timerAt := s.gtc + 3600 * GCTL_ETIMER.PERIOD.get new } }
  | .cclMsic v => s.unmask v
  | .imDlogCtl n => if IM_DLOG_CTL.EN.get old = 0 ∧ IM_DLOG_CTL.EN.get new = 1 then s.setReg (.imDlogProd n) 0 else s
  | .iwRingCtl n k => s.ringSwitched n k (IW_RING_CTL.EN.get old) (IW_RING_CTL.EN.get new)
  | .mpMgmtCtl => s.ringSwitched 65 0 (IW_RING_CTL.EN.get old) (IW_RING_CTL.EN.get new)
  | .mpDevCtl => s.ringSwitched 65 1 (IW_RING_CTL.EN.get old) (IW_RING_CTL.EN.get new)
  | .rlQpCtl q =>
    if RL_QP_CTL.EN.get new = 0 then ((s.setF (.rlQpStatus q) RL_QP_STATUS.STATE 0).setQp q .off) else s
  | .wyCfg w => if WY_CFG.EN.get old = WY_CFG.EN.get new then s else s.wySwitch w (WY_CFG.EN.get new == 1)
  | .wyDevid => (List.range 16).foldl State.wyStart s
  | _ => s

/-- W1C bits whose write of 1 also clears the other fields (R219, R257). -/
def Reg.clears (r : Reg) (v : BitVec 64) : Bool :=
  match r with
  | .wvR0peak => WV_R0PEAK.EXCEED.get v == 1
  | .msEaddrHi _ => MS_EADDR_HI.VALID.get v == 1
  | _ => false

/-- Some field of the register takes companion writes; after the seal RWL fields do not (R6, R7). -/
def Reg.writable (r : Reg) (locked : Bool) : Bool := r.fields.any fun f => f.acc != .ro && !(locked && f.acc == .rwl)

/-- A companion write of a register by the rules of its fields. -/
def State.fieldWrite (s : State) (r : Reg) (v : BitVec 64) : State :=
  let locked := s.getF .gctlSeal GCTL_SEAL.SEALED == 1
  let old := s.reg r
  let new := if r.clears v then 0 else r.merge locked old v
  if s.writeAllowed r new = false ∨ r.rangeOk new = false then s.writeIgnored r.offset
  else
    let s := if r.writable locked then (s.setReg r new).written r old new else s
    if r.lockedDiffers locked old v then s.writeIgnored r.offset else s

/-! ## Registers with rows of their own -/

/-- The state after a command's effect; unchanged where the command is not enabled. -/
def orStay (s : State) : Out → State
  | .next t => t
  | _ => s

/-- GCTL_SEAL.SEAL is written with 1 (R556). -/
def State.lock (s : State) : State := s.setF .gctlSeal GCTL_SEAL.SEALED 1

/-- SEAL: a write of 1 to GCTL_SEAL.SEAL. -/
def execSeal (s : State) : Out := s.when true s.lock

/-- WARM_RESET_REQUEST: v is written to GCTL_RESET (R558). -/
def execWarmResetRequest (v : Nat) (s : State) : Out :=
  let w := BitVec.ofNat 64 v
  s.when (decide (v < 2 ^ 32))
    (if GCTL_RESET.KEY.get w ≠ 0x5752 then s.accessIgnored 0x10
     else if GCTL_RESET.WARM.get w = 1 ∧ s.boot.warmAt = none then { s with boot := { s.boot with warmAt := some (s.gtc + 1024) } }
     else s)

/-- IM_ACCT_LATCH: v is written to IM_ACCT_LATCH; values of INST above 64 are ignored (R293). -/
def execImAcctLatch (v : Nat) (s : State) : Out :=
  let n := v % 128
  let s1 := ((s.inst n).acct.list.zipIdx).foldl (fun s x => s.setReg (.imAcctSnap x.2) (BitVec.ofNat 64 x.1)) s
  s.when (decide (v < 2 ^ 32)) (if n ≤ 64 then s1.setReg .imAcctSnapGtc (BitVec.ofNat 64 s.gtc) else s)

/-- TLB_INVALIDATE: GO is written with 1 to IW_TLBINV of instance n (R314). -/
def execTlbInvalidate (n : Nat) (s : State) : Out :=
  s.when (decide (n ≤ 64)) (s.setF (.iwTlbinv n) IW_TLBINV.DONE 0)

/-- TLB_INVALIDATE_DONE: every cached translation of the instance has gone (R314). -/
def execTlbInvalidateDone (n : Nat) (s : State) : Out :=
  s.when (decide (n ≤ 64) && decide (s.getF (.iwTlbinv n) IW_TLBINV.DONE = 0))
    ((s.flushTlb n).setF (.iwTlbinv n) IW_TLBINV.DONE 1)

/-- RING_ENABLE: v is written to the CTL register of ring r of instance n (65: the management ring 0, the device ring 1) and takes EN
from 0 to 1 (R305, R316). -/
def execRingEnable (n r v : Nat) (s : State) : Out :=
  let g := (ringRegs n r).ctl
  s.when
    (decide (n ≤ 65) && decide (r < if n = 65 then 2 else 64) && decide (v < 2 ^ 32) && decide (v / 2 ^ 31 = 1) && !s.ringEn n r)
    (s.fieldWrite g (BitVec.ofNat 64 v))

/-- DIGEST_LOG_ENABLE: v is written to IM_DLOGn_CTL and takes EN from 0 to 1 (R344). -/
def execDigestLogEnable (n v : Nat) (s : State) : Out :=
  s.when
    (decide (n ≤ 64) && decide (v < 2 ^ 32) && decide (v / 2 ^ 31 = 1) && decide (s.getF (.imDlogCtl n) IM_DLOG_CTL.EN = 0))
    (s.fieldWrite (.imDlogCtl n) (BitVec.ofNat 64 v))

/-- MSI_UNMASK: w is written to CCL_MSICv and clears MASK (R310). -/
def execMsiUnmask (v w : Nat) (s : State) : Out :=
  s.when (decide (v < 2048) && decide (w < 2 ^ 32) && decide (w % 2 = 0) && decide (s.getF (.cclMsic v) CCL_MSIC.MASK = 1))
    (s.fieldWrite (.cclMsic v) (BitVec.ofNat 64 w))

/-- A companion write of one whole register. -/
def State.companionWrite (s : State) (r : Reg) (v : Nat) : State :=
  let go (f : Fld) : Bool := f.get (BitVec.ofNat 64 v) == 1
  match r with
  | .gctlSeal => if go GCTL_SEAL.SEAL then orStay s (execSeal s) else s
  | .gctlReset => orStay s (execWarmResetRequest v s)
  | .imAcctLatch => orStay s (execImAcctLatch v s)
  | .iwTlbinv n => if go IW_TLBINV.GO then orStay s (execTlbInvalidate n s) else s
  | .timeAppofs => orStay s (execAppofsWrite v s)
  | .fhCfg p => s.writeFhCfg p v
  | .fhFlowLo p f => orStay s (execFlowStagingWrite p f v false s)
  | .fhFlowHi p f => orStay s (execFlowEntryReplace p f v false s)
  | .rlQpCtl q =>
    if s.getF r RL_QP_CTL.EN = 0 ∧ go RL_QP_CTL.EN = true then orStay s (execQueuePairEnable q v s)
    else s.fieldWrite r (BitVec.ofNat 64 v)
  | .wlReprobe => if go WL_REPROBE.GO then orStay s (execReprobe v s) else s.fieldWrite r (BitVec.ofNat 64 v)
  | .wlAdmit => if go WL_ADMIT.GO then orStay s (execAdmission v s) else s
  | .wlClaimCtl => if go WL_CLAIM_CTL.GO then orStay s (execClaimSend v s) else s.fieldWrite r (BitVec.ofNat 64 v)
  | _ => s.fieldWrite r (BitVec.ofNat 64 v)

/-! ## REGISTER_WRITE -/

/-- A write to a register of a powered-down slot is ignored (R551). -/
def State.coreOff (s : State) (o : Nat) : Bool :=
  decide (0x800000 ≤ o) && decide (o < 0xE80000) && !s.powered ((o - 0x800000) / 0x8000)

/-- A 4-byte write at an aligned offset (R552, R553). -/
def State.write4 (s : State) (o v : Nat) : State :=
  if s.coreOff o then s
  else match Reg.at (o / 8 * 8) with
    | some q =>
      if q.bytes = 8 then
        (match q with
        | .fhFlowLo _ _ | .fhFlowHi _ _ => s.writeIgnored o
        | _ => s.accessIgnored o)
      else if o % 8 = 0 then (if q.bytes = 4 then s.companionWrite q v else s)
      else match Reg.at o with
        | some r => if r.bytes = 4 then s.companionWrite r v else s
        | none => s
    | none => match Reg.at o with
      | some r => if r.bytes = 4 then s.companionWrite r v else s
      | none => s

/-- An 8-byte write at an aligned offset: of one 64-bit register, or of two 32-bit registers, the lower first (R553). -/
def State.write8 (s : State) (o v : Nat) : State :=
  if s.coreOff o then s
  else match Reg.at o with
    | some q => if q.bytes = 8 then s.companionWrite q v else (s.write4 o (v % 2 ^ 32)).write4 (o + 4) (v / 2 ^ 32)
    | none => (s.write4 o (v % 2 ^ 32)).write4 (o + 4) (v / 2 ^ 32)

/-- REGISTER_WRITE: a REGWR of size bytes with value v at an offset of the register space. A misaligned write, or one of another size,
is ignored with a record (R552); an offset beyond the 64 MiB is no register access. -/
def execRegisterWrite (off size v : Nat) (s : State) : Out :=
  if s.clocksStopped then .refused .clocksStopped
  else if 2 ^ 26 ≤ off then .fault (.noSuchAddress off)
  else
    s.when (decide (v < 2 ^ (8 * size)))
      (if (size = 4 ∨ size = 8) ∧ off % size = 0 then (if size = 4 then s.write4 off v else s.write8 off v) else s.accessIgnored off)

end Sys2Proof.Machine
end

