-- ==== Sys2Proof/Machine/Boot.lean ====
section
/-!
DEFINITION. Cold start, self-test, configuration, recovery, and the stages of R506 (R16, R104, R237, R239, R252, R256, R498 to R514,
R526, R529, R545, R546, R556, R559).
-/
namespace Sys2Proof

/-! ## Boot flash (R500 to R503) -/

/-- Header copy that the ROM uses: a good CHK and the greater SEQ modulo 2^32 (R501). -/
def Flash.header (f : Flash) : Option (Nat × BootHeader) :=
  if f.h0.good && f.h1.good then
    (if (f.h1.seq + 2 ^ 32 - f.h0.seq) % 2 ^ 32 < 2 ^ 31 ∧ f.h1.seq ≠ f.h0.seq then some (1, f.h1) else some (0, f.h0))
  else if f.h0.good then some (0, f.h0)
  else if f.h1.good then some (1, f.h1)
  else none

/-- Write a changed header to the other copy with SEQ + 1 (R501). -/
def Flash.writeHeader (f : Flash) (g : BootHeader → BootHeader) : Flash :=
  match f.header with
  | some (i, h) =>
    let h' := { g h with good := true, seq := (h.seq + 1) % 2 ^ 32 }
    if i = 0 then { f with h1 := h' } else { f with h0 := h' }
  | none => { f with h0 := { g Machine.BootHeader.none with good := true, seq := 0 } }

def Flash.slot (f : Flash) (i : Nat) : FwSet := if i = 0 then f.slotA else f.slotB
def Flash.putSlot (f : Flash) (i : Nat) (x : FwSet) : Flash := if i = 0 then { f with slotA := x } else { f with slotB := x }

/-- MINVER as the ROM reads it: 0 while counter 0 does not authenticate (R499). -/
def Flash.floor (f : Flash) : Nat := if f.cntok then f.minver else 0

/-- A set is valid (R503). -/
def Flash.valid (f : Flash) (x : FwSet) : Bool := x.good && decide (f.floor ≤ x.setver)

/-- A record and its migrated copy concern the same thing. -/
def DevRec.same (a b : DevRec) : Bool := a.type == b.type && a.subject == b.subject && a.dseq == b.dseq

/-- The records of an image lie within their ranges (R510), the two ring ports differ (R560), and each system frame has one use (R561); good says the
rest of what R510 asks of the record formats. -/
def CfgImage.legal (c : CfgImage) : Bool :=
  let frames := c.journal ++ c.save ++ c.firmware
  (c.regs.all fun x => match Machine.Reg.at x.1 with
    | some r =>
      let w := r.clean (BitVec.ofNat 64 x.2)
      r.rangeOk w && (match r with
        | .wlCfg => Machine.WL_CFG.PORTA.get w != Machine.WL_CFG.PORTB.get w
        | _ => true)
    | none => false)
    && decide (frames.eraseDups.length = frames.length)

/-- A configuration copy is valid (R510). -/
def Flash.cfgValid (f : Flash) (c : CfgImage) : Bool := c.good && decide (f.mincseq ≤ c.cseq) && c.legal

/-- The configuration copy that Grizor uses (R510): 0 or 1, and whether it is a fall-back. -/
def Flash.pickCfg (f : Flash) : Option (Nat × Bool) :=
  let get (i : Nat) : CfgImage := if i = 0 then f.cfg0 else f.cfg1
  let best := if f.cfg0.cseq < f.cfg1.cseq then 1 else 0
  if f.cfgValid (get best) then some (best, false)
  else if f.cfgValid (get (1 - best)) then some (1 - best, true)
  else none

/-- Number of instances of a component type (R502). -/
def compCount (type : Nat) : Nat :=
  match type with
  | 2 => 8 | 3 => 2 | 4 => 12 | 5 => 12 | 6 => 16 | 7 => 24 | _ => 1

/-- Every component of a set on every instance. -/
def FwSet.loaded (x : FwSet) : List (Nat × Nat × Nat × Nat) :=
  x.comps.flatMap fun c => (List.range (compCount c.type)).map fun i => (c.type, i, c.level, c.version)

end Sys2Proof

namespace Sys2Proof.Machine

def State.setFlash (s : State) (f : Flash) : State := { s with boot := { s.boot with flash := f } }

/-! ## Stages and failures (R506, R507) -/

def State.stage (s : State) : Nat := s.getF .mpBootstat MP_BOOTSTAT.STAGE

/-- Enter a stage, with its BOOT_STAGE record. -/
def State.toStage (s : State) (n : Nat) : State :=
  if s.stage = n then s else (s.setF .mpBootstat MP_BOOTSTAT.STAGE n).note srcMp 0 0xA0 n

/-- A failed boot check: FAILCAUSE and BOOT_FAIL (R507). -/
def State.bootFail (s : State) (cause : Nat) : State :=
  (s.setF .mpBootstat MP_BOOTSTAT.FAILCAUSE cause).note srcMp 3 0xA1 cause

def State.toMaint (s : State) (cause : Nat) : State := (s.bootFail cause).toStage 7
def State.toRecovery (s : State) (cause : Nat) : State := (s.bootFail cause).toStage 8

/-- Boundary-scan mode (R546). -/
def State.scanMode (s : State) : Bool := s.boot.started && (s.boot.straps[2]?).getD false

/-! ## COLD_RESET and COLD_START -/

/-- COLD_RESET: PWRGOOD is low (pwr), or COLDRST_N has been held low (R545): every piece of state takes its cold-reset value. The boot
flash, the cable ledger in it and the cables lie outside the chip (log 6). Clocks that THERMTRIP has stopped start again only with PWRGOOD (R538). -/
def execColdReset (pwr : Bool) (s : State) : Out :=
  let held := s.clocksStopped && !pwr
  .next { State.reset with
    boot := { BootState.off with flash := s.boot.flash }
    withy := { WithyState.reset with
      ledger := s.withy.ledger
      ports := s.withy.ports.filterMap fun x => if x.2.cable then some (x.1, { WyPort.zero with cable := true, fresh := x.2.fresh }) else none }
    power := { PowerState.reset with thermtrip := held }
    clocksStopped := held
    free := s.free
    pending := s.pending }

/-- The identity of R504 and R505: the device's public key, and the SM3 hash of its bytes. -/
def State.identity (s : State) : State :=
  let f := s.boot.flash
  let hash := leNat (sm3 (leBytes 64 f.devpub))
  let s := (s.setF .secStatus SEC_STATUS.IDOK f.idok.toNat).setF .secStatus SEC_STATUS.CNTOK f.cntok.toNat
  if !f.idok then s
  else
    let s := (List.range 4).foldl (fun s k => s.setReg (.secDevhash k) (BitVec.ofNat 64 (hash / 2 ^ (64 * k)))) s
    (List.range 8).foldl (fun s k => s.setReg (.secDevpub k) (BitVec.ofNat 64 (f.devpub / 2 ^ (64 * k)))) s

/-- The ROM boots a slot: SLOT, TRIAL, stage 1; or MAINT when the identity or a counter has failed (R505, R507). -/
def State.bootSlot (s : State) (slot : Nat) (trial : Bool) : State :=
  let s := (s.setF .mpBootstat MP_BOOTSTAT.SLOT slot).setF .mpBootstat MP_BOOTSTAT.TRIAL trial.toNat
  if s.boot.flash.idok && s.boot.flash.cntok then s.toStage 1 else s.toMaint 5

/-- The ROM's choice of a slot (R501, R506, R507). -/
def State.chooseSlot (s : State) : State :=
  let f := s.boot.flash
  match f.header with
  | none => s.toRecovery 1
  | some (_, h) =>
    let a := h.active; let b := 1 - a
    let out := h.trial && decide (h.tries = 0)
    if f.valid (f.slot a) && !out then
      let f := if h.trial then f.writeHeader fun h => { h with tries := h.tries - 1 } else f
      (s.setFlash f).bootSlot a h.trial
    else if f.valid (f.slot b) then
      let cause := if f.valid (f.slot a) then 4 else 3
      (((s.setFlash (f.writeHeader fun h => { h with active := b, trial := false })).bootFail cause).note srcMp 3 0xA4
        (b + 2 * cause)).bootSlot b false
    else s.toRecovery 2

/-- A CCL port whose domain is on trains (R297). -/
def State.training (s : State) : State :=
  (List.range 2).foldl (fun s i => if s.domainOn (270 + i) then s.setF (.cclPortStatus i) CCL_PORT_STATUS.STATE 1 else s) s

/-- COLD_START: the rise of PWRGOOD or the release of COLDRST_N latches STRAP0 to STRAP3. flash: what the boot flash holds; none: as the
chip left it. -/
def execColdStart (straps : List Bool) (flash : Option Flash) (s : State) : Out :=
  let strap (k : Nat) : Bool := (straps[k]?).getD false
  let s0 := { s with boot := { s.boot with straps := straps, flash := flash.getD s.boot.flash } }
  let s1 := { s0 with boot := { s0.boot with started := true } }
  let s2 := ((((s1.setDomain 270 true).setDomain 271 (!strap 1)).setDomain 285 true).training).identity
  s.when (!s.boot.started && decide (straps.length = 4))
    (if strap 3 then s0
     else if strap 2 then s1.setDomain 285 true
     else if strap 0 then s2.toStage 8
     else s2.chooseSlot)

/-! ## GRIZOR_START (R506, R510, R512, R513) -/

/-- Grizor reads the device records: those whose signature fails are reported; those of an older version get a migrated copy, once. -/
def State.migrate (s : State) : State :=
  let v := s.boot.rver
  s.boot.flash.records.foldl (fun s r =>
    let recs := s.boot.flash.records
    if !r.good then s.note srcMp 1 0xA8 (r.type + 65536 * v + 2 ^ 27)
    else if r.rver < v ∧ (recs.any fun q => q.same r && q.rver == v) = false then
      (s.setFlash { s.boot.flash with records := recs ++ [{ r with rver := v }] }).note srcMp 0 0xA8 (r.type + 65536 * v)
    else s) s

/-- The running set and what the registers show of it (R356, R513). -/
def State.runSet (s : State) (x : FwSet) : State :=
  let s := { s with boot := { s.boot with running := x } }
  (s.setF .mpVer MP_VER.SETVER x.setver).setF .gctlArithrev GCTL_ARITHREV.FWREV x.fwrev

/-- GRIZOR_START: the booted slot's Grizor runs; rver is the record version that its set uses. In MAINT it only serves the device ring. -/
def execGrizorStart (rver : Nat) (s : State) : Out :=
  let f := s.boot.flash
  let s1 := { s with boot := { s.boot with grizor := true, rver := rver } }
  let s2 := ((s1.runSet (f.slot (s.getF .mpBootstat MP_BOOTSTAT.SLOT))).setF .mpMinver MP_MINVER.MINVER f.floor)
  let s3 := match f.pickCfg with
    | none => (s2.toStage 2).toMaint 6
    | some (i, fell) =>
      let s := (s2.toStage 2).setF .mpBootstat MP_BOOTSTAT.CFGCOPY i
      let s := if fell then s.note srcMp 3 0xA7 i else s
      let s := { s with boot := { s.boot with cfg := if i = 0 then f.cfg0 else f.cfg1 } }
      let on (s : State) (l : List Nat) : State := l.foldl (fun s d => s.setDomain d true) s
      ((on (on (on s.migrate ((List.range 12).map (208 + ·))) ((List.range 8).map (260 + ·))) ((List.range 10).map (272 + ·)))).toStage 3
  s.when
    (s.boot.started && !s.boot.grizor && s.boot.restart.isNone && (s.stage == 1 || s.stage == 7) && decide (rver < 256))
    (if s.stage = 7 then s2 else s3)

/-! ## SELF_TEST_COMPLETE (R16, R104, R256, R506, R511) -/

/-- Device repair records in force (R17, R511), in the order of their DSEQ: valid ones of a version that the firmware knows, of several for one
failed slot the greatest DSEQ (R512, R513). -/
def BootState.repairs (b : BootState) : List DevRec :=
  let rs := b.flash.records.filter fun r => r.good && r.type == 0x8001 && decide (r.rver ≤ b.rver)
  let last := rs.filter fun r => rs.all fun q => q.subject != r.subject || decide (q.dseq ≤ r.dseq)
  (((List.range (last.foldl (fun a r => max a (r.dseq + 1)) 0)).filterMap fun n => last.find? fun r => r.dseq == n))

/-- Failed slots that the device repair records name. -/
def BootState.repaired (b : BootState) : List Nat := b.repairs.map fun r => r.subject

/-- A repair record makes its substitution again (R17): the logical core on the failed slot passes to the slot that the record names; where that
slot is no longer a good spare, to the lowest one, or it becomes unavailable (DEDUCED, log 72). -/
def State.repair (s : State) (r : DevRec) : State :=
  match s.lcoreOf r.subject with
  | none => s
  | some l =>
    let spares := s.spareSlots (l / 24)
    let s := s.setDomain r.subject false
    match (r.body[1]?.filter spares.contains).orElse fun _ => spares.head? with
    | some q => (((s.setF (.gctlCmap l) GCTL_CMAP.SLOT q).setF (.gctlCmap l) GCTL_CMAP.SPARE 1).setDomain q true).spareRows q
    | none => s.setReg (.gctlCmap l) 0

/-- The core map of R16 from the failed slots. -/
def State.buildMap (s : State) (bad : List Nat) : State :=
  (List.range 8).foldl (fun s d =>
    let good := ((List.range 26).map (26 * d + ·)).filter fun p => !bad.contains p
    (List.range 24).foldl (fun s k => match good[k]? with
      | some p =>
        let s := ((s.setF (.gctlCmap (24 * d + k)) GCTL_CMAP.VALID 1).setF (.gctlCmap (24 * d + k)) GCTL_CMAP.SPARE 0).setF
          (.gctlCmap (24 * d + k)) GCTL_CMAP.SLOT p
        (s.setDomain p true).spareRows p
      | none => s.setReg (.gctlCmap (24 * d + k)) 0) s) s

/-- System frames are taken and cleared, and their key is loaded (R224, R237, R252). -/
def State.systemFrames (s : State) : State :=
  let c := s.boot.cfg
  let s := (c.journal ++ c.save ++ c.firmware).foldl (fun s f => s.takeFrame f 0x7F 0 0 false true) s
  let j : Journal := { Journal.reset with primary := c.journal[0]?, mirror := c.journal[1]?, spares := c.journal.drop 2 }
  let s := ((s.setJournal j).setJrole j.primary 1).setJrole j.mirror 2
  { s with beat := { s.beat with saveFrames := c.save } }.drawKey (List.range 12) 65

/-- I0's frames are taken and cleared, and its key is loaded (R224, R237). -/
def State.ownFrames (s : State) : State :=
  let c := s.boot.cfg
  let stackSet := stacksOf c.i0Stacks
  let s := s.setInst 0 { Instance.absent with
    stackSet := stackSet
    mirror := c.i0Mirror
    quota := c.i0Quota
    frames := stackSet.map fun _ => [] }
  (s.takeFrames 0 c.i0Frames).drawKey stackSet 0

/-- SELF_TEST_COMPLETE: the map of R16 is built and the substitutions of the repair records are made again (R17). The tests find failed slots, failed rows (slot and physical row), failed stacks, or X0 failed. -/
def execSelfTestComplete (slots : List Nat) (rows : List (Nat × Nat)) (stackSet : List Nat) (x0 : Bool) (s : State) : Out :=
  let map := (s.boot.cfg.rows ++ rows).eraseDups
  let worn := (List.range 208).filter fun p => decide (4 < (map.filter fun x => x.1 == p).length)
  let bad := s.boot.cfg.slots ++ s.boot.repaired ++ slots ++ worn
  let fresh := bad.filter fun p => !s.boot.repaired.contains p
  let s1 := { s with boot := { s.boot with rows := map, comps := s.boot.running.loaded } }
  let s1 := ((List.range 208).filter bad.contains).foldl (fun s p => s.modCore p fun c => { c with failed := true }) s1
  let s1 := ((List.range 10).foldl (fun s d => s.setDomain (272 + d) false) ((s.boot.repairs.foldl State.repair (s1.buildMap fresh))))
  let lib := ((s.boot.running.comps.find? fun c => c.type == 5).map fun c => c.version).getD 0
  let s1 := (List.range 12).foldl (fun s m => s.setF (.msStatus m) MS_STATUS.LIBVER lib) s1
  let s2 := ((s1.systemFrames).ownFrames)
  let s3 := (stackSet.eraseDups).foldl State.stackLost s2
  s.when
    (s.boot.grizor && s.stage == 3 && stackSet.all (fun m => decide (m < 12)) && slots.all (fun p => decide (p < 208))
      && rows.all fun x => decide (x.1 < 208) && decide (x.2 < 260))
    (if x0 || decide (12 ≤ stackSet.eraseDups.length) then ((stackSet.eraseDups).foldl State.stackLost s1).toMaint 7 else s3.toStage 4)

/-! ## CONFIGURATION_APPLY (R506, R511, R556) -/

/-- The registers that the image names. -/
def State.loadRegs (s : State) : State :=
  s.boot.cfg.regs.foldl (fun s x => match Reg.at x.1 with
    | some r => s.setReg r (r.clean (BitVec.ofNat 64 x.2))
    | none => s) s

/-- I0's window, regions and rings (R303, R410). -/
def State.ownWindow (s : State) : State :=
  let c := s.boot.cfg
  let s := c.i0Regions.foldl (fun s g =>
    s.setRegion 0 g.no (some ⟨g.ipa, g.size, if g.type = 0 then RegionType.stack else if g.type = 1 then RegionType.comp else RegionType.seq, g.target, g.r, g.w⟩)) s
  let s := c.i0Rings.foldl (fun s g =>
    let s := (((((s.setReg (.iwRingCtl 0 g.no) (BitVec.ofNat 64 g.ctl)).setReg (.iwRingCmdbase 0 g.no) (BitVec.ofNat 64 g.cmdbase)).setReg
      (.iwRingCplbase 0 g.no) (BitVec.ofNat 64 g.cplbase)).setReg (.iwRingWline 0 g.no) (BitVec.ofNat 64 g.wline)).setReg
      (.iwRingSline 0 g.no) (BitVec.ofNat 64 g.sline)).setF (.iwRingStatus 0 g.no) IW_RING_STATUS.STATE 1
    { s with radio := { s.radio with ringCtx := SMap.put 127 s.radio.ringCtx g.no g.ctx } }) s
  let s := ((s.setF (.iwMem 0) IW_MEM.STACKSET c.i0Stacks).setF (.iwMem 0) IW_MEM.MIRROR c.i0Mirror.toNat).setF (.iwMem 0) IW_MEM.QGIB c.i0Quota
  (s.flushTlb 0).setInstState 0 stACTIVE

/-- Ports that the image enables come into service, and time bases and Waling start with what it gives them (R362, R383, R443, R467). -/
def State.startUnits (s : State) : State :=
  let s := (List.range 4).foldl (fun s n => if s.getF (.timeTbCfg n) TIME_TB_CFG.EN = 1 then s.tbConfigured n 0 else s) s
  let s := (s.clockSource).timeDomains true
  let s := (List.range 24).foldl (fun s p => if s.fhEn p then s.fhSwitch p true else s) s
  let s := (List.range 16).foldl (fun s w => if s.getF (.wyCfg w) WY_CFG.EN = 1 then (s.setDomain (244 + w) true).wyStart w else s) s
  let s := s.portDomains
  let s := if s.wlOn && inService (s.memberState s.devid) then s.setF .wlState WL_STATE.STATE wlMEMBER else s
  if s.wlOn then ((s.wlWatch 0 false).wlWatch 1 false).wlRoutes else s

/-- What the image gives the radio service (R413, R434, R438). -/
def State.radioConfig (s : State) : State :=
  let c := s.boot.cfg
  { s with radio := { s.radio with
    dpdCtx := c.dpdCtx
    dpdMax := c.dpdMax
    erase := c.erase
    capCores := s.stakeCount + s.getF .timePlancfg TIME_PLANCFG.BPEAK } }

/-- The system and I0 frames have been cleared (R229, R506). -/
def State.bootCleared (s : State) : Bool :=
  let c := s.boot.cfg
  (c.journal ++ c.save ++ c.firmware ++ (s.inst 0).frames.flatten).all fun f => s.getF (.msFrame f.1 f.2) MS_FRAME.STATE != 1

/-- CONFIGURATION_APPLY: the fields of the image, the seal, the ports. -/
def execConfigurationApply (s : State) : Out :=
  s.when (s.boot.grizor && s.stage == 4 && s.bootCleared)
    ((((s.loadRegs).ownWindow.startUnits).radioConfig.lock).toStage 5)

/-! ## BOOT_LATE and recovery (R506, R507) -/

/-- BOOT_LATE: 45 s after PWRGOOD the chip is not radio-ready. -/
def execBootLate (s : State) : Out :=
  s.when (s.boot.started && !s.scanMode && !s.boot.late && decide (s.stage < 6) && decide (162000000000 ≤ s.gtc))
    ({ s with boot := { s.boot with late := true } }.note srcMp 1 0xA3 (s.tbState 0 + 16 * s.tbState 1))

/-- RECOVERY_POLL: the ROM reads MP_RECOVERY; set is what companion memory holds at ADDR (R507). -/
def execRecoveryPoll (set : FwSet) (s : State) : Out :=
  let s1 := { s with boot := { s.boot with polledAt := s.gtc } }
  let t :=
    if s.getF .mpRecovery MP_RECOVERY.VALID = 0 ∨ s.cclUp = false then s1
    else if s.boot.flash.valid set then { s1 with boot := { s1.boot with grizor := true, recovery := true } }.runSet set
    else s1.bootFail 2
  s.when (s.boot.started && s.stage == 8 && !s.boot.grizor && decide (s.boot.polledAt + 36000000 ≤ s.gtc)) t

end Sys2Proof.Machine
end

