-- ==== Sys2Proof/Machine/Illegal.lean ====
section
/-!
DEFINITION. Words of a reserved class or opcode, and words that their issuer may not issue (R165, R182, R183).
-/
namespace Sys2Proof.Machine

/-- The class and opcode of a word name an instruction (R165, R167, R168, R170, R171). -/
def opcodeNamed (cls op : Nat) : Bool :=
  match cls with
  | 0 => (decide (0x01 ≤ op) && decide (op ≤ 0x0C)) || (decide (0x10 ≤ op) && decide (op ≤ 0x19))
      || (decide (0x20 ≤ op) && decide (op ≤ 0x25)) || (decide (0x30 ≤ op) && decide (op ≤ 0x37))
  | 1 => decide (1 ≤ op) && decide (op ≤ 3)
  | 2 => (decide (0x01 ≤ op) && decide (op ≤ 0x28)) || (decide (0x30 ≤ op) && decide (op ≤ 0x38))
  | 3 => decide (op = 1)
  | _ => false

/-- The issuer may issue the class and opcode (the table of instruction classes and their issuers, R143). -/
def issuerMay (thread : Bool) (cls op : Nat) : Bool :=
  match cls with
  | 0 => thread || decide (op = 0x35) || decide (op = 0x36)
  | 2 => if thread then decide (op < 0x30) && decide (op ≠ 0x27) else !([0x12, 0x13, 0x14, 0x15].contains op)
  | _ => thread

/-- ILLEGAL_INSTRUCTION: the next word of issuer i of slot p has a reserved class or opcode, or is one that i may not issue; the
core raises a context fault with CAUSE 0x3 (R183). -/
def execIllegalInstruction (p i : Nat) (s : State) : Out :=
  match s.iss p i with
  | none => s.when false s
  | some x =>
    let cls := x.f 62 60; let op := x.f 59 54
    s.when (decide (p < 208) && s.fetchOk x && !Core.spBad (s.core p) x.pc 8
        && (!opcodeNamed cls op || !issuerMay x.isThread cls op))
      (if s.issReady x then (s.spCorrect p x.pc 8).illegal x else s)

end Sys2Proof.Machine
end

