-- ==== Sys2Proof/Machine/VecIssue.lean ====
section
/-!
DEFINITION. Vector words: which fields and formats an opcode uses (R143, R166, R170, R182, R567 to R571), and how a vector
instruction reads and writes the bank of its issuer (R117, R118, R144).
-/
namespace Sys2Proof.Machine

/-- Formats with arithmetic on the vector engine (R36, R567). -/
def laneFormats : List Fmt := [.int8, .int16, .uint8, .ci8, .ci16, .fp16, .bf16, .fp32]

/-- Fields that an opcode uses: v registers D, A, B, C; the formats FMT may name (none: FMT must be 0); the scalars SS and SR;
which IMM values are allowed; whether the V flag must be 1; a further condition on the fields. -/
structure VUse where
  d : Bool := false
  a : Bool := false
  b : Bool := false
  c : Bool := false
  fmts : List Fmt := []
  ss : Bool := false
  sr : Bool := false
  imm : Nat → Bool := fun n => n == 0
  v : Nat → Bool := fun _ => false
  threadOnly : Bool := false
  plaitOnly : Bool := false
  mask : Bool := true
  extra : VF → Bool := fun _ => true

/-- A vector word is legal for its issuer. -/
def VUse.legal (u : VUse) (s : State) (x : Iss) : Bool :=
  let f := x.v
  let op := x.f 59 54
  let bound := if x.isThread then 64 else ((s.core x.p).plait (x.i - 16)).nreg
  x.vOk (u.v f.imm)
    && (u.d || decide (f.d = 0)) && (u.a || decide (f.a = 0)) && (u.b || decide (f.b = 0)) && (u.c || decide (f.c = 0))
    && (match u.fmts with
        | [] => decide (f.fmt = 0)
        | l => match Fmt.ofCode f.fmt with
          | some m => l.contains m
          | none => false)
    && (u.ss || decide (f.ss = 0)) && (u.sr || decide (f.sr = 0)) && (u.mask || decide (f.k = 0)) && u.imm f.imm
    && (!u.threadOnly || x.isThread) && (!u.plaitOnly || !x.isThread)
    && (namedV x.w).all (fun r => decide (r < bound))
    && (x.isThread || ((!(usesSS op) || decide (f.ss < bound)) && (!(usesSR op) || decide (f.sr < bound))))
    && u.extra f

/-- Bank of an issuer: the side's, or the plait's allocation (R117, R138). -/
def State.bank (s : State) (x : Iss) : VBank :=
  let c := s.core x.p
  if x.i < 16 then (c.side x.k).bank else (c.plait (x.i - 16)).bank

def State.setBank (s : State) (x : Iss) (b : VBank) : State :=
  if x.i < 16 then s.modCore x.p fun c => c.setSide x.k { c.side x.k with bank := b }
  else s.modPlait x.p (x.i - 16) fun q => { q with bank := b }

/-- Active lanes of an instruction: its mask, and a plait's active mask (R118, R144). -/
def State.onLanes (s : State) (x : Iss) : BitVec 64 :=
  let m := (s.bank x).mask x.v.k
  if x.i < 16 then m else m &&& ((s.core x.p).plait (x.i - 16)).active

/-- Identity of a strand (R142): number, lane, plait within skein, skein, core index in the set. -/
def State.strandId (s : State) (x : Iss) (field lane : Nat) : Nat :=
  let q := (s.core x.p).plait (x.i - 16)
  match (s.core x.p).resident q.cmd with
  | some r =>
    let kp := (r.launch.map (·.kp)).getD 1
    match field with
    | 0 => q.skein * 64 * kp + q.index * 64 + lane
    | 1 => lane
    | 2 => q.index
    | 3 => q.skein
    | _ => r.index
  | none => 0

def State.vin (s : State) (x : Iss) : VIn :=
  { bank := s.bank x, on := s.onLanes x, f := x.v, am := s.amode x.p x.k, ss := s.sval x x.v.ss, sr := s.sval x x.v.sr,
    sid := s.strandId x, free := s.free }

/-- Write back what an instruction leaves: bank, flags, scalar result, free values (R55, R118). -/
def State.vout (s : State) (x : Iss) (o : VOut) : State :=
  let s := { s with free := o.free }.setBank x o.bank
  let s := s.flagCmd x.p x.k x.cmd o.flags
  (match o.sr with
    | some v => s.wrS x x.v.sr v
    | none => s).advance x

/-- One vector instruction on registers. -/
def vinstr (p i op : Nat) (u : VUse) (f : VIn → VOut) (s : State) : Out :=
  instr p i 2 op u.legal (fun s x => s.vout x (f (s.vin x))) s

/-- Fields of three registers. -/
def useDAB : VUse := { d := true, a := true, b := true }
def useDABF : VUse := { d := true, a := true, b := true, fmts := laneFormats }
def useDA : VUse := { d := true, a := true }
def useRed : VUse := { d := true, a := true, fmts := laneFormats, imm := fun n => decide (n ≤ 5) }
def useVdot : VUse := { d := true, a := true, b := true, fmts := [.int8, .int16] }
def useVfma : VUse := { d := true, a := true, b := true, c := true, fmts := [.fp32, .fp16, .bf16] }
def useVcmp : VUse :=
  { a := true, b := true, d := true, fmts := laneFormats, imm := fun n => decide (n < 6), extra := fun f => decide (f.d < 8) }
def useVcmpWhole : VUse :=
  { a := true, b := true, d := true, imm := fun n => decide (8 ≤ n) && decide (n < 14), extra := fun f => decide (f.d < 8) }
def useVsel : VUse := { d := true, a := true, b := true, imm := fun n => decide (n < 8) }

/-- VCVT (R569, R172): lane formats on both sides; FP8 only with FP16; no complex to real; V exactly with RM. -/
def cvtPair (src dst : Fmt) : Bool :=
  !src.isBfp && !dst.isBfp && src != .int2 && src != .int4 && dst != .int2 && dst != .int4
    && (!src.isFp8 || dst == .fp16) && (!dst.isFp8 || src == .fp16) && (!src.isComplex || dst.isComplex)
def useVcvt : VUse :=
  { d := true, a := true, fmts := [.int8, .int16, .uint8, .ci8, .ci16, .e4m3, .e5m2, .fp16, .bf16, .fp32],
    imm := fun _ => true, v := fun n => decide (n / 16 % 2 = 1),
    extra := fun f => match Fmt.ofCode (f.imm % 16), Fmt.ofCode f.fmt with
      | some a, some b => cvtPair a b
      | _, _ => false }
def useVcmac : VUse :=
  { d := true, a := true, b := true, fmts := [.ci16, .ci8], imm := fun n => decide (n < 2), threadOnly := true }
def useVbf4 : VUse :=
  { d := true, a := true, b := true, sr := true, imm := fun n => decide (n < 2), threadOnly := true,
    extra := fun f => decide (f.d % 4 = 0) }
def useVbex : VUse :=
  { a := true, sr := true, imm := fun n => decide (n < 256), threadOnly := true,
    extra := fun f => decide (1 ≤ f.imm % 128) && decide (f.imm % 128 ≤ 64) && decide (f.a + f.imm % 128 ≤ 64) }
def useVmova : VUse := { d := true, a := true, fmts := [.ci16, .ci8], ss := true, sr := true, threadOnly := true }
def useVcni : VUse := { d := true }
def useVcnu : VUse := { d := true, a := true, imm := fun n => decide (n < 63) }
def useVcno : VUse := { d := true, a := true, b := true, imm := fun n => decide (n < 1024) }
def useVsid : VUse := { d := true, imm := fun n => decide (n ≤ 4), plaitOnly := true }
def useVbcst : VUse := { d := true, ss := true }
def useVld : VUse := { d := true, ss := true, imm := fun _ => true }
def memFormats : List Fmt :=
  [.int2, .int4, .int8, .int16, .uint8, .ci8, .ci16, .bfp4, .bfp8, .bfp12, .e4m3, .e5m2, .fp16, .bf16, .fp32]
def useVlds : VUse := { d := true, ss := true, sr := true, fmts := memFormats }
def useVgth : VUse := { d := true, a := true, fmts := memFormats }
def useVsct : VUse := { d := true, a := true, fmts := memFormats.filter fun f => !f.isBfp }
def useVatom : VUse :=
  { d := true, a := true, b := true, c := true, imm := fun n => decide (n ≤ 8), v := fun n => n == 8 }
def useCtl : VUse := { plaitOnly := true, mask := false }
def useCtlK : VUse := { plaitOnly := true }

end Sys2Proof.Machine
end

