-- ==== Sys2Proof/Machine/Plait.lean ====
section
/-!
DEFINITION. Divergence, masking and synchronisation of plaits (R144 to R146), and illegal words (R182, R183).
-/
namespace Sys2Proof.Machine

def State.plaitOf (s : State) (x : Iss) : Plait := (s.core x.p).plait (x.i - 16)

/-- Lanes set in mask k of the plait. -/
def State.kOf (s : State) (x : Iss) : BitVec 64 := (s.plaitOf x).bank.mask x.v.k

def State.setPlaitOf (s : State) (x : Iss) (q : Plait) : State := s.modPlait x.p (x.i - 16) fun _ => q

/-- Remove lanes from the saved masks of entries inside the innermost loop, and from that loop's entry where leave is set
(BRK); CONT keeps them for the next iteration. -/
def dropLanes (leave : Bool) (m : BitVec 64) : List Recon → List Recon
  | [] => []
  | .cond a b :: r => .cond (a &&& ~~~m) (b &&& ~~~m) :: dropLanes leave m r
  | .loop a b pc :: r => .loop a (if leave then b &&& ~~~m else b) pc :: r

/-- Remove lanes from every mask of the stack (EXIT, R145). -/
def exitLanes (m : BitVec 64) : List Recon → List Recon
  | [] => []
  | .cond a b :: r => .cond (a &&& ~~~m) (b &&& ~~~m) :: exitLanes m r
  | .loop a b pc :: r => .loop (a &&& ~~~m) (b &&& ~~~m) pc :: exitLanes m r

def inLoop : List Recon → Bool
  | [] => false
  | .loop _ _ _ :: _ => true
  | .cond _ _ :: r => inLoop r

/-- IF k: one entry; the active mask keeps the lanes set in k. A push beyond 32 entries is illegal (R144). -/
def execIfP (p i : Nat) (s : State) : Out :=
  instr p i 2 0x30 (fun s x => useCtlK.legal s x && decide ((s.plaitOf x).stack.length < 32))
    (fun s x =>
      let q := s.plaitOf x
      let t := q.active &&& s.kOf x
      (s.setPlaitOf x { q with stack := .cond q.active t :: q.stack, active := t }).advance x) s

/-- ELSE: inverts within the entry; it needs an IF's entry on top (R144). -/
def execElseP (p i : Nat) (s : State) : Out :=
  instr p i 2 0x31
    (fun s x => useCtl.legal s x && (match (s.plaitOf x).stack with | .cond _ _ :: _ => true | _ => false))
    (fun s x =>
      let q := s.plaitOf x
      match q.stack with
      | .cond saved taken :: r =>
        let t := saved &&& ~~~taken
        (s.setPlaitOf x { q with stack := .cond saved t :: r, active := t }).advance x
      | _ => s) s

/-- ENDIF pops (R144). -/
def execEndifP (p i : Nat) (s : State) : Out :=
  instr p i 2 0x32
    (fun s x => useCtl.legal s x && (match (s.plaitOf x).stack with | .cond _ _ :: _ => true | _ => false))
    (fun s x =>
      let q := s.plaitOf x
      match q.stack with
      | .cond saved _ :: r => (s.setPlaitOf x { q with stack := r, active := saved }).advance x
      | _ => s) s

/-- LOOP: one entry; the body starts at the next instruction (R144; DEDUCED, log 13). -/
def execLoopP (p i : Nat) (s : State) : Out :=
  instr p i 2 0x33 (fun s x => useCtl.legal s x && decide ((s.plaitOf x).stack.length < 32))
    (fun s x =>
      let q := s.plaitOf x
      (s.setPlaitOf x { q with stack := .loop q.active q.active (x.pc + 8) :: q.stack }).advance x) s

/-- BRK k: removes lanes from the loop (R144). -/
def execBrkP (p i : Nat) (s : State) : Out :=
  instr p i 2 0x34 (fun s x => useCtlK.legal s x && inLoop (s.plaitOf x).stack)
    (fun s x =>
      let q := s.plaitOf x
      let m := q.active &&& s.kOf x
      (s.setPlaitOf x { q with stack := dropLanes true m q.stack, active := q.active &&& ~~~m }).advance x) s

/-- CONT k: suspends lanes to the next iteration (R144). -/
def execContP (p i : Nat) (s : State) : Out :=
  instr p i 2 0x35 (fun s x => useCtlK.legal s x && inLoop (s.plaitOf x).stack)
    (fun s x =>
      let q := s.plaitOf x
      let m := q.active &&& s.kOf x
      (s.setPlaitOf x { q with stack := dropLanes false m q.stack, active := q.active &&& ~~~m }).advance x) s

/-- ENDLOOP: pops once no lane remains in the loop; otherwise the lanes in the loop run the body again (R144; log 13). -/
def execEndloopP (p i : Nat) (s : State) : Out :=
  instr p i 2 0x36
    (fun s x => useCtl.legal s x && (match (s.plaitOf x).stack with | .loop _ _ _ :: _ => true | _ => false))
    (fun s x =>
      let q := s.plaitOf x
      match q.stack with
      | .loop saved rest body :: r =>
        if rest = 0 then (s.setPlaitOf x { q with stack := r, active := saved }).advance x
        else (s.setPlaitOf x { q with active := rest }).setPc x body
      | _ => s) s

/-- EXIT removes the active lanes for good; a plait with no live lane ends (R145). -/
def execExitP (p i : Nat) (s : State) : Out :=
  instr p i 2 0x37 useCtl.legal
    (fun s x =>
      let q := s.plaitOf x
      let live := q.live &&& ~~~q.active
      let s := (s.setPlaitOf x { q with live := live, stack := exitLanes q.active q.stack, active := 0 }).advance x
      if live = 0 then s.plaitEnd x.p (x.i - 16) else s) s

/-- SKB: the plait waits at the skein barrier, whatever its mask (R146). -/
def execSkb (p i : Nat) (s : State) : Out :=
  instr p i 2 0x38 useCtl.legal (fun s x => (s.setPlaitOf x { s.plaitOf x with arrived := true }).advance x) s

/-- Every plait of the skein of slot n has arrived; ended plaits count as arrived (R146). -/
def Core.skeinArrived (c : Core) (n : Nat) : Bool :=
  let q := c.plait n
  q.arrived && c.plaits.all fun y => y.2.cmd != q.cmd || y.2.skein != q.skein || y.2.arrived

/-- Release the plaits of the skein of slot n. -/
def Core.releaseSkein (c : Core) (n : Nat) : Core :=
  let q := c.plait n
  let free (y : Nat × Plait) : Nat × Plait :=
    if y.2.cmd = q.cmd ∧ y.2.skein = q.skein then (y.1, { y.2 with arrived := false }) else y
  { c with plaits := c.plaits.map free }

/-- SKB_RELEASE: the plaits of the skein of plait slot n go on (R146). -/
def execSkbRelease (p n : Nat) (s : State) : Out :=
  s.when (decide (p < 208) && decide (n < 256) && (s.core p).skeinArrived n)
    (s.modCore p fun c => c.releaseSkein n)

end Sys2Proof.Machine
end

