-- ==== Sys2Proof/Machine/Power.lean ====
section
/-!
DEFINITION. Temperature sensors, AVSBus and the test access port (R232, R531, R533, R534, R538, R546, R547).
-/
namespace Sys2Proof.Machine

/-! ## Sensors (R533, R534, R538) -/

/-- THERMALERT_N is asserted while any die is at or above CRIT or has a throttle count above 0 (R534). -/
def State.alertNow (s : State) : State :=
  let hot := (s.power.crit.any fun x => x.2) || (List.range 8).any fun d => s.getF (.gctlDietemp d) GCTL_DIETEMP.K != 0
  { s with power := { s.power with thermalert := hot } }

/-- A junction sample of die d (0 to 7 C0 to C7, 8 X0, 9 X1), sensor k, in units of 0.25 degrees. -/
def State.junction (s : State) (d k temp : Nat) : State :=
  let warn := decide (4 * s.getF .gctlThermcfg GCTL_THERMCFG.WARN ≤ temp)
  let crit := decide (380 ≤ temp)
  let wasWarn := SMap.get false s.power.warm (64 * d + k)
  let wasCrit := SMap.get false s.power.crit (64 * d + k)
  let otherWarn := s.power.warm.any fun x => x.1 / 64 == d && x.1 != 64 * d + k && x.2
  let otherCrit := s.power.crit.any fun x => x.1 / 64 == d && x.1 != 64 * d + k && x.2
  let s := { s with power := { s.power with
    top := SMap.put 0 s.power.top d (max temp (SMap.get 0 s.power.top d))
    warm := SMap.put false s.power.warm (64 * d + k) warn
    crit := SMap.put false s.power.crit (64 * d + k) crit } }
  let s := if warn && !wasWarn && !otherWarn then s.note (srcDie d) 1 0xB0 (d + 16 * temp) else s
  let s := if crit && !wasCrit && !otherCrit then s.note (srcDie d) 3 0xB2 (d + 16 * temp) else s
  s.alertNow

/-- A sample of a base die's own sensor; its record names the die that the stack is attached to (DESIGN CHOICE, log 79). -/
def State.baseSample (s : State) (m temp : Nat) : State :=
  let key := 64 * (16 + m) + 16
  let t := { s with power := { s.power with crit := SMap.put false s.power.crit key (decide (380 ≤ temp)) } }.alertNow
  if 380 ≤ temp ∧ SMap.get false s.power.crit key = false then t.note (srcDie (stackDie m)) 3 0xB2 (stackDie m + 16 * temp) else t

/-- A sample of DRAM die k of stack m: MS_STATUS.HOT and the refresh interval above 85 degrees (R232), STACKHOT above 95 degrees. -/
def State.dramSample (s : State) (m k temp : Nat) : State :=
  let d := stackDie m
  let key := 64 * (16 + m) + k
  let hot := decide (340 < temp)
  let very := decide (380 < temp)
  let was := (List.range 16).any fun j => SMap.get false s.power.crit (64 * (16 + m) + j)
  let s := { s with power := { s.power with
    warm := SMap.put false s.power.warm key hot
    crit := SMap.put false s.power.crit key very } }
  let any (l : SMap Bool) (m : Nat) : Bool := (List.range 16).any fun j => SMap.get false l (64 * (16 + m) + j)
  let s := s.setF (.msStatus m) MS_STATUS.HOT (any s.power.warm m).toNat
  let die := (dieStacks d).any fun m => any s.power.crit m
  let s := { s with power := { s.power with dram := SMap.put false s.power.dram d die } }.setF (.gctlDietemp d) GCTL_DIETEMP.STACKHOT die.toNat
  let s := s.alertNow
  if very && !was then s.note (srcDie d) 3 0xB2 (d + 16 * temp + 2 ^ 14) else s

/-- THERMTRIP_N is asserted as every clock stops; the record is written into the on-chip log at once, as no clock is left to emit it
(R538). -/
def State.trip (s : State) (d : Nat) : State :=
  let seq := s.log.nextSeq
  let e : EvRec := ⟨s.gtc, srcDie d, 3, 0xB3, evPayload (s.getF .timeBeat TIME_BEAT.NUM) 0xFF 0x7F d⟩
  { s with
    log := { s.log with nextSeq := seq + 1, ring := SMap.put none s.log.ring (seq % 16384) (some ⟨e, seq, s.getF .wyDevid WY_DEVID.ID⟩) }
    power := { s.power with thermtrip := true } }

/-- SENSOR_SAMPLE: sensor k of unit u reads temp, in units of 0.25 degrees C. Units 0 to 7 are C0 to C7 (32 sensors), 8 and 9 X0 and X1
(8 sensors), 16 + m base die M (sensors 0 to 15 its DRAM dies, 16 its own). Two consecutive samples at or above 105 degrees trip. -/
def execSensorSample (u k temp : Nat) (s : State) : Out :=
  let sensors := if u < 8 then 32 else if u < 10 then 8 else if 16 ≤ u ∧ u < 28 then 17 else 0
  let d := if u < 10 then u else stackDie (u - 16)
  let n := if 420 ≤ temp then SMap.get 0 s.power.trips (64 * u + k) + 1 else 0
  let s1 := { s with power := { s.power with trips := SMap.put 0 s.power.trips (64 * u + k) n } }
  let s2 := if u < 10 then s1.junction u k temp else if k < 16 then s1.dramSample (u - 16) k temp else s1.baseSample (u - 16) temp
  match s.when (s.boot.started && decide (k < sensors) && decide (temp < 1024)) (if 2 ≤ n then s2.trip d else s2) with
  | .next t => .next { t with clocksStopped := decide (2 ≤ n) }
  | o => o

/-! ## AVSBus (R531) -/

/-- AVS_TIMEOUT: the regulator has not answered for 100 µs. -/
def execAvsTimeout (s : State) : Out :=
  s.when s.boot.started
    (({ s with power := { s.power with avsFault := true } }.setF .gctlVcore GCTL_VCORE.AVSOK 0).note srcBeat 1 0xB5 1)

/-- AVS_ANSWER: the regulator answers; the answer that ends a failure is recorded. -/
def execAvsAnswer (s : State) : Out :=
  let t := { s with power := { s.power with avsFault := false } }.setF .gctlVcore GCTL_VCORE.AVSOK 1
  s.when s.boot.started (if s.power.avsFault then t.note srcBeat 1 0xB5 0 else t)

/-! ## The TAP (R546, R547) -/

/-- STRAP2 is 1: boundary-scan mode. -/
def State.boundaryMode (s : State) : Bool := s.boot.started && (s.boot.straps[2]?).getD false

/-- Put a TAP instruction with the value of its data register. -/
def State.tap (s : State) (i : TapInstr) (data : Nat) : State := { s with power := { s.power with tap := i, tapData := data } }

/-- BYPASS: the one-bit bypass register is selected. It works whatever state the clocks are in. -/
def execBypass (s : State) : Out := .next (s.tap .bypass 0)

/-- IDCODE: the TAP returns 0x1960_025B. -/
def execIdcode (s : State) : Out := .next (s.tap .idcode 0x1960025B)

/-- SAMPLE_PRELOAD: the lands are sampled into the boundary register, or a pattern is shifted into it; bits is what it holds afterwards.
In normal mode the TAP answers only BYPASS and IDCODE, and nothing happens. -/
def execSamplePreload (bits : List Bool) (s : State) : Out :=
  s.when true
    (if s.boundaryMode then { s.tap .samplePreload 0 with power := { (s.tap .samplePreload 0).power with boundary := bits } } else s)

/-- EXTEST: the lands are driven from the boundary register. -/
def State.drive (s : State) (i : TapInstr) : State :=
  if s.boundaryMode then { s.tap i 0 with power := { (s.tap i 0).power with driven := some s.power.boundary } } else s

def execExtest (s : State) : Out := s.when true (s.drive .extest)

/-- EXTEST_PULSE and EXTEST_TRAIN drive IEEE 1149.6 pulses, and pulse trains, on the fronthaul and CCL pairs. -/
def execExtestPulse (s : State) : Out := s.when true (s.drive .extestPulse)
def execExtestTrain (s : State) : Out := s.when true (s.drive .extestTrain)

end Sys2Proof.Machine
end

