-- ==== Sys2Proof/Machine/Update.lean ====
section
/-!
DEFINITION. Device requests, attestation, firmware update and configuration images (R511, R514 to R520).
-/
namespace Sys2Proof.Machine

/-! ## Device requests (R514) -/

/-- Reply to a device request on the device ring. -/
def State.devReply (s : State) (ridx tag cause result : Nat) : State :=
  let irq := if cause ≠ 0 ∧ s.ringRejirq 65 1 = true then some (s.ringVec 65 1) else none
  s.postCompletion ⟨65, 1, ridx⟩ ⟨tag, if cause = 0 then 1 else 2, cause, 0, 0, 0, 0, if cause = 0 then result else 0, irq, s.gtc⟩ id

/-- The request at the head of the device ring, if it has this OP and may run: one at a time, in ring order (R514); during an activation
requests wait, but for those that R520 refuses. -/
def State.devHead (s : State) (op : Nat) : Option Req :=
  match s.devQ with
  | q :: _ => if q.op = op ∧ s.boot.work = none ∧ (s.boot.act = none ∨ op = 0x22 ∨ op = 0x26) then some q else none
  | [] => none

/-- Grizor answers the request at the head: with a refusal cause, else with its effect. Recovery mode serves FW_WRITE and FW_ACTIVATE
alone (R507), and an activation refuses the requests that do not wait for it (R520). -/
def dev (op : Nat) (cause : State → Req → Nat) (eff : State → Req → State) (s : State) : Out :=
  match s.devHead op with
  | none => s.when false s
  | some q =>
    let s1 := { s with devQ := s.devQ.tail }
    let c :=
      if s.boot.act ≠ none ∨ (s.boot.recovery = true ∧ op ≠ 0x22 ∧ op ≠ 0x23) then 0x14 else cause s1 q
    s.when s.mpServes (if c ≠ 0 then s1.devReply q.ridx q.tag c 0 else eff s1 q)

/-! ## ATTEST (R515) -/

/-- Bytes of a digest or a signature, n of them. -/
def fixLen (n : Nat) (bs : List Byte) : List Byte := (bs ++ List.replicate n 0).take n

/-- The 80-bit form of a time in ns (R360). -/
def time80 (t : Rat) : List Byte :=
  let ns := t.floor.toNat
  leBytes 2 (((t - (t.floor : Rat)) * 65536).floor.toNat) ++ leBytes 4 (ns % 1000000000) ++ leBytes 4 (ns / 1000000000 % 2 ^ 32)

/-- Numbers that name a region table. -/
def Instance.regionNumbers (x : Instance) : List Nat :=
  x.regions.flatMap fun g => match g.2 with
    | some e => [g.1, e.ipa, e.size, (match e.type with | .stack => 1 | .comp => 2 | .seq => 3), e.target, e.r.toNat, e.w.toNat]
    | none => []

/-- The entry of an instance in the report. -/
def State.attestInst (s : State) (n : Nat) : List Byte :=
  leBytes 1 n ++ leBytes 4 (s.reg (.iwState n)).toNat ++ leBytes 4 (s.reg (.iwMem n)).toNat
    ++ leBytes 1 (s.getF (.wvWeight n) WV_WEIGHT.WEIGHT) ++ leBytes 2 (s.getF (.wyGroup n) WY_GROUP.GROUP) ++ leBytes 20 0
    ++ fixLen 32 (Config.sm3 (3 :: (s.inst n).regionNumbers))

/-- The attestation report for an instance mask and a nonce; hashes are of items that the model names by numbers (log 36). -/
def State.attestReport (s : State) (mask : Nat) (nonce : List Byte) : List Byte :=
  let ns := (List.range 65).filter fun n => mask / 2 ^ n % 2 = 1 ∧ s.instState n ≠ stABSENT
  let comps := s.boot.comps
  let head := fun (total : Nat) =>
    [0x42, 0x5A, 0x39, 0x36, 0x41, 0x54, 0x54, 0x53].map (BitVec.ofNat 8) ++ leBytes 4 1 ++ leBytes 4 total
      ++ (List.range 4).flatMap (fun k => leBytes 8 (s.reg (.secDevhash k)).toNat) ++ fixLen 32 nonce ++ leBytes 8 s.gtc ++ time80 s.tbr
      ++ leBytes 2 s.devid ++ leBytes 4 s.boot.running.setver ++ leBytes 4 s.boot.flash.minver ++ leBytes 4 (s.reg .gctlArithrev).toNat
      ++ leBytes 8 s.boot.cfg.cseq ++ fixLen 32 (Config.sm3 [1, s.boot.cfg.cseq]) ++ fixLen 32 (Config.sm3 [2, s.boot.cfg.cseq])
      ++ leBytes 1 ((List.range 192).filter s.available).length
      ++ leBytes 2 (((List.range 12).map fun m => if s.getF (.msStatus m) MS_STATUS.STATE = 2 then 2 ^ m else 0).sum)
      ++ leBytes 1 (s.getF .mpBootstat MP_BOOTSTAT.TRIAL + 2 * s.getF .mpBootstat MP_BOOTSTAT.MIXED
          + 4 * s.getF .secStatus SEC_STATUS.IDOK)
      ++ leBytes 2 comps.length ++ leBytes 2 ns.length
  let body := comps.flatMap (fun c => leBytes 1 c.1 ++ leBytes 1 c.2.1 ++ leBytes 2 c.2.2.1 ++ leBytes 4 c.2.2.2 ++ leBytes 8 0
      ++ fixLen 32 (Config.sm3 [0, c.1, c.2.2.1, c.2.2.2])) ++ ns.flatMap s.attestInst
  let all := head (192 + body.length + 64) ++ body
  all ++ fixLen 64 (Config.sm2Sign all)

/-- Write bytes to companion memory by WRL, one line at a time. -/
def State.wrlBytes (s : State) (a : Nat) : List Byte → Nat → State
  | _, 0 => s
  | bs, n + 1 =>
    let k := 64 - a % 64
    if bs.isEmpty then s else (s.cclSend .wrl a (bs.take k) .other).wrlBytes (a + k) (bs.drop k) n

/-- ATTEST: the report goes to the output address, and the request completes with its length. -/
def execAttest (s : State) : Out :=
  dev 0x21 (fun s _ => if s.getF .secStatus SEC_STATUS.IDOK = 0 then 0x14 else 0)
    (fun s q =>
      let bs := s.attestReport (q.f 24 9) ((q.bytes.drop 40).take 32)
      (s.wrlBytes (q.f 16 8) bs (bs.length + 1)).devReply q.ridx q.tag 0 bs.length) s

/-! ## FW_WRITE (R516) -/

/-- The slot in use. -/
def State.activeSlot (s : State) : Nat := s.getF .mpBootstat MP_BOOTSTAT.SLOT

/-- A device request that reads companion memory waits while no CCL port is up (R298). -/
def devRead (op : Nat) (cause : State → Req → Nat) (eff : State → Req → State) (s : State) : Out :=
  if s.cclUp then dev op cause eff s else s.when false s

/-- FW_WRITE: set is what companion memory holds at the address of the request. The inactive slot is erased and programmed. -/
def execFwWrite (set : FwSet) (s : State) : Out :=
  devRead 0x22
    (fun s _ =>
      if set.good = false then 0x10
      else if set.setver < s.boot.running.setver ∨ set.setver < s.boot.flash.floor then 0x11
      else 0)
    (fun s q =>
      { s with boot := { s.boot with
          work := some ⟨0x22, q.ridx, q.tag⟩
          staged := some set
          flash := s.boot.flash.putSlot (1 - s.activeSlot) FwSet.none } }) s

/-- The header records the SETVER of a slot. -/
def headSetver (slot setver : Nat) (h : BootHeader) : BootHeader :=
  if slot = 0 then { h with setverA := setver } else { h with setverB := setver }

/-- FLASH_PROGRAM_COMPLETE: the slot has been programmed and read back, or that failed (cause 0x15). -/
def execFlashProgramComplete (ok : Bool) (s : State) : Out :=
  match s.boot.work, s.boot.staged with
  | some w, some set =>
    let slot := 1 - s.activeSlot
    let s1 := { s with boot := { s.boot with work := none, staged := none } }
    let f := s.boot.flash.putSlot slot set
    s.when s.boot.grizor
      (if ok then (s1.setFlash (f.writeHeader (headSetver slot set.setver))).devReply w.ridx w.tag 0 set.setver
       else s1.devReply w.ridx w.tag 0x15 0)
  | _, _ => s.when false s

/-! ## Activation (R517, R518, R520) -/

/-- Component types of a step of the activation order. -/
def stepTypes (step : Nat) : List Nat :=
  match step with
  | 1 => [4, 5] | 2 => [2] | 3 => [3] | 4 => [6] | 5 => [7] | _ => [1, 8]

/-- Every step and instance in the activation order. -/
def stepOrder : List (Nat × Nat) :=
  [(1, 12), (2, 8), (3, 2), (4, 16), (5, 24), (6, 1)].flatMap fun x => (List.range x.2).map fun i => (x.1, i)

/-- The instance can be loaded: its stack is not LOST, its compute die has not failed. -/
def State.stepHas (s : State) (x : Nat × Nat) : Bool :=
  if x.1 = 1 then s.getF (.msStatus x.2) MS_STATUS.STATE != 2
  else if x.1 = 2 then s.domainOn (260 + x.2)
  else true

/-- First instance to load, at or after a place in the order. -/
def State.stepFrom (s : State) (step inst : Nat) : Option (Nat × Nat) :=
  stepOrder.find? fun x => (decide (step < x.1) || (decide (step = x.1) && decide (inst ≤ x.2))) && s.stepHas x

/-- A packet engine stops for its load (R404). -/
def State.stopEngine (s : State) (p : Nat) : State :=
  if s.fhEn p && (s.fhp p).stop.isNone then s.peStop p .update else s

/-- Start an instance: the update record is written first. Packet engines start 10 ms apart; the Grizor step begins the management
blackout. -/
def State.startStep (s : State) (a : Activation) (step inst : Nat) : State :=
  let first := a.step ≠ step
  let at_ := if step = 5 ∧ first = false then s.gtc + 36000000 else s.gtc
  let s := { s with boot := { s.boot with act := some { a with step := step, inst := inst, at_ := at_ }, update := some (step, inst) } }
  if step = 5 then (if first then s.stopEngine inst else s)
  else if step = 6 then { s with boot := { s.boot with grizor := false, restart := some 2 } }
  else s

/-- The last step is over: the header names the new slot, on trial; a revert leaves no trial (R517, R519). -/
def State.endActivation (s : State) (a : Activation) : State :=
  let g (h : BootHeader) : BootHeader :=
    if a.revert then { h with active := a.slot, trial := false, tries := 0 } else { h with active := a.slot, trial := true, tries := 3 }
  let s := { s.setFlash (s.boot.flash.writeHeader g) with boot := { s.boot with
    flash := s.boot.flash.writeHeader g
    act := none
    update := none } }
  ((((s.setF .mpBootstat MP_BOOTSTAT.SLOT a.slot).setF .mpBootstat MP_BOOTSTAT.TRIAL (!a.revert).toNat).setF .mpBootstat
    MP_BOOTSTAT.MIXED 0)).runSet a.set

/-- Go on with the activation from a place in its order. -/
def State.goOn (s : State) (a : Activation) (step inst : Nat) : State :=
  match s.stepFrom step inst with
  | some x => s.startStep a x.1 x.2
  | none => s.endActivation a

/-- Start to activate a set. In recovery mode nothing but Grizor runs, and the header alone is written (DEDUCED, log 37). -/
def State.activate (s : State) (set : FwSet) (slot : Nat) (revert : Bool) : State :=
  let a : Activation := { step := 0, inst := 0, set := set, slot := slot, revert := revert, at_ := s.gtc }
  if s.boot.recovery then
    { s with boot := { s.boot with flash := s.boot.flash.writeHeader fun h => { h with active := slot, trial := true, tries := 3 } } }
  else ((s.setF .mpBootstat MP_BOOTSTAT.MIXED 1).setF .gctlArithrev GCTL_ARITHREV.FWREV set.fwrev).goOn a 1 0

/-- Every component's LEVEL stands to the running instances' LEVEL as a test asks (R518). -/
def State.levelsOk (s : State) (set : FwSet) (ok : Nat → Nat → Bool) : Bool :=
  set.comps.all fun c => s.boot.comps.all fun x => x.1 != c.type || ok c.level x.2.2.1

/-- FW_ACTIVATE: the set in the inactive slot is staged while it is valid and not below the running set. The request completes when the
first instance starts (DESIGN CHOICE, log 37). -/
def execFwActivate (s : State) : Out :=
  dev 0x23
    (fun s q =>
      let set := s.boot.flash.slot (1 - s.activeSlot)
      if s.boot.flash.valid set = false ∨ set.setver < s.boot.running.setver then 0x14
      else if s.levelsOk set (fun new old => new == old || new == old + 1) = false then 0x12
      else if set.fwrev ≠ s.boot.running.fwrev ∧ q.f 16 1 = 0 then 0x13
      else 0)
    (fun s q => (s.activate (s.boot.flash.slot (1 - s.activeSlot)) (1 - s.activeSlot) false).devReply q.ridx q.tag 0 0) s

/-- Slot that FW_REVERT activates: the other one during a trial; after a stopped activation the one that the header names (log 37). -/
def State.revertSlot (s : State) : Nat :=
  if s.getF .mpBootstat MP_BOOTSTAT.TRIAL = 1 then 1 - s.activeSlot else s.activeSlot

/-- FW_REVERT (R519, R520). -/
def execFwRevert (s : State) : Out :=
  dev 0x25
    (fun s _ =>
      let set := s.boot.flash.slot s.revertSlot
      if s.getF .mpBootstat MP_BOOTSTAT.TRIAL = 0 ∧ s.getF .mpBootstat MP_BOOTSTAT.MIXED = 0 then 0x14
      else if set.good = false then 0x10
      else if set.setver < s.boot.flash.floor then 0x11
      else if s.levelsOk set (fun new old => decide (new ≤ old + 1) && decide (old ≤ new + 1)) = false then 0x12
      else 0)
    (fun s q => (s.activate (s.boot.flash.slot s.revertSlot) s.revertSlot true).devReply q.ridx q.tag 0 0) s

/-- The components of a step on an instance come from a set. -/
def State.loadStep (s : State) (set : FwSet) (step inst : Nat) : State :=
  let new := set.comps.filter fun c => (stepTypes step).contains c.type
  let one (x : Nat × Nat × Nat × Nat) : Nat × Nat × Nat × Nat :=
    match new.find? fun c => c.type == x.1 && x.2.1 == inst with
    | some c => (x.1, x.2.1, c.level, c.version)
    | none => x
  let s := { s with boot := { s.boot with comps := s.boot.comps.map one } }
  match (if step = 1 then new.find? (fun c => c.type == 5) else none) with
  | some c => s.setF (.msStatus inst) MS_STATUS.LIBVER c.version
  | none => s

/-- A compute die holds nothing that its controller serves: every core idle and released (R517). -/
def State.dieIdle (s : State) (d : Nat) : Bool :=
  (List.range 26).all fun k =>
    let p := 26 * d + k
    let c := s.core p
    s.role p == 0 && c.residents.isEmpty && c.takeover.isNone && c.borrow.isNone

/-- The last plan that Grizor has committed sets BRW with BCG 0x7F on BPEAK cores, or on all that may be borrowable, in its last beat (R521). -/
def State.blackoutPlan (s : State) : Bool :=
  let last := match s.beat.plans.getLast? with
    | some x => x.beats.getLast?.getD []
    | none => []
  let open_ := (List.range 192).filter fun l => s.available l && !s.stakeSet.contains l && eRole (SMap.get 0 last l) != 3
  let set := open_.filter fun l => eBrw (SMap.get 0 last l) && CORE_CQ_PLAN.BCG.get (BitVec.ofNat 64 (SMap.get 0 last l)) == 0x7F
  !s.beat.started || decide (min (s.getF .timePlancfg TIME_PLANCFG.BPEAK) open_.length ≤ set.length)

/-- The instance under load can finish now; the one before Grizor's own step finishes once the plan that the sequencer is to repeat stands
(R521). -/
def State.stepReady (s : State) (a : Activation) : Bool :=
  decide (a.at_ ≤ s.gtc) && s.boot.grizor
    && (if a.step = 2 then s.dieLoading a.inst && s.dieIdle a.inst else true)
    && (if a.step = 5 then (s.fhp a.inst).stop != some .update else true)
    && (if (s.stepFrom a.step (a.inst + 1)).map Prod.fst = some 6 then s.blackoutPlan else true)

/-- ACTIVATION_STEP_COMPLETE: the instance has started with its new component, or it has failed to and keeps the old one: the activation
stops then (R520; MIXED stays 1, log 37). -/
def execActivationStepComplete (ok : Bool) (s : State) : Out :=
  match s.boot.act with
  | none => s.when false s
  | some a =>
    let d := a.step + 8 * a.inst
    s.when (s.stepReady a)
      (if ok then ((s.loadStep a.set a.step a.inst).note srcMp 0 0xA5 d).goOn a a.step (a.inst + 1)
       else { s with boot := { s.boot with act := none, update := none } }.note srcMp 3 0xA5 (d + 2 ^ 27))

/-! ## Commits and configuration images (R511, R513, R519) -/

/-- FW_COMMIT: counter 0 rises to the active SETVER, the trial ends, and superseded records are erased. -/
def execFwCommit (s : State) : Out :=
  dev 0x24 (fun s _ => if s.getF .mpBootstat MP_BOOTSTAT.TRIAL = 0 then 0x14 else 0)
    (fun s q =>
      let v := max s.boot.flash.minver s.boot.running.setver
      let f := s.boot.flash.writeHeader fun h => { h with trial := false }
      let f := { f with minver := v, records := f.records.filter fun r => decide (s.boot.rver ≤ r.rver) }
      ((((s.setFlash f).setF .mpBootstat MP_BOOTSTAT.TRIAL 0).setF .mpMinver MP_MINVER.MINVER v).note srcMp 0 0xA6
        (s.boot.running.setver % 2 ^ 24)).devReply q.ridx q.tag 0 v) s

/-- CFG_WRITE: img is the image that companion memory holds at the address, ok: the flash took it. It goes to the copy not in force, for
the next cold reset. -/
def execCfgWrite (img : CfgImage) (ok : Bool) (s : State) : Out :=
  devRead 0x26
    (fun s _ =>
      if img.good = false then 0x10
      else if img.cseq ≤ s.boot.cfg.cseq ∨ img.cseq < s.boot.flash.mincseq then 0x11
      else if ok = false then 0x15
      else 0)
    (fun s q =>
      let f := s.boot.flash
      let f := if s.getF .mpBootstat MP_BOOTSTAT.CFGCOPY = 0 then { f with cfg1 := img } else { f with cfg0 := img }
      (s.setFlash f).devReply q.ridx q.tag 0 img.cseq) s

/-- CFG_COMMIT: counter 1 rises to the CSEQ in force. -/
def execCfgCommit (s : State) : Out :=
  dev 0x27 (fun s _ => if s.boot.cfg.good = false then 0x14 else 0)
    (fun s q =>
      let v := max s.boot.flash.mincseq s.boot.cfg.cseq
      (s.setFlash { s.boot.flash with mincseq := v }).devReply q.ridx q.tag 0 v) s

end Sys2Proof.Machine
end

