-- ==== Sys2Proof/Machine/Reset.lean ====
section
/-!
DEFINITION. Warm reset, restarts of Grizor, its load, tampering (R188, R219, R239, R251, R303, R326, R379, R403, R437, R445, R508, R517,
R520 to R522, R545, R557, R558).
-/
namespace Sys2Proof.Machine

/-! ## Registers through a warm reset (R6, R557) -/

/-- A field with access code RW, RO or W1C that a block's own rule keeps (log 35): windows (R303), journal and stacks (R251, R256),
counts since cold reset (R257, R265), time (R379), fronthaul (R403), the queue pairs (R437), Withy (R445), Waling, boot, power domains (R529), the core map, the beat. -/
def Reg.warmKeeps (r : Reg) (f : Fld) (ro : Bool) : Bool :=
  match r with
  | .iwState _ | .iwMem _ | .iwFault _ | .iwTfault _ | .iwTfaultVa _ | .iwTlbinv _ | .iwRingStatus _ _ => true
  | .coreCqPlan _ | .coreMeSpare _ _ | .wvWeight _ | .msStatus _ | .msFrame _ _ => true
  | .timeBeat | .timeTbCfg _ | .timeTbServo _ | .timeTbStatus _ | .timeTbRate _ | .timeTbSec _ | .timeTbNs _ | .timeRadio | .timeClk
  | .timeAppofs => true
  | .timeTod => f != TIME_TOD.UTCOFS
  | .timePlanstat => f == TIME_PLANSTAT.COUNT
  | .msEcc _ => true
  | .cclPortStatus _ | .gctlSeal | .gctlCmap _ | .gctlPdstat _ | .gctlArithrev | .gctlElogProd | .gctlVcore => true
  | .gctlPwrest => f == GCTL_PWREST.PEAK
  | .mpLoad => f == MP_LOAD.PEAK
  | .fhStatus _ | .fhMod _ | .fhCnt _ _ | .fhExccap _ _ | .fhModid _ _ | .fhFlowLo _ _ => true
  | .rlQpStatus _ => true
  | .wyStatus _ | .wyErr _ | .wyFofs _ | .wyCable _ _ | .wyLife _ | .wyRoute _ => true
  | .wlState | .wlEpoch | .wlHealth | .wlReprobe | .wlAdmit | .wlClaimCtl | .wlClaimRes | .wlMember _ => ro
  | .mpMgmtStatus | .mpDevStatus | .mpBootstat | .mpVer | .mpMinver => true
  | .secStatus => ro
  | .secDevhash _ | .secDevpub _ => true
  | _ => false

/-- The word of a register after a warm reset: RWS and RWL fields and what warmKeeps names stay, the others take their reset values. -/
def Reg.warmWord (r : Reg) (w : BitVec 64) : BitVec 64 :=
  r.fields.foldl (fun x f =>
    let keep := match f.acc with
      | .rws | .rwl => true
      | .ro => r.warmKeeps f.fld true
      | _ => r.warmKeeps f.fld false
    if keep then f.fld.set x (f.fld.get w) else x) r.resetWord

/-! ## WARM_RESET -/

/-- What is left of a ring: fetching resumes after the highest RIDX in the journal (R326). -/
def Ring.warm (x : Ring) (written : Nat → Bool) : Ring :=
  let keep := x.fetched.filter fun f => f.checked && written f.ridx
  let lost := x.fetched.filter fun f => !(f.checked && written f.ridx)
  { x with fetched := keep, next := lost.foldl (fun m f => min m f.ridx) x.next }

/-- Journal records that have not been written are gone, but for COMMITs of commands that were retired with a fault, which Grizor
retires again. -/
def State.warmJournal (s : State) : State :=
  let j := s.stackSet.journal
  let stays (q : JRec) : Bool := q.written || (q.kind == .commit && (match s.cmd q.key.no with
    | some c => c.inst != 0 && c.status != 1
    | none => false))
  let rings := s.rings.map fun x =>
    (x.1, x.2.warm fun ridx => j.recs.any fun q => q.written && q.inst == x.1 / 64 && q.ring == x.1 % 64 && q.ridx == ridx)
  let back := fun (c : Cmd) =>
    if c.inst = 0 ∧ c.phase = .ended ∧ (j.recs.any fun q => q.written && q.kind == .commit && q.key == c.key) = false then
      { c with phase := CmdPhase.running } else c
  { s.setJournal { j with recs := j.recs.filter stays } with rings := rings, cmds := s.cmds.map back }

/-- Every core is zeroed (R188): what runs there is lost. -/
def State.warmCores (s : State) : State :=
  let s := s.cores.foldl (fun s x => s.heldToBoundary x.1) s
  s.mapCores fun _ c => { Core.zero with failed := c.failed, testing := c.testing, waking := c.waking, nextId := c.nextId }

/-- Registers, queues and credits that do not survive (R219, R557); reads of companion memory are made again. -/
def State.warmUnits (s : State) : State :=
  (List.range 12).foldl State.showBusy { s with
    regs := s.regs.map fun x => (x.1, x.1.warmWord x.2)
    stackSet := { s.stackSet with queues := [] }
    weave := { s.weave with points := [], winAt := none }
    withy := { s.withy with held := [] }
    insts := s.insts.map fun x => (x.1, { x.2 with tlb := [], root := s.reg (.iwS1root x.1) })
    ccl := { s.ccl with out := s.ccl.out.filter fun t => t.kind == .wrl || t.kind == .wrp, cache := [] } }

/-- WARM_RESET: WARMRST_N has been held low (pin), or the reset that GCTL_RESET requested is due (R545, R558). Every context is torn down
in this cycle (R437). -/
def execWarmReset (pin : Bool) (s : State) : Out :=
  let due := match s.boot.warmAt with | some t => decide (t ≤ s.gtc) | none => false
  let s1 := s.warmJournal
  let s2 := (List.range 127).foldl (fun s g => if s.cgExists g then s.contextDown g 5 0 else s) s1
  let s3 := s2.warmCores.warmUnits
  let s4 := (List.range 24).foldl (fun s p => if s.fhEn p then s.peStop p .reset else s) s3
  let s5 := s4.rereadLines fun _ => true
  let up := s.boot.grizor || s.boot.restart.isSome
  s.when (s.boot.started && !s.scanMode && !s.boot.warm && (pin || due))
    { s5 with boot := { s5.boot with
        grizor := false
        restart := if up then some 1 else none
        recover := up
        warm := true
        warmAt := none } }

/-- WARM_RESET_END: cores take commands again (R188, R437). -/
def execWarmResetEnd (s : State) : Out :=
  s.when s.boot.warm { s with boot := { s.boot with warm := false } }

/-! ## Restarts of Grizor (R326, R508, R517, R522) -/

/-- MP_WATCHDOG: no progress for 100 ms; the watchdog restarts Grizor. -/
def execMpWatchdog (s : State) : Out :=
  s.when s.boot.grizor
    ({ s with boot := { s.boot with grizor := false, restart := some 0 } }.note srcMp 3 0xAA 1)

/-- The completion effects of a COMMIT or REJECT record that has not been retired happen again (R326). -/
def State.repeatReport (s : State) (q : JRec) : State :=
  match q.reply with
  | [tag, status, cause, flags, ovr, step, rerun, result, irq, gtc] =>
    let cpl := (s.ring q.inst q.ring).cplprod
    let s := s.postCompletion q.key ⟨tag, status, cause, flags, ovr, step, rerun, result, if irq = 0 then none else some (irq - 1), gtc⟩ fun s =>
      match s.cmd q.key.no with
      | some c => (match c.d.body with
        | .signal _ => if q.kind = .commit then s.signalPut c result else s
        | _ => s)
      | none => s
    if (s.ring q.inst q.ring).cplprod = cpl then s.statusLine q.inst q.ring else s
  | _ => s

/-- Grizor reads the journal after a warm reset (R251, R326): unretired reports are made again, and every tenant ring with an accepted
command that has no COMMIT re-runs from its step start. -/
def State.readJournal (s : State) : State :=
  let s := { s with boot := { s.boot with recover := false } }
  let s := (s.stackSet.journal.recs.filter fun q => q.written).foldl (fun s q => s.journalRead q.seq) s
  let old := s.stackSet.journal.recs.filter fun q => q.durable && !q.retired && q.inst != 0
  let s := old.foldl State.repeatReport s
  let rings := (s.cmds.filterMap fun c => if c.inst ≠ 0 ∧ c.phase ≠ .committed ∧ (c.phase ≠ .ended ∨ c.status = 1) then
    some (c.inst, c.ring) else none).eraseDups
  rings.foldl (fun s x => s.rerunRing x.1 x.2) s

/-- An activation that a restart has interrupted goes on with the step after the one in the update record (R520). -/
def State.resumeUpdate (s : State) : State :=
  match s.boot.act, s.boot.update with
  | some a, some u => s.goOn a (u.1 + 1) 0
  | _, _ => s

/-- GRIZOR_RESTART: the ROM has verified Grizor and starts it again; rver is the record version of its set. After a warm reset it reads
the journal once every record written has become durable, and any update record; after an update it migrates the device records. -/
def execGrizorRestart (rver : Nat) (s : State) : Out :=
  match s.boot.restart with
  | none => s.when false s
  | some k =>
    let s1 := { s with boot := { s.boot with grizor := true, restart := none } }
    let s2 := if k = 0 then s1 else s1.note srcMp 3 0xAA (2 ^ k)
    let s3 := if k = 2 then { s2 with boot := { s2.boot with rver := rver } }.migrate else s2
    let s4 := if s.boot.recover then s3.readJournal else s3
    s.when
      (decide (rver < 256) && (!s.boot.recover || !(s.stackSet.journal.recs.any fun q => q.written && !q.durable)))
      (if k = 1 then s4.resumeUpdate else s4)

/-! ## Load (R521) -/

/-- The next load level: entered at 70, 85 and 95 percent, left below 60, 75 and 85. -/
def loadLevel (old load : Nat) : Nat :=
  let enter := if 95 ≤ load then 3 else if 85 ≤ load then 2 else if 70 ≤ load then 1 else 0
  let stay := if 85 ≤ load then 3 else if 75 ≤ load then 2 else if 60 ≤ load then 1 else 0
  max enter (min old stay)

/-- Below load level 2 Grizor may latch an instance into its own snapshot set (R293, R521): which, and whether in this window, are free values
(log 73). -/
def State.grizorLatch (s : State) : State :=
  let n := (Config.freeBits s.free).toNat % 66
  { s with
    free := s.free + 1
    boot := if n ≤ 64 then { s.boot with snap := n :: s.gtc :: (s.inst n).acct.list } else s.boot }

/-- MP_LOAD_WINDOW: load percent of a 10 ms window was spent busy. -/
def execMpLoadWindow (load : Nat) (s : State) : Out :=
  let old := s.getF .mpLoad MP_LOAD.LEVEL
  let new := loadLevel old load
  let s1 := { s with boot := { s.boot with loadAt := s.gtc } }
  let s1 := ((s1.setF .mpLoad MP_LOAD.LOAD load).setF .mpLoad MP_LOAD.PEAK (max load (s.getF .mpLoad MP_LOAD.PEAK))).setF .mpLoad
    MP_LOAD.LEVEL new
  s.when (s.boot.grizor && decide (s.boot.loadAt + 36000000 ≤ s.gtc) && decide (load ≤ 100))
    ((if new = old then s1 else s1.note srcMp 0 0xA9 (new + 4 * load)) |> fun s => if new < 2 then s.grizorLatch else s)

/-! ## TAMPER (R239) -/

/-- TAMPER: a signal of the security block, number source, destroys every key slot. -/
def execTamper (source : Nat) (s : State) : Out :=
  s.when (s.boot.started && decide (source < 16))
    (({ s with stackSet := { s.stackSet with keys := [] } }.setF .secStatus SEC_STATUS.TAMPER 1).note srcSec 3 0xAB source)

end Sys2Proof.Machine
end

