-- ==== Sys2Proof/Machine/Scalar.lean ====
section
/-!
DEFINITION. Scalar instructions (R167, R133 to R137, R173 to R179).
-/
namespace Sys2Proof.Machine

/-! ## Forms (R165 to R167) -/

/-- R form with ra and rb; rc and bits 33:0 are 0. -/
def legalR (_ : State) (x : Iss) : Bool := x.isThread && x.vOk false && decide (x.f 38 0 = 0)

/-- R form with rc (FFMA). -/
def legalR4 (_ : State) (x : Iss) : Bool := x.isThread && x.vOk false && decide (x.f 33 0 = 0)

/-- I form without SX and SIZE. -/
def legalI (_ : State) (x : Iss) : Bool := x.isThread && x.vOk false && decide (x.f 43 32 = 0)

/-- I form whose ra must be s0. -/
def legalI0 (s : State) (x : Iss) : Bool := legalI s x && decide (x.ra = 0)

/-- B form. -/
def legalB (_ : State) (x : Iss) : Bool :=
  x.isThread && x.vOk false && decide (x.f 53 49 = 0) && decide (x.f 38 32 = 0)

/-- All operand fields 0. -/
def legalNone (_ : State) (x : Iss) : Bool := x.isThread && x.vOk false && decide (x.f 53 0 = 0)

def State.a (s : State) (x : Iss) : Word := s.sval x x.ra
def State.b (s : State) (x : Iss) : Word := s.sval x x.rb

/-- Write rd and go on. -/
def State.result (s : State) (x : Iss) (v : Word) : State := (s.wrS x x.rd v).advance x

/-! ## Integer arithmetic: wrapping modulo 2^64 -/

def execAdd (p i : Nat) (s : State) : Out := instr p i 0 0x01 legalR (fun s x => s.result x (s.a x + s.b x)) s
def execSub (p i : Nat) (s : State) : Out := instr p i 0 0x02 legalR (fun s x => s.result x (s.a x - s.b x)) s
def execMul (p i : Nat) (s : State) : Out := instr p i 0 0x03 legalR (fun s x => s.result x (s.a x * s.b x)) s
def execAndS (p i : Nat) (s : State) : Out := instr p i 0 0x04 legalR (fun s x => s.result x (s.a x &&& s.b x)) s
def execOrS (p i : Nat) (s : State) : Out := instr p i 0 0x05 legalR (fun s x => s.result x (s.a x ||| s.b x)) s
def execXorS (p i : Nat) (s : State) : Out := instr p i 0 0x06 legalR (fun s x => s.result x (s.a x ^^^ s.b x)) s

/-- SLL: left shift by rb[5:0]. -/
def execSll (p i : Nat) (s : State) : Out :=
  instr p i 0 0x07 legalR (fun s x => s.result x (s.a x <<< ((s.b x).toNat % 64))) s

/-- SRA: right shift by rb[5:0], rounded under R49. -/
def execSra (p i : Nat) (s : State) : Out :=
  instr p i 0 0x08 legalR
    (fun s x => s.result x (BitVec.ofInt 64 (shiftRound (s.a x).toInt ((s.b x).toNat % 64)))) s

/-- BFX: bits imm[5:0] + imm[13:8] down to imm[5:0] of ra; a field that ends above bit 63 is illegal. -/
def execBfx (p i : Nat) (s : State) : Out :=
  instr p i 0 0x09
    (fun s x => legalI s x && decide (x.f 7 6 = 0) && decide (x.f 31 14 = 0) && decide (x.f 5 0 + x.f 13 8 ≤ 63))
    (fun s x => s.result x (BitVec.ofNat 64 (bitsOf (s.a x).toNat (x.f 5 0 + x.f 13 8) (x.f 5 0)))) s

def execAddi (p i : Nat) (s : State) : Out :=
  instr p i 0 0x0A legalI (fun s x => s.result x (s.a x + BitVec.ofInt 64 x.simm)) s

def execLi (p i : Nat) (s : State) : Out :=
  instr p i 0 0x0B legalI0 (fun s x => s.result x (BitVec.ofInt 64 x.simm)) s

/-- LIH: rd[63:32] = imm32, rd[31:0] kept. -/
def execLih (p i : Nat) (s : State) : Out :=
  instr p i 0 0x0C legalI0
    (fun s x => s.result x (BitVec.ofNat 64 (x.imm * 2 ^ 32 + (s.sval x x.rd).toNat % 2 ^ 32))) s

/-! ## Branches: offsets count instructions from this word -/

def Iss.target (x : Iss) : Nat := unsignedOf 64 ((x.pc : Int) + 8 * x.simm)
def State.branch (s : State) (x : Iss) (taken : Bool) : State := if taken then s.setPc x x.target else s.advance x

def execBeq (p i : Nat) (s : State) : Out :=
  instr p i 0 0x10 legalB (fun s x => s.branch x (s.a x == s.b x)) s
def execBne (p i : Nat) (s : State) : Out :=
  instr p i 0 0x11 legalB (fun s x => s.branch x (s.a x != s.b x)) s
def execBlt (p i : Nat) (s : State) : Out :=
  instr p i 0 0x12 legalB (fun s x => s.branch x (decide ((s.a x).toInt < (s.b x).toInt))) s
def execBge (p i : Nat) (s : State) : Out :=
  instr p i 0 0x13 legalB (fun s x => s.branch x (decide ((s.b x).toInt ≤ (s.a x).toInt))) s
def execBltu (p i : Nat) (s : State) : Out :=
  instr p i 0 0x14 legalB (fun s x => s.branch x (decide ((s.a x).toNat < (s.b x).toNat))) s
def execBgeu (p i : Nat) (s : State) : Out :=
  instr p i 0 0x15 legalB (fun s x => s.branch x (decide ((s.b x).toNat ≤ (s.a x).toNat))) s

/-- JMP: ra and rb must be s0. -/
def execJmp (p i : Nat) (s : State) : Out :=
  instr p i 0 0x16 (fun s x => legalB s x && decide (x.ra = 0) && decide (x.rb = 0)) (fun s x => s.setPc x x.target) s

/-- JR: jump to the scratchpad address in ra; an unaligned one faults at the next fetch (R160). -/
def execJr (p i : Nat) (s : State) : Out :=
  instr p i 0 0x17 (fun s x => legalR s x && decide (x.rd = 0) && decide (x.rb = 0))
    (fun s x => s.setPc x (s.a x).toNat) s

/-! ## Loads and stores (R123, R137) -/

def Iss.size (x : Iss) : Nat := 2 ^ x.f 33 32
def State.effAddr (s : State) (x : Iss) : Nat := (s.a x + BitVec.ofInt 64 x.simm).toNat

/-- LD: the data is read at issue and returns later (R121). -/
def execLd (p i : Nat) (s : State) : Out :=
  instr p i 0 0x18
    (fun _ x => x.isThread && x.vOk false && decide (x.f 43 35 = 0))
    (fun s x =>
      let a := s.effAddr x; let n := x.size
      match s.readFault x.p x.k [(a, n)] with
      | some c => s.accessFault x c [(a, n)]
      | none =>
        let raw := (s.core x.p).sp.readLE a n
        let v := if x.f 34 34 = 1 then unsignedOf 64 (signed (8 * n) raw) else raw
        ((s.correctSpans x.p [(a, n)]).addLoad x ⟨.scalar x.rd, v, 0⟩).advance x) s

/-- ST: the low SIZE bytes of rd. -/
def execSt (p i : Nat) (s : State) : Out :=
  instr p i 0 0x19
    (fun _ x => x.isThread && x.vOk false && decide (x.f 43 34 = 0))
    (fun s x =>
      let a := s.effAddr x; let n := x.size
      match s.writeFault x.p x.k [(a, n)] with
      | some c => s.accessFault x c [(a, n)]
      | none =>
        (s.modCore x.p fun c => c.spWrite a (leBytes n (s.sval x x.rd).toNat)).advance x) s

/-- LOAD_DATA_RETURN: outstanding load n of the issuer writes its register (R121, R122). -/
def execLoadDataReturn (p i n : Nat) (s : State) : Out :=
  let c := s.core p
  let put (b : VBank) (l : Load) : VBank := match l.dest with
    | .vector d => b.setReg d (ofLanes fun j =>
        if l.lanes.getLsbD j then laneOf (BitVec.ofNat 2048 l.data) j else laneOf (b.reg d) j)
    | .scalar _ => b
  if i < 16 then
    let t := c.thread i
    match t.loads[n]? with
    | none => s.when false s
    | some l =>
      let t' := { t with loads := t.loads.eraseIdx n }
      let k := threadSide i
      s.when (decide (p < 208)) (match l.dest with
        | .scalar rd => s.setCore p (c.setThread i (t'.setReg rd (BitVec.ofNat 64 l.data)))
        | .vector _ => s.setCore p ((c.setThread i t').setSide k { c.side k with bank := put (c.side k).bank l }))
  else
    let q := c.plait (i - 16)
    match q.loads[n]? with
    | none => s.when false s
    | some l =>
      s.when (decide (p < 208))
        (s.setCore p (c.setPlait (i - 16) { q with loads := q.loads.eraseIdx n, bank := put q.bank l }))

/-! ## FP32 (R48, R167): the low 32 bits of the registers; the high half of a result is open and is a free value (log 3) -/

def lo32 (w : Word) : Nat := w.toNat % 2 ^ 32

/-- Write an FP32 result and its flags. -/
def State.fpResult (s : State) (x : Iss) (r : Nat × Flags) : State :=
  let hi := (Config.fpHigh (BitVec.ofNat 64 x.w) [s.a x, s.b x, s.sval x x.rc]).toNat * 2 ^ 32
  (s.flagCmd x.p x.k x.cmd r.2).result x (BitVec.ofNat 64 (hi + r.1 % 2 ^ 32))

def execFadd (p i : Nat) (s : State) : Out :=
  instr p i 0 0x20 legalR
    (fun s x => s.fpResult x (fAdd .fp32 (s.amode x.p x.k) (lo32 (s.a x)) (lo32 (s.b x)))) s
def execFsub (p i : Nat) (s : State) : Out :=
  instr p i 0 0x21 legalR
    (fun s x => s.fpResult x (fSub .fp32 (s.amode x.p x.k) (lo32 (s.a x)) (lo32 (s.b x)))) s
def execFmul (p i : Nat) (s : State) : Out :=
  instr p i 0 0x22 legalR
    (fun s x => s.fpResult x (fMul .fp32 (s.amode x.p x.k) (lo32 (s.a x)) (lo32 (s.b x)))) s
def execFfma (p i : Nat) (s : State) : Out :=
  instr p i 0 0x23 legalR4
    (fun s x => s.fpResult x (fFma .fp32 (s.amode x.p x.k) (lo32 (s.a x)) (lo32 (s.b x)) (lo32 (s.sval x x.rc)))) s

/-- A scale exponent beyond which a result no longer changes. -/
def clampScale (e : Int) : Int := if 300 < e then 300 else if e < -300 then -300 else e

/-- FCVTIF: FP32 from a signed 64-bit integer, scaled by 2^imm32. -/
def execFcvtif (p i : Nat) (s : State) : Out :=
  instr p i 0 0x24 legalI
    (fun s x => s.fpResult x (Fmt.encode .fp32 (s.amode x.p x.k)
      ((FVal.ofInt (s.a x).toInt).scale (clampScale x.simm)))) s

/-- Signed 64-bit integer from an FP32 value (R41, R167). -/
def fpToInt64 (e : Int) (v : FVal) : Int × Flags :=
  match v with
  | .nan => (-(2 ^ 63), fINV)
  | .inf neg => (if neg then -(2 ^ 63 - 1) else 2 ^ 63 - 1, fSAT)
  | .zero _ => (0, 0)
  | .fin n d => satTo (-(2 ^ 63 - 1)) (2 ^ 63 - 1) (roundScaled n d (clampScale e))

def execFcvtfi (p i : Nat) (s : State) : Out :=
  instr p i 0 0x25 legalI
    (fun s x =>
      let r := fpToInt64 x.simm (Fmt.fval .fp32 (lo32 (s.a x)))
      (s.flagCmd x.p x.k x.cmd r.2).result x (BitVec.ofInt 64 r.1)) s

/-! ## Threads (R134, R136) -/

/-- Threads of the forking thread's group, lowest first: on a stake core and elsewhere alike, 0 to 11 or 12 to 15. -/
def groupOf (t : Nat) : List Nat := if t < 12 then List.range 12 else [12, 13, 14, 15]

/-- FORK pc, sd (R134); illegal inside an open region (R173). -/
def execFork (p i : Nat) (s : State) : Out :=
  instr p i 0 0x30
    (fun s x => legalI0 s x && ((s.core x.p).thread x.i).region.isNone)
    (fun s x =>
      let c := s.core x.p
      match (groupOf x.i).find? fun t => !(c.thread t).running with
      | none => s.result x (BitVec.ofInt 64 (-1))
      | some n =>
        let num := BitVec.ofNat 64 n
        let me := (c.thread x.i).setReg x.rd num
        let kid : Thread := { Thread.idle with
          running := true, pc := x.target, s := me.s, ctx := me.ctx, cmd := me.cmd, loads := (c.thread n).leftover }
        (s.setCore x.p ((c.setThread x.i me).setThread n kid)).advance x) s

/-- HALT (R134); illegal inside an open region (R173). -/
def execHalt (p i : Nat) (s : State) : Out :=
  instr p i 0 0x31
    (fun s x => legalNone s x && ((s.core x.p).thread x.i).region.isNone)
    (fun s x => (s.modThread x.p x.i fun t => { t with running := false }).endCheck x.p x.cmd) s

/-- Entries of a thread in queue q of its side that are not complete (R136). -/
def Core.ownEntries (c : Core) (t q : Nat) : Nat :=
  let x := c.side (threadSide t)
  match q with
  | 0 => (x.meQ.filter fun e => e.thread == t).length
  | 1 => (x.ce0.entries.filter fun e => e.thread == some t).length
  | _ => (x.ce1.entries.filter fun e => e.thread == some t).length

/-- WAITE q, n: holds the thread; WAITE_RETURN lets it go on (R136). -/
def execWaite (p i : Nat) (s : State) : Out :=
  instr p i 0 0x32
    (fun s x => legalI0 s x && decide (x.rd = 0) && decide (x.f 7 2 = 0) && decide (x.f 31 13 = 0)
      && decide (x.f 1 0 ≠ 3) && decide (x.f 12 8 ≤ 16))
    (fun s x => (s.modThread x.p x.i fun t => { t with wait := some ⟨x.f 1 0, x.f 12 8⟩ }).advance x) s

def execWaiteReturn (p t : Nat) (s : State) : Out :=
  let c := s.core p
  s.when (decide (p < 208) && decide (t < 16) && (c.thread t).running && (match (c.thread t).wait with
      | some w => decide (c.ownEntries t w.q ≤ w.n)
      | none => false))
    (s.modThread p t fun x => { x with wait := none })

/-! ## Regions and locks (R173 to R181) -/

/-- In a region wait, the closing of the side's last open region starts the ME drain (R175, R270). -/
def State.regionClosed (s : State) (p k : Nat) : State :=
  let c := s.core p
  let openLeft := c.threads.any fun x => threadSide x.1 == k && x.2.running && x.2.region.isSome
  if (c.side k).stop = .regionWait ∧ openLeft = false then
    (s.setCore p (c.setSide k { c.side k with stop := .drain })).setF (.coreCqPre p) CORE_CQ_PRE.PHASE 3
  else s

/-- NPB: open a region; illegal inside one. -/
def execNpb (p i : Nat) (s : State) : Out :=
  instr p i 0 0x33
    (fun s x => legalNone s x && ((s.core x.p).thread x.i).region.isNone)
    (fun s x => (s.modThread x.p x.i fun t => { t with region := some .npb, hold := 0 }).advance x) s

/-- NPE: close a region that NPB opened; illegal elsewhere. -/
def execNpe (p i : Nat) (s : State) : Out :=
  instr p i 0 0x34
    (fun s x => legalNone s x && decide (((s.core x.p).thread x.i).region = some .npb))
    (fun s x =>
      ((s.modThread x.p x.i fun t => { t with region := none, hold := 0 }).advance x).regionClosed x.p x.k) s

/-- A lock number is in the side's range (R177). -/
def State.lockOk (s : State) (x : Iss) : Bool :=
  let n := x.f 6 0
  decide (n < 64) && (s.isStake x.p || (if x.k = 0 then decide (n < 48) else decide (48 ≤ n)))

/-- Write a lock status to rd: a thread's register, or every active lane of a plait's (R178). -/
def State.lockStatus (s : State) (x : Iss) (v : Nat) : State :=
  if x.i < 16 then s.result x (BitVec.ofNat 64 v)
  else (s.modPlait x.p (x.i - 16) fun q =>
      { q with bank := q.bank.setReg x.rd (ofLanes fun l =>
          if q.active.getLsbD l then v % 2 ^ 32 else laneOf (q.bank.reg x.rd) l) }).advance x

/-- A plait's register number lies in its allocation (R143). -/
def State.plaitReg (s : State) (x : Iss) (r : Nat) : Bool :=
  x.isThread || decide (r < ((s.core x.p).plait (x.i - 16)).nreg)

/-- LKACQ rd, LOCK, NP, LEASE (R178). -/
def execLkacq (p i : Nat) (s : State) : Out :=
  instr p i 0 0x35
    (fun s x => x.vOk false && decide (x.f 48 32 = 0) && decide (x.f 31 16 = 0) && s.lockOk x && s.plaitReg x x.rd
      && (if x.f 7 7 = 0 then decide (x.f 15 8 ≠ 0)
          else decide (x.f 15 8 = 0) && x.isThread && ((s.core x.p).thread x.i).region.isNone))
    (fun s x =>
      let n := x.f 6 0
      let r := Reg.coreCqLock x.p n
      let st := s.getF r CORE_CQ_LOCK.STATE
      if st = 1 then s.lockStatus x 1
      else
        let last := s.getF r CORE_CQ_LOCK.LAST
        let s := (((s.setF r CORE_CQ_LOCK.STATE 1).setF r CORE_CQ_LOCK.NP (x.f 7 7)).setF r CORE_CQ_LOCK.OWNER
          x.ctx.code).setF r CORE_CQ_LOCK.LEASE (x.f 15 8)
        let s := if x.f 7 7 = 1 then s.modThread x.p x.i fun t => { t with region := some (.lock n), hold := 0 } else s
        s.lockStatus x (if st = 2 then 2 + 256 * last else 0)) s

/-- Close the region that the acquisition of lock n opened. -/
def Core.closeLockRegion (c : Core) (n : Nat) : Core :=
  let close (y : Nat × Thread) : Nat × Thread :=
    if y.2.region = some (.lock n) then (y.1, { y.2 with region := none, hold := 0 }) else y
  { c with threads := c.threads.map close }

/-- LKREL LOCK (R179); releasing the lock that opened a region closes the region (R173). -/
def execLkrel (p i : Nat) (s : State) : Out :=
  instr p i 0 0x36
    (fun s x => x.vOk false && decide (x.f 48 32 = 0) && decide (x.f 31 7 = 0) && s.lockOk x && s.plaitReg x x.rd)
    (fun s x =>
      let n := x.f 6 0
      let r := Reg.coreCqLock x.p n
      if s.getF r CORE_CQ_LOCK.STATE = 1 ∧ s.getF r CORE_CQ_LOCK.OWNER = x.ctx.code then
        let s := (((s.setF r CORE_CQ_LOCK.STATE 0).setF r CORE_CQ_LOCK.NP 0).setF r CORE_CQ_LOCK.OWNER 0).setF r
          CORE_CQ_LOCK.LEASE 0
        let s := s.modCore x.p fun c => c.closeLockRegion n
        ((s.lockStatus x 0).regionClosed x.p 0).regionClosed x.p 1
      else s.lockStatus x 1) s

/-- RDCTR: 0 GTC, 1 STEP, 2 logical core, 3 index in the core set, 4 thread number. -/
def execRdctr (p i : Nat) (s : State) : Out :=
  instr p i 0 0x37
    (fun s x => legalI0 s x && decide (x.f 2 0 ≤ 4) && decide (x.f 31 3 = 0))
    (fun s x =>
      let res := (s.core x.p).resident x.cmd
      s.result x (match x.f 2 0 with
        | 0 => BitVec.ofNat 64 s.gtc
        | 1 => (res.map (·.step)).getD 0
        | 2 => BitVec.ofNat 64 (s.lcoreNo x.p)
        | 3 => BitVec.ofNat 64 ((res.map (·.index)).getD 0)
        | _ => BitVec.ofNat 64 x.i)) s

/-! ## Faults of the instruction stream -/

/-- INSTRUCTION_FETCH_FAULT: the next fetch leaves the code region, is unaligned, or the region leaves the side's range (R160). -/
def execInstructionFetchFault (p i : Nat) (s : State) : Out :=
  match s.iss p i with
  | none => s.when false s
  | some x => s.when (!s.fetchOk x) (s.veFault p 1 x.ctx (issuerOf i))

/-- HOLD_TIMEOUT: the hold timer of a thread reaches CQ_NP_LIMIT with its region open (R174, R288). -/
def execHoldTimeout (p t : Nat) (s : State) : Out :=
  let th := (s.core p).thread t
  s.when (decide (p < 208) && decide (t < 16) && th.running && th.region.isSome && decide (2048 ≤ th.hold))
    (let k := threadSide t
     let s := if s.getF (.coreCqNp p) CORE_CQ_NP.FVALID = 1 then s
       else ((s.setF (.coreCqNp p) CORE_CQ_NP.FVALID 1).setF (.coreCqNp p) CORE_CQ_NP.FTHREAD t).setF (.coreCqNp p)
         CORE_CQ_NP.FCTX th.ctx.code
     let s := s.event (srcCore p) 2 0x01 (s.lcoreNo p) th.ctx.inst (4 + 16 * t + 4096 * th.ctx.code)
     (s.tearDown th.ctx 3 (s.lcoreNo p)).regionClosed p k)

end Sys2Proof.Machine
end

