-- ==== Sys2Proof/Machine/Sequencers.lean ====
section
/-!
DEFINITION. Stack sequencers and stack programs (R240 to R247), and the writing of journal records (R248, R249).
-/
namespace Sys2Proof.Machine

/-! ## Requests (R241, R246) -/

def pGATHER : Nat := 1
def pSCATTER : Nat := 2
def pKVWALK : Nat := 3
def pSCATADD : Nat := 4
def pHARQ : Nat := 5

/-- A request record (R241), and whether some reserved bit is not 0. -/
def SeqReq.ofBytes (bs : List Byte) (id : Nat) (ctx : Ctx) (slot side : Nat) : SeqReq × Nat × Bool :=
  let w := leNat bs
  let f (byte hi lo : Nat) : Nat := bitsOf (w / 2 ^ (8 * byte)) hi lo
  let cg := f 2 7 0
  ({ id := id, ctx := if ctx.inst = 0 then .cg cg else ctx, slot := slot, side := side, prog := f 0 7 0,
     notify := decide (f 1 0 0 = 1), ord := decide (f 1 1 1 = 1), new := decide (f 1 2 2 = 1), fp := decide (f 1 3 3 = 1),
     n := f 4 31 0, a0 := f 8 63 0, a1 := f 16 63 0, a2 := f 24 63 0, l0 := f 32 31 0, l1 := f 36 31 0, l2 := f 40 31 0,
     l3 := f 44 31 0, l4 := f 48 31 0, dsp := f 52 7 0, naddr := f 56 31 0, nval := f 60 31 0, running := false,
     applied := false, row := 0, out := [] },
    cg, decide (f 1 7 4 ≠ 0) || decide (f 3 7 0 ≠ 0) || decide (f 53 23 0 ≠ 0))

/-- A field breaks its range (R241, R242): counts, row lengths, reserved bits, operands that the program does not use, a notify
word that is not a multiple of 4. -/
def SeqReq.badRange (r : SeqReq) (dirty : Bool) : Bool :=
  let rows := r.prog ≠ pHARQ
  dirty || decide (r.n = 0) || decide (2 ^ 20 < r.n) || decide (1 < r.dsp) || decide (r.naddr % 4 ≠ 0)
    || (if rows then decide (r.l0 = 0) || decide (65536 < r.l0) else decide (r.l0 ≠ 0))
    || (r.new && decide (r.prog ≠ pHARQ)) || (r.fp && decide (r.prog ≠ pSCATADD))
    || (decide (r.l1 ≠ 0) && decide (r.prog = pSCATADD)) || (decide (r.l2 ≠ 0) && decide (r.prog = pHARQ))
    || (decide (r.l3 ≠ 0) && decide (r.prog ≠ pKVWALK) && decide (r.prog ≠ pHARQ))
    || (decide (r.l4 ≠ 0) && decide (r.prog ≠ pKVWALK))
    || (decide (r.prog = pKVWALK) && decide (r.l3 = 0)) || (decide (r.prog = pHARQ) && decide (r.l1 = 0))
    || (decide (r.prog = pSCATADD) && decide (r.l0 % 4 ≠ 0))

/-- Cause of SEQ_FAULT for a request that the base die refuses, none when it may run (R246, R495). -/
def State.seqRefusal (s : State) (r : SeqReq) (cg : Nat) (dirty : Bool) : Option Nat :=
  if r.prog = 0 ∨ 6 < r.prog then some 1
  else if r.prog = 6 ∨ (r.prog = pHARQ ∧ r.ctx.inst ≠ 0) then some 2
  else if r.badRange dirty || (decide (r.ctx.inst ≠ 0) && decide (cg ≠ 0)) then some 3
  else if r.ctx.inst = 0 ∧ s.cgExists cg = false then some 4
  else none

/-- The base die's fault record and the tear-down of the submitting context (R246). cls is IW_FAULT.CLASS. -/
def State.seqFault (s : State) (m prog cause : Nat) (ctx : Ctx) (cls slot : Nat) : State :=
  (s.event (srcStack m) 2 0x15 (s.lcoreNo slot) ctx.inst (prog + 256 * cause)).tearDown ctx cls (s.lcoreNo slot)

/-- SEQUENCER_REQUEST: the write transaction id of queue e, side k, slot p to a sequencer port, which has entered every point of its route
(R212), is taken by the base die, or waits while its queue of 256 is full (R240, R241). -/
def execSequencerRequest (p k e id : Nat) (s : State) : Out :=
  match (s.ceQueue p k e).entries.find? fun y => y.inflight.any fun t => t.id == id with
  | none => s.when false s
  | some y =>
    match y.inflight.find? fun t => t.id == id with
    | none => s.when false s
    | some t =>
      match t.place with
      | .seq m _ =>
        let q := s.seqQueue m
        let d := SeqReq.ofBytes t.data (s.stackSet.nextReq + 1) y.ctx p k
        let s1 := (s.endTxn p k e y t).writeDone p k e y.id t
        let s2 := { s1 with stackSet := { s1.stackSet with nextReq := s.stackSet.nextReq + 1 } }
        s.when (decide (p < 208) && decide (k < 2) && decide (e < 2) && t.write && t.path.isEmpty)
          (if 256 ≤ q.length + (s.journalReqs m).length then s
           else match s.seqRefusal d.1 d.2.1 d.2.2 with
             | some c => s2.seqFault m d.1.prog c y.ctx 5 p
             | none => s2.setSeqQueue m (q ++ [d.1]))
      | _ => s.when false s

/-! ## Running a program -/

/-- A run of a program: the state, the table words and the data bytes that the companion returns for its accesses, what stopped
it (a SEQ_FAULT cause with the translation fault behind it), and whether returned data ran out. -/
structure SeqRun where
  s : State
  words : List Nat
  data : List Nat
  stop : Option (Nat × Nat × Nat × Nat × Bool)
  short : Bool

/-- Count the flits of an access toward the instance (R244). -/
def SeqRun.count (r : SeqRun) (n len : Nat) : SeqRun :=
  { r with s := r.s.charge n fun a => { a with bytes := a.bytes + 64 * ((len + 63) / 64) } }

/-- Read bytes of instance memory that lie in one granule. -/
def SeqRun.readPart (r : SeqRun) (n va len : Nat) : List Byte × SeqRun :=
  if r.stop.isSome || r.short then ([], r)
  else match r.s.xlate n va len false r.words with
    | (.fault c l a, s) => ([], { r with s := s, stop := some (5, c, l, a, false) })
    | (.ok (.stack a), s) =>
      (match s.stackRead n a len with
        | (some bs, s) => (bs, { r with s := s }.count n len)
        | (none, s) => ([], { r with s := s, stop := some (6, 0, 0, 0, false) }))
    | (.held, _) => ([], { r with short := true })
    | (.ok (.comp a), s) =>
      if r.data.length < len ∨ s.cclPort a = 2 then ([], { r with short := true })
      else (((r.data.take len).map (BitVec.ofNat 8)), { r with s := s.rdcNow a len, data := r.data.drop len }.count n len)
    | (.ok _, s) => ([], { r with s := s, stop := some (5, 4, 0, va, false) })

/-- Read bytes of instance memory, granule by granule. -/
def SeqRun.read (r : SeqRun) (n va len : Nat) : List Byte × SeqRun :=
  (granules va (len / 4096 + 2) 0 len).foldl (fun x g =>
    let y := x.2.readPart n ((va + g.1) % 2 ^ 64) g.2
    (x.1 ++ y.1, y.2)) ([], r)

/-- Write bytes of instance memory that lie in one line, as part of a transaction in which they add the given flits (R244). Both copies of a
mirrored instance count (R228). -/
def SeqRun.writePart (r : SeqRun) (n va : Nat) (bs : List Byte) (flits : Nat) : SeqRun :=
  match r.s.xlate n va bs.length true r.words with
  | (.fault c l a, s) => { r with s := s, stop := some (5, c, l, a, true) }
  | (.held, _) => { r with short := true }
  | (.ok (.stack a), s) =>
    (match s.stackWrite n a bs with
      | some s => { r with s := s }.count n (64 * if (s.inst n).mirror then 2 * flits else flits)
      | none => { r with s := s, stop := some (6, 0, 0, 0, true) })
  | (.ok (.comp a), s) => { r with s := s.compWrite n 0 a bs }.count n (64 * flits)
  | (.ok _, s) => { r with s := s, stop := some (5, 4, 0, va, true) }

/-- Write into the submitting core's scratchpad within its side's range, as a peer write (R84, R160, R184, R186, R244). -/
def SeqRun.writeSp (r : SeqRun) (q : SeqReq) (a : Nat) (bs : List Byte) (flits : Nat) : SeqRun :=
  match r.s.writeFault q.slot q.side [(a, bs.length)] with
  | none => { r with s := r.s.spStore q.slot a bs }.count q.ctx.inst (64 * flits)
  | some 2 => { r with s := r.s.partUncorrectable q.slot a bs.length, stop := some (6, 0, 0, 0, true) }
  | some 4 => { r with s := r.s.weightWritten q.slot q.side q.ctx [(a, bs.length)], stop := some (3, 0, 0, 0, true) }
  | some _ => { r with stop := some (3, 0, 0, 0, true) }

/-- Make the next write of a request. -/
def SeqRun.write (r : SeqRun) (q : SeqReq) (w : SeqWrite) : SeqRun :=
  if r.stop.isSome || r.short then r
  else if w.sp then r.writeSp q w.addr w.bytes w.flits else r.writePart q.ctx.inst w.addr w.bytes w.flits

/-- The writes of bytes at va, one for each line that they touch; done bytes of the present transaction, which ends at a granule, have gone
before (R201). -/
def lineWrites (sp : Bool) : Nat → Nat → Nat → List Byte → List SeqWrite
  | 0, _, _, _ => []
  | fuel + 1, va, done, bs =>
    if bs.isEmpty then []
    else
      let n := min bs.length (64 - va % 64)
      ⟨sp, va, bs.take n, (done + n + 63) / 64 - (done + 63) / 64⟩
        :: lineWrites sp fuel ((va + n) % 2 ^ 64) (if (va + n) % 4096 = 0 then 0 else done + n) (bs.drop n)

/-- The writes of a request's bytes to its destination space (R241, R242). -/
def SeqReq.writes (q : SeqReq) (va : Nat) (bs : List Byte) : List SeqWrite := lineWrites (decide (q.dsp = 0)) bs.length va 0 bs

/-- Read from the destination of a request; its flits count (R244). -/
def SeqRun.readDst (r : SeqRun) (q : SeqReq) (va len : Nat) : List Byte × SeqRun :=
  if q.dsp = 0 then
    if r.stop.isSome || r.short then ([], r)
    else if !r.s.inRange q.slot q.side va len then ([], { r with stop := some (3, 0, 0, 0, false) })
    else if (r.s.core q.slot).spBad va len then
      ([], { r with s := r.s.spUncorrectable q.slot va len, stop := some (6, 0, 0, 0, false) })
    else
      let s := r.s.spCorrect q.slot va len
      ((s.core q.slot).sp.read va len, { r with s := s }.count q.ctx.inst len)
  else r.read q.ctx.inst va len

/-- Index or block-table entry j of the table at va: a 32-bit word (R242). -/
def SeqRun.index (r : SeqRun) (n va j : Nat) : Nat × SeqRun :=
  let x := r.read n ((va + 4 * j) % 2 ^ 64) 4
  (leNat x.1, x.2)

/-- Element-wise sum of SCATADD: INT32 saturating, or FP32 rounded (R48, R114, R242). -/
def scatSum (fp : Bool) (old new : List Byte) : List Byte :=
  (List.range (old.length / 4)).flatMap fun i =>
    let a := leNat ((old.drop (4 * i)).take 4); let b := leNat ((new.drop (4 * i)).take 4)
    leBytes 4 (if fp then (fAdd .fp32 ⟨false, false, false⟩ a b).1 else unsignedOf 32 (satSym 32 (signed 32 a + signed 32 b)).1)

/-- The reads of row i of the four row programs: the address and the bytes of its write. -/
def SeqRun.row (q : SeqReq) (r : SeqRun) (i : Nat) : (Nat × List Byte) × SeqRun :=
  let n := q.ctx.inst
  let at64 (a : Nat) : Nat := a % 2 ^ 64
  if q.prog = pGATHER then
    let x := r.index n q.a1 i
    let y := x.2.read n (at64 (q.a0 + x.1 * q.l1)) q.l0
    ((at64 (q.a2 + i * q.l2), y.1), y.2)
  else if q.prog = pSCATTER then
    let y := r.read n (at64 (q.a0 + i * q.l1)) q.l0
    let x := y.2.index n q.a1 i
    ((at64 (q.a2 + x.1 * q.l2), y.1), x.2)
  else if q.prog = pKVWALK then
    let x := r.index n q.a0 (i / q.l3)
    let y := x.2.read n (at64 (q.a1 + x.1 * q.l1 + i % q.l3 * q.l4)) q.l0
    ((at64 (q.a2 + i * q.l2), y.1), y.2)
  else
    let y := r.read n (at64 (q.a0 + i * q.l0)) q.l0
    let x := y.2.index n q.a1 i
    let d := at64 (q.a2 + x.1 * q.l2)
    let z := x.2.readDst q d q.l0
    ((d, scatSum q.fp z.1 y.1), z.2)

/-- The saturating sum of two INT8 soft values (R242). -/
def softSum (a b : Byte) : Byte := BitVec.ofInt 8 (satTo (-127) 127 (a.toInt + b.toInt)).1

/-- A soft buffer of context g is touched: it is no longer marked invalid, and counts as touched for two slots of the group's finest numerology
(R435; DEDUCED, log 77). -/
def State.harqTouch (s : State) (g a : Nat) : State :=
  let c := s.rctx g
  let age := 2 * s.slotBeats (s.finest g) * s.beat.length
  s.setRctx g { c with
    harqBad := c.harqBad.filter fun b => b != a
    harqTouched := (c.harqTouched.filter fun x => x.1 != a && decide (s.gtc ≤ x.2 + age)) ++ [(a, s.gtc)] }

/-- HARQ (R242): N new values are combined into the circular soft buffer of L1 bytes from position L3; the buffer goes back to A0, and to A2
where A2 is not 0. A buffer that is marked invalid is combined as with NEW = 1 (R423, R435). -/
def SeqRun.harq (q : SeqReq) (r : SeqRun) : List SeqWrite × SeqRun :=
  let n := q.ctx.inst
  let c := r.s.rctx q.ctx.group
  let new := q.new || c.harqBad.contains q.a0
  let r := { r with s := r.s.harqTouch q.ctx.group q.a0 }
  let b := if new then (List.replicate q.l1 (0 : Byte), r) else r.read n q.a0 q.l1
  let x := b.2.read n q.a1 q.n
  let sum := (x.1.zipIdx).foldl (fun (buf : List Byte) y =>
    let j := (q.l3 + y.2) % q.l1
    buf.set j (softSum ((buf[j]?).getD 0) y.1)) b.1
  (lineWrites false q.l1 q.a0 0 sum ++ (if q.a2 = 0 then [] else q.writes q.a2 sum), x.2)

/-- Rows of a request; HARQ is one. -/
def SeqReq.rows (q : SeqReq) : Nat := if q.prog = pHARQ then 1 else q.n

/-- One unit of a running request: its next write, else the reads of its next row (R243, R247). -/
def SeqRun.unit (x : SeqReq × SeqRun) : SeqReq × SeqRun :=
  let q := x.1; let r := x.2
  match q.out with
  | w :: rest => ({ q with out := rest }, r.write q w)
  | [] =>
    if q.rows ≤ q.row then x
    else
      let y := if q.prog = pHARQ then r.harq q else
        let z := r.row q q.row
        (q.writes z.1.1 z.1.2, z.2)
      ({ q with row := q.row + 1, out := y.1 }, y.2)

/-- Units of a request, until it stops. -/
def SeqRun.units : Nat → SeqReq × SeqRun → SeqReq × SeqRun
  | 0, x => x
  | n + 1, x => if x.2.stop.isSome || x.2.short then x else SeqRun.units n (SeqRun.unit x)

/-- Base die m is being loaded: its requests are held (R517). -/
def State.baseLoading (s : State) (m : Nat) : Bool :=
  match s.boot.act with | some a => a.step == 1 && a.inst == m | none => false

/-- Requests of a base die that may start, in the order of R240: the oldest of rank 0, JOURNAL writes included, else the oldest of the next
tenant in round-robin order; an ORD request waits for the earlier ones of its context. -/
def State.nextSeq (s : State) (m : Nat) : Option SeqReq :=
  let q := s.seqQueue m
  if 16 ≤ s.seqBusy m ∨ s.baseLoading m = true then none
  else
    let free (r : SeqReq) : Bool := !r.running && (!r.ord || (q.takeWhile fun z => z.id != r.id).all fun z => z.ctx != r.ctx)
    let waits := (s.journalReqs m).filter fun r => !r.written
    match q.find? fun r => free r && decide (r.ctx.inst = 0) with
    | some r => if waits.any fun j => decide (j.req < r.id) then none else some r
    | none =>
      let last := SMap.get 0 s.stackSet.last m
      if !waits.isEmpty then none
      else ((List.range 64).map fun i => (last + i) % 64 + 1).findSome? fun n => q.find? fun r => free r && decide (r.ctx.inst = n)

/-- Outcome of some units of a run: its fault, or its progress (R246). -/
def State.seqDone (m : Nat) (q : SeqReq) (r : SeqRun) : State :=
  let s := r.s
  match r.stop with
  | none =>
    let q := { q with running := true, applied := q.out.isEmpty && decide (q.rows ≤ q.row) }
    s.setSeqQueue m ((s.seqQueue m).map fun z => if z.id = q.id then q else z)
  | some (c, tc, tl, ta, w) =>
    let s := s.setSeqQueue m ((s.seqQueue m).filter fun z => z.id != q.id)
    if c = 5 then
      (s.event (srcStack m) 2 0x15 (s.lcoreNo q.slot) q.ctx.inst (q.prog + 256 * 5)).transFault q.ctx tc tl ta w 1
        (s.lcoreNo q.slot)
    else s.seqFault m q.prog c q.ctx (if c = 6 then 4 else 5) q.slot

/-- The request that a command moves on: number id, if it runs, else the one that a free sequencer takes next, if it has that number. -/
def State.seqTaken (s : State) (m id : Nat) : Option SeqReq :=
  match (s.seqQueue m).find? fun z => z.id == id && z.running && !z.applied with
  | some q => some q
  | none => (s.nextSeq m).filter fun q => q.id == id

/-- A sequencer of stack m takes request id, which must be for this program, or moves it on, by n units: each the reads of a row or the write
of a line (R240, R242, R243, R247). words and data: what the companion returns for its accesses to companion memory, while a CCL port is up. -/
def seqProgram (prog m id n : Nat) (words data : List Nat) (s : State) : Out :=
  match s.seqTaken m id with
  | none => s.when false s
  | some q =>
    let last := if q.running ∨ q.ctx.inst = 0 then s.stackSet.last else SMap.put 0 s.stackSet.last m q.ctx.inst
    let s1 := { s with stackSet := { s.stackSet with last := last } }
    let x := SeqRun.units n (q, ⟨s1, words, data, none, false⟩)
    s.when (decide (m < 12) && decide (q.prog = prog) && !x.2.short && (data.isEmpty && words.isEmpty || s.cclPort 0 != 2)
      && decide (s.getF (.msStatus m) MS_STATUS.STATE ≠ 2)) (State.seqDone m x.1 x.2)

def execGatherProgram (x : SeqTurn) (words data : List Nat) (s : State) : Out := seqProgram pGATHER x.stack x.id x.units words data s
def execScatter (x : SeqTurn) (words data : List Nat) (s : State) : Out := seqProgram pSCATTER x.stack x.id x.units words data s
def execKvwalk (x : SeqTurn) (words data : List Nat) (s : State) : Out := seqProgram pKVWALK x.stack x.id x.units words data s
def execScatadd (x : SeqTurn) (words data : List Nat) (s : State) : Out := seqProgram pSCATADD x.stack x.id x.units words data s
def execHarq (x : SeqTurn) (words data : List Nat) (s : State) : Out := seqProgram pHARQ x.stack x.id x.units words data s

/-- STACK_PROGRAM_COMPLETE: request id of stack m completes; with NOTIFY the base die adds NVAL to the word at NADDR of the
submitting core, wrapping (R245). -/
def execStackProgramComplete (m id : Nat) (s : State) : Out :=
  match (s.seqQueue m).find? fun z => z.id == id && z.applied with
  | none => s.when false s
  | some q =>
    let s1 := s.setSeqQueue m ((s.seqQueue m).filter fun z => z.id != id)
    let add (s : State) : State :=
      if !q.notify then s
      else match s.writeFault q.slot q.side [(q.naddr, 4)] with
        | none => s.spStore q.slot q.naddr (leBytes 4 ((s.core q.slot).sp.readLE q.naddr 4 + q.nval))
        | some 2 => (s.partUncorrectable q.slot q.naddr 4).seqFault m q.prog 6 q.ctx 4 q.slot
        | some 4 => (s.weightWritten q.slot q.side q.ctx [(q.naddr, 4)]).seqFault m q.prog 3 q.ctx 5 q.slot
        | some _ => s.seqFault m q.prog 3 q.ctx 5 q.slot
    s.when (decide (m < 12)) (add s1)

/-! ## The journal (R248, R249) -/

def JKind.code : JKind → Nat
  | .accept => 1
  | .reject => 2
  | .commit => 3

/-- The 256 bytes of a record (R248). -/
def JRec.bytes (r : JRec) : List Byte :=
  leBytes 8 r.seq ++ [BitVec.ofNat 8 r.kind.code, BitVec.ofNat 8 r.cause, BitVec.ofNat 8 r.inst, BitVec.ofNat 8 r.ring]
    ++ leBytes 4 0 ++ leBytes 8 r.ridx ++ leBytes 8 r.gtc ++ leBytes 8 r.step ++ leBytes 8 0
    ++ leBytes 8 (crc64 (r.body ++ List.replicate (128 - r.body.length) 0)) ++ leBytes 8 0
    ++ r.body ++ List.replicate (128 - r.body.length) 0 ++ leBytes 64 0

/-- JOURNAL_WRITE: a free sequencer of the primary stack takes the oldest JOURNAL request, which no older request of rank 0 that could start
precedes (R240), writes the record to its frame and forwards it to the mirror (R249), once its slot is free (R250). -/
def execJournalWrite (s : State) : Out :=
  let j := s.stackSet.journal
  match j.recs.find? fun r => !r.written with
  | none => s.when false s
  | some r =>
    let r' := { r with gtc := s.gtc, written := true }
    let put (s : State) (f : Option Frame) : State := match f with
      | some f => s.paWrite (slotPa f r.seq) r'.bytes
      | none => s
    let first := match s.nextSeq s.journalStack with | some q => q.ctx.inst != 0 | none => true
    s.when (!j.lost && j.primary.isSome && first && !s.baseLoading s.journalStack && decide (s.seqBusy s.journalStack < 16)
        && (j.recs.head?.all fun o => decide (r.seq < o.seq + 4194304)))
      (((put (put s j.primary) j.mirror)).setJournal { j with recs := j.recs.map fun q => if q.seq = r.seq then r' else q }).journalBusy

end Sys2Proof.Machine
end

