-- ==== Sys2Proof/Machine/VecArith.lean ====
section
/-!
DEFINITION. Vector instructions on registers (R113 to R116, R127 to R132, R170).
-/
namespace Sys2Proof.Machine

def execVadd (p i : Nat) (s : State) : Out := vinstr p i 0x01 useDAB vAdd s
def execVsub (p i : Nat) (s : State) : Out := vinstr p i 0x02 useDAB vSub s
def execVshl (p i : Nat) (s : State) : Out := vinstr p i 0x03 useDAB vShl s
def execVadds (p i : Nat) (s : State) : Out := vinstr p i 0x04 useDABF (vArith .add) s
def execVsubs (p i : Nat) (s : State) : Out := vinstr p i 0x05 useDABF (vArith .sub) s
def execVmul (p i : Nat) (s : State) : Out := vinstr p i 0x06 useDABF (vArith .mul) s
def execVfma (p i : Nat) (s : State) : Out := vinstr p i 0x07 useVfma vFma s
def execVdot (p i : Nat) (s : State) : Out := vinstr p i 0x08 useVdot vDot s
def execVsra (p i : Nat) (s : State) : Out := vinstr p i 0x09 useDAB vSra s
def execVand (p i : Nat) (s : State) : Out := vinstr p i 0x0A useDABF vAnd s
def execVor (p i : Nat) (s : State) : Out := vinstr p i 0x0B useDABF vOr s
def execVxor (p i : Nat) (s : State) : Out := vinstr p i 0x0C useDABF vXor s
def execVmin (p i : Nat) (s : State) : Out := vinstr p i 0x0D useDABF (vArith .min) s
def execVmax (p i : Nat) (s : State) : Out := vinstr p i 0x0E useDABF (vArith .max) s

/-- VCMP in either of its two ways (R568). -/
def vcmpLegal (s : State) (x : Iss) : Bool := useVcmp.legal s x || useVcmpWhole.legal s x
def execVcmp (p i : Nat) (s : State) : Out :=
  instr p i 2 0x0F vcmpLegal (fun s x => s.vout x (vCmp (s.vin x))) s
def execVsel (p i : Nat) (s : State) : Out := vinstr p i 0x10 useVsel vSel s
def execVcvt (p i : Nat) (s : State) : Out := vinstr p i 0x11 useVcvt vCvt s
def execVcmac (p i : Nat) (s : State) : Out := vinstr p i 0x12 useVcmac vCmac s
def execVbf4 (p i : Nat) (s : State) : Out := vinstr p i 0x13 useVbf4 vBf4 s
def execVbex (p i : Nat) (s : State) : Out := vinstr p i 0x14 useVbex vBex s
def execVmova (p i : Nat) (s : State) : Out := vinstr p i 0x15 useVmova vMova s
def execVperm4 (p i : Nat) (s : State) : Out := vinstr p i 0x16 useDAB vPerm4 s
def execVred (p i : Nat) (s : State) : Out := vinstr p i 0x17 useRed vRed s
def execVscan (p i : Nat) (s : State) : Out := vinstr p i 0x18 useRed vScan s
def execVrcp (p i : Nat) (s : State) : Out := vinstr p i 0x19 useDA vRcp s
def execVrsq (p i : Nat) (s : State) : Out := vinstr p i 0x1A useDA vRsq s
def execVexp2 (p i : Nat) (s : State) : Out := vinstr p i 0x1B useDA vExp2 s
def execVlog2 (p i : Nat) (s : State) : Out := vinstr p i 0x1C useDA vLog2 s
def execVcni (p i : Nat) (s : State) : Out := vinstr p i 0x1D useVcni vCni s
def execVcnu (p i : Nat) (s : State) : Out := vinstr p i 0x1E useVcnu vCnu s
def execVcno (p i : Nat) (s : State) : Out := vinstr p i 0x1F useVcno vCno s
def execVsid (p i : Nat) (s : State) : Out := vinstr p i 0x27 useVsid vSid s
def execVbcst (p i : Nat) (s : State) : Out := vinstr p i 0x28 useVbcst vBcst s

end Sys2Proof.Machine
end

