-- ==== Sys2Proof/Machine/VecMem.lean ====
section
/-!
DEFINITION. Vector loads, stores, gathers, scatters and atomics (R123 to R125, R170, R570).
-/
namespace Sys2Proof.Machine

/-- Active lanes in ascending order. -/
def lanesOn (on : BitVec 64) : List Nat := (List.range 64).filter fun l => on.getLsbD l

/-- Where a lane's element lies: byte address and bit in it for a plain format; record address and element for BFP. -/
structure Elt where
  addr : Nat
  sub : Nat

/-- Bytes that an element's access touches. -/
def Elt.span (f : Fmt) (e : Elt) : Nat × Nat :=
  if f.isBfp then (e.addr, f.recordBytes) else (e.addr, (f.bits + 7) / 8)

/-- Element j of an array of format f at byte address base (R39, R42, R570); addresses wrap modulo 2^64. -/
def eltAt (f : Fmt) (base : Nat) (j : Int) : Elt :=
  if f.isBfp then
    ⟨unsignedOf 64 ((base : Int) + j / 32 * f.recordBytes), (j % 32).toNat⟩
  else
    let b := j * f.bits
    ⟨unsignedOf 64 ((base : Int) + b / 8), (b % 8).toNat⟩

/-- Lane address of VGTH and VSCT (R570). -/
def eltOfLane (f : Fmt) (n : Nat) : Elt :=
  let a := n % 2 ^ 24
  if f.isBfp then ⟨a, n / 2 ^ 24 % 32⟩
  else if f = .int2 then ⟨a, 2 * (n / 2 ^ 24 % 4)⟩
  else if f = .int4 then ⟨a, 4 * (n / 2 ^ 24 % 2)⟩
  else ⟨a, 0⟩

/-- FP32 of a widened value; an infinity stays one (R570: every widening is exact). -/
def widenFp (x : FVal) : Nat × Flags :=
  match x with
  | .inf s => (signBit (Fmt.layout .fp32) s + (Fmt.layout .fp32).infCode, 0)
  | y => Fmt.encode .fp32 ⟨false, false, false⟩ y

/-- Widened lane value of an element (R570); an element of a block with E = 255 is a poisoned output (R54). -/
def widen (f : Fmt) (sp : Memory) (e : Elt) : Nat × Flags :=
  if f.isBfp then
    let ex := (sp.byte e.addr).toNat
    let q := recordMantissa f.bits e.sub (sp.readLE (e.addr + 1) (f.recordBytes - 1))
    let r := widenFp (bfpVal f.bits ex q)
    (r.1, if ex = 255 then r.2 ||| fPOISON else r.2)
  else
    let raw := sp.readLE e.addr ((f.bits + 7) / 8) / 2 ^ e.sub % 2 ^ f.bits
    if f.isFloat then widenFp (f.fval raw)
    else if f = .ci8 then (unsignedOf 16 (signed 8 raw) + 2 ^ 16 * unsignedOf 16 (signed 8 (raw / 256)), 0)
    else if f = .ci16 then (raw, 0)
    else (unsignedOf 32 (f.intVal raw), 0)

/-- Value of a lane that a store narrows (R570). -/
def laneElem (f : Fmt) (lane : Nat) : Elem :=
  if f.isComplex then Fmt.elem .ci16 lane
  else if f.isFloat || f.isBfp then .flt (Fmt.fval .fp32 lane)
  else .int (signed 32 lane)

/-- Store one element: a sub-byte element changes its own bits only (R570). -/
def storeElem (f : Fmt) (c : Core) (e : Elt) (v : Nat) : Core :=
  if f.bits < 8 then
    let old := (c.sp.byte e.addr).toNat
    let m := 2 ^ f.bits
    let new := old - old / 2 ^ e.sub % m * 2 ^ e.sub + v % m * 2 ^ e.sub
    c.spWrite e.addr [BitVec.ofNat 8 new]
  else c.spWrite e.addr (leBytes (f.bits / 8) v)

/-- A vector load: data captured at issue, returned later (R121); the flags of its conversions. -/
def State.vload (s : State) (x : Iss) (spans : List (Nat × Nat)) (val : Nat → Nat × Flags) : State :=
  match s.readFault x.p x.k spans with
  | some c => s.accessFault x c spans
  | none =>
    let on := s.onLanes x
    let data := packNat 32 ((List.range 64).map fun l => if on.getLsbD l then (val l).1 else 0)
    ((((s.correctSpans x.p spans).flagCmd x.p x.k x.cmd (laneFlags on fun l => (val l).2)).addLoad x
      ⟨.vector x.v.d, data, on⟩)).advance x

/-- Address of VLD and VST: SS + 64 × IMM, signed; lane l at 4 l from it. -/
def State.vAddr (s : State) (x : Iss) (l : Nat) : Nat :=
  unsignedOf 64 ((s.sval x x.v.ss).toNat + 64 * signed 13 x.v.imm + 4 * l)

def execVld (p i : Nat) (s : State) : Out :=
  instr p i 2 0x20 useVld.legal
    (fun s x =>
      let sp := (s.core x.p).sp
      s.vload x ((lanesOn (s.onLanes x)).map fun l => (s.vAddr x l, 4)) fun l => (sp.readLE (s.vAddr x l) 4, 0)) s

/-- A vector store of prepared pieces, in ascending lane order (R124). -/
def State.vstore (s : State) (x : Iss) (spans : List (Nat × Nat)) (fl : Flags) (w : Core → Core) : State :=
  match s.writeFault x.p x.k spans with
  | some c => s.accessFault x c spans
  | none => ((s.modCore x.p w).flagCmd x.p x.k x.cmd fl).advance x

def execVst (p i : Nat) (s : State) : Out :=
  instr p i 2 0x21 useVld.legal
    (fun s x =>
      let r := (s.bank x).reg x.v.d
      let ls := lanesOn (s.onLanes x)
      s.vstore x (ls.map fun l => (s.vAddr x l, 4)) 0
        fun c => ls.foldl (fun c l => c.spWrite (s.vAddr x l) (leBytes 4 (laneOf r l))) c) s

/-- Element of lane l of VLDS and VSTS: stride in elements in SR (R570). -/
def State.stridedElt (s : State) (x : Iss) (f : Fmt) (l : Nat) : Elt :=
  let t : Int := if x.i < 16 then (s.sval x x.v.sr).toInt else signed 32 (s.sval x x.v.sr).toNat
  eltAt f (s.sval x x.v.ss).toNat (l * t)

def State.vfmt (_ : State) (x : Iss) : Fmt := (Fmt.ofCode x.v.fmt).getD .int8

def execVlds (p i : Nat) (s : State) : Out :=
  instr p i 2 0x22 useVlds.legal
    (fun s x =>
      let f := s.vfmt x
      let sp := (s.core x.p).sp
      s.vload x ((lanesOn (s.onLanes x)).map fun l => (s.stridedElt x f l).span f) fun l => widen f sp (s.stridedElt x f l)) s

def execVgth (p i : Nat) (s : State) : Out :=
  instr p i 2 0x24 useVgth.legal
    (fun s x =>
      let f := s.vfmt x
      let sp := (s.core x.p).sp
      let a := (s.bank x).reg x.v.a
      s.vload x ((lanesOn (s.onLanes x)).map fun l => (eltOfLane f (laneOf a l)).span f)
        fun l => widen f sp (eltOfLane f (laneOf a l))) s

/-- Narrowed elements of a store by lane, with their flags (R68 with a shift of 0). -/
def narrow (am : AMode) (f : Fmt) (r : BitVec 2048) (l : Nat) : Nat × Flags := convert am f 0 (laneElem f (laneOf r l))

def State.storeElts (s : State) (x : Iss) (f : Fmt) (elt : Nat → Elt) : State :=
  let r := (s.bank x).reg x.v.d
  let ls := lanesOn (s.onLanes x)
  let am := s.amode x.p x.k
  s.vstore x (ls.map fun l => (elt l).span f) (laneFlags (s.onLanes x) fun l => (narrow am f r l).2)
    fun c => ls.foldl (fun c l => storeElem f c (elt l) (narrow am f r l).1) c

/-- BFP store of VSTS: lanes 0 to 31 and 32 to 63 are two blocks, inactive lanes as zero; a block with no active lane is not
written (R570). A NaN or infinity gives E = 255 and INV (R45, R68); ovf sets OVF. -/
def State.storeBfp (s : State) (x : Iss) (f : Fmt) : State :=
  let r := (s.bank x).reg x.v.d
  let on := s.onLanes x
  let base := (s.sval x x.v.ss).toNat
  let vals (h : Nat) : List FVal := (List.range 32).map fun j =>
    if on.getLsbD (32 * h + j) then Fmt.fval .fp32 (laneOf r (32 * h + j)) else .zero false
  let blk (h : Nat) : Block × Flags :=
    if anyNonFinite (vals h) then (⟨255, (vals h).map fun _ => 0, false⟩, fINV ||| fPOISON)
    else let b := bfpQuantise f.bits (vals h); (b, if b.ovf then fOVF else 0)
  let hs := [0, 1].filter fun h => (List.range 32).any fun j => on.getLsbD (32 * h + j)
  let addr (h : Nat) : Nat := unsignedOf 64 ((base + h * f.recordBytes : Nat) : Int)
  s.vstore x (hs.map fun h => (addr h, f.recordBytes)) (hs.foldl (fun a h => a ||| (blk h).2) 0)
    fun c => hs.foldl (fun c h => c.spWrite (addr h)
      (BitVec.ofNat 8 (blk h).1.e :: leBytes (f.recordBytes - 1) (packMantissas f.bits (blk h).1.q))) c

/-- VSTS; a BFP store must have a stride of 1 (R570). -/
def execVsts (p i : Nat) (s : State) : Out :=
  instr p i 2 0x23
    (fun s x => useVlds.legal s x && (!(s.vfmt x).isBfp || decide ((s.sval x x.v.sr).toNat = 1)))
    (fun s x =>
      let f := s.vfmt x
      if f.isBfp then s.storeBfp x f else s.storeElts x f fun l => s.stridedElt x f l) s

def execVsct (p i : Nat) (s : State) : Out :=
  instr p i 2 0x25 useVsct.legal
    (fun s x =>
      let f := s.vfmt x
      let a := (s.bank x).reg x.v.a
      s.storeElts x f fun l => eltOfLane f (laneOf a l)) s

/-- New value of an atomic (R125): add, min, max, and, or, xor, exchange, compare-and-swap, FP32 add; with its flags. -/
def atomNew (am : AMode) (op old b c : Nat) : Nat × Flags :=
  match op with
  | 0 => ((old + b) % 2 ^ 32, 0)
  | 1 => (if signed 32 b < signed 32 old then b else old, 0)
  | 2 => (if signed 32 old < signed 32 b then b else old, 0)
  | 3 => (old &&& b, 0)
  | 4 => (old ||| b, 0)
  | 5 => (old ^^^ b, 0)
  | 6 => (b, 0)
  | 7 => (if old = c then b else old, 0)
  | _ => fAdd .fp32 am old b

/-- Apply an atomic's lanes in ascending order (R124): the core, the old values by lane, the flags. -/
def atomRun (am : AMode) (op : Nat) (ra rb rc : BitVec 2048) : List Nat → Core × SMap Nat × Flags → Core × SMap Nat × Flags
  | [], r => r
  | l :: ls, (c, olds, fl) =>
    let a := laneOf ra l
    let old := c.sp.readLE a 4
    let n := atomNew am op old (laneOf rb l) (laneOf rc l)
    let c := if op = 7 ∧ old ≠ laneOf rc l then c else c.spWrite a (leBytes 4 n.1)
    atomRun am op ra rb rc ls (c, SMap.insert olds l old, fl ||| n.2)

/-- VATOM: addresses in A, operand B, compare C; D receives the old values (R125, R170). -/
def execVatom (p i : Nat) (s : State) : Out :=
  instr p i 2 0x26 useVatom.legal
    (fun s x =>
      let b := s.bank x
      let ls := lanesOn (s.onLanes x)
      let spans := ls.map fun l => (laneOf (b.reg x.v.a) l, 4)
      match s.readFault x.p x.k spans with
      | some c => s.accessFault x c spans
      | none =>
        match s.writeFault x.p x.k spans with
        | some c => s.accessFault x c spans
        | none =>
          let r := atomRun (s.amode x.p x.k) (x.v.imm % 16) (b.reg x.v.a) (b.reg x.v.b) (b.reg x.v.c) ls
            (s.core x.p, [], 0)
          let data := packNat 32 ((List.range 64).map fun l => SMap.get 0 r.2.1 l)
          ((((s.correctSpans x.p spans).modCore x.p fun c => { c with sp := r.1.sp }).flagCmd x.p x.k x.cmd r.2.2).addLoad x
            ⟨.vector x.v.d, data, s.onLanes x⟩).advance x) s

end Sys2Proof.Machine
end

