-- ==== Sys2Proof/Machine/Dispatch.lean ====
section
/-!
DEFINITION. Dispatch: one arm for each constructor of Instr, each a direct call of that command's meaning.
-/
namespace Sys2Proof.Machine

def exec (i : Instr) (s : State) : Host.Outcome State Fault Refusal :=
  match i with
  | .coldReset pwr => Sys2Proof.Machine.execColdReset pwr s
  | .coldStart straps flash => Sys2Proof.Machine.execColdStart straps flash s
  | .grizorStart rver => Sys2Proof.Machine.execGrizorStart rver s
  | .selfTestComplete slots rows stackSet x0 => Sys2Proof.Machine.execSelfTestComplete slots rows stackSet x0 s
  | .configurationApply => Sys2Proof.Machine.execConfigurationApply s
  | .bootLate => Sys2Proof.Machine.execBootLate s
  | .recoveryPoll set => Sys2Proof.Machine.execRecoveryPoll set s
  | .warmReset pin => Sys2Proof.Machine.execWarmReset pin s
  | .warmResetRequest v => Sys2Proof.Machine.execWarmResetRequest v s
  | .grizorRestart rver => Sys2Proof.Machine.execGrizorRestart rver s
  | .mpWatchdog => Sys2Proof.Machine.execMpWatchdog s
  | .mpLoadWindow load => Sys2Proof.Machine.execMpLoadWindow load s
  | .tamper source => Sys2Proof.Machine.execTamper source s
  | .seal => Sys2Proof.Machine.execSeal s
  | .registerWrite off size v => Sys2Proof.Machine.execRegisterWrite off size v s
  | .timeSecRead n => Sys2Proof.Machine.execTimeSecRead n s
  | .imAcctLatch v => Sys2Proof.Machine.execImAcctLatch v s
  | .tlbInvalidate n => Sys2Proof.Machine.execTlbInvalidate n s
  | .tlbInvalidateDone n => Sys2Proof.Machine.execTlbInvalidateDone n s
  | .ringEnable n r v => Sys2Proof.Machine.execRingEnable n r v s
  | .digestLogEnable n v => Sys2Proof.Machine.execDigestLogEnable n v s
  | .queuePairEnable q v => Sys2Proof.Machine.execQueuePairEnable q v s
  | .fhPortEnable p v => Sys2Proof.Machine.execFhPortEnable p v s
  | .flowStagingWrite p f v grizor => Sys2Proof.Machine.execFlowStagingWrite p f v grizor s
  | .flowEntryReplace p f v grizor => Sys2Proof.Machine.execFlowEntryReplace p f v grizor s
  | .msiUnmask v w => Sys2Proof.Machine.execMsiUnmask v w s
  | .radioSwitch active => Sys2Proof.Machine.execRadioSwitch active s
  | .appofsWrite v => Sys2Proof.Machine.execAppofsWrite v s
  | .reprobe v => Sys2Proof.Machine.execReprobe v s
  | .reprobeTimeout hops => Sys2Proof.Machine.execReprobeTimeout hops s
  | .admission v => Sys2Proof.Machine.execAdmission v s
  | .admissionPhaseComplete pass => Sys2Proof.Machine.execAdmissionPhaseComplete pass s
  | .claimSend v => Sys2Proof.Machine.execClaimSend v s
  | .eventTimerTick => Sys2Proof.Machine.execEventTimerTick s
  | .beatStart => Sys2Proof.Machine.execBeatStart s
  | .beatBoundary avg alert => Sys2Proof.Machine.execBeatBoundary avg alert s
  | .dlAbort p => Sys2Proof.Machine.execDlAbort p s
  | .coreWakeComplete p => Sys2Proof.Machine.execCoreWakeComplete p s
  | .planPreparation first beats excess drop => Sys2Proof.Machine.execPlanPreparation first beats excess drop s
  | .planLatch => Sys2Proof.Machine.execPlanLatch s
  | .lockLeaseExpiry p n => Sys2Proof.Machine.execLockLeaseExpiry p n s
  | .fixedLeaseEnd n => Sys2Proof.Machine.execFixedLeaseEnd n s
  | .holdTimeout p t => Sys2Proof.Machine.execHoldTimeout p t s
  | .borrowRequest p no => Sys2Proof.Machine.execBorrowRequest p no s
  | .stopIssueComplete p => Sys2Proof.Machine.execStopIssueComplete p s
  | .meDrainComplete p stops => Sys2Proof.Machine.execMeDrainComplete p stops s
  | .bankSwitchComplete p => Sys2Proof.Machine.execBankSwitchComplete p s
  | .radioDispatchComplete p => Sys2Proof.Machine.execRadioDispatchComplete p s
  | .weightReloadComplete p => Sys2Proof.Machine.execWeightReloadComplete p s
  | .spillComplete p => Sys2Proof.Machine.execSpillComplete p s
  | .zeroingComplete p => Sys2Proof.Machine.execZeroingComplete p s
  | .restoreComplete p => Sys2Proof.Machine.execRestoreComplete p s
  | .knownAnswerTestComplete p rows => Sys2Proof.Machine.execKnownAnswerTestComplete p rows s
  | .coreFailed p => Sys2Proof.Machine.execCoreFailed p s
  | .spareSubstitution l => Sys2Proof.Machine.execSpareSubstitution l s
  | .dieFail d => Sys2Proof.Machine.execDieFail d s
  | .descriptorFetch n r => Sys2Proof.Machine.execDescriptorFetch n r s
  | .descriptorCheck n r => Sys2Proof.Machine.execDescriptorCheck n r s
  | .journalRecordDurable comp => Sys2Proof.Machine.execJournalRecordDurable comp s
  | .journalSlotFreed => Sys2Proof.Machine.execJournalSlotFreed s
  | .kernel n r => Sys2Proof.Machine.execKernel n r s
  | .copy n r data comp => Sys2Proof.Machine.execCopy n r data comp s
  | .barrier n r comp => Sys2Proof.Machine.execBarrier n r comp s
  | .barrierRelease n r => Sys2Proof.Machine.execBarrierRelease n r s
  | .synchronisedStart n r => Sys2Proof.Machine.execSynchronisedStart n r s
  | .fence n r => Sys2Proof.Machine.execFence n r s
  | .fenceComplete n r => Sys2Proof.Machine.execFenceComplete n r s
  | .signal n r comp => Sys2Proof.Machine.execSignal n r comp s
  | .create n cores frames => Sys2Proof.Machine.execCreate n cores frames s
  | .createComplete n => Sys2Proof.Machine.execCreateComplete n s
  | .resize n cores frames => Sys2Proof.Machine.execResize n cores frames s
  | .fixlease n cores => Sys2Proof.Machine.execFixlease n cores s
  | .setw n => Sys2Proof.Machine.execSetw n s
  | .map n => Sys2Proof.Machine.execMap n s
  | .unmap n => Sys2Proof.Machine.execUnmap n s
  | .quiesce n => Sys2Proof.Machine.execQuiesce n s
  | .quiesceComplete n => Sys2Proof.Machine.execQuiesceComplete n s
  | .resume n => Sys2Proof.Machine.execResume n s
  | .reset n => Sys2Proof.Machine.execReset n s
  | .remove n => Sys2Proof.Machine.execRemove n s
  | .scratchpadUncorrectableError p n kind ix => Sys2Proof.Machine.execScratchpadUncorrectableError p n kind ix s
  | .scratchpadScrub p n bad => Sys2Proof.Machine.execScratchpadScrub p n bad s
  | .mmt p ix => Sys2Proof.Machine.execMmt p ix s
  | .mmtComplete p k id => Sys2Proof.Machine.execMmtComplete p k id s
  | .mwl p ix => Sys2Proof.Machine.execMwl p ix s
  | .weightPassComplete p k => Sys2Proof.Machine.execWeightPassComplete p k s
  | .mdr p ix => Sys2Proof.Machine.execMdr p ix s
  | .mdrComplete p k id => Sys2Proof.Machine.execMdrComplete p k id s
  | .add p ix => Sys2Proof.Machine.execAdd p ix s
  | .sub p ix => Sys2Proof.Machine.execSub p ix s
  | .mul p ix => Sys2Proof.Machine.execMul p ix s
  | .andS p ix => Sys2Proof.Machine.execAndS p ix s
  | .orS p ix => Sys2Proof.Machine.execOrS p ix s
  | .xorS p ix => Sys2Proof.Machine.execXorS p ix s
  | .sll p ix => Sys2Proof.Machine.execSll p ix s
  | .sra p ix => Sys2Proof.Machine.execSra p ix s
  | .bfx p ix => Sys2Proof.Machine.execBfx p ix s
  | .addi p ix => Sys2Proof.Machine.execAddi p ix s
  | .li p ix => Sys2Proof.Machine.execLi p ix s
  | .lih p ix => Sys2Proof.Machine.execLih p ix s
  | .beq p ix => Sys2Proof.Machine.execBeq p ix s
  | .bne p ix => Sys2Proof.Machine.execBne p ix s
  | .blt p ix => Sys2Proof.Machine.execBlt p ix s
  | .bge p ix => Sys2Proof.Machine.execBge p ix s
  | .bltu p ix => Sys2Proof.Machine.execBltu p ix s
  | .bgeu p ix => Sys2Proof.Machine.execBgeu p ix s
  | .jmp p ix => Sys2Proof.Machine.execJmp p ix s
  | .jr p ix => Sys2Proof.Machine.execJr p ix s
  | .ld p ix => Sys2Proof.Machine.execLd p ix s
  | .st p ix => Sys2Proof.Machine.execSt p ix s
  | .loadDataReturn p ix n => Sys2Proof.Machine.execLoadDataReturn p ix n s
  | .fadd p ix => Sys2Proof.Machine.execFadd p ix s
  | .fsub p ix => Sys2Proof.Machine.execFsub p ix s
  | .fmul p ix => Sys2Proof.Machine.execFmul p ix s
  | .ffma p ix => Sys2Proof.Machine.execFfma p ix s
  | .fcvtif p ix => Sys2Proof.Machine.execFcvtif p ix s
  | .fcvtfi p ix => Sys2Proof.Machine.execFcvtfi p ix s
  | .fork p ix => Sys2Proof.Machine.execFork p ix s
  | .halt p ix => Sys2Proof.Machine.execHalt p ix s
  | .waite p ix => Sys2Proof.Machine.execWaite p ix s
  | .waiteReturn p t => Sys2Proof.Machine.execWaiteReturn p t s
  | .npb p ix => Sys2Proof.Machine.execNpb p ix s
  | .npe p ix => Sys2Proof.Machine.execNpe p ix s
  | .lkacq p ix => Sys2Proof.Machine.execLkacq p ix s
  | .lkrel p ix => Sys2Proof.Machine.execLkrel p ix s
  | .rdctr p ix => Sys2Proof.Machine.execRdctr p ix s
  | .vadd p ix => Sys2Proof.Machine.execVadd p ix s
  | .vsub p ix => Sys2Proof.Machine.execVsub p ix s
  | .vshl p ix => Sys2Proof.Machine.execVshl p ix s
  | .vadds p ix => Sys2Proof.Machine.execVadds p ix s
  | .vsubs p ix => Sys2Proof.Machine.execVsubs p ix s
  | .vmul p ix => Sys2Proof.Machine.execVmul p ix s
  | .vfma p ix => Sys2Proof.Machine.execVfma p ix s
  | .vdot p ix => Sys2Proof.Machine.execVdot p ix s
  | .vsra p ix => Sys2Proof.Machine.execVsra p ix s
  | .vand p ix => Sys2Proof.Machine.execVand p ix s
  | .vor p ix => Sys2Proof.Machine.execVor p ix s
  | .vxor p ix => Sys2Proof.Machine.execVxor p ix s
  | .vmin p ix => Sys2Proof.Machine.execVmin p ix s
  | .vmax p ix => Sys2Proof.Machine.execVmax p ix s
  | .vcmp p ix => Sys2Proof.Machine.execVcmp p ix s
  | .vsel p ix => Sys2Proof.Machine.execVsel p ix s
  | .vcvt p ix => Sys2Proof.Machine.execVcvt p ix s
  | .vcmac p ix => Sys2Proof.Machine.execVcmac p ix s
  | .vbf4 p ix => Sys2Proof.Machine.execVbf4 p ix s
  | .vbex p ix => Sys2Proof.Machine.execVbex p ix s
  | .vmova p ix => Sys2Proof.Machine.execVmova p ix s
  | .vperm4 p ix => Sys2Proof.Machine.execVperm4 p ix s
  | .vred p ix => Sys2Proof.Machine.execVred p ix s
  | .vscan p ix => Sys2Proof.Machine.execVscan p ix s
  | .vrcp p ix => Sys2Proof.Machine.execVrcp p ix s
  | .vrsq p ix => Sys2Proof.Machine.execVrsq p ix s
  | .vexp2 p ix => Sys2Proof.Machine.execVexp2 p ix s
  | .vlog2 p ix => Sys2Proof.Machine.execVlog2 p ix s
  | .vcni p ix => Sys2Proof.Machine.execVcni p ix s
  | .vcnu p ix => Sys2Proof.Machine.execVcnu p ix s
  | .vcno p ix => Sys2Proof.Machine.execVcno p ix s
  | .vld p ix => Sys2Proof.Machine.execVld p ix s
  | .vst p ix => Sys2Proof.Machine.execVst p ix s
  | .vlds p ix => Sys2Proof.Machine.execVlds p ix s
  | .vsts p ix => Sys2Proof.Machine.execVsts p ix s
  | .vgth p ix => Sys2Proof.Machine.execVgth p ix s
  | .vsct p ix => Sys2Proof.Machine.execVsct p ix s
  | .vatom p ix => Sys2Proof.Machine.execVatom p ix s
  | .vsid p ix => Sys2Proof.Machine.execVsid p ix s
  | .vbcst p ix => Sys2Proof.Machine.execVbcst p ix s
  | .ifP p ix => Sys2Proof.Machine.execIfP p ix s
  | .elseP p ix => Sys2Proof.Machine.execElseP p ix s
  | .endifP p ix => Sys2Proof.Machine.execEndifP p ix s
  | .loopP p ix => Sys2Proof.Machine.execLoopP p ix s
  | .brkP p ix => Sys2Proof.Machine.execBrkP p ix s
  | .contP p ix => Sys2Proof.Machine.execContP p ix s
  | .endloopP p ix => Sys2Proof.Machine.execEndloopP p ix s
  | .exitP p ix => Sys2Proof.Machine.execExitP p ix s
  | .skb p ix => Sys2Proof.Machine.execSkb p ix s
  | .skbRelease p n => Sys2Proof.Machine.execSkbRelease p n s
  | .cpq p ix => Sys2Proof.Machine.execCpq p ix s
  | .lin p k e => Sys2Proof.Machine.execLin p k e s
  | .rect p k e => Sys2Proof.Machine.execRect p k e s
  | .box p k e => Sys2Proof.Machine.execBox p k e s
  | .gather p k e => Sys2Proof.Machine.execGather p k e s
  | .fill p k e => Sys2Proof.Machine.execFill p k e s
  | .transactionIssue p k e write comp => Sys2Proof.Machine.execTransactionIssue p k e write comp s
  | .weaveTransactionComplete p k e id data => Sys2Proof.Machine.execWeaveTransactionComplete p k e id data s
  | .copyDescriptorComplete p k e => Sys2Proof.Machine.execCopyDescriptorComplete p k e s
  | .weaveRequest pt rank who flits txn sent => Sys2Proof.Machine.execWeaveRequest pt rank who flits txn sent s
  | .arbitrationRound pt => Sys2Proof.Machine.execArbitrationRound pt s
  | .holdCutoff pt sent => Sys2Proof.Machine.execHoldCutoff pt sent s
  | .windowStart => Sys2Proof.Machine.execWindowStart s
  | .stackRowAccessComplete pa syms => Sys2Proof.Machine.execStackRowAccessComplete pa syms s
  | .stackRefresh m ch bank => Sys2Proof.Machine.execStackRefresh m ch bank s
  | .refreshComplete m ch bank => Sys2Proof.Machine.execRefreshComplete m ch bank s
  | .stackScrub m ch syms => Sys2Proof.Machine.execStackScrub m ch syms s
  | .frameClearComplete m f => Sys2Proof.Machine.execFrameClearComplete m f s
  | .sequencerRequest p k e id => Sys2Proof.Machine.execSequencerRequest p k e id s
  | .gatherProgram x words data => Sys2Proof.Machine.execGatherProgram x words data s
  | .scatter x words data => Sys2Proof.Machine.execScatter x words data s
  | .kvwalk x words data => Sys2Proof.Machine.execKvwalk x words data s
  | .scatadd x words data => Sys2Proof.Machine.execScatadd x words data s
  | .harq x words data => Sys2Proof.Machine.execHarq x words data s
  | .journalWrite => Sys2Proof.Machine.execJournalWrite s
  | .stackProgramComplete m id => Sys2Proof.Machine.execStackProgramComplete m id s
  | .channelMigration m ch command => Sys2Proof.Machine.execChannelMigration m ch command s
  | .migrationComplete m => Sys2Proof.Machine.execMigrationComplete m s
  | .channelFail m ch => Sys2Proof.Machine.execChannelFail m ch s
  | .mirrorRebuildComplete m => Sys2Proof.Machine.execMirrorRebuildComplete m s
  | .stackLost m => Sys2Proof.Machine.execStackLost m s
  | .journalRebuildComplete => Sys2Proof.Machine.execJournalRebuildComplete s
  | .cclPortUp ix up => Sys2Proof.Machine.execCclPortUp ix up s
  | .cclPortDown ix lanes => Sys2Proof.Machine.execCclPortDown ix lanes s
  | .cclRetry ix => Sys2Proof.Machine.execCclRetry ix s
  | .snpinv a => Sys2Proof.Machine.execSnpinv a s
  | .lineDataReturn j data => Sys2Proof.Machine.execLineDataReturn j data s
  | .writeAcknowledge j => Sys2Proof.Machine.execWriteAcknowledge j s
  | .watchedLineReread => Sys2Proof.Machine.execWatchedLineReread s
  | .timeBaseLock n => Sys2Proof.Machine.execTimeBaseLock n s
  | .timeBaseUnlock n => Sys2Proof.Machine.execTimeBaseUnlock n s
  | .holdover n => Sys2Proof.Machine.execHoldover n s
  | .ppsEdge ix frac => Sys2Proof.Machine.execPpsEdge ix frac s
  | .timeOfDayMessage cs => Sys2Proof.Machine.execTimeOfDayMessage cs s
  | .todMessageTimeout ix => Sys2Proof.Machine.execTodMessageTimeout ix s
  | .ppsMissing ix => Sys2Proof.Machine.execPpsMissing ix s
  | .frequencyWindow src ppb => Sys2Proof.Machine.execFrequencyWindow src ppb s
  | .delayReqSend n => Sys2Proof.Machine.execDelayReqSend n s
  | .ppsOutPulse => Sys2Proof.Machine.execPpsOutPulse s
  | .ppsOutPulseEnd => Sys2Proof.Machine.execPpsOutPulseEnd s
  | .beatTracePulseEnd => Sys2Proof.Machine.execBeatTracePulseEnd s
  | .ingressFrame p f frac => Sys2Proof.Machine.execIngressFrame p f frac s
  | .egressFrameQueue p cls flow len earliest latest slot prbs => Sys2Proof.Machine.execEgressFrameQueue p cls flow len earliest latest slot prbs s
  | .egressFrameStart p sub => Sys2Proof.Machine.execEgressFrameStart p sub s
  | .egressFrameEnd p sub => Sys2Proof.Machine.execEgressFrameEnd p sub s
  | .egressFrameLate p id => Sys2Proof.Machine.execEgressFrameLate p id s
  | .refill p => Sys2Proof.Machine.execRefill p s
  | .subportUp p sub => Sys2Proof.Machine.execSubportUp p sub s
  | .subportDown p sub => Sys2Proof.Machine.execSubportDown p sub s
  | .moduleInsertion p ident cmis age pages ready => Sys2Proof.Machine.execModuleInsertion p ident cmis age pages ready s
  | .moduleReadyTimeout p => Sys2Proof.Machine.execModuleReadyTimeout p s
  | .moduleInterrupt p state age => Sys2Proof.Machine.execModuleInterrupt p state age s
  | .modulePeriodicRead p read => Sys2Proof.Machine.execModulePeriodicRead p read s
  | .peWatchdogExpiry p => Sys2Proof.Machine.execPeWatchdogExpiry p s
  | .peRestartComplete p => Sys2Proof.Machine.execPeRestartComplete p s
  | .paramRequest q seq len phy => Sys2Proof.Machine.execParamRequest q seq len phy s
  | .configRequest q seq len phy cfg => Sys2Proof.Machine.execConfigRequest q seq len phy cfg s
  | .startRequest q seq len phy => Sys2Proof.Machine.execStartRequest q seq len phy s
  | .cellStart phy => Sys2Proof.Machine.execCellStart phy s
  | .stopRequest q seq len phy => Sys2Proof.Machine.execStopRequest q seq len phy s
  | .dlTtiRequest q seq len phy slot => Sys2Proof.Machine.execDlTtiRequest q seq len phy slot s
  | .ulTtiRequest q seq len phy slot pusch uci prbs => Sys2Proof.Machine.execUlTtiRequest q seq len phy slot pusch uci prbs s
  | .ulDciRequest q seq len phy slot => Sys2Proof.Machine.execUlDciRequest q seq len phy slot s
  | .txDataRequest q seq len phy slot => Sys2Proof.Machine.execTxDataRequest q seq len phy slot s
  | .modelLoadRequest q seq len phy no size adders clean signed => Sys2Proof.Machine.execModelLoadRequest q seq len phy no size adders clean signed s
  | .dpdTrainRequest q seq len phy chain orders samples coeffs => Sys2Proof.Machine.execDpdTrainRequest q seq len phy chain orders samples coeffs s
  | .dpdTrainComplete phy chain capture => Sys2Proof.Machine.execDpdTrainComplete phy chain capture s
  | .dpdTrainTimeout phy chain => Sys2Proof.Machine.execDpdTrainTimeout phy chain s
  | .slotStart mu => Sys2Proof.Machine.execSlotStart mu s
  | .contextHalt g => Sys2Proof.Machine.execContextHalt g s
  | .ceFallbackEnd phy => Sys2Proof.Machine.execCeFallbackEnd phy s
  | .indicationDiscard q => Sys2Proof.Machine.execIndicationDiscard q s
  | .cableDetected w => Sys2Proof.Machine.execCableDetected w s
  | .cableIdentityReadComplete w record serial mates hours signed => Sys2Proof.Machine.execCableIdentityReadComplete w record serial mates hours signed s
  | .linkUp w peer lr lanes fofs => Sys2Proof.Machine.execLinkUp w peer lr lanes fofs s
  | .retrain w lock lanes => Sys2Proof.Machine.execRetrain w lock lanes s
  | .flitCrcError w after => Sys2Proof.Machine.execFlitCrcError w after s
  | .nak w good credits => Sys2Proof.Machine.execNak w good credits s
  | .wr w h data comp => Sys2Proof.Machine.execWr w h data comp s
  | .rd w h len comp data => Sys2Proof.Machine.execRd w h len comp data s
  | .rddata w h data => Sys2Proof.Machine.execRddata w h data s
  | .ack w h => Sys2Proof.Machine.execAck w h s
  | .nack w h cause => Sys2Proof.Machine.execNack w h cause s
  | .transactionTimeout tid => Sys2Proof.Machine.execTransactionTimeout tid s
  | .ringTimeExchange w => Sys2Proof.Machine.execRingTimeExchange w s
  | .time w kind n ts frac => Sys2Proof.Machine.execTime w kind n ts frac s
  | .laneHourTick w l => Sys2Proof.Machine.execLaneHourTick w l s
  | .ledgerCopy => Sys2Proof.Machine.execLedgerCopy s
  | .heartbeatSend => Sys2Proof.Machine.execHeartbeatSend s
  | .hb x score => Sys2Proof.Machine.execHb x score s
  | .heartbeatMissWindow x => Sys2Proof.Machine.execHeartbeatMissWindow x s
  | .suspect x => Sys2Proof.Machine.execSuspect x s
  | .death x m => Sys2Proof.Machine.execDeath x m s
  | .probe w prober => Sys2Proof.Machine.execProbe w prober s
  | .probeAck w prober => Sys2Proof.Machine.execProbeAck w prober s
  | .witnessProbeTimeout subject => Sys2Proof.Machine.execWitnessProbeTimeout subject s
  | .dreply x m => Sys2Proof.Machine.execDreply x m s
  | .commit x m => Sys2Proof.Machine.execCommit x m s
  | .fenceNotice w => Sys2Proof.Machine.execFenceNotice w s
  | .budget x m => Sys2Proof.Machine.execBudget x m s
  | .budgetTokenTimeout => Sys2Proof.Machine.execBudgetTokenTimeout s
  | .healthUpdate => Sys2Proof.Machine.execHealthUpdate s
  | .expulsionCandidate => Sys2Proof.Machine.execExpulsionCandidate s
  | .admitMessage x m => Sys2Proof.Machine.execAdmit x m s
  | .claim w m => Sys2Proof.Machine.execClaim w m s
  | .claimRes w m => Sys2Proof.Machine.execClaimRes w m s
  | .eventRecordEmit => Sys2Proof.Machine.execEventRecordEmit s
  | .attest => Sys2Proof.Machine.execAttest s
  | .fwWrite set => Sys2Proof.Machine.execFwWrite set s
  | .flashProgramComplete ok => Sys2Proof.Machine.execFlashProgramComplete ok s
  | .fwActivate => Sys2Proof.Machine.execFwActivate s
  | .activationStepComplete ok => Sys2Proof.Machine.execActivationStepComplete ok s
  | .fwCommit => Sys2Proof.Machine.execFwCommit s
  | .fwRevert => Sys2Proof.Machine.execFwRevert s
  | .cfgWrite img ok => Sys2Proof.Machine.execCfgWrite img ok s
  | .cfgCommit => Sys2Proof.Machine.execCfgCommit s
  | .sensorSample u k temp => Sys2Proof.Machine.execSensorSample u k temp s
  | .avsTimeout => Sys2Proof.Machine.execAvsTimeout s
  | .avsAnswer => Sys2Proof.Machine.execAvsAnswer s
  | .bypass => Sys2Proof.Machine.execBypass s
  | .idcode => Sys2Proof.Machine.execIdcode s
  | .samplePreload bits => Sys2Proof.Machine.execSamplePreload bits s
  | .extest => Sys2Proof.Machine.execExtest s
  | .extestPulse => Sys2Proof.Machine.execExtestPulse s
  | .extestTrain => Sys2Proof.Machine.execExtestTrain s
  | .illegalInstruction p ix => Sys2Proof.Machine.execIllegalInstruction p ix s
  | .instructionFetchFault p ix => Sys2Proof.Machine.execInstructionFetchFault p ix s
  | .illegalCopyDescriptor p k e => Sys2Proof.Machine.execIllegalCopyDescriptor p k e s
  | .warmResetEnd => Sys2Proof.Machine.execWarmResetEnd s

end Sys2Proof.Machine
end

