-- ==== Sys2Proof/Machine/Tick.lean ====
section
/-!
DEFINITION. What happens in one ACLK cycle whatever is commanded (log 1): the GTC (R357), the time bases and D (R361, R368), the delivery
of event records (R493), hold timers (R174), QWAIT (R291), CRC windows (R444), heartbeat windows (R469), messages that leave on the
Withy links, the start of packet-engine loads (R517), BARRIERs at their TREL (R355),
SNPINV acknowledgements (R299), messages that wait for Grizor (R417),
and what waits on a core for room (R77, R82, R87, R140).
-/
namespace Sys2Proof.Machine

/-- Hold timers of the open regions count, but in a stop-issue step (R174). -/
def Core.holdTick (c : Core) : Core :=
  { c with threads := c.threads.map fun x =>
      if x.2.running && x.2.region.isSome && (c.side (threadSide x.1)).stop != .stopIssue then (x.1, { x.2 with hold := x.2.hold + 1 }) else x }

/-- Some core issues the command, drains it, or holds it off by a pre-emption (R291). -/
def State.attended (s : State) (c : Cmd) : Bool :=
  let on (x : Core) : Bool := x.residents.any fun r => r.cmd == c.key.no
    && ((x.side r.side).stop != .stopped || x.borrow.isSome || x.takeover.isSome)
  c.phase == .running && ((s.cores.any fun x => on x.2)
    || s.images.any fun x => match x.2 with | some i => i.core.residents.any fun r => r.cmd == c.key.no | none => false)

/-- QWAIT counts a cycle for each accepted, uncompleted command that no core attends to (R291). -/
def State.waitTick (s : State) : State :=
  (s.cmds.filter fun c => c.open_ && !s.attended c).foldl (fun s c => s.charge c.inst fun a => { a with qwait := a.qwait + 1 }) s

/-- A heartbeat window in which a heartbeat has arrived ends without a miss (R469). -/
def State.windowTick (s : State) (x : Nat) : State :=
  let n := s.nbr x
  if n.heard ∧ n.winEnd ≤ s.gtc then s.setNbr x { n with heard := false, misses := 0, winEnd := wlNextWindow s.gtc } else s

/-- The port may send the message: it is UP, or FENCED and the message is a LINK transaction (R453); its link controller is not being loaded
(R445); at most 512 flits are unacknowledged, and the peer's 64 KiB of its rank have room (R450). -/
def State.wyMaySend (s : State) (w : Nat) (m : WyMsg) : Bool :=
  let loading := match s.boot.act with | some a => a.step == 4 && a.inst == w | none => false
  let x := s.wyPort w
  !loading && (s.wyState w == wyUP || (s.wyState w == wyFENCED && (match m with | .link _ _ => true | _ => false)))
    && decide (x.seq + m.flits ≤ x.first + 512) && decide ((if m.low then x.used1 else x.used0) + m.slots ≤ 1024)

/-- A waiting message leaves, or stays behind those of its port and rank that stay. -/
def wyLeave (a : List (Nat × WyMsg) × State) (x : Nat × WyMsg) : List (Nat × WyMsg) × State :=
  if a.2.wyMaySend x.1 x.2 && !(a.1.any fun y => y.1 == x.1 && y.2.low == x.2.low) then
    (a.1, a.2.modWyPort x.1 fun p =>
      { p with
        seq := p.seq + x.2.flits
        used0 := if x.2.low then p.used0 else p.used0 + x.2.slots
        used1 := if x.2.low then p.used1 + x.2.slots else p.used1 })
  else (a.1 ++ [x], a.2)

/-- Messages leave on the Withy links, those of rank 0 ahead of waiting ones of rank 1 (R450). -/
def State.linkTick (s : State) : State :=
  let r := ((s.withy.out.filter fun x => !x.2.low) ++ s.withy.out.filter fun x => x.2.low).foldl wyLeave ([], s)
  { r.2 with withy := { r.2.withy with out := r.1 } }

/-- A packet engine whose turn has come is stopped for its load (R517). -/
def State.engineTick (s : State) : State :=
  match s.boot.act with
  | some a => if a.step = 5 ∧ a.at_ = s.gtc then s.stopEngine a.inst else s
  | none => s

/-- One cycle. Nothing runs before the cold start, nor in boundary-scan mode. -/
def State.tick (s : State) : State :=
  if !s.boot.started || s.scanMode then s
  else
    let s := { s with gtc := (s.gtc + 1) % 2 ^ 64 }
    let s := s.deliverLog.timeTick
    let s := (s.mapCores fun _ c => c.holdTick).waitTick
    let s := if s.gtc % 3600000 = 0 then
        { s with withy := { s.withy with ports := s.withy.ports.map fun x => (x.1, { x.2 with crcMs := 0 }) } }
      else s
    let s := (((s.windowTick 0).windowTick 1).linkTick).engineTick
    let s := State.p5Run s.radio.p5.length (s.cmds.foldl State.trelMark s)
    let s := if s.cclUp then { s with ccl := { s.ccl with acks := [] } } else s
    (s.cores.map Prod.fst).foldl State.kickCore s

end Sys2Proof.Machine
end

