-- ==== Sys2Proof/Safety.lean ====
section
/-!
DEFINITION. What counts as a safe run: neighbours and engines send only commands that the rules allow in the state, so that no step
stops, and the clock of the block stays inside its register. The terms that claims about instructions use.
-/
namespace Sys2Proof.Machine

/-- The step from s goes on. -/
def State.runs (s : State) : Prop := ∃ t, step s = .next t

/-- The invariant of the clock: the GTC is a 64-bit count (R357), and only a thermal trip stops the clocks (R538). -/
def State.ClockInv (s : State) : Prop := s.gtc < 2 ^ 64 ∧ (s.clocksStopped = true → s.power.thermtrip = true)

/-- A run of k steps from s in which no step stops and every state keeps the invariant of the clock. -/
def State.safeFor : Nat → State → Prop
  | 0, s => s.ClockInv
  | k + 1, s => s.ClockInv ∧ ∃ t, step s = .next t ∧ State.safeFor k t

/-- Issuer i of core slot p has x, a word of class cls and opcode op without an uncorrectable error, as its next instruction, and
may issue it now (R122, R135, R160, R165, R175, R186). -/
structure State.Issues (s : State) (p i cls op : Nat) (x : Iss) : Prop where
  clocks : s.clocksStopped = false
  next : s.iss p i = some x
  fetch : s.fetchOk x = true
  whole : Core.spBad (s.core p) x.pc 8 = false
  cls : x.f 62 60 = cls
  op : x.f 59 54 = op
  ready : s.issReady x = true

/-- Registers in which the correction of a fetched word is counted and recorded (R186, R493). -/
def eccRegs (p : Nat) : List Reg := [.coreSpEcc p, .coreSpEaddr p, .gctlElogLost]

/-- t differs from s at most in core slot p, in the registers rs, and in what the correction of the bytes read (spans: address and
length) records: its registers, the log and the health inputs, which stay too where no word under the spans holds a single-bit error. -/
structure State.CoreFrame (s t : State) (p : Nat) (spans : List (Nat × Nat)) (rs : List Reg) : Prop where
  rest : t = { s with regs := t.regs, cores := t.cores, log := t.log, waling := t.waling, free := t.free }
  cores : ∀ q, q ≠ p → t.core q = s.core q
  regs : ∀ r, r ∉ rs → r ∉ eccRegs p → t.reg r = s.reg r
  clean : (∀ z ∈ spans, Core.spSingles (s.core p) z.1 z.2 = []) → t.log = s.log ∧ t.waling = s.waling ∧ ∀ r, r ∉ rs → t.reg r = s.reg r

/-- Of core c, d differs at most in thread i (and in the corrected words' check marks). -/
structure Core.ThreadFrame (c d : Core) (i : Nat) : Prop where
  rest : d = { c with threads := d.threads, spCheck := d.spCheck }
  others : ∀ j, j ≠ i → d.thread j = c.thread j

/-- Side k of core slot p and command cmd have taken the arithmetic flags fl (R55, R56). -/
structure State.Flagged (s t : State) (p k cmd : Nat) (fl : Flags) : Prop where
  reg : t.reg (.coreAflags p k) =
    if fl = 0 then s.reg (.coreAflags p k) else Fld.set ⟨4, 0⟩ (s.reg (.coreAflags p k)) (s.getF (.coreAflags p k) ⟨4, 0⟩ ||| fl)
  residents : (t.core p).residents =
    (s.core p).residents.map fun r => if r.cmd = cmd then { r with flags := r.flags ||| fl } else r

end Sys2Proof.Machine
end

