-- ==== Sys2Proof/Certificates/Slice0/Obligations.lean ====
section
/-!
DEFINITION. The statements for the provers: what the rules say a command does, what it leaves, and where it completes.
-/
namespace Sys2Proof.Machine

/-! # Terms of the statements -/

/-- A row of the scalar unit writes value val to rd, goes on to the next word, and changes nothing else. -/
def writesRd (row : Nat → Nat → Instr) (op : Nat) (legal : State → Iss → Bool) (val : State → Iss → Word) : Prop :=
  ∀ (s : State) (p i : Nat) (x : Iss), s.Issues p i 0 op x → legal s x = true →
    ∃ t, exec (row p i) s = .next t ∧ s.CoreFrame t p [(x.pc, 8)] [] ∧ (s.core p).ThreadFrame (t.core p) i ∧
      (∀ n, ((t.core p).thread i).reg n = if n = x.rd ∧ n ≠ 0 then val s x else ((s.core p).thread i).reg n) ∧
      { (t.core p).thread i with s := ((s.core p).thread i).s } = { (s.core p).thread i with pc := x.pc + 8 }

/-- A row moves the pc of its thread to target and changes nothing else. -/
def movesPc (row : Nat → Nat → Instr) (op : Nat) (legal : State → Iss → Bool) (target : State → Iss → Nat) : Prop :=
  ∀ (s : State) (p i : Nat) (x : Iss), s.Issues p i 0 op x → legal s x = true →
    ∃ t, exec (row p i) s = .next t ∧ s.CoreFrame t p [(x.pc, 8)] [] ∧ (s.core p).ThreadFrame (t.core p) i ∧
      (t.core p).thread i = { (s.core p).thread i with pc := target s x }

/-- The word that a branch names: imm32 instructions from its own. -/
def branchTo (x : Iss) : Nat := unsignedOf 64 ((x.pc : Int) + 8 * signed 32 (x.f 31 0))

/-- A floating-point row: rd takes a value that ok admits, the side and the command take the flags, and nothing else changes. -/
def writesFp (row : Nat → Nat → Instr) (op : Nat) (legal : State → Iss → Bool) (ok : State → Iss → Word → Prop)
    (fl : State → Iss → Flags) : Prop :=
  ∀ (s : State) (p i : Nat) (x : Iss), s.Issues p i 0 op x → legal s x = true →
    ∃ t, exec (row p i) s = .next t ∧ s.CoreFrame t p [(x.pc, 8)] [.coreAflags p x.k] ∧
      t.core p = { s.core p with threads := (t.core p).threads, spCheck := (t.core p).spCheck, residents := (t.core p).residents } ∧
      (∀ j, j ≠ i → (t.core p).thread j = (s.core p).thread j) ∧ s.Flagged t p x.k x.cmd (fl s x) ∧
      (∀ n, n ≠ x.rd ∨ n = 0 → ((t.core p).thread i).reg n = ((s.core p).thread i).reg n) ∧
      (x.rd ≠ 0 → ok s x (((t.core p).thread i).reg x.rd)) ∧
      { (t.core p).thread i with s := ((s.core p).thread i).s } = { (s.core p).thread i with pc := x.pc + 8 }

/-- The low half of rd holds r's bits; its high half is open (log 3). -/
def lowHalf (r : State → Iss → Nat × Flags) : State → Iss → Word → Prop := fun s x w => w.toNat % 2 ^ 32 = (r s x).1 % 2 ^ 32

/-- The low 32 bits of a scalar operand. -/
def lowOf (s : State) (x : Iss) (n : Nat) : Nat := (s.sval x n).toNat % 2 ^ 32

/-- The word form of LD: V 0, bits 43:35 zero; of ST: bits 43:34 zero (R167). -/
def ldForm (x : Iss) : Bool := x.isThread && x.vOk false && decide (x.f 43 35 = 0)
def stForm (x : Iss) : Bool := x.isThread && x.vOk false && decide (x.f 43 34 = 0)

/-- Address and size of a scalar access: ra + imm32, 1, 2, 4 or 8 bytes by SIZE (R137, R167). -/
def addrOf (s : State) (x : Iss) : Nat := (s.sval x x.ra + BitVec.ofInt 64 (signed 32 (x.f 31 0))).toNat
def sizeOfAccess (x : Iss) : Nat := 2 ^ x.f 33 32

/-- A scratchpad byte of a core slot. -/
def State.spByte (s : State) (p a : Nat) : Byte := (s.core p).sp.byte a

/-- The word form of LKACQ (R173, R177, R178): a lock of the side's range; LEASE 1 to 255 with NP 0, and with NP 1 LEASE 0, from a thread with
no region open; a register of its allocation for a plait. -/
def lkacqForm (s : State) (x : Iss) : Bool :=
  x.vOk false && decide (x.f 48 32 = 0) && decide (x.f 31 16 = 0) && s.lockOk x && s.plaitReg x x.rd
    && (if x.f 7 7 = 0 then decide (x.f 15 8 ≠ 0)
        else decide (x.f 15 8 = 0) && x.isThread && ((s.core x.p).thread x.i).region.isNone)

/-- The word form of LKREL (R177, R179). -/
def lkrelForm (s : State) (x : Iss) : Bool :=
  x.vOk false && decide (x.f 48 32 = 0) && decide (x.f 31 7 = 0) && s.lockOk x && s.plaitReg x x.rd

/-- A lock status v reaches the issuer x, which goes on: rd of a thread, s0 discarding it (R133); every active lane of register rd of a
plait (R178). Other registers, lanes, threads' registers and plaits stay. -/
def State.StatusTo (s t : State) (p : Nat) (x : Iss) (v : Nat) : Prop :=
  (∀ j m, ((t.core p).thread j).reg m = if j = x.i ∧ x.i < 16 ∧ m = x.rd ∧ m ≠ 0 then BitVec.ofNat 64 v else ((s.core p).thread j).reg m) ∧
  (∀ j, ((t.core p).thread j).pc = if j = x.i ∧ x.i < 16 then x.pc + 8 else ((s.core p).thread j).pc) ∧
  (∀ j, (t.core p).thread j = { (s.core p).thread j with
    s := ((t.core p).thread j).s, pc := ((t.core p).thread j).pc, region := ((t.core p).thread j).region, hold := ((t.core p).thread j).hold }) ∧
  (∀ j, j + 16 ≠ x.i → (t.core p).plait j = (s.core p).plait j) ∧
  (16 ≤ x.i →
    let a := (s.core p).plait (x.i - 16)
    let b := (t.core p).plait (x.i - 16)
    b = { a with pc := x.pc + 8, bank := b.bank } ∧ (∀ r, r ≠ x.rd → b.bank.reg r = a.bank.reg r) ∧
      ∀ l, l < 64 → laneOf (b.bank.reg x.rd) l = if a.active.getLsbD l then v else laneOf (a.bank.reg x.rd) l)

/-- Some running thread of side k has a region open. -/
def Core.regionOpen (c : Core) (k : Nat) : Bool := c.threads.any fun y => threadSide y.1 == k && y.2.running && y.2.region.isSome

/-- Each side of ks that waits for its regions drains once none is left open, as CORE_CQ_PRE.PHASE shows (R175); everything else of the core
but its threads, plaits and check marks stays. -/
def State.DrainsWhenClosed (s t : State) (p : Nat) (ks : List Nat) : Prop :=
  let c := s.core p
  let d := t.core p
  let goes (k : Nat) : Prop := k ∈ ks ∧ (c.side k).stop = .regionWait ∧ d.regionOpen k = false
  d = { c with threads := d.threads, plaits := d.plaits, spCheck := d.spCheck, t := d.t, r := d.r } ∧
  (∀ k, k < 2 → (goes k → d.side k = { c.side k with stop := .drain }) ∧ (¬ goes k → d.side k = c.side k)) ∧
  ((goes 0 ∨ goes 1) → t.reg (.coreCqPre p) = CORE_CQ_PRE.PHASE.set (s.reg (.coreCqPre p)) 3) ∧
  (¬ (goes 0 ∨ goes 1) → t.reg (.coreCqPre p) = s.reg (.coreCqPre p))

/-- Of core c, a vector instruction of x leaves everything but its issuer's bank, pc and scalar registers, and the flags of residents. -/
structure Core.VecFrame (c d : Core) (x : Iss) : Prop where
  rest : d = { c with threads := d.threads, plaits := d.plaits, t := d.t, r := d.r, residents := d.residents, spCheck := d.spCheck }
  side0 : d.t = { c.t with bank := if x.i < 16 ∧ x.k = 0 then d.t.bank else c.t.bank }
  side1 : d.r = { c.r with bank := if x.i < 16 ∧ x.k ≠ 0 then d.r.bank else c.r.bank }
  threads : ∀ j, j ≠ x.i → d.thread j = c.thread j
  plaits : ∀ n, 16 + n ≠ x.i → d.plait n = c.plait n

/-- A vector row on registers: the issuer's bank and the scalar SR become what f makes of the state, the flags are set, the issuer goes
on to the next word, and nothing else changes. -/
def vectorRow (row : Nat → Nat → Instr) (op : Nat) (legal : State → Iss → Bool) (f : VIn → VOut) : Prop :=
  ∀ (s : State) (p i : Nat) (x : Iss), s.Issues p i 2 op x → legal s x = true →
    ∃ t, exec (row p i) s = .next t ∧ s.CoreFrame t p [(x.pc, 8)] [.coreAflags p x.k] ∧ (s.core p).VecFrame (t.core p) x ∧
      t.bank x = (f (s.vin x)).bank ∧ t.free = (f (s.vin x)).free ∧ s.Flagged t p x.k x.cmd (f (s.vin x)).flags ∧
      (i < 16 → ((t.core p).thread i).pc = x.pc + 8 ∧ ∀ m, ((t.core p).thread i).reg m =
        if m = x.v.sr ∧ m ≠ 0 then ((f (s.vin x)).sr.getD (((s.core p).thread i).reg m)) else ((s.core p).thread i).reg m) ∧
      (16 ≤ i → ((t.core p).plait (i - 16)).pc = x.pc + 8)

/-- Elements of a lane, each made by g, packed. -/
def packLane (f : Fmt) (n : Nat) (g : Nat → Nat × Flags) : Nat × Flags :=
  let rs := (List.range n).map g
  (packNat f.bits (rs.map Prod.fst), rs.foldl (fun a r => a ||| r.2) 0)

/-- Outstanding loads of an issuer, and its pc. -/
def loadsOf (s : State) (x : Iss) : List Load :=
  if x.i < 16 then ((s.core x.p).thread x.i).loads else ((s.core x.p).plait (x.i - 16)).loads
def pcOf (s : State) (x : Iss) : Nat :=
  if x.i < 16 then ((s.core x.p).thread x.i).pc else ((s.core x.p).plait (x.i - 16)).pc

/-- A vector load: the active lanes' bytes are read at issue into an outstanding load for register D; no byte of the scratchpad, no
register of the bank and no other core changes (R118, R121, R123). -/
def vectorLoad (row : Nat → Nat → Instr) (op : Nat) (legal : State → Iss → Bool) (span : State → Iss → Nat → Nat × Nat)
    (val : State → Iss → Nat → Nat) : Prop :=
  ∀ (s : State) (p i : Nat) (x : Iss), s.Issues p i 2 op x → legal s x = true →
    s.readFault p x.k ((lanesOn (s.onLanes x)).map (span s x)) = none →
    ∃ t l, exec (row p i) s = .next t ∧
      s.CoreFrame t p ((x.pc, 8) :: (lanesOn (s.onLanes x)).map (span s x)) [.coreAflags p x.k] ∧
      (∀ a, t.spByte p a = s.spByte p a) ∧ t.bank x = s.bank x ∧ pcOf t x = x.pc + 8 ∧
      loadsOf t x = loadsOf s x ++ [l] ∧ l.dest = .vector x.v.d ∧ l.lanes = s.onLanes x ∧
      ∀ n, n < 64 → laneOf (BitVec.ofNat 2048 l.data) n = if (s.onLanes x).getLsbD n then val s x n % 2 ^ 32 else 0

/-- A vector store: the scratchpad takes the active lanes' elements in ascending lane order (R124), every byte outside them keeps its
value, and no register of the bank and no other core changes. -/
def vectorStore (row : Nat → Nat → Instr) (op : Nat) (legal : State → Iss → Bool) (spans : State → Iss → List (Nat × Nat))
    (write : State → Iss → Core → Core) : Prop :=
  ∀ (s : State) (p i : Nat) (x : Iss), s.Issues p i 2 op x → legal s x = true → s.writeFault p x.k (spans s x) = none →
    ∃ t, exec (row p i) s = .next t ∧ s.CoreFrame t p [(x.pc, 8)] [.coreAflags p x.k] ∧ t.bank x = s.bank x ∧
      pcOf t x = x.pc + 8 ∧ (t.core p).sp = (write s x (s.core p)).sp ∧
      (∀ a, (∀ z ∈ spans s x, a < z.1 ∨ z.1 + z.2 ≤ a) → t.spByte p a = s.spByte p a)

/-- A control row of a plait changes its plait as g says, and nothing else (R144). -/
def plaitRow (row : Nat → Nat → Instr) (op : Nat) (legal : State → Iss → Bool) (g : Iss → Plait → Plait) : Prop :=
  ∀ (s : State) (p i : Nat) (x : Iss), s.Issues p i 2 op x → legal s x = true →
    ∃ t, exec (row p i) s = .next t ∧ s.CoreFrame t p [(x.pc, 8)] [] ∧
      t.core p = { s.core p with plaits := (t.core p).plaits, spCheck := (t.core p).spCheck } ∧
      (∀ n, n ≠ i - 16 → (t.core p).plait n = (s.core p).plait n) ∧
      (t.core p).plait (i - 16) = g x ((s.core p).plait (i - 16))

/-- The innermost entry of a plait's stack is an IF's, or a LOOP's. -/
def topIsCond (q : Plait) : Bool := match q.stack with | .cond _ _ :: _ => true | _ => false
def topIsLoop (q : Plait) : Bool := match q.stack with | .loop _ _ _ :: _ => true | _ => false

/-- A matrix row enters the ME queue of its side at its end and its thread goes on; then the queue issues as far as it goes (R135). -/
def entersMeQueue (row : Nat → Nat → Instr) (op : Nat) (legal : State → Iss → Bool) (make : State → Iss → MeOp) : Prop :=
  ∀ (s : State) (p i : Nat) (x : Iss), s.Issues p i 1 op x → legal s x = true → ((s.core p).side x.k).meQ.length < 16 →
    ∃ u e, exec (row p i) s = .next (s.keep (u.meKick p x.k)) ∧ s.CoreFrame u p [(x.pc, 8)] [] ∧
      ((u.core p).side x.k).meQ = ((s.core p).side x.k).meQ ++ [e] ∧ e.op = make s x ∧ e.thread = i ∧ e.ctx = x.ctx ∧
      e.cmd = x.cmd ∧ e.phase = .waiting ∧ e.id = (s.core p).nextId + 1 ∧ (u.core p).sp = (s.core p).sp ∧
      ((u.core p).side x.k).acc = ((s.core p).side x.k).acc ∧
      (∀ j, j ≠ i → (u.core p).thread j = (s.core p).thread j) ∧
      (u.core p).thread i = { (s.core p).thread i with pc := x.pc + 8 }

/-- Segment sums added to an accumulator one after the other, each addition saturating at 48 bits; a poison marker stays. -/
def addSegments (old : Int) (segs : List (Seg × Seg)) : Int :=
  segs.foldl (fun acc y => if acc = accPoison then acc else (satSym 48 (acc + dotReal y.1.vals y.2.vals)).1) old

/-- How far the output's time, with its offset, is past the nearest whole second, in nanoseconds (R374). -/
def State.ppsNear (s : State) : Rat :=
  let v := s.ppsBase - ((signed 28 (s.getF .timePpsout TIME_PPSOUT.OFFSET) : Int) : Rat)
  v - ((v / 1000000000 + 1 / 2).floor : Rat) * 1000000000

/-- A label of sec TAI seconds reaches 1PPS input i: it labels an edge of 10 ms to 900 ms before, and every base that took the edge measures
(R373). -/
def State.labelPps (s : State) (sec i : Nat) : State :=
  match (s.ppsIn i).edge with
  | some e =>
    if e + 36000000 ≤ s.gtc ∧ s.gtc ≤ e + 3240000000 then
      (s.ppsIn i).values.foldl (fun s v => s.measure v.1 ((sec : Rat) * 1000000000 - v.2)) (s.setPps i { s.ppsIn i with values := [] })
    else s
  | none => s

/-- Registers that take a write with no effect besides: their word is what the fields' access codes make of the written value. -/
def quietRegs : List Reg :=
  [.gctlPwrcfg, .gctlThermcfg, .gctlPinmux, .gctlElogCtl, .timePlancfg, .wvCfg, .wvSysw, .wyRto, .wlExpel]

/-- What one field of a register holds after a write of v (R7, R556). -/
def fieldAfter (locked : Bool) (f : FieldRow) (old v : BitVec 64) : Nat :=
  match f.acc with
  | .ro | .wo => f.fld.get old
  | .rw | .rws => f.fld.get v
  | .rwl => if locked then f.fld.get old else f.fld.get v
  | .w1c => if f.fld.get v = 1 then 0 else f.fld.get old

/-- A control thread of side 0 that runs has an open no-preempt region (R175, R267). -/
def Core.openRegion (c : Core) : Prop := ∃ x ∈ c.threads, threadSide x.1 = 0 ∧ x.2.running = true ∧ x.2.region.isSome = true

/-- Between s and t only core slot p and the registers rs differ. -/
structure State.SlotFrame (s t : State) (p : Nat) (rs : List Reg) : Prop where
  rest : t = { s with cores := t.cores, regs := t.regs }
  cores : ∀ q, q ≠ p → t.core q = s.core q
  regs : ∀ r, r ∉ rs → t.reg r = s.reg r

/-- The request q of instance n runs next, has this OP, and Grizor serves it: from stage 4 on, and not in MAINT (R316, R317, R506). -/
structure State.Serves (s : State) (n op : Nat) (q : Req) : Prop where
  clocks : s.clocksStopped = false
  next : s.nextReq n op = some q
  serves : s.mpServes = true
  from4 : 4 ≤ s.getF .mpBootstat MP_BOOTSTAT.STAGE
  until7 : s.getF .mpBootstat MP_BOOTSTAT.STAGE < 7

/-- Queue pair q holds a whole inbound record for a message of len bytes with the expected SEQ, and its PHYID names a cell of the pair's
context, or an idle one where the message allows that (R415, R417). -/
structure State.Inbound (s : State) (q seq len phy : Nat) (idle : Bool) : Prop where
  clocks : s.clocksStopped = false
  pair : q < 64
  live : s.qpLive q = true
  some_ : (s.qp q).inCons < (s.qp q).inProd
  whole : (s.qp q).inCons + ringNeed (2 ^ s.getF (.rlQpCtl q) RL_QP_CTL.LIN) (s.qp q).inCons (recordSize len) ≤ (s.qp q).inProd
  seq : seq = (s.qp q).inSeq +
    if ringNeed (2 ^ s.getF (.rlQpCtl q) RL_QP_CTL.LIN) (s.qp q).inCons (recordSize len) = recordSize len then 0 else 1
  cell : (∃ c, s.cell phy = some c ∧ c.ctx = s.getF (.rlQpCtl q) RL_QP_CTL.CTX) ∨ (s.cell phy = none ∧ idle = true ∧ phy < 1024)

/-- A P7 message of type t for a slot: taken in time it adds work to the slots that its cell processes; past its deadline or for a cell
that is not running, or outside the 64 slots ahead, it is answered by an ERROR.indication (R424, R425). -/
def slotRequest (row : Nat → Nat → Nat → Nat → Nat → Instr) (t : Nat) (lead : Nat → Nat) (work : Nat → SlotWork) : Prop :=
  ∀ (s : State) (q seq len phy slot : Nat) (c : Cell), s.Inbound q seq len phy false → s.cell phy = some c →
    (c.phase ≠ .running ∨ c.stopping = true ∨ s.beat.started = false →
      exec (row q seq len phy slot) s = .next (s.keep ((s.qpTake q len false).errorInd q phy errSTATE [t, slot]))) ∧
    (c.phase = .running → c.stopping = false → s.beat.started = true → hyperSlots c.mu ≤ slot →
      exec (row q seq len phy slot) s = .next (s.keep ((s.qpTake q len false).errorInd q phy errSFN [t, slot]))) ∧
    (c.phase = .running → c.stopping = false → s.beat.started = true → slot < hyperSlots c.mu →
      ∀ k, s.beatsTo c.mu slot = some k → let u := s.qpTake q len false; let b := s.slotBeats c.mu
        (lead b < k ∨ lead b = k ∧ s.gtc ≤ s.beat.boundary → k ≤ 64 * b →
          exec (row q seq len phy slot) s = .next (s.keep (u.acceptSlot phy (work slot)))) ∧
        (lead b < k → 64 * b < k → exec (row q seq len phy slot) s = .next (s.keep (u.errorInd q phy errSFN [t, slot]))) ∧
        (k < lead b ∨ lead b = k ∧ s.beat.boundary < s.gtc →
          let late := (u.errorInd q phy errSLOT [t, slot]).event srcMp 0 0x72 0xFF c.ctx (phy % 1024 + 1024 * t)
          exec (row q seq len phy slot) s = .next (s.keep (if t = 0x80 then late.idleSlot c slot else late))))

/-- A transaction arrives at port w, which is UP or FENCED, with operands that fit their fields. -/
structure State.Arrives (s : State) (w : Nat) (h : WyHdr) : Prop where
  clocks : s.clocksStopped = false
  port : w < 16
  fits : wyFits h = true
  link : s.wyState w = wyUP ∨ s.wyState w = wyFENCED

/-- Where a transaction goes (R452, R453): a FENCED port drops it; one for another device is sent on with one hop more; one for this
device has the effect here. Its flits have arrived in each case (R450). -/
def State.routed (s : State) (w : Nat) (h : WyHdr) (row : Instr) (msg : WyHdr → WyMsg) (here : State → State) : Prop :=
  let u := s.wyGot w (msg h).flits
  (s.wyState w = wyFENCED → exec row s = .next (s.keep u)) ∧
  (s.wyState w = wyUP → h.dst ≠ s.devid →
    exec row s = .next (s.keep (u.wySend w h.dst (h.hops + 1) 0x7F (msg { h with hops := h.hops + 1 })))) ∧
  (s.wyState w = wyUP → h.dst = s.devid → exec row s = .next (s.keep (here u)))

/-- A LINK message that fits its fields can arrive on ring side x while Waling serves (R467, R468). -/
structure State.Hears (s : State) (x : Nat) (m : WlMsg) : Prop where
  clocks : s.clocksStopped = false
  takes : s.wlTakes x = true
  fits : wlFits m = true

/-- The request q at the head of the device ring has this OP, and Grizor runs it now: it serves requests, runs no other device request
and activates nothing (R514, R520). -/
structure State.DevServes (s : State) (op : Nat) (q : Req) : Prop where
  clocks : s.clocksStopped = false
  head : s.devQ.head? = some q
  op_ : q.op = op
  serves : s.mpServes = true
  idle : s.boot.work = none
  act : s.boot.act = none

/-- The device queue without its head. -/
def State.dropDev (s : State) : State := { s with devQ := s.devQ.tail }

end Sys2Proof.Machine

open Sys2Proof Sys2Proof.Machine

/-! # Statements -/

/-! ## Scalar unit -/

/-- The R rows and the I rows of integer arithmetic (R49, R133, R167). -/
def Obligations.ScalarIntegerRowsWriteRd : Prop :=
  writesRd .add 0x01 legalR (fun s x => s.sval x x.ra + s.sval x x.rb) ∧
  writesRd .sub 0x02 legalR (fun s x => s.sval x x.ra - s.sval x x.rb) ∧
  writesRd .mul 0x03 legalR (fun s x => s.sval x x.ra * s.sval x x.rb) ∧
  writesRd .andS 0x04 legalR (fun s x => s.sval x x.ra &&& s.sval x x.rb) ∧
  writesRd .orS 0x05 legalR (fun s x => s.sval x x.ra ||| s.sval x x.rb) ∧
  writesRd .xorS 0x06 legalR (fun s x => s.sval x x.ra ^^^ s.sval x x.rb) ∧
  writesRd .sll 0x07 legalR (fun s x => s.sval x x.ra <<< ((s.sval x x.rb).toNat % 64)) ∧
  writesRd .sra 0x08 legalR (fun s x =>
    let n := (s.sval x x.rb).toNat % 64
    BitVec.ofInt 64 (if n = 0 then (s.sval x x.ra).toInt else ((s.sval x x.ra).toInt + 2 ^ (n - 1)) / 2 ^ n)) ∧
  writesRd .addi 0x0A legalI (fun s x => s.sval x x.ra + BitVec.ofInt 64 (signed 32 (x.f 31 0))) ∧
  writesRd .li 0x0B legalI0 (fun _ x => BitVec.ofInt 64 (signed 32 (x.f 31 0))) ∧
  writesRd .lih 0x0C legalI0 (fun s x => BitVec.ofNat 64 (x.f 31 0 * 2 ^ 32 + (s.sval x x.rd).toNat % 2 ^ 32)) ∧
  writesRd .bfx 0x09
    (fun s x => legalI s x && decide (x.f 7 6 = 0) && decide (x.f 31 14 = 0) && decide (x.f 5 0 + x.f 13 8 ≤ 63))
    (fun s x => BitVec.ofNat 64 ((s.sval x x.ra).toNat / 2 ^ x.f 5 0 % 2 ^ (x.f 13 8 + 1))) ∧
  writesRd .rdctr 0x37 (fun s x => legalI0 s x && decide (x.f 2 0 ≤ 4) && decide (x.f 31 3 = 0)) (fun s x =>
    match x.f 2 0 with
    | 0 => BitVec.ofNat 64 s.gtc
    | 1 => (((s.core x.p).resident x.cmd).map (·.step)).getD 0
    | 2 => BitVec.ofNat 64 (s.lcoreNo x.p)
    | 3 => BitVec.ofNat 64 ((((s.core x.p).resident x.cmd).map (·.index)).getD 0)
    | _ => BitVec.ofNat 64 x.i)

/-- Branches and jumps set the pc of their thread and change nothing else (R160, R167). -/
def Obligations.BranchesSetThePcAlone : Prop :=
  movesPc .beq 0x10 legalB (fun s x => if s.sval x x.ra = s.sval x x.rb then branchTo x else x.pc + 8) ∧
  movesPc .bne 0x11 legalB (fun s x => if s.sval x x.ra = s.sval x x.rb then x.pc + 8 else branchTo x) ∧
  movesPc .blt 0x12 legalB (fun s x => if (s.sval x x.ra).toInt < (s.sval x x.rb).toInt then branchTo x else x.pc + 8) ∧
  movesPc .bge 0x13 legalB (fun s x => if (s.sval x x.ra).toInt < (s.sval x x.rb).toInt then x.pc + 8 else branchTo x) ∧
  movesPc .bltu 0x14 legalB (fun s x => if (s.sval x x.ra).toNat < (s.sval x x.rb).toNat then branchTo x else x.pc + 8) ∧
  movesPc .bgeu 0x15 legalB (fun s x => if (s.sval x x.ra).toNat < (s.sval x x.rb).toNat then x.pc + 8 else branchTo x) ∧
  movesPc .jmp 0x16 (fun s x => legalB s x && decide (x.ra = 0) && decide (x.rb = 0)) (fun _ x => branchTo x) ∧
  movesPc .jr 0x17 (fun s x => legalR s x && decide (x.rd = 0) && decide (x.rb = 0)) (fun s x => (s.sval x x.ra).toNat)

/-- The floating-point rows write the FP32 result to the low half of rd (FCVTFI the 64-bit integer to rd) and set the side's flags
(R41, R48, R55, R56, R167). The high half of an FP32 result is a free value (log 3): the statement holds for every value of it. -/
def Obligations.ScalarFpRowsWriteResultAndFlags : Prop :=
  let fadd := fun s x => fAdd .fp32 (State.amode s x.p x.k) (lowOf s x x.ra) (lowOf s x x.rb)
  let fsub := fun s x => fSub .fp32 (State.amode s x.p x.k) (lowOf s x x.ra) (lowOf s x x.rb)
  let fmul := fun s x => fMul .fp32 (State.amode s x.p x.k) (lowOf s x x.ra) (lowOf s x x.rb)
  let ffma := fun s x => fFma .fp32 (State.amode s x.p x.k) (lowOf s x x.ra) (lowOf s x x.rb) (lowOf s x x.rc)
  let cvtif := fun s x => Fmt.encode .fp32 (State.amode s x.p x.k)
    ((FVal.ofInt (State.sval s x x.ra).toInt).scale (clampScale (signed 32 (Iss.f x 31 0))))
  let cvtfi := fun s x => fpToInt64 (signed 32 (Iss.f x 31 0)) (Fmt.fval .fp32 (lowOf s x x.ra))
  writesFp .fadd 0x20 legalR (lowHalf fadd) (fun s x => (fadd s x).2) ∧
  writesFp .fsub 0x21 legalR (lowHalf fsub) (fun s x => (fsub s x).2) ∧
  writesFp .fmul 0x22 legalR (lowHalf fmul) (fun s x => (fmul s x).2) ∧
  writesFp .ffma 0x23 legalR4 (lowHalf ffma) (fun s x => (ffma s x).2) ∧
  writesFp .fcvtif 0x24 legalI (lowHalf cvtif) (fun s x => (cvtif s x).2) ∧
  writesFp .fcvtfi 0x25 legalI (fun s x w => w = BitVec.ofInt 64 (cvtfi s x).1) (fun s x => (cvtfi s x).2)

/-- LD and ST (R123, R137, R167): LD reads its bytes at issue, and they arrive with LOAD_DATA_RETURN; ST writes the low bytes of rd at
the address and no other byte of the scratchpad. An outstanding load writes its register and leaves the list of loads (R121, R122): a scalar register of its thread, or the loaded
lanes of a vector register of its thread's side or of its plait; nothing else changes. -/
def Obligations.ScalarLoadsReadAndStoresWrite : Prop :=
  ((∀ (s : State) (p i : Nat) (x : Iss), s.Issues p i 0 0x18 x → ldForm x = true →
    s.readFault p x.k [(addrOf s x, sizeOfAccess x)] = none →
    ∃ t, exec (.ld p i) s = .next t ∧ s.CoreFrame t p [(x.pc, 8), (addrOf s x, sizeOfAccess x)] [] ∧
      (s.core p).ThreadFrame (t.core p) i ∧
      (t.core p).thread i = { (s.core p).thread i with
        pc := x.pc + 8
        loads := ((s.core p).thread i).loads ++ [⟨.scalar x.rd,
          let raw := (s.core p).sp.readLE (addrOf s x) (sizeOfAccess x)
          if x.f 34 34 = 1 then unsignedOf 64 (signed (8 * sizeOfAccess x) raw) else raw, 0⟩] }) ∧
  (∀ (s : State) (p i : Nat) (x : Iss), s.Issues p i 0 0x19 x → stForm x = true →
    s.writeFault p x.k [(addrOf s x, sizeOfAccess x)] = none →
    ∃ t, exec (.st p i) s = .next t ∧ s.CoreFrame t p [(x.pc, 8)] [] ∧
      t.core p = { s.core p with sp := (t.core p).sp, threads := (t.core p).threads, spCheck := (t.core p).spCheck } ∧
      (∀ j, j ≠ i → (t.core p).thread j = (s.core p).thread j) ∧
      (t.core p).thread i = { (s.core p).thread i with pc := x.pc + 8 } ∧
      (∀ a, (a < addrOf s x ∨ addrOf s x + sizeOfAccess x ≤ a) → t.spByte p a = s.spByte p a) ∧
      (t.core p).sp.readLE (addrOf s x) (sizeOfAccess x) = (s.sval x x.rd).toNat % 256 ^ sizeOfAccess x)) ∧
  ((∀ (s : State) (p i n : Nat) (l : Load) (rd : Nat), s.clocksStopped = false → p < 208 → i < 16 →
    ((s.core p).thread i).loads[n]? = some l → l.dest = .scalar rd →
    ∃ t, exec (.loadDataReturn p i n) s = .next t ∧ t = { s with cores := t.cores } ∧ (∀ q, q ≠ p → t.core q = s.core q) ∧
      (t.core p) = { s.core p with threads := (t.core p).threads } ∧ (∀ j, j ≠ i → (t.core p).thread j = (s.core p).thread j) ∧
      ((t.core p).thread i).loads = ((s.core p).thread i).loads.eraseIdx n ∧ ((t.core p).thread i).pc = ((s.core p).thread i).pc ∧
      ∀ m, ((t.core p).thread i).reg m = if m = rd ∧ rd ≠ 0 then BitVec.ofNat 64 l.data else ((s.core p).thread i).reg m) ∧
  (∀ (s : State) (p i n : Nat) (l : Load) (d : Nat), s.clocksStopped = false → p < 208 → i < 16 →
    ((s.core p).thread i).loads[n]? = some l → l.dest = .vector d →
    ∃ t, exec (.loadDataReturn p i n) s = .next t ∧ t = { s with cores := t.cores } ∧ (∀ q, q ≠ p → t.core q = s.core q) ∧
      (∀ j, (t.core p).thread j = if j = i then { (s.core p).thread i with loads := ((s.core p).thread i).loads.eraseIdx n }
        else (s.core p).thread j) ∧
      (∀ k, k < 2 → (t.core p).side k = { (s.core p).side k with bank := ((t.core p).side k).bank }) ∧
      (∀ k r, k < 2 → k ≠ threadSide i ∨ r ≠ d → ((t.core p).side k).bank.reg r = ((s.core p).side k).bank.reg r) ∧
      ((t.core p).side (threadSide i)).bank.reg d = ofLanes fun j =>
        if l.lanes.getLsbD j then laneOf (BitVec.ofNat 2048 l.data) j else laneOf (((s.core p).side (threadSide i)).bank.reg d) j) ∧
  (∀ (s : State) (p i n : Nat) (l : Load) (d : Nat), s.clocksStopped = false → p < 208 → 16 ≤ i →
    ((s.core p).plait (i - 16)).loads[n]? = some l → l.dest = .vector d →
    ∃ t, exec (.loadDataReturn p i n) s = .next t ∧ t = { s with cores := t.cores } ∧ (∀ q, q ≠ p → t.core q = s.core q) ∧
      (t.core p) = { s.core p with plaits := (t.core p).plaits } ∧
      (∀ j, j ≠ i - 16 → (t.core p).plait j = (s.core p).plait j) ∧
      (∀ r, r ≠ d → ((t.core p).plait (i - 16)).bank.reg r = ((s.core p).plait (i - 16)).bank.reg r) ∧
      ((t.core p).plait (i - 16)).loads = ((s.core p).plait (i - 16)).loads.eraseIdx n ∧
      ((t.core p).plait (i - 16)).bank.reg d = ofLanes fun j =>
        if l.lanes.getLsbD j then laneOf (BitVec.ofNat 2048 l.data) j else laneOf (((s.core p).plait (i - 16)).bank.reg d) j))

/-- FORK starts the lowest free thread of the side with the forker's registers, writes its number to rd, or writes -1 where no thread
is free; HALT ends its thread; WAITE holds it until at most n of its entries are incomplete (R134, R136). -/
def Obligations.ThreadsForkHaltAndWait : Prop :=
  (∀ (s : State) (p i n : Nat) (x : Iss), s.Issues p i 0 0x30 x → legalI0 s x = true → ((s.core p).thread i).region = none →
    (if i < 12 then List.range 12 else [12, 13, 14, 15]).find? (fun t => !((s.core p).thread t).running) = some n →
    ∃ t, exec (.fork p i) s = .next t ∧ s.CoreFrame t p [(x.pc, 8)] [] ∧
      (∀ j, j ≠ i → j ≠ n → (t.core p).thread j = (s.core p).thread j) ∧
      (∀ m, ((t.core p).thread i).reg m = if m = x.rd ∧ m ≠ 0 then BitVec.ofNat 64 n else ((s.core p).thread i).reg m) ∧
      ((t.core p).thread i).pc = x.pc + 8 ∧ ((t.core p).thread n).running = true ∧ ((t.core p).thread n).pc = branchTo x ∧
      ((t.core p).thread n).ctx = ((s.core p).thread i).ctx ∧ ((t.core p).thread n).cmd = ((s.core p).thread i).cmd ∧
      (∀ m, ((t.core p).thread n).reg m = ((t.core p).thread i).reg m)) ∧
  (∀ (s : State) (p i : Nat) (x : Iss), s.Issues p i 0 0x30 x → legalI0 s x = true → ((s.core p).thread i).region = none →
    (if i < 12 then List.range 12 else [12, 13, 14, 15]).find? (fun t => !((s.core p).thread t).running) = none →
    ∃ t, exec (.fork p i) s = .next t ∧ s.CoreFrame t p [(x.pc, 8)] [] ∧ (s.core p).ThreadFrame (t.core p) i ∧
      (∀ m, ((t.core p).thread i).reg m = if m = x.rd ∧ m ≠ 0 then BitVec.ofInt 64 (-1) else ((s.core p).thread i).reg m)) ∧
  (∀ (s : State) (p i : Nat) (x : Iss), s.Issues p i 0 0x31 x → legalNone s x = true → ((s.core p).thread i).region = none →
    exec (.halt p i) s =
      .next (s.keep (((s.spCorrect p x.pc 8).modThread p i fun t => { t with running := false }).endCheck p x.cmd))) ∧
  (∀ (s : State) (p i : Nat) (x : Iss), s.Issues p i 0 0x32 x → legalI0 s x = true → x.rd = 0 → x.f 7 2 = 0 → x.f 31 13 = 0 →
    x.f 1 0 ≠ 3 → x.f 12 8 ≤ 16 →
    ∃ t, exec (.waite p i) s = .next t ∧ s.CoreFrame t p [(x.pc, 8)] [] ∧ (s.core p).ThreadFrame (t.core p) i ∧
      (t.core p).thread i = { (s.core p).thread i with pc := x.pc + 8, wait := some ⟨x.f 1 0, x.f 12 8⟩ }) ∧
  (∀ (s : State) (p i : Nat) (w : Waite), s.clocksStopped = false → p < 208 → i < 16 → ((s.core p).thread i).running = true →
    ((s.core p).thread i).wait = some w → (s.core p).ownEntries i w.q ≤ w.n →
    ∃ t, exec (.waiteReturn p i) s = .next t ∧ t = { s with cores := t.cores } ∧ (∀ q, q ≠ p → t.core q = s.core q) ∧
      (t.core p) = { s.core p with threads := (t.core p).threads } ∧ (∀ j, j ≠ i → (t.core p).thread j = (s.core p).thread j) ∧
      (t.core p).thread i = { (s.core p).thread i with wait := none })

/-- Regions and locks (R173, R175, R178, R179): NPB opens a region; NPE closes it; LKACQ of a FREE lock takes it for the issuing context,
of a HELD one changes nothing and reads 1, of a BROKEN one takes it and reads 2 and LAST; LKREL frees a lock held by the issuing context and
closes the region that it opened, and leaves any other, reading 1. A word outside these forms is illegal (R182, R183). -/
def Obligations.RegionsAndLocksFollowTheirRules : Prop :=
  (∀ (s : State) (p i : Nat) (x : Iss), s.Issues p i 0 0x33 x → legalNone s x = true → ((s.core p).thread i).region = none →
    ∃ t, exec (.npb p i) s = .next t ∧ s.CoreFrame t p [(x.pc, 8)] [] ∧ (s.core p).ThreadFrame (t.core p) i ∧
      (t.core p).thread i = { (s.core p).thread i with pc := x.pc + 8, region := some .npb, hold := 0 }) ∧
  (∀ (s : State) (p i : Nat) (x : Iss), s.Issues p i 0 0x34 x → legalNone s x = true → ((s.core p).thread i).region = some .npb →
    ∃ t, exec (.npe p i) s = .next t ∧ s.CoreFrame t p [(x.pc, 8)] [.coreCqPre p] ∧ (∀ j, j ≠ i → (t.core p).thread j = (s.core p).thread j) ∧
      (t.core p).thread i = { (s.core p).thread i with pc := x.pc + 8, region := none, hold := 0 } ∧ s.DrainsWhenClosed t p [x.k]) ∧
  (∀ (s : State) (p i : Nat) (x : Iss), s.Issues p i 0 0x35 x → lkacqForm s x = true →
    let lock := Reg.coreCqLock p (x.f 6 0)
    let st := s.getF lock CORE_CQ_LOCK.STATE
    ∃ t, exec (.lkacq p i) s = .next t ∧ s.CoreFrame t p [(x.pc, 8)] [lock] ∧
      t.core p = { s.core p with threads := (t.core p).threads, plaits := (t.core p).plaits, spCheck := (t.core p).spCheck } ∧
      (∀ j, j ≠ i → (t.core p).thread j = (s.core p).thread j) ∧
      s.StatusTo t p x (if st = 1 then 1 else if st = 2 then 2 + 256 * s.getF lock CORE_CQ_LOCK.LAST else 0) ∧
      (∀ j, ((t.core p).thread j).region =
        if st ≠ 1 ∧ x.f 7 7 = 1 ∧ j = i then some (.lock (x.f 6 0)) else ((s.core p).thread j).region) ∧
      t.reg lock = if st = 1 then s.reg lock else
        CORE_CQ_LOCK.LEASE.set (CORE_CQ_LOCK.OWNER.set (CORE_CQ_LOCK.NP.set (CORE_CQ_LOCK.STATE.set (s.reg lock) 1) (x.f 7 7)) x.ctx.code)
          (x.f 15 8)) ∧
  (∀ (s : State) (p i : Nat) (x : Iss), s.Issues p i 0 0x36 x → lkrelForm s x = true →
    let lock := Reg.coreCqLock p (x.f 6 0)
    let mine := s.getF lock CORE_CQ_LOCK.STATE = 1 ∧ s.getF lock CORE_CQ_LOCK.OWNER = x.ctx.code
    ∃ t, exec (.lkrel p i) s = .next t ∧ s.CoreFrame t p [(x.pc, 8)] [lock, .coreCqPre p] ∧
      s.StatusTo t p x (if mine then 0 else 1) ∧
      (∀ j, ((t.core p).thread j).region =
        if mine ∧ ((s.core p).thread j).region = some (.lock (x.f 6 0)) then none else ((s.core p).thread j).region) ∧
      (mine → s.DrainsWhenClosed t p [0, 1]) ∧
      (¬ mine → t.reg (.coreCqPre p) = s.reg (.coreCqPre p) ∧
        t.core p = { s.core p with threads := (t.core p).threads, plaits := (t.core p).plaits, spCheck := (t.core p).spCheck }) ∧
      t.reg lock = if mine then
        CORE_CQ_LOCK.LEASE.set (CORE_CQ_LOCK.OWNER.set (CORE_CQ_LOCK.NP.set (CORE_CQ_LOCK.STATE.set (s.reg lock) 0) 0) 0) 0
        else s.reg lock) ∧
  (∀ (s : State) (p i : Nat) (x : Iss), s.Issues p i 0 0x35 x → lkacqForm s x = false → s.owed x = [] →
    exec (.lkacq p i) s = .next (s.keep ((s.spCorrect p x.pc 8).veFault p 3 x.ctx (issuerOf i)))) ∧
  (∀ (s : State) (p i : Nat) (x : Iss), s.Issues p i 0 0x36 x → lkrelForm s x = false → s.owed x = [] →
    exec (.lkrel p i) s = .next (s.keep ((s.spCorrect p x.pc 8).veFault p 3 x.ctx (issuerOf i))))

/-! ## Faults of the instruction stream -/

/-- An illegal word has no effect but the context fault of its issuer, with CAUSE 3, once the loads of its issuer before it have
completed, and waits for them (R182, R183): a word of a reserved class or opcode, and the forms that the integer rows do not allow; a fetch
outside the code region faults with CAUSE 1 (R160). What a fault of the VE or SU records in CORE_VE_FAULT (R150, R151): cause, context, SRC and ID when nothing is recorded yet, and OVR
alone when something is. -/
def Obligations.IllegalWordsFaultAndAreRecorded : Prop :=
  (let effect (s : State) (p i : Nat) (x : Iss) : State :=
    let r := s.spCorrect p x.pc 8
    if s.owed x = [] then r.veFault p 3 x.ctx (issuerOf i) else r
  (∀ (s : State) (p i : Nat) (x : Iss), s.Issues p i (x.f 62 60) (x.f 59 54) x → p < 208 →
    (opcodeNamed (x.f 62 60) (x.f 59 54) = false ∨ issuerMay (decide (i < 16)) (x.f 62 60) (x.f 59 54) = false) →
    exec (.illegalInstruction p i) s = .next (s.keep (effect s p i x))) ∧
  (∀ (s : State) (p i : Nat) (x : Iss), legalR s x = false →
    (s.Issues p i 0 0x01 x → exec (.add p i) s = .next (s.keep (effect s p i x))) ∧
    (s.Issues p i 0 0x02 x → exec (.sub p i) s = .next (s.keep (effect s p i x))) ∧
    (s.Issues p i 0 0x03 x → exec (.mul p i) s = .next (s.keep (effect s p i x)))) ∧
  (∀ (s : State) (p i : Nat) (x : Iss), s.clocksStopped = false → s.iss p i = some x → s.fetchOk x = false →
    exec (.instructionFetchFault p i) s = .next (s.keep (s.veFault p 1 x.ctx (issuerOf i))))) ∧
  (∀ (s : State) (p cause n : Nat) (ctx : Ctx), cause < 16 → n < 16 →
    let t := s.recordVe p cause ctx (.thread n)
    let r := Reg.coreVeFault p
    (s.getF r CORE_VE_FAULT.VALID = 0 →
      t.getF r CORE_VE_FAULT.VALID = 1 ∧ t.getF r CORE_VE_FAULT.CAUSE = cause ∧ t.getF r CORE_VE_FAULT.CTX = ctx.code ∧
      t.getF r CORE_VE_FAULT.SRC = 0 ∧ t.getF r CORE_VE_FAULT.ID = n ∧ t.getF r CORE_VE_FAULT.OVR = s.getF r CORE_VE_FAULT.OVR) ∧
    (s.getF r CORE_VE_FAULT.VALID = 1 →
      t.getF r CORE_VE_FAULT.OVR = 1 ∧ t.getF r CORE_VE_FAULT.VALID = 1 ∧
      t.getF r CORE_VE_FAULT.CAUSE = s.getF r CORE_VE_FAULT.CAUSE ∧ t.getF r CORE_VE_FAULT.CTX = s.getF r CORE_VE_FAULT.CTX) ∧
    (∀ q, q ≠ r → q ≠ .gctlElogLost → t.reg q = s.reg q))

/-! ## Vector engine -/

/-- The vector rows that write lanes of v register D: each active lane takes the row's value, each inactive lane keeps its own (R114,
R116, R118, R127, R142, R170, R567 to R573). -/
def Obligations.VectorRowsWriteActiveLanes : Prop :=
  let vv (g : VIn → Nat → Nat × Flags) : VIn → VOut := fun i => i.lanes i.f.d (g i)
  vectorRow .vadd 0x01 useDAB.legal (vv fun i l => ((i.la l + i.lb l) % 2 ^ 32, 0)) ∧
  vectorRow .vsub 0x02 useDAB.legal (vv fun i l => ((i.la l + (2 ^ 32 - i.lb l)) % 2 ^ 32, 0)) ∧
  vectorRow .vshl 0x03 useDAB.legal (vv fun i l => (if i.lb l < 32 then i.la l * 2 ^ i.lb l % 2 ^ 32 else 0, 0)) ∧
  vectorRow .vadds 0x04 useDABF.legal (vv fun i l => onElems i.fmt (arithElem .add i.fmt i.am) (i.la l) (i.lb l)) ∧
  vectorRow .vsubs 0x05 useDABF.legal (vv fun i l => onElems i.fmt (arithElem .sub i.fmt i.am) (i.la l) (i.lb l)) ∧
  vectorRow .vmul 0x06 useDABF.legal (vv fun i l => onElems i.fmt (arithElem .mul i.fmt i.am) (i.la l) (i.lb l)) ∧
  vectorRow .vfma 0x07 useVfma.legal (vv fun i l => packLane i.fmt i.fmt.perLane fun e =>
    fFma i.fmt i.am (elemBits i.fmt (i.la l) e) (elemBits i.fmt (i.lb l) e) (elemBits i.fmt (i.lc l) e)) ∧
  vectorRow .vdot 0x08 useVdot.legal (vv fun i l =>
    let r := satSym 32 ((List.range i.fmt.perLane).foldl
      (fun acc e => acc + i.fmt.intVal (elemBits i.fmt (i.la l) e) * i.fmt.intVal (elemBits i.fmt (i.lb l) e)) (signed 32 (i.ld l)))
    (unsignedOf 32 r.1, r.2)) ∧
  vectorRow .vsra 0x09 useDAB.legal (vv fun i l =>
    (if i.lb l < 32 then unsignedOf 32 (shiftRound (signed 32 (i.la l)) (i.lb l)) else 0, 0)) ∧
  vectorRow .vand 0x0A useDABF.legal (vv fun i l => (i.la l &&& i.lb l, 0)) ∧
  vectorRow .vor 0x0B useDABF.legal (vv fun i l => (i.la l ||| i.lb l, 0)) ∧
  vectorRow .vxor 0x0C useDABF.legal (vv fun i l => (i.la l ^^^ i.lb l, 0)) ∧
  vectorRow .vmin 0x0D useDABF.legal (vv fun i l => onElems i.fmt (arithElem .min i.fmt i.am) (i.la l) (i.lb l)) ∧
  vectorRow .vmax 0x0E useDABF.legal (vv fun i l => onElems i.fmt (arithElem .max i.fmt i.am) (i.la l) (i.lb l)) ∧
  vectorRow .vsel 0x10 useVsel.legal (vv fun i l => (if (i.bank.mask (i.f.imm % 8)).getLsbD l then i.la l else i.lb l, 0)) ∧
  vectorRow .vrcp 0x19 useDA.legal (vv fun i l => fp32Recip i.am (Fmt.fval .fp32 (i.la l))) ∧
  vectorRow .vrsq 0x1A useDA.legal (vv fun i l => fp32Rsqrt i.am (Fmt.fval .fp32 (i.la l))) ∧
  vectorRow .vexp2 0x1B useDA.legal (vv fun i l => fp32Exp2 i.am (Fmt.fval .fp32 (i.la l))) ∧
  vectorRow .vlog2 0x1C useDA.legal (vv fun i l => fp32Log2 i.am (Fmt.fval .fp32 (i.la l))) ∧
  vectorRow .vsid 0x27 useVsid.legal (vv fun i l => (i.sid (i.f.imm % 8) l % 2 ^ 32, 0)) ∧
  vectorRow .vbcst 0x28 useVbcst.legal (vv fun i _ => (i.ss.toNat % 2 ^ 32, 0))

/-- VPERM4 moves whole lanes by the selectors in B (R573). -/
def Obligations.PermuteTakesTheSelectedLane : Prop :=
  ∀ (s : State) (p i : Nat) (x : Iss), s.Issues p i 2 0x16 x → useDAB.legal s x = true →
    ∃ t, exec (.vperm4 p i) s = .next t ∧
      (∀ l, l < 64 → (s.onLanes x).getLsbD l = true →
        laneOf ((t.bank x).reg x.v.d) l =
          let sel := laneOf ((s.bank x).reg x.v.b) l
          laneOf ((s.bank x).reg (x.v.a + sel / 64 % 4)) (sel % 64)) ∧
      (∀ l, l < 64 → (s.onLanes x).getLsbD l = false → laneOf ((t.bank x).reg x.v.d) l = laneOf ((s.bank x).reg x.v.d) l) ∧
      (∀ r, r ≠ x.v.d → (t.bank x).reg r = (s.bank x).reg r)

/-- The other vector rows on registers: masks, accumulators, conversions, reductions and check nodes take what the row's function makes
of the bank, and nothing but that bank, SR and the flags changes (R115, R127, R128, R130 to R132, R172, R568, R569). A lane whose mask bit is 0 keeps its value under every row that writes lanes, and sets no flag; a lane whose bit is 1 takes the low
32 bits of the row's value; no other register, mask or accumulator changes (R118). -/
def Obligations.VectorRowsKeepOtherLanesAndState : Prop :=
  (vectorRow .vcmp 0x0F vcmpLegal vCmp ∧ vectorRow .vcvt 0x11 useVcvt.legal vCvt ∧ vectorRow .vcmac 0x12 useVcmac.legal vCmac ∧
  vectorRow .vbf4 0x13 useVbf4.legal vBf4 ∧ vectorRow .vbex 0x14 useVbex.legal vBex ∧ vectorRow .vmova 0x15 useVmova.legal vMova ∧
  vectorRow .vperm4 0x16 useDAB.legal vPerm4 ∧ vectorRow .vred 0x17 useRed.legal vRed ∧ vectorRow .vscan 0x18 useRed.legal vScan ∧
  vectorRow .vcni 0x1D useVcni.legal vCni ∧ vectorRow .vcnu 0x1E useVcnu.legal vCnu ∧ vectorRow .vcno 0x1F useVcno.legal vCno) ∧
  (∀ (i : VIn) (d : Nat) (g : Nat → Nat × Flags),
    (∀ l, l < 64 → laneOf ((i.lanes d g).bank.reg d) l = if i.on.getLsbD l then (g l).1 % 2 ^ 32 else laneOf (i.bank.reg d) l) ∧
    (∀ r, r ≠ d → (i.lanes d g).bank.reg r = i.bank.reg r) ∧
    (∀ k, (i.lanes d g).bank.mask k = i.bank.mask k) ∧ (∀ n, (i.lanes d g).bank.vacc n = i.bank.vacc n) ∧
    (i.on = 0 → (i.lanes d g).flags = 0))

/-- VLD, VLDS and VGTH (R123, R170, R570). VST, VSTS and VSCT of formats that are not BFP, in ascending lane order (R123, R124, R170, R570). -/
def Obligations.VectorMemoryRowsUseTheActiveLanes : Prop :=
  (vectorLoad .vld 0x20 useVld.legal (fun s x l => (s.vAddr x l, 4)) (fun s x l => (s.core x.p).sp.readLE (s.vAddr x l) 4) ∧
  vectorLoad .vlds 0x22 useVlds.legal (fun s x l => (s.stridedElt x (s.vfmt x) l).span (s.vfmt x))
    (fun s x l => (widen (s.vfmt x) (s.core x.p).sp (s.stridedElt x (s.vfmt x) l)).1) ∧
  vectorLoad .vgth 0x24 useVgth.legal
    (fun s x l => (eltOfLane (s.vfmt x) (laneOf ((s.bank x).reg x.v.a) l)).span (s.vfmt x))
    (fun s x l => (widen (s.vfmt x) (s.core x.p).sp (eltOfLane (s.vfmt x) (laneOf ((s.bank x).reg x.v.a) l))).1)) ∧
  (vectorStore .vst 0x21 useVld.legal (fun s x => (lanesOn (s.onLanes x)).map fun l => (s.vAddr x l, 4))
    (fun s x c => (lanesOn (s.onLanes x)).foldl
      (fun c l => c.spWrite (s.vAddr x l) (leBytes 4 (laneOf ((s.bank x).reg x.v.d) l))) c) ∧
  vectorStore .vsts 0x23 (fun s x => useVlds.legal s x && !(s.vfmt x).isBfp)
    (fun s x => (lanesOn (s.onLanes x)).map fun l => (s.stridedElt x (s.vfmt x) l).span (s.vfmt x))
    (fun s x c => (lanesOn (s.onLanes x)).foldl (fun c l => storeElem (s.vfmt x) c (s.stridedElt x (s.vfmt x) l)
      (narrow (s.amode x.p x.k) (s.vfmt x) ((s.bank x).reg x.v.d) l).1) c) ∧
  vectorStore .vsct 0x25 useVsct.legal
    (fun s x => (lanesOn (s.onLanes x)).map fun l => (eltOfLane (s.vfmt x) (laneOf ((s.bank x).reg x.v.a) l)).span (s.vfmt x))
    (fun s x c => (lanesOn (s.onLanes x)).foldl (fun c l => storeElem (s.vfmt x) c
      (eltOfLane (s.vfmt x) (laneOf ((s.bank x).reg x.v.a) l)) (narrow (s.amode x.p x.k) (s.vfmt x) ((s.bank x).reg x.v.d) l).1) c) ∧
  (∀ (s : State) (p i : Nat) (x : Iss), s.Issues p i 2 0x23 x → useVlds.legal s x = true → (s.vfmt x).isBfp = true →
    (s.sval x x.v.sr).toNat = 1 →
    exec (.vsts p i) s = .next (s.keep ((s.spCorrect p x.pc 8).storeBfp x (s.vfmt x)))))

/-- VATOM reads and writes its lanes' words one after the other in ascending lane order, and returns the old values as a load (R124,
R125). -/
def Obligations.AtomicsRunInLaneOrder : Prop :=
  ∀ (s : State) (p i : Nat) (x : Iss), s.Issues p i 2 0x26 x → useVatom.legal s x = true →
    let spans := (lanesOn (s.onLanes x)).map fun l => (laneOf ((s.bank x).reg x.v.a) l, 4)
    let run := atomRun (s.amode p x.k) (x.v.imm % 16) ((s.bank x).reg x.v.a) ((s.bank x).reg x.v.b) ((s.bank x).reg x.v.c)
      (lanesOn (s.onLanes x)) (s.core p, [], 0)
    s.readFault p x.k spans = none → s.writeFault p x.k spans = none →
    ∃ t l, exec (.vatom p i) s = .next t ∧ (t.core p).sp = run.1.sp ∧
      (∀ a, (∀ z ∈ spans, a < z.1 ∨ z.1 + z.2 ≤ a) → t.spByte p a = s.spByte p a) ∧ (∀ q, q ≠ p → t.core q = s.core q) ∧
      t.bank x = s.bank x ∧ pcOf t x = x.pc + 8 ∧ loadsOf t x = loadsOf s x ++ [l] ∧ l.dest = .vector x.v.d ∧
      l.lanes = s.onLanes x ∧ ∀ n, n < 64 → laneOf (BitVec.ofNat 2048 l.data) n = SMap.get 0 run.2.1 n % 2 ^ 32

/-! ## Plaits -/

/-- The rows of divergence and masking change the active mask and the stack of their plait as R144 says; SKB marks it as arrived. EXIT of the
last live lanes ends the plait (R145). The skein barrier: once every plait of the skein has arrived, ended ones counting as arrived, all of them go on, and the plaits of
other skeins are left as they are (R146). -/
def Obligations.PlaitsBranchAndMeetAtBarriers : Prop :=
  (plaitRow .ifP 0x30
    (fun s x => useCtlK.legal s x && decide ((s.plaitOf x).stack.length < 32))
    (fun x q => { q with pc := x.pc + 8, active := q.active &&& q.bank.mask x.v.k,
                         stack := .cond q.active (q.active &&& q.bank.mask x.v.k) :: q.stack }) ∧
  plaitRow .elseP 0x31 (fun s x => useCtl.legal s x && topIsCond (s.plaitOf x))
    (fun x q => match q.stack with
      | .cond saved taken :: r => { q with pc := x.pc + 8, active := saved &&& ~~~taken, stack := .cond saved (saved &&& ~~~taken) :: r }
      | _ => q) ∧
  plaitRow .endifP 0x32 (fun s x => useCtl.legal s x && topIsCond (s.plaitOf x))
    (fun x q => match q.stack with
      | .cond saved _ :: r => { q with pc := x.pc + 8, active := saved, stack := r }
      | _ => q) ∧
  plaitRow .loopP 0x33 (fun s x => useCtl.legal s x && decide ((s.plaitOf x).stack.length < 32))
    (fun x q => { q with pc := x.pc + 8, stack := .loop q.active q.active (x.pc + 8) :: q.stack }) ∧
  plaitRow .brkP 0x34 (fun s x => useCtlK.legal s x && inLoop (s.plaitOf x).stack)
    (fun x q => { q with pc := x.pc + 8, active := q.active &&& ~~~(q.active &&& q.bank.mask x.v.k),
                         stack := dropLanes true (q.active &&& q.bank.mask x.v.k) q.stack }) ∧
  plaitRow .contP 0x35 (fun s x => useCtlK.legal s x && inLoop (s.plaitOf x).stack)
    (fun x q => { q with pc := x.pc + 8, active := q.active &&& ~~~(q.active &&& q.bank.mask x.v.k),
                         stack := dropLanes false (q.active &&& q.bank.mask x.v.k) q.stack }) ∧
  plaitRow .endloopP 0x36 (fun s x => useCtl.legal s x && topIsLoop (s.plaitOf x))
    (fun x q => match q.stack with
      | .loop saved rest body :: r =>
        if rest = 0 then { q with pc := x.pc + 8, active := saved, stack := r } else { q with pc := body, active := rest }
      | _ => q) ∧
  plaitRow .exitP 0x37 (fun s x => useCtl.legal s x && decide ((s.plaitOf x).live &&& ~~~(s.plaitOf x).active ≠ 0))
    (fun x q => { q with pc := x.pc + 8, live := q.live &&& ~~~q.active, active := 0, stack := exitLanes q.active q.stack }) ∧
  plaitRow .skb 0x38 useCtl.legal (fun x q => { q with pc := x.pc + 8, arrived := true }) ∧
  (∀ (s : State) (p i : Nat) (x : Iss), s.Issues p i 2 0x37 x → useCtl.legal s x = true → 16 ≤ i →
    (s.plaitOf x).live &&& ~~~(s.plaitOf x).active = 0 →
    let r := s.spCorrect p x.pc 8
    let q := s.plaitOf x
    exec (.exitP p i) s = .next (s.keep (((r.setPlaitOf x
      { q with live := 0, stack := exitLanes q.active q.stack, active := 0 }).advance x).plaitEnd p (i - 16))))) ∧
  (∀ (s : State) (p n : Nat), s.clocksStopped = false → p < 208 → n < 256 → ((s.core p).plait n).arrived = true →
    (∀ y ∈ (s.core p).plaits, y.2.cmd = ((s.core p).plait n).cmd → y.2.skein = ((s.core p).plait n).skein → y.2.arrived = true) →
    ∃ t, exec (.skbRelease p n) s = .next t ∧ t = { s with cores := t.cores } ∧ (∀ q, q ≠ p → t.core q = s.core q) ∧
      t.core p = { s.core p with plaits := (t.core p).plaits } ∧ ((t.core p).plait n).arrived = false ∧
      (∀ m, m < 256 → ((s.core p).plait m).cmd = ((s.core p).plait n).cmd → ((s.core p).plait m).skein = ((s.core p).plait n).skein →
        (t.core p).plait m = { (s.core p).plait m with arrived := false }) ∧
      (∀ m, ((s.core p).plait m).cmd ≠ ((s.core p).plait n).cmd ∨ ((s.core p).plait m).skein ≠ ((s.core p).plait n).skein →
        (t.core p).plait m = (s.core p).plait m))

/-! ## Matrix engine -/

/-- MMT, MWL and MDR enter the queue of their side; while the queue holds 16 entries the thread waits, and only the fetched word is
corrected (R135). An MMT, an MDR and a weight pass that are in progress complete: their sums reach the accumulators, their rows the scratchpad, their
tiles the array; then the queue issues on, that of the other side of a stake core too, and the command may end (R77, R82, R92, R97, R134). The
second pass after a return loads the tenant side's shadow tiles again (R101). One activation vector of real integers: every cell of its row takes the segment sums in ascending row order, each addition
saturating before the next; without ACC the row starts from 0 and its tag becomes 0; every other cell keeps its value (R51, R61, R63, R90). -/
def Obligations.MatrixRowsAreQueuedAndComplete : Prop :=
  (entersMeQueue .mmt 0x01 mmtLegal (fun s x => .mmt (s.mmtOf x)) ∧ entersMeQueue .mwl 0x02 mwlLegal (fun s x => .mwl (s.mwlOf x)) ∧
  entersMeQueue .mdr 0x03 mdrLegal (fun s x => .mdr (s.mdrOf x)) ∧
  (∀ (s : State) (p i : Nat) (x : Iss), s.Issues p i 1 0x01 x → mmtLegal s x = true →
    16 ≤ ((s.core p).side x.k).meQ.length → exec (.mmt p i) s = .next (s.keep (s.spCorrect p x.pc 8)))) ∧
  ((∀ (s : State) (p k : Nat) (e : MeEntry) (o : MmtOp), s.clocksStopped = false → p < 208 → k < 2 → e.op = .mmt o →
    (s.core p).running k e.id = some e → (s.core p).mmtDone k e o = true →
    exec (.mmtComplete p k e.id) s = .next (s.keep (((s.runMmt p k e o o.m).meKickBoth p k).endCheck p e.cmd))) ∧
  (∀ (s : State) (p k : Nat) (e : MeEntry) (o : MdrOp), s.clocksStopped = false → p < 208 → k < 2 → e.op = .mdr o →
    (s.core p).running k e.id = some e → (s.core p).mdrDone k e = true →
    exec (.mdrComplete p k e.id) s = .next (s.keep (((s.runMdr p k e o o.nrows).meKick p k).endCheck p e.cmd))) ∧
  (∀ (s : State) (p k : Nat) (e : MeEntry) (o : MwlOp) (t : Tile), s.clocksStopped = false → p < 208 → k < 2 → e.op = .mwl o →
    e.phase = .running → ((s.core p).side k).meQ.filter (fun e => e.mwl?.isSome && e.phase == .running) = [e] →
    (s.core p).tile? e.id = some t → (s.core p).reload = [] →
    exec (.weightPassComplete p k) s =
      .next (s.keep (((((s.loadTile p k t).modCore p fun c => c.dropMe k e.id)).meKickBoth p k).endCheck p e.cmd))) ∧
  (∀ (s : State) (p : Nat), s.clocksStopped = false → p < 208 → (s.core p).reload ≠ [] → (s.core p).t.stop = .run →
    (s.core p).borrow = none → (s.core p).takeover = none →
    exec (.weightPassComplete p 0) s = .next (s.keep ((s.reloadShadow p).meKickBoth p 0)))) ∧
  (∀ (x : Side) (o : MmtOp) (wf : Fmt) (cols : List (List Seg)) (act : List Seg × Flags) (row j : Nat),
    o.af.isScaled = false → wf.isScaled = false → wf.isComplex = false → (∀ a ∈ act.1, a.bad = false) →
    (∀ l ∈ cols, ∀ w ∈ l, w.bad = false) → j < (partGeom o.part).2.2.2 →
    (x.accAt row ((partGeom o.part).2.2.1 + j) = accPoison ∨ (x.accAt row ((partGeom o.part).2.2.1 + j)).natAbs < 2 ^ 47) →
    let y := (mmtVector x o wf cols act row).1
    y.accAt row ((partGeom o.part).2.2.1 + j) =
        addSegments (if o.acc then x.accAt row ((partGeom o.part).2.2.1 + j) else 0) (((cols[j]?).getD []).zip act.1) ∧
      (∀ r c, c < 256 → (r ≠ row ∨ c < (partGeom o.part).2.2.1 ∨ (partGeom o.part).2.2.1 + (partGeom o.part).2.2.2 ≤ c) →
        y.accAt r c = x.accAt r c) ∧
      (o.acc = false → y.tag row = 0) ∧ (∀ r, r ≠ row → y.tag r = x.tag r) ∧ y.bank = x.bank ∧ y.meQ = x.meQ)

/-! ## Copy engines -/

/-- Transactions of a started descriptor (R200, R201, R203): a read with a free staging block is issued, and a write with fewer than 8 in flight,
of the first piece that is not written; a transaction that has entered every point of its route completes: it moves its bytes, those that
overlap the descriptor's own source settled as free values (R199), and the entry's count of bytes moved grows by whole flits (R218). Companion
data comes with the lines that a port has carried (R298); a bank under refresh holds its stack transactions (R231); a Withy transaction is sent
while fewer than 512 are held. The first entry of a queue whose bytes have all been written leaves the queue, with its NOTIFY add; one with both
ends in the own scratchpad moves its pieces at once. -/
def Obligations.CopyTransactionsIssueAndComplete : Prop :=
  let dst (y : CeEntry) (t : Txn) : Nat := (match y.pieces.find? fun q => q.no == t.piece with | some q => q.dst | none => 0) + t.offset
  let out (s : State) (p k e id : Nat) (y : CeEntry) (t : Txn) : Prop := s.clocksStopped = false ∧ p < 208 ∧ k < 2 ∧ e < 2 ∧
    (s.ceQueue p k e).entries.find? (fun y => y.inflight.any fun u => u.id == id) = some y ∧
    y.inflight.find? (fun u => u.id == id) = some t ∧ t.path = []
  (∀ (s : State) (p k e : Nat) (comp : List Nat) (y : CeEntry) (q : Piece) (off len : Nat) (rest : List (Nat × Nat)),
    s.clocksStopped = false → s.ceRuns p k e = true → (s.ceQueue p k e).flying < 8 → (s.ceQueue p k e).issuing = some y →
    y.pieces.find? (fun q => !q.reads.isEmpty) = some q → q.reads = (off, len) :: rest →
    exec (.transactionIssue p k e false comp) s = .next (s.keep (s.issueTxn p k e y q false off len comp))) ∧
  (∀ (s : State) (p k e : Nat) (comp : List Nat) (y : CeEntry) (q : Piece) (off len : Nat) (rest : List (Nat × Nat)),
    s.clocksStopped = false → s.ceRuns p k e = true → y.inflight.length < 8 → (s.ceQueue p k e).issuing = some y →
    y.pieces.find? (fun q => q.out.isNone || !q.writes.isEmpty) = some q → q.writes = (off, len) :: rest →
    exec (.transactionIssue p k e true comp) s = .next (s.keep (s.issueTxn p k e y q true off len comp))) ∧
  (∀ (s : State) (p k e id : Nat) (data : List Nat) (y : CeEntry) (t : Txn) (a : Nat), out s p k e id y t → t.write = true →
    t.place = .comp a →
    let r := (s.endTxn p k e y t).settle p y (dst y t) t.data
    exec (.weaveTransactionComplete p k e id data) s =
      .next (s.keep ((r.2.compWrite y.ctx.inst (ringOfCmd y.cmd) a r.1).writeDone p k e y.id t))) ∧
  (∀ (s : State) (p k e id : Nat) (data : List Nat) (y : CeEntry) (t : Txn) (a : Nat), out s p k e id y t → t.write = false →
    t.place = .comp a → data.length = t.len → s.engineLines p k e id = true →
    exec (.weaveTransactionComplete p k e id data) s =
      .next (s.keep (((s.endTxn p k e y t).engineAnswered p k e id).readArrived p k e y.id t (data.map (BitVec.ofNat 8))))) ∧
  (∀ (s : State) (p k e id : Nat) (data : List Nat) (y : CeEntry) (t : Txn) (a : Nat), out s p k e id y t → t.write = true →
    t.place = .stack a → s.bankHeld y.ctx.inst a true = false →
    let r := (s.endTxn p k e y t).settle p y (dst y t) t.data
    exec (.weaveTransactionComplete p k e id data) s = .next (s.keep (match r.2.stackWrite y.ctx.inst a r.1 with
      | some u => u.writeDone p k e y.id t
      | none => (s.endTxn p k e y t).ceEntryFault p e y 2))) ∧
  (∀ (s : State) (p k e id : Nat) (data : List Nat) (y : CeEntry) (t : Txn) (a : Nat), out s p k e id y t → t.write = false →
    t.place = .stack a → s.bankHeld y.ctx.inst a false = false →
    exec (.weaveTransactionComplete p k e id data) s =
      .next (s.keep (match (s.endTxn p k e y t).stackRead y.ctx.inst a t.len with
        | (some bs, u) => u.readArrived p k e y.id t bs
        | (none, u) => u.ceEntryFault p e y 2))) ∧
  (∀ (s : State) (p k e id : Nat) (data : List Nat) (y : CeEntry) (t : Txn) (q a : Nat), out s p k e id y t → t.write = false →
    t.place = .peer q a → (s.core q).spBad a t.len = false →
    exec (.weaveTransactionComplete p k e id data) s =
      .next (s.keep ((((s.endTxn p k e y t).spCorrect q a t.len)).readArrived p k e y.id t ((s.core q).sp.read a t.len)))) ∧
  (∀ (s : State) (p k e id : Nat) (data : List Nat) (y : CeEntry) (t : Txn) (d a : Nat), out s p k e id y t → t.write = true →
    t.place = .withy d a → s.withy.held.length < 512 →
    exec (.weaveTransactionComplete p k e id data) s =
      .next (s.keep (((s.endTxn p k e y t).withySend p k e y t d a).writeDone p k e y.id t))) ∧
  (∀ (s : State) (p k e id : Nat) (data : List Nat) (y : CeEntry) (t : Txn) (d a : Nat), out s p k e id y t → t.write = false →
    t.place = .withy d a → s.withy.held.length < 512 → s.wyHolds p k e id = false →
    exec (.weaveTransactionComplete p k e id data) s = .next (s.keep (s.withySend p k e y t d a))) ∧
  (∀ (s : State) (p k e : Nat) (y : CeEntry) (rest : List CeEntry), s.clocksStopped = false → s.ceRuns p k e = true →
    (s.ceQueue p k e).entries = y :: rest → y.started = true →
    y.desc.own = true ∨ (y.opened = true ∧ y.issued = true ∧ y.pieces = [] ∧ y.inflight = []) →
    let s1 := if y.desc.own then s.runLocal p k e y.id y.desc.pieceBound else s
    exec (.copyDescriptorComplete p k e) s = .next (s.keep (match s1.entry? p k e y.id with
      | none => s1
      | some z => if z.opened then
          (((s1.modCe p k e fun q => { q with entries := q.entries.filter fun u => u.id != z.id }).notifyAdd p k e z).modCmd z.cmd
            fun c => if z.thread.isNone then { c with copied := c.copied + 1 } else c).endCheck p z.cmd
        else s1)))

/-- The next copy descriptor of a queue starts: a legal one of its row's OP whose notify word and index list lie in the side's range is
marked as started and nothing else changes; an illegal one faults with CAUSE 3 (R192, R202, R204). CPQ puts the 64-byte descriptor at its register's address at the end of CE0's or CE1's queue (R135, R171, R192). The NOTIFY add is a 32-bit wrapping add to its word, and no other byte changes (R203). -/
def Obligations.CopiesAreQueuedStartedAndNotified : Prop :=
  (∀ (s : State) (p k e : Nat) (y : CeEntry), s.clocksStopped = false → s.ceRuns p k e = true → (s.ceQueue p k e).startable = some y →
    let starts (row : Nat → Nat → Nat → Instr) (op : Nat) : Prop := y.desc.op = op →
      (y.desc.legal = true → (y.desc.sspace = 3 ∨ y.desc.dspace = 3 → s.getF (.wyGroup y.ctx.inst) WY_GROUP.GROUP ≠ 0) →
        (y.desc.notify = true → s.spOk p k y.desc.naddr 4 = true) →
        (y.desc.op = opGATHER → s.spOk p k y.desc.idxaddr (y.desc.nidx * 2 * 2 ^ y.desc.idxw) = true) →
        ∃ t, exec (row p k e) s = .next t ∧ t = { s with cores := t.cores } ∧ (∀ q, q ≠ p → t.core q = s.core q) ∧
          (t.ceQueue p k e).entries = (s.ceQueue p k e).entries.map (fun z => if z.id = y.id then { z with started := true } else z) ∧
          (t.core p).sp = (s.core p).sp) ∧
      (y.desc.legal = false → exec (row p k e) s = .next (s.keep (s.ceFault p 3 y.ctx e)))
    starts .lin opLIN ∧ starts .rect opRECT ∧ starts .box opBOX ∧ starts .gather opGATHER ∧ starts .fill opFILL ∧
      (y.desc.op = 0 ∨ 5 < y.desc.op → exec (.illegalCopyDescriptor p k e) s = .next (s.keep (s.ceFault p 3 y.ctx e)))) ∧
  (∀ (s : State) (p i : Nat) (x : Iss), s.Issues p i 3 0x01 x → i < 16 → x.vOk false = true → x.f 47 0 = 0 →
    let a := (s.sval x (x.f 52 48)).toNat
    a % 64 = 0 → s.readFault p x.k [(a, 64)] = none → (s.ceQueue p x.k (x.f 53 53)).entries.length < 16 →
    ∃ t y, exec (.cpq p i) s = .next t ∧ s.CoreFrame t p [(x.pc, 8), (a, 64)] [] ∧
      (t.ceQueue p x.k (x.f 53 53)).entries = (s.ceQueue p x.k (x.f 53 53)).entries ++ [y] ∧
      y.desc = CopyDesc.ofBytes ((s.core p).sp.read a 64) ∧ y.thread = some i ∧ y.ctx = x.ctx ∧ y.cmd = x.cmd ∧ y.started = false ∧
      (t.core p).sp = (s.core p).sp ∧ ((t.core p).thread i) = { (s.core p).thread i with pc := x.pc + 8 }) ∧
  (∀ (s : State) (p k e : Nat) (y : CeEntry), y.desc.notify = true → s.writeFault p k [(y.desc.naddr, 4)] = none →
    let t := s.notifyAdd p k e y
    (t.core p).sp.readLE y.desc.naddr 4 = ((s.core p).sp.readLE y.desc.naddr 4 + y.desc.nval) % 2 ^ 32 ∧
      (∀ a, (a < y.desc.naddr ∨ y.desc.naddr + 4 ≤ a) → t.spByte p a = s.spByte p a) ∧ (∀ q, q ≠ p → t.core q = s.core q) ∧
      t.regs = s.regs ∧ t.log = s.log)

/-! ## Weave -/

/-- Arbitration points (R212 to R217): a request waits at its point, a copy engine's at the next point of its transaction's route; a rank-0
request revokes a rank-1 grant, which restarts; a round ends the running grant with its last flit and gives the point to the winner of the
waiting requests; a grant that has held the point for MAX_HOLD flit slots may be cut off, restarts, and is recorded in WV_HOLD; a window start
charges the flits of running grants, measures, latches the weights and refills every point. -/
def Obligations.WeavePointsArbitrate : Prop :=
  (∀ (s : State) (pt who flits sent : Nat) (txn : Option (Nat × Nat)), s.clocksStopped = false → pt ≤ 0x1C1 → 1 ≤ who → who ≤ 64 →
    1 ≤ flits → flits ≤ 64 → (∀ z, txn = some z → z.1 < 208 ∧ s.wvMay pt 1 who flits z.1 z.2 = true) →
    ∃ t, exec (.weaveRequest pt 1 who flits txn sent) s = .next t ∧ t = { s with weave := t.weave } ∧
      (∀ q, q ≠ pt → t.wvPoint q = s.wvPoint q) ∧
      (t.wvPoint pt).pending = (s.wvPoint pt).pending ++
        [{ rank := 1, who := who, flits := flits, slot := txn.map Prod.fst, txn := (txn.map Prod.snd).getD 0,
           at_ := s.gtc, since := 0, sent := 0 }] ∧
      (t.wvPoint pt).grant = (s.wvPoint pt).grant) ∧
  (∀ (s : State) (pt who flits sent : Nat) (g : WvReq), s.clocksStopped = false → pt ≤ 0x1C1 → who = 0 ∨ who = wvSystem → 1 ≤ flits →
    flits ≤ 64 → (s.wvPoint pt).grant = some g → g.rank = 1 → sent < g.flits →
    ∃ t, exec (.weaveRequest pt 0 who flits none sent) s = .next t ∧ (t.wvPoint pt).grant = none ∧
      { g with at_ := s.gtc, since := 0, sent := 0 } ∈ (t.wvPoint pt).pending ∧
      { rank := 0, who := who, flits := flits, slot := none, txn := 0, at_ := s.gtc, since := 0, sent := 0 } ∈ (t.wvPoint pt).pending) ∧
  (∀ (s : State) (pt : Nat) (w : WvReq), s.clocksStopped = false → pt ≤ 0x1C1 →
    (pt < 0x1B0 ∨ 0x1C0 ≤ pt ∨ s.getF (.wyStatus (pt - 0x1B0)) WY_STATUS.STATE = 3) →
    let s1 := match (s.wvPoint pt).grant with | some g => s.wvEnd pt g | none => s
    s1.wvWinner (s1.wvPoint pt) = some w →
    ∃ t, exec (.arbitrationRound pt) s = .next t ∧ t = { s with weave := t.weave, cores := s1.cores } ∧
      (∀ q, q ≠ pt → t.wvPoint q = s.wvPoint q) ∧
      (t.wvPoint pt).grant = some { w with since := s.gtc, sent := 0 } ∧
      (t.wvPoint pt).pending = ((s1.wvPoint pt).ageAll w).pending.erase w) ∧
  (∀ (s : State) (pt sent : Nat) (q : WvReq), s.clocksStopped = false → pt ≤ 0x1C1 → (s.wvPoint pt).grant = some q → q.who < 66 →
    q.rank < 2 → WV_CFG.MAXHOLD.get s.weave.cfg ≤ s.wvSlots pt q →
    ∃ t, exec (.holdCutoff pt sent) s = .next t ∧ (t.wvPoint pt).grant = none ∧
      { q with at_ := s.gtc, since := 0, sent := 0 } ∈ (t.wvPoint pt).pending ∧ t.getF .wvHold WV_HOLD.VALID = 1 ∧
      t.getF .wvHold WV_HOLD.POINT = pt ∧ t.getF .wvHold WV_HOLD.INST = (if q.who = wvSystem then 0x7F else q.who) ∧
      t.getF .wvHold WV_HOLD.RANK = q.rank) ∧
  (∀ (s : State), s.clocksStopped = false → s.gtc % s.wvWindow = 0 → s.weave.winAt ≠ some s.gtc →
    let s0 := s.weave.points.foldl (fun s x => s.wvSettle x.1) s
    let s1 := s0.weave.points.foldl (fun s x => s.wvMeasure x.1 x.2) s0
    let s2 := s1.wvLatch.weave.points.foldl (fun s x => s.setWvPoint x.1 (s.wvRefill x.1 x.2)) s1.wvLatch
    exec .windowStart s = .next (s.keep { s2 with weave := { s2.weave with winAt := some s.gtc } }))

/-! ## Memory stacks -/

/-- A row access and a scrub with no faulty symbol change no byte, no mark and no register; one or two faulty symbols are corrected and
counted in MS_ECC.CORR with no byte of the stacks changed; three mark their line POISON, leave its bytes, and count in MS_ECC.UNCORR
(R232 to R234). The scrubber of a channel reads its next line once its interval has passed (R236). A refresh of a bank of a channel in which
none runs changes no data (R231). -/
def Obligations.StackErrorsCorrectCountAndPoison : Prop :=
  (∀ (s : State) (pa syms : Nat), s.clocksStopped = false → pa < 12 * 2 ^ 37 → pa % 64 = 0 →
    s.getF (.msStatus (stackOf pa)) MS_STATUS.STATE ≠ 2 → SMap.get false s.stackSet.poison (pa / 64) = false → syms ≤ 3 →
    ∃ t, exec (.stackRowAccessComplete pa syms) s = .next t ∧ t.stackSet.mem = s.stackSet.mem ∧
      (syms = 0 → t = s) ∧
      (syms = 1 ∨ syms = 2 → t.stackSet.poison = s.stackSet.poison ∧
        t.getF (.msEcc (stackOf pa)) MS_ECC.CORR = min (s.getF (.msEcc (stackOf pa)) MS_ECC.CORR + 1) 0xFFFF) ∧
      (syms = 3 → SMap.get false t.stackSet.poison (pa / 64) = true ∧
        (∀ l, l ≠ pa / 64 → SMap.get false t.stackSet.poison l = SMap.get false s.stackSet.poison l) ∧
        t.getF (.msEcc (stackOf pa)) MS_ECC.UNCORR = min (s.getF (.msEcc (stackOf pa)) MS_ECC.UNCORR + 1) 0xFF)) ∧
  (∀ (s : State) (m ch : Nat), s.clocksStopped = false → m < 12 → ch < 16 → s.getF (.msCfg m) MS_CFG.SCRUBEN = 1 →
    s.getF (.msStatus m) MS_STATUS.STATE ≠ 2 →
    SMap.get 0 s.stackSet.scrubAt (16 * m + ch) + 3600 * max 1 (s.getF (.msCfg m) MS_CFG.SCRUBIV) ≤ s.gtc →
    ∃ t, exec (.stackScrub m ch 0) s = .next t ∧ t = { s with stackSet := t.stackSet } ∧
      t.stackSet = { s.stackSet with scrub := t.stackSet.scrub, scrubAt := t.stackSet.scrubAt } ∧
      SMap.get 0 t.stackSet.scrubAt (16 * m + ch) = s.gtc ∧
      SMap.get 0 t.stackSet.scrub (16 * m + ch) = (SMap.get 0 s.stackSet.scrub (16 * m + ch) + 1) % 2 ^ 27) ∧
  (∀ (s : State) (m ch bank : Nat), s.clocksStopped = false → m < 12 → ch < 16 → bank < 32 →
    (∀ b, b < 32 → (16 * m + ch) * 32 + b ∉ s.stackSet.refreshing) →
    ∃ t, exec (.stackRefresh m ch bank) s = .next t ∧ t = { s with stackSet := { s.stackSet with refreshing := t.stackSet.refreshing } } ∧
      ((16 * m + ch) * 32 + bank) ∈ t.stackSet.refreshing) ∧
  (∀ (s : State) (m ch bank : Nat), s.clocksStopped = false → m < 12 → ch < 16 → bank < 32 →
    ((16 * m + ch) * 32 + bank) ∈ s.stackSet.refreshing →
    ∃ t, exec (.refreshComplete m ch bank) s = .next t ∧ t = { s with stackSet := { s.stackSet with refreshing := t.stackSet.refreshing } })

/-- A frame whose clear ends reads 0 in every byte and goes to state 2, or FREE where its owner has released it; no byte of another frame
changes (R224, R229, R318). Channel migration, failure and the loss of a stack (R253 to R257): a migration starts and ends with MIGRATING and SPARED, with no byte
lost; a channel that fails with the spare in use, and a reported loss, lose the stack; a rebuild copies the lines from the partner
frames. -/
def Obligations.FramesClearAndChannelsMigrate : Prop :=
  (∀ (s : State) (m f : Nat), s.clocksStopped = false → m < 12 → f < 128 → s.getF (.msFrame m f) MS_FRAME.STATE = 1 →
    (s.inst (s.getF (.msFrame m f) MS_FRAME.OWNER)).work = none →
    ∃ t, exec (.frameClearComplete m f) s = .next t ∧
      (∀ a, frameBase (m, f) ≤ a → a < frameBase (m, f) + 2 ^ 30 → t.stackSet.mem.byte a = 0) ∧
      (∀ a, (a < frameBase (m, f) ∨ frameBase (m, f) + 2 ^ 30 ≤ a) → t.stackSet.mem.byte a = s.stackSet.mem.byte a) ∧
      ((m, f) ∉ s.stackSet.releasing → t.getF (.msFrame m f) MS_FRAME.STATE = 2) ∧
      ((m, f) ∈ s.stackSet.releasing → t.getF (.msFrame m f) MS_FRAME.STATE = 0) ∧
      (∀ r, r ≠ .msFrame m f → t.reg r = s.reg r)) ∧
  ((∀ (s : State) (m ch : Nat), s.clocksStopped = false → m < 12 → ch < 16 → s.getF (.msStatus m) MS_STATUS.MIGRATING = 0 →
    s.getF (.msStatus m) MS_STATUS.SPARED = 0x1F → s.getF (.msStatus m) MS_STATUS.STATE ≠ 2 →
    ∃ t, exec (.channelMigration m ch true) s = .next t ∧ t.stackSet.mem = s.stackSet.mem ∧
      t.getF (.msStatus m) MS_STATUS.MIGRATING = 1 ∧ SMap.get none t.stackSet.migrating m = some ch ∧
      (∀ r, r ≠ .msStatus m → r ≠ .gctlElogLost → t.reg r = s.reg r)) ∧
  (∀ (s : State) (m ch : Nat), s.clocksStopped = false → m < 12 → ch < 16 → SMap.get none s.stackSet.migrating m = some ch →
    s.getF (.msStatus m) MS_STATUS.MIGRATING = 1 →
    ∃ t, exec (.migrationComplete m) s = .next t ∧ t.stackSet.mem = s.stackSet.mem ∧ t.getF (.msStatus m) MS_STATUS.MIGRATING = 0 ∧
      t.getF (.msStatus m) MS_STATUS.SPARED = ch ∧ t.getF (.msStatus m) MS_STATUS.STATE = 1) ∧
  (∀ (s : State) (m ch : Nat), s.clocksStopped = false → m < 12 → ch < 16 → s.getF (.msStatus m) MS_STATUS.STATE ≠ 2 →
    (s.getF (.msStatus m) MS_STATUS.SPARED ≠ 0x1F ∨ s.getF (.msStatus m) MS_STATUS.MIGRATING = 1) →
    exec (.channelFail m ch) s = .next (s.keep ((s.note (srcStack m) 3 0x12 ch).stackLost m))) ∧
  (∀ (s : State) (m : Nat), s.clocksStopped = false → m < 12 → s.getF (.msStatus m) MS_STATUS.STATE ≠ 2 →
    exec (.stackLost m) s = .next (s.keep (s.stackLost m))) ∧
  (∀ (s : State) (m ch : Nat), s.clocksStopped = false → m < 12 → SMap.get none s.stackSet.rebuilding m = some ch →
    ∃ t, exec (.mirrorRebuildComplete m) s = .next t ∧ SMap.get none t.stackSet.rebuilding m = none ∧
      t.stackSet.mem = ((s.partners m).foldl (fun s y => s.copyChannel ch y.1 y.2) s).stackSet.mem ∧ t.regs = s.regs) ∧
  (∀ (s : State) (b : Frame), s.clocksStopped = false → s.stackSet.journal.rebuilding = true → s.stackSet.journal.mirror = some b →
    ∃ t, exec .journalRebuildComplete s = .next t ∧ t.stackSet.journal = { s.stackSet.journal with rebuilding := false } ∧
      t.getF (.msStatus b.1) MS_STATUS.JROLE = 2))

/-- Stack programs (R240 to R247): a request of 64 bytes that has reached the port enters the queue of its stack's sequencers and leaves its
entry of the copy queue; a request that runs, or the one that comes next, goes on by whole units, each the reads of a row or the write of a
line; once every write has been made it completes and leaves the queue, and with NOTIFY adds NVAL to its word, wrapping. A journal record whose JOURNAL request is the next of a free sequencer of the primary's stack goes, stamped with the GTC, to its slot of the
journal's primary frame and of its mirror, 256 bytes at 256 times its SEQ modulo 4,194,304, and to no other byte (R240, R248, R249; log 20). -/
def Obligations.StackProgramsAndJournalRecordsRun : Prop :=
  ((∀ (s : State) (p k e m o : Nat) (y : CeEntry) (t : Txn), s.clocksStopped = false → p < 208 → k < 2 → e < 2 →
    (s.ceQueue p k e).entries.find? (fun y => y.inflight.any fun u => u.id == t.id) = some y →
    y.inflight.find? (fun u => u.id == t.id) = some t → t.write = true → t.path = [] → t.place = .seq m o →
    (s.seqQueue m).length + (s.journalReqs m).length < 256 →
    s.seqRefusal (SeqReq.ofBytes t.data (s.stackSet.nextReq + 1) y.ctx p k).1 (SeqReq.ofBytes t.data (s.stackSet.nextReq + 1) y.ctx p k).2.1
      (SeqReq.ofBytes t.data (s.stackSet.nextReq + 1) y.ctx p k).2.2 = none →
    ∃ u, exec (.sequencerRequest p k e t.id) s = .next u ∧
      u.seqQueue m = s.seqQueue m ++ [(SeqReq.ofBytes t.data (s.stackSet.nextReq + 1) y.ctx p k).1] ∧
      u.stackSet.nextReq = s.stackSet.nextReq + 1) ∧
  (∀ (s : State) (m id n : Nat) (words data : List Nat) (q : SeqReq), s.clocksStopped = false → m < 12 → s.seqTaken m id = some q →
    s.getF (.msStatus m) MS_STATUS.STATE ≠ 2 → (words = [] ∧ data = []) ∨ s.cclPort 0 ≠ 2 →
    let s1 := { s with stackSet := { s.stackSet with
      last := if q.running = true ∨ q.ctx.inst = 0 then s.stackSet.last else SMap.put 0 s.stackSet.last m q.ctx.inst } }
    let x := SeqRun.units n (q, ⟨s1, words, data, none, false⟩)
    x.2.short = false →
    (q.prog = pGATHER → exec (.gatherProgram ⟨m, id, n⟩ words data) s = .next (s.keep (State.seqDone m x.1 x.2))) ∧
    (q.prog = pSCATTER → exec (.scatter ⟨m, id, n⟩ words data) s = .next (s.keep (State.seqDone m x.1 x.2))) ∧
    (q.prog = pKVWALK → exec (.kvwalk ⟨m, id, n⟩ words data) s = .next (s.keep (State.seqDone m x.1 x.2))) ∧
    (q.prog = pSCATADD → exec (.scatadd ⟨m, id, n⟩ words data) s = .next (s.keep (State.seqDone m x.1 x.2))) ∧
    (q.prog = pHARQ → exec (.harq ⟨m, id, n⟩ words data) s = .next (s.keep (State.seqDone m x.1 x.2)))) ∧
  (∀ (s : State) (m : Nat) (q : SeqReq), s.clocksStopped = false → m < 12 →
    (s.seqQueue m).find? (fun z => z.id == q.id && z.applied) = some q → (q.notify = true → s.writeFault q.slot q.side [(q.naddr, 4)] = none) →
    ∃ t, exec (.stackProgramComplete m q.id) s = .next t ∧ t.seqQueue m = (s.seqQueue m).filter (fun z => z.id != q.id) ∧
      t.stackSet.mem = s.stackSet.mem ∧ (q.notify = false → t.cores = s.cores) ∧
      (q.notify = true → t.cores = (s.spStore q.slot q.naddr (leBytes 4 ((s.core q.slot).sp.readLE q.naddr 4 + q.nval))).cores))) ∧
  (∀ (s : State) (r : JRec) (f g : Frame), s.clocksStopped = false → s.stackSet.journal.lost = false → s.stackSet.journal.primary = some f →
    s.stackSet.journal.mirror = some g → s.stackSet.journal.recs.find? (fun r => !r.written) = some r →
    (∀ o, s.stackSet.journal.recs.head? = some o → r.seq < o.seq + 4194304) → r.body.length ≤ 128 →
    (∀ q, s.nextSeq f.1 = some q → q.ctx.inst ≠ 0) → s.seqBusy f.1 < 16 → s.baseLoading f.1 = false →
    f.2 < 128 → g.2 < 128 → s.getF (.msStatus f.1) MS_STATUS.STATE ≠ 2 → s.getF (.msStatus g.1) MS_STATUS.STATE ≠ 2 →
    let w := { r with gtc := s.gtc, written := true }
    ∃ t, exec .journalWrite s = .next t ∧ t = { s with stackSet := t.stackSet, regs := t.regs } ∧
      t.stackSet.mem = (s.stackSet.mem.write (frameBase f + r.seq % 4194304 * 256) w.bytes).write
        (frameBase g + r.seq % 4194304 * 256) w.bytes ∧
      w.bytes.length = 256 ∧ w ∈ t.stackSet.journal.recs)

/-! ## Companion Coherent Link and event log -/

/-- The CCL's ports and answers (R295 to R301, R309, R324, R565): a port trains at 16 lanes, or at 8 once lanes have failed, and the first
configuration exchange fixes the base of the register space; a port that loses lanes falls to state 1 with 8 or more good lanes and to 0 below; a
retry repeats the flits from the first unacknowledged one and is counted, saturating; a snoop is acknowledged and reads the watched
line again, as the re-read of each ms does for all; returned lines and acknowledgements leave the list of outstanding transactions and take
effect, and an acknowledged write invalidates the device's copy of its line; the event timer sends its MSI and moves on by 3,600 cycles times
PERIOD (R563). -/
def Obligations.CompanionLinkCommandsTakeEffect : Prop :=
  (∀ (s : State) (i lanes base : Nat), s.clocksStopped = false → i < 2 → (lanes = 16 ∧ (s.cclLink i).narrow = false) ∨ lanes = 8 →
    base < 2 ^ 51 → s.domainOn (270 + i) = true → s.getF (.cclPortStatus i) CCL_PORT_STATUS.STATE ≠ 2 →
    let s1 := { s with ccl := { s.ccl with base := some (s.ccl.base.getD base) } }
    let s2 := s1.modLink i fun x => { x with next := 0, first := 0, replay := [], narrow := x.narrow || decide (lanes = 8) }
    exec (.cclPortUp i ⟨lanes, base⟩) s = .next (s.keep (((s2.setCclPort i 2 lanes).cclRoute fun t => t.port == 2).logFlush)) ∧
      (s2.setCclPort i 2 lanes).getF (.cclPortStatus i) CCL_PORT_STATUS.STATE = 2 ∧
      (s2.setCclPort i 2 lanes).getF (.cclPortStatus i) CCL_PORT_STATUS.WIDTH = lanes) ∧
  (∀ (s : State) (i lanes : Nat), s.clocksStopped = false → i < 2 → lanes < 16 →
    s.getF (.cclPortStatus i) CCL_PORT_STATUS.STATE ≠ 0 →
    ∃ t, exec (.cclPortDown i lanes) s = .next t ∧
      t.getF (.cclPortStatus i) CCL_PORT_STATUS.STATE = (if 8 ≤ lanes then 1 else 0) ∧
      t.getF (.cclPortStatus i) CCL_PORT_STATUS.WIDTH = 0 ∧ (t.cclLink i).narrow = true ∧ t.cores = s.cores ∧ t.stackSet = s.stackSet) ∧
  (∀ (s : State) (i : Nat), s.clocksStopped = false → i < 2 → s.getF (.cclPortStatus i) CCL_PORT_STATUS.STATE = 2 →
    ∃ t, exec (.cclRetry i) s = .next t ∧ t.getF (.cclPortStatus i) CCL_PORT_STATUS.RETRY =
        min (s.getF (.cclPortStatus i) CCL_PORT_STATUS.RETRY + 1) CCL_PORT_STATUS.RETRY.top ∧
      t.ccl = (s.modLink i fun x => { x with replay := (List.range (x.next - x.first)).map (x.first + ·) }).ccl ∧
      (∀ r, r ≠ .cclPortStatus i → t.reg r = s.reg r)) ∧
  (∀ (s : State) (a : Nat), s.clocksStopped = false → a % 64 = 0 → a < 2 ^ 51 → s.cclUp = true →
    exec (.snpinv a) s = .next (s.keep ({ s with ccl := { s.ccl with acks := s.ccl.acks ++ [a] } }.snooped a))) ∧
  (∀ (s : State), s.clocksStopped = false → s.ccl.rereadAt + 3600000 ≤ s.gtc →
    exec .watchedLineReread s =
      .next (s.keep ({ s with ccl := { s.ccl with rereadAt := s.gtc } }.rereadLines fun _ => true))) ∧
  (∀ (s : State) (j : Nat) (data : List Nat) (t : CclTxn), s.clocksStopped = false → s.ccl.out[j]? = some t →
    t.kind = .rds ∨ t.kind = .rdc → t.port ≠ 2 → data.length = 64 → (∀ b ∈ data, b < 256) → s.engineWaits t = false →
    let s1 := { s with ccl := { s.ccl with out := s.ccl.out.eraseIdx j } }.flitAcked t.port
    exec (.lineDataReturn j data) s =
      .next (s.keep ((if t.cached then s1.keepLine t else s1).lineReturned t (data.map fun b => BitVec.ofNat 8 b)))) ∧
  (∀ (s : State) (j : Nat) (t : CclTxn), s.clocksStopped = false → s.ccl.out[j]? = some t → t.kind = .wrl ∨ t.kind = .wrp → t.port ≠ 2 →
    let s1 := { s with ccl := { s.ccl with out := s.ccl.out.eraseIdx j } }.flitAcked t.port
    let line := t.addr / 64 * 64
    exec (.writeAcknowledge j) s =
      .next (s.keep (((if s1.ccl.cache.contains line then s1.snooped line else s1).writeAcked t.purpose).sendMsis))) ∧
  (∀ (s : State), s.clocksStopped = false → s.getF .gctlEtimer GCTL_ETIMER.EN = 1 → s.time.timerAt ≤ s.gtc →
    s.wlActive = false ∨ s.gtc < s.waling.hbAt + 28800 → s.gtc < s.waling.healthAt + 360000000 →
    exec .eventTimerTick s = .next (s.keep (({ s with time := { s.time with
      timerAt := s.time.timerAt + 3600 * s.getF .gctlEtimer GCTL_ETIMER.PERIOD } }).msi (s.getF .gctlEtimer GCTL_ETIMER.MSIVEC))))

/-- The log unit numbers the records it holds one after the other, 1,024 cycles after they were raised, keeps the latest 16,384 of them by
number, and with GCTL_ELOG_CTL.EN at 0 sends none (R377, R492, R493). Raising a record: its payload packs the beat, the core, the instance and the detail (R294), and it waits last at its source; a source
with 16 undelivered records drops it and counts it in GCTL_ELOG_LOST (R493). -/
def Obligations.EventRecordsWaitAndAreNumbered : Prop :=
  (∀ (s : State) (e : EvRec) (rest : List EvRec), s.clocksStopped = false → s.log.held = e :: rest → e.gtc + 1024 ≤ s.gtc →
    s.getF .gctlElogCtl GCTL_ELOG_CTL.EN = 0 →
    ∃ t, exec .eventRecordEmit s = .next t ∧ t = { s with log := t.log } ∧ t.log.held = rest ∧ t.log.nextSeq = s.log.nextSeq + 1 ∧
      t.log.compNext = s.log.nextSeq + 1 ∧ t.log.queued = s.log.queued ∧
      SMap.get none t.log.ring (s.log.nextSeq % 16384) = some ⟨e, s.log.nextSeq, s.getF .wyDevid WY_DEVID.ID⟩ ∧
      (∀ k, k ≠ s.log.nextSeq % 16384 → SMap.get none t.log.ring k = SMap.get none s.log.ring k)) ∧
  (∀ (s : State) (src sev cls lcore inst detail : Nat), lcore < 256 → inst < 128 → detail < 2 ^ 28 →
    let t := s.event src sev cls lcore inst detail
    (((s.log.queued.filter fun q => q.source == src).length < 16 →
      t.log.queued = s.log.queued ++ [⟨s.gtc, src, sev, cls,
        s.getF .timeBeat TIME_BEAT.NUM % 2 ^ 21 * 2 ^ 43 + lcore * 2 ^ 35 + inst * 2 ^ 28 + detail⟩] ∧ t.regs = s.regs) ∧
    (16 ≤ (s.log.queued.filter fun q => q.source == src).length →
      t.log.queued = s.log.queued ∧
      t.getF .gctlElogLost GCTL_ELOG_LOST.COUNT = min (s.getF .gctlElogLost GCTL_ELOG_LOST.COUNT + 1) GCTL_ELOG_LOST.COUNT.top)) ∧
    t = { s with regs := t.regs, log := t.log })

/-! ## Time -/

/-- Inputs and outputs of the time units (R361, R369 to R376): a PPS edge is latched with the bases' values; its time-of-day label counts
only between 10 and 900 ms after it, and a base measures against it; a missing edge and a missing label are recorded; a frequency more than 100 ppm off is invalid;
the output pulse lasts 100 microseconds; a read of TIME_TBn_SEC latches the nanoseconds; APPOFS takes the value written. -/
def Obligations.TimeInputsAndOutputsTakeEffect : Prop :=
  (∀ (s : State) (i frac : Nat), s.clocksStopped = false → i < 2 → frac < 256 →
    ∃ t, exec (.ppsEdge i frac) s = .next t ∧ t = { s with time := t.time } ∧ (t.ppsIn i).edge = some s.gtc ∧
      (t.ppsIn i).values.map Prod.fst = s.ppsUsers i ∧ (∀ j, j ≠ i → t.ppsIn j = s.ppsIn j)) ∧
  (∀ (s : State) (cs : List Nat) (bit : Nat), s.clocksStopped = false → s.getF .timeTod TIME_TOD.EN = 1 → (∀ c ∈ cs, c < 256) →
    s.todParse cs = .inr bit →
    ∃ t, exec (.timeOfDayMessage cs) s = .next t ∧ t.time = s.time ∧ t.getF .timeTod TIME_TOD.UTCOFS = s.getF .timeTod TIME_TOD.UTCOFS) ∧
  (∀ (s : State) (cs : List Nat) (sec : Nat) (ofs : Option Nat), s.clocksStopped = false → s.getF .timeTod TIME_TOD.EN = 1 →
    (∀ c ∈ cs, c < 256) → s.todParse cs = .inl (sec, ofs) →
    exec (.timeOfDayMessage cs) s = .next (s.keep (((match ofs with
      | some o => s.setF .timeTod TIME_TOD.UTCOFS o
      | none => s).labelPps sec 0).labelPps sec 1))) ∧
  (∀ (s : State) (i e : Nat), s.clocksStopped = false → i < 2 → (s.ppsIn i).values ≠ [] → (s.ppsIn i).edge = some e →
    e + 3240000000 ≤ s.gtc →
    ∃ t, exec (.todMessageTimeout i) s = .next t ∧ (t.ppsIn i).values = [] ∧ t.cores = s.cores ∧ t.fh = s.fh) ∧
  (∀ (s : State) (i : Nat), s.clocksStopped = false → i < 2 → (s.ppsIn i).noted = false → s.ppsUsers i ≠ [] →
    (s.ppsIn i).edge.getD 0 + 3960000000 ≤ s.gtc →
    ∃ t, exec (.ppsMissing i) s = .next t ∧ (t.ppsIn i).noted = true ∧ (t.ppsIn i).edge = (s.ppsIn i).edge) ∧
  (∀ (s : State) (src : Nat) (ppb : Int), s.clocksStopped = false → src < 25 →
    ∃ t, exec (.frequencyWindow src ppb) s = .next t ∧
      SMap.get none t.time.freqs src = (if -100000 ≤ ppb ∧ ppb ≤ 100000 then some (ppb : Rat) else none) ∧ t.cores = s.cores ∧
      ((∀ n, n < 4 → s.getF (.timeTbCfg n) TIME_TB_CFG.FSEL = 0) → t.regs = s.regs)) ∧
  (∀ (s : State) (r : Nat), s.clocksStopped = false → s.time.ppsOut = some r → r + 360000 ≤ s.gtc →
    ∃ t, exec .ppsOutPulseEnd s = .next t ∧ t = { s with time := { s.time with ppsOut := none } }) ∧
  (∀ (s : State) (e : Nat), s.clocksStopped = false → s.time.trace = some e → e ≤ s.gtc →
    ∃ t, exec .beatTracePulseEnd s = .next t ∧ t = { s with time := { s.time with trace := none } }) ∧
  (∀ (s : State), s.clocksStopped = false → s.getF .timePpsout TIME_PPSOUT.EN = 1 → s.time.ppsOut = none →
    -(s.cycle / 2) ≤ s.ppsNear → s.ppsNear ≤ s.cycle / 2 →
    ∃ t, exec .ppsOutPulse s = .next t ∧ t.time.ppsOut = some s.gtc ∧ t.regs = s.regs) ∧
  (∀ (s : State) (n : Nat), s.clocksStopped = false → n < 4 →
    ∃ t, exec (.timeSecRead n) s = .next t ∧
      t.getF (.timeTbSec n) TIME_TB_SEC.SEC = (s.tbValue n * 65536).floor.toNat / (65536 * 1000000000) % 2 ^ 48 ∧
      t.getF (.timeTbNs n) TIME_TB_NS.NS = (s.tbValue n * 65536).floor.toNat / 65536 % 1000000000 % 2 ^ 32 ∧ t.time = s.time ∧
      (∀ r, r ≠ .timeTbSec n → r ≠ .timeTbNs n → t.reg r = s.reg r)) ∧
  (∀ (s : State) (v : Nat), s.clocksStopped = false → v < 2 ^ 64 →
    ∃ t, exec (.appofsWrite v) s = .next t ∧ t.reg .timeAppofs = BitVec.ofNat 64 v ∧
      (∀ r, r ≠ .timeAppofs → r ≠ .gctlElogLost → t.reg r = s.reg r))

/-- The state of a time base (R362, R364): 16 measurements inside lock it, 4 outside put it back to ACQUIRE, and a loss of its source puts it
into holdover, on its frequency source where that is valid; the bases that follow it report the same state; a switch of the radio base makes
the new base active. The beat starts once the active time base is locked, in stage 5: the first boundary is the next beat edge of the radio time, and the
beat's length is that of TIME_BEAT.DIV (R367, R368, R506). -/
def Obligations.TimeBasesLockAndTheBeatStarts : Prop :=
  ((∀ (s : State) (n : Nat), s.clocksStopped = false → n < 4 → s.psrc n ≠ 5 → s.tbState n = tbACQUIRE → 16 ≤ (s.tb n).inside →
    exec (.timeBaseLock n) s = .next (s.keep ((s.setTb n { s.tb n with outside := 0 }).setTbState n tbLOCKED))) ∧
  (∀ (s : State) (n : Nat), s.clocksStopped = false → n < 4 → s.psrc n ≠ 5 → s.tbState n = tbLOCKED → 4 ≤ (s.tb n).outside →
    exec (.timeBaseUnlock n) s =
      .next (s.keep (((s.setTb n { s.tb n with inside := 0 }).setTbState n tbACQUIRE).autoSwitch n))) ∧
  (∀ (s : State) (n : Nat), s.clocksStopped = false → n < 4 → s.psrc n ≠ 5 → s.tbState n = tbACQUIRE ∨ s.tbState n = tbLOCKED →
    (s.tb n).last + s.getF (.timeTbCfg n) TIME_TB_CFG.LOSS * 57600000 ≤ s.gtc → s.fsel n = none →
    exec (.holdover n) s =
      .next (s.keep (((s.setTb n { s.tb n with inside := 0, outside := 0 }).setTbState n tbHOLDOVER).autoSwitch n))) ∧
  (∀ (s : State) (n : Nat) (f : Rat), s.clocksStopped = false → n < 4 → s.psrc n ≠ 5 → s.tbState n = tbACQUIRE ∨ s.tbState n = tbLOCKED →
    (s.tb n).last + s.getF (.timeTbCfg n) TIME_TB_CFG.LOSS * 57600000 ≤ s.gtc → s.fsel n = some f →
    exec (.holdover n) s =
      .next (s.keep (((((s.setTb n { s.tb n with inside := 0, outside := 0 }).setTbState n tbHOLDOVERF).setRate n
        (f + (s.tb n).integ)).clockSource).autoSwitch n))) ∧
  (∀ (s : State) (n new : Nat), n < 4 → new < 8 → (s.setTbState n new).tbState n = new ∧
    ∀ k, k < 4 → s.follows k n = true → (s.setTbState n new).tbState k = new) ∧
  (∀ (s : State) (a : Nat), s.clocksStopped = false → a < 2 → a ≠ s.tbSel →
    exec (.radioSwitch a) s = .next (s.keep (s.switchTo a)))) ∧
  (∀ (s : State), s.clocksStopped = false → s.beat.started = false → s.getF .mpBootstat MP_BOOTSTAT.STAGE = 5 →
    s.tbState s.tbSel = tbLOCKED →
    ∃ t, exec .beatStart s = .next t ∧ t.beat.started = true ∧ t.beat.first = true ∧
      t.beat.length = beatCycles (s.getF .timeBeat TIME_BEAT.DIV) ∧ s.gtc ≤ t.beat.boundary ∧
      (∀ r, r ≠ .timeBeat → t.reg r = s.reg r) ∧ t.cores = s.cores)

/-! ## Reset, boot and restarts -/

/-- A cold reset happens in every state (R538, R545, R557): every register takes its reset value, the GTC is 0, no core, instance, command,
frame state or record is left, the boot flash and the cable ledger stay, and what waits in the queue stays; the clocks that a thermal trip
has stopped start again with PWRGOOD alone. Cold start (R500 to R507, R546): the straps are latched once; with STRAP3 nothing starts; in boundary-scan mode no slot boots; STRAP0 goes
to recovery; with a good header and a valid active slot that slot boots, in stage 1, unless its trial is exhausted; without a header the ROM
goes to RECOVERY with cause 1. The flash is what it is found to hold, or as the chip left it. -/
def Obligations.ColdResetAndColdStart : Prop :=
  (∀ (s : State) (pwr : Bool), ∃ t, exec (.coldReset pwr) s = .next t ∧ (∀ r, t.reg r = r.resetWord) ∧ t.gtc = 0 ∧
    (∀ p, t.core p = Core.zero) ∧ t.insts = [] ∧ t.cmds = [] ∧ t.stackSet = StackState.reset ∧ t.log = LogState.empty ∧
    t.boot.flash = s.boot.flash ∧ t.boot.started = false ∧ t.withy.ledger = s.withy.ledger ∧ t.pending = s.pending ∧
    t.clocksStopped = (s.clocksStopped && !pwr) ∧ (t.power.thermtrip = true ↔ t.clocksStopped = true)) ∧
  (∀ (s : State) (a b c : Bool) (flash : Option Flash), s.clocksStopped = false → s.boot.started = false →
    let f := flash.getD s.boot.flash
    (∃ t, exec (.coldStart [a, b, false, false] flash) s = .next t ∧ t.boot.started = true ∧ t.boot.straps = [a, b, false, false] ∧
      t.gtc = s.gtc ∧ t.cores = s.cores ∧ t.domainOn 270 = true ∧ (t.domainOn 271 = true ↔ b = false) ∧
      (a = true → t.stage = 8 ∧ t.boot.flash = f) ∧
      (a = false → f.idok = true → f.cntok = true → ∀ i h, f.header = some (i, h) → h.active < 2 →
        f.valid (f.slot h.active) = true → h.trial = false →
        t.stage = 1 ∧ t.getF .mpBootstat MP_BOOTSTAT.SLOT = h.active ∧ t.getF .mpBootstat MP_BOOTSTAT.TRIAL = 0 ∧ t.boot.flash = f) ∧
      (a = false → f.header = none → t.stage = 8 ∧ t.getF .mpBootstat MP_BOOTSTAT.FAILCAUSE = 1)) ∧
    (∃ t, exec (.coldStart [a, b, true, false] flash) s = .next t ∧ t.boot.started = true ∧ t.boundaryMode = true ∧
      t.stage = s.stage ∧ t.cores = s.cores) ∧
    (∃ t, exec (.coldStart [a, b, c, true] flash) s = .next t ∧ t = { s with boot := { s.boot with straps := [a, b, c, true], flash := f } }))

/-- The stages after the ROM (R506, R510, R511): Grizor starts with the booted slot's set and a usable configuration image, which takes
the device to stage 3 with its stacks, compute dies and links powered; without one it goes to MAINT with cause 6. The self-tests put
failed slots out of the core map, so that no die holds one, and failed stacks out of service, and lead to stage 4; no X0 leads to MAINT. The image is applied once the
system frames are clear, which seals the configuration and leads to stage 5. A boot that is not radio-ready 45 seconds after PWRGOOD
is recorded once. -/
def Obligations.BootStagesFollowTheirOrder : Prop :=
  (∀ (s : State) (rver i : Nat) (fell : Bool), s.clocksStopped = false → s.boot.started = true → s.boot.grizor = false →
    s.boot.restart = none → s.stage = 1 → rver < 256 → s.boot.flash.pickCfg = some (i, fell) → i < 2 →
    ∃ t, exec (.grizorStart rver) s = .next t ∧ t.stage = 3 ∧ t.boot.grizor = true ∧ t.boot.rver = rver ∧
      t.boot.cfg = (if i = 0 then s.boot.flash.cfg0 else s.boot.flash.cfg1) ∧ t.getF .mpBootstat MP_BOOTSTAT.CFGCOPY = i ∧
      (∀ m, m < 12 → t.domainOn (208 + m) = true) ∧ (∀ d, d < 8 → t.domainOn (260 + d) = true) ∧ t.cores = s.cores) ∧
  (∀ (s : State) (rver : Nat), s.clocksStopped = false → s.boot.started = true → s.boot.grizor = false → s.boot.restart = none →
    s.stage = 1 → rver < 256 → s.boot.flash.pickCfg = none →
    ∃ t, exec (.grizorStart rver) s = .next t ∧ t.stage = 7 ∧ t.getF .mpBootstat MP_BOOTSTAT.FAILCAUSE = 6 ∧ t.boot.grizor = true) ∧
  (∀ (s : State) (rver : Nat), s.clocksStopped = false → s.boot.started = true → s.boot.grizor = false → s.boot.restart = none →
    s.stage = 7 → rver < 256 →
    ∃ t, exec (.grizorStart rver) s = .next t ∧ t.stage = 7 ∧ t.boot.grizor = true ∧ t.boot.rver = rver ∧ t.boot.cfg = s.boot.cfg) ∧
  (∀ (s : State) (slots stackSet : List Nat) (rows : List (Nat × Nat)), s.clocksStopped = false → s.boot.grizor = true → s.stage = 3 →
    (∀ p ∈ slots, p < 208) → (∀ x ∈ rows, x.1 < 208 ∧ x.2 < 260) → (∀ m ∈ stackSet, m < 12) →
    (stackSet.eraseDups.length < 12 → ∃ t, exec (.selfTestComplete slots rows stackSet false) s = .next t ∧ t.stage = 4 ∧
      (∀ p ∈ slots, (t.core p).failed = true ∧
        ∀ l, l < 192 → t.getF (.gctlCmap l) GCTL_CMAP.VALID = 1 → t.getF (.gctlCmap l) GCTL_CMAP.SLOT ≠ p) ∧
      (∀ m ∈ stackSet, t.getF (.msStatus m) MS_STATUS.STATE = 2)) ∧
    (∃ t, exec (.selfTestComplete slots rows stackSet true) s = .next t ∧ t.stage = 7 ∧
      t.getF .mpBootstat MP_BOOTSTAT.FAILCAUSE = 7 ∧ (∀ m ∈ stackSet, t.getF (.msStatus m) MS_STATUS.STATE = 2))) ∧
  (∀ (s : State), s.clocksStopped = false → s.boot.grizor = true → s.stage = 4 → s.bootCleared = true →
    ∃ t, exec .configurationApply s = .next t ∧ t.stage = 5 ∧ t.getF .gctlSeal GCTL_SEAL.SEALED = 1) ∧
  (∀ (s : State), s.clocksStopped = false → s.boot.started = true → s.scanMode = false → s.boot.late = false → s.stage < 6 →
    162000000000 ≤ s.gtc →
    ∃ t, exec .bootLate s = .next t ∧ t.boot = { s.boot with late := true } ∧ t = { s with boot := t.boot, log := t.log, regs := t.regs } ∧
      ∀ r, r ≠ .gctlElogLost → t.reg r = s.reg r) ∧
  (∀ (s : State) (set : FwSet), s.clocksStopped = false → s.boot.started = true → s.stage = 8 → s.boot.grizor = false →
    s.boot.polledAt + 36000000 ≤ s.gtc → s.getF .mpRecovery MP_RECOVERY.VALID = 1 → s.cclUp = true → s.boot.flash.valid set = true →
    ∃ t, exec (.recoveryPoll set) s = .next t ∧ t.boot.grizor = true ∧ t.boot.recovery = true ∧ t.boot.running = set ∧
      t.boot.flash = s.boot.flash ∧ t.cores = s.cores) ∧
  (∀ (s : State) (set : FwSet), s.clocksStopped = false → s.boot.started = true → s.stage = 8 → s.boot.grizor = false →
    s.boot.polledAt + 36000000 ≤ s.gtc → s.getF .mpRecovery MP_RECOVERY.VALID = 0 →
    exec (.recoveryPoll set) s = .next { s with boot := { s.boot with polledAt := s.gtc } }) ∧
  (∀ (s : State) (set : FwSet), s.clocksStopped = false → s.boot.started = true → s.stage = 8 → s.boot.grizor = false →
    s.boot.polledAt + 36000000 ≤ s.gtc → s.getF .mpRecovery MP_RECOVERY.VALID = 1 → s.cclUp = true → s.boot.flash.valid set = false →
    exec (.recoveryPoll set) s = .next (s.keep ({ s with boot := { s.boot with polledAt := s.gtc } }.bootFail 2)))

/-- Warm reset and Grizor (R188, R326, R508, R521, R522, R545, R557, R558): a write of the key to GCTL_RESET schedules a warm reset 1,024
cycles later, the pin or the due time starts it, and Grizor restarts; every core is zero; each register takes the word that its fields'
access codes and the kept list leave (the kept list is log 35, the model's reading), and SEQBUSY what still runs; the watchdog restarts Grizor, which
after a warm reset reads the journal and goes on with an update, and after an update migrates the device records; the load of a 10 ms window and
its level are shown; tampering destroys every key. -/
def Obligations.WarmResetAndGrizorRestart : Prop :=
  (∀ (s : State) (pin : Bool), s.clocksStopped = false → s.boot.started = true → s.scanMode = false → s.boot.warm = false →
    pin = true ∨ (∃ a, s.boot.warmAt = some a ∧ a ≤ s.gtc) →
    ∃ t, exec (.warmReset pin) s = .next t ∧ t.boot.warm = true ∧ t.boot.grizor = false ∧ t.boot.warmAt = none ∧
      t.gtc = s.gtc ∧ t.pending = s.pending ∧
      t.boot.restart = (if s.boot.grizor = true ∨ s.boot.restart.isSome = true then some 1 else none)) ∧
  (∀ (s : State) (p : Nat), (s.warmCores.core p).sp = [] ∧ (s.warmCores.core p).threads = [] ∧ (s.warmCores.core p).plaits = [] ∧
    (s.warmCores.core p).residents = []) ∧
  (∀ (s : State) (r : Reg), (∀ m, m < 12 → r ≠ .msStatus m) → s.warmUnits.reg r = r.warmWord (s.reg r)) ∧
  (∀ (s : State) (m : Nat), m < 12 → s.warmUnits.reg (.msStatus m) =
    MS_STATUS.SEQBUSY.set ((Reg.msStatus m).warmWord (s.reg (.msStatus m))) (s.warmUnits.seqBusy m)) ∧
  (∀ (s : State) (v : Nat), s.clocksStopped = false → v < 2 ^ 32 → s.boot.warmAt = none →
    GCTL_RESET.KEY.get (BitVec.ofNat 64 v) = 0x5752 → GCTL_RESET.WARM.get (BitVec.ofNat 64 v) = 1 →
    exec (.warmResetRequest v) s = .next { s with boot := { s.boot with warmAt := some (s.gtc + 1024) } }) ∧
  (∀ (s : State) (v : Nat), s.clocksStopped = false → v < 2 ^ 32 → GCTL_RESET.KEY.get (BitVec.ofNat 64 v) = 0x5752 →
    s.boot.warmAt ≠ none ∨ GCTL_RESET.WARM.get (BitVec.ofNat 64 v) = 0 → exec (.warmResetRequest v) s = .next s) ∧
  (∀ (s : State) (v : Nat), s.clocksStopped = false → v < 2 ^ 32 → GCTL_RESET.KEY.get (BitVec.ofNat 64 v) ≠ 0x5752 →
    exec (.warmResetRequest v) s = .next (s.keep (s.accessIgnored 0x10))) ∧
  (∀ (s : State), s.clocksStopped = false → s.boot.warm = true →
    exec .warmResetEnd s = .next { s with boot := { s.boot with warm := false } }) ∧
  (∀ (s : State), s.clocksStopped = false → s.boot.grizor = true →
    ∃ t, exec .mpWatchdog s = .next t ∧ t.boot = { s.boot with grizor := false, restart := some 0 } ∧
      t = { s with boot := t.boot, log := t.log, regs := t.regs } ∧ ∀ r, r ≠ .gctlElogLost → t.reg r = s.reg r) ∧
  (∀ (s : State) (rver : Nat), s.clocksStopped = false → s.boot.restart = some 0 → s.boot.recover = false → rver < 256 →
    exec (.grizorRestart rver) s = .next { s with boot := { s.boot with grizor := true, restart := none } }) ∧
  (∀ (s : State) (rver : Nat), s.clocksStopped = false → s.boot.restart = some 1 → s.boot.recover = true → rver < 256 →
    (∀ q ∈ s.stackSet.journal.recs, q.written = true → q.durable = true) →
    exec (.grizorRestart rver) s = .next (s.keep ((({ s with boot := { s.boot with grizor := true, restart := none } }.note srcMp 3 0xAA
      2).readJournal).resumeUpdate))) ∧
  (∀ (s : State) (rver : Nat), s.clocksStopped = false → s.boot.restart = some 2 → s.boot.recover = false → rver < 256 →
    let u := { s with boot := { s.boot with grizor := true, restart := none } }.note srcMp 3 0xAA 4
    exec (.grizorRestart rver) s = .next (s.keep ({ u with boot := { u.boot with rver := rver } }.migrate))) ∧
  (∀ (s : State) (load : Nat), s.clocksStopped = false → s.boot.grizor = true → s.boot.loadAt + 36000000 ≤ s.gtc → load ≤ 100 →
    ∃ t, exec (.mpLoadWindow load) s = .next t ∧ t.getF .mpLoad MP_LOAD.LOAD = load ∧
      t.getF .mpLoad MP_LOAD.PEAK = max load (s.getF .mpLoad MP_LOAD.PEAK) ∧
      t.getF .mpLoad MP_LOAD.LEVEL = loadLevel (s.getF .mpLoad MP_LOAD.LEVEL) load ∧
      t.boot = { s.boot with loadAt := s.gtc, snap := t.boot.snap } ∧
      (2 ≤ loadLevel (s.getF .mpLoad MP_LOAD.LEVEL) load → t.boot.snap = s.boot.snap) ∧ ∀ r, r ≠ .gctlElogLost → r ≠ .mpLoad → t.reg r = s.reg r) ∧
  (∀ (s : State) (source : Nat), s.clocksStopped = false → s.boot.started = true → source < 16 →
    ∃ t, exec (.tamper source) s = .next t ∧ (∀ k, SMap.get none t.stackSet.keys k = none) ∧ t.getF .secStatus SEC_STATUS.TAMPER = 1 ∧
      t.stackSet = { s.stackSet with keys := [] } ∧ (∀ r, r ≠ .gctlElogLost → r ≠ .secStatus → t.reg r = s.reg r) ∧ t.cores = s.cores)

/-! ## Registers -/

/-- Each field of a register takes a write by its access code (R7): RO and WO fields stay, RW and RWS fields take the value, RWL fields take
it while the configuration is not sealed, and a W1C bit is cleared by a 1; so for every register of the register space. A register write (R551 to R553, R555): outside the 64 MiB space it faults; misaligned, or of another size than 4 or 8 bytes, it changes
nothing but the record REG_IGNORED; of a configuration register within its ranges it changes that register alone; out of range it
leaves every register as it was. -/
def Obligations.RegisterWritesFollowCodeAndSpace : Prop :=
  (∀ (r : Reg) (locked : Bool) (old v : BitVec 64) (f : FieldRow), f ∈ r.fields →
    f.fld.get (r.merge locked old v) = fieldAfter locked f old v) ∧
  ((∀ (s : State) (off size v : Nat), s.clocksStopped = false → 2 ^ 26 ≤ off → exec (.registerWrite off size v) s = .fault (.noSuchAddress off)) ∧
  (∀ (s : State) (off size v : Nat), s.clocksStopped = false → off < 2 ^ 26 → v < 2 ^ (8 * size) →
    ¬ ((size = 4 ∨ size = 8) ∧ off % size = 0) →
    ∃ t, exec (.registerWrite off size v) s = .next t ∧ t = { s with regs := t.regs, log := t.log } ∧
      ∀ r, r ≠ .gctlElogLost → t.reg r = s.reg r) ∧
  (∀ (s : State) (r : Reg) (v : Nat), s.clocksStopped = false → r ∈ quietRegs → v < 2 ^ 32 →
    let new := r.merge (s.getF .gctlSeal GCTL_SEAL.SEALED == 1) (s.reg r) (BitVec.ofNat 64 v)
    (r.rangeOk new = true →
      ∃ t, exec (.registerWrite r.offset 4 v) s = .next t ∧ t = { s with regs := t.regs, log := t.log } ∧ t.reg r = new ∧
        ∀ q, q ≠ r → q ≠ .gctlElogLost → t.reg q = s.reg q) ∧
    (r.rangeOk new = false →
      ∃ t, exec (.registerWrite r.offset 4 v) s = .next t ∧ t = { s with regs := t.regs, log := t.log } ∧
        ∀ q, q ≠ .gctlElogLost → t.reg q = s.reg q)))

/-- Registers with commands of their own (R293, R305, R310, R314, R344, R556): the seal is set and no command of this kind clears it; the
account snapshot takes an instance's six counts and the cycle; a TLB invalidation shows DONE 0, then drops every translation and shows DONE
1; enabling a ring reads its watched line; enabling a digest log starts at 0; unmasking an MSI vector sends a held interrupt once. -/
def Obligations.WindowAndControlRegistersTakeEffect : Prop :=
  (∀ (s : State), s.clocksStopped = false →
    ∃ t, exec .seal s = .next t ∧ t = { s with regs := t.regs } ∧ t.getF .gctlSeal GCTL_SEAL.SEALED = 1 ∧
      ∀ r, r ≠ .gctlSeal → t.reg r = s.reg r) ∧
  (∀ (s : State) (n : Nat), s.clocksStopped = false → n ≤ 64 →
    ∃ t, exec (.imAcctLatch n) s = .next t ∧ t = { s with regs := t.regs } ∧
      t.reg (.imAcctSnap 0) = BitVec.ofNat 64 (s.inst n).acct.qwait ∧ t.reg (.imAcctSnap 1) = BitVec.ofNat 64 (s.inst n).acct.npre ∧
      t.reg (.imAcctSnap 2) = BitVec.ofNat 64 (s.inst n).acct.held ∧ t.reg (.imAcctSnap 3) = BitVec.ofNat 64 (s.inst n).acct.array ∧
      t.reg (.imAcctSnap 4) = BitVec.ofNat 64 (s.inst n).acct.bytes ∧ t.reg (.imAcctSnap 5) = BitVec.ofNat 64 (s.inst n).acct.ovr ∧
      t.reg .imAcctSnapGtc = BitVec.ofNat 64 s.gtc) ∧
  (∀ (s : State) (n : Nat), s.clocksStopped = false → 64 < n → n < 128 → exec (.imAcctLatch n) s = .next s) ∧
  (∀ (s : State) (n : Nat), s.clocksStopped = false → n ≤ 64 →
    ∃ t, exec (.tlbInvalidate n) s = .next t ∧ t = { s with regs := t.regs } ∧ t.getF (.iwTlbinv n) IW_TLBINV.DONE = 0 ∧
      ∀ r, r ≠ .iwTlbinv n → t.reg r = s.reg r) ∧
  (∀ (s : State) (n : Nat), s.clocksStopped = false → n ≤ 64 → s.getF (.iwTlbinv n) IW_TLBINV.DONE = 0 →
    ∃ t, exec (.tlbInvalidateDone n) s = .next t ∧ t = { s with regs := t.regs, insts := t.insts } ∧ (t.inst n).tlb = [] ∧
      t.getF (.iwTlbinv n) IW_TLBINV.DONE = 1 ∧ (∀ m, m ≠ n → t.inst m = s.inst m) ∧ ∀ r, r ≠ .iwTlbinv n → t.reg r = s.reg r) ∧
  (∀ (s : State) (n r v a : Nat), s.clocksStopped = false → (n = 65 ∧ r < 2) ∨ (0 < n ∧ n < 65 ∧ r < 64 ∧ s.instState n = stQUIESCED) →
    v < 2 ^ 32 → v / 2 ^ 31 = 1 → 4 ≤ v / 2 ^ 11 % 32 → v / 2 ^ 11 % 32 ≤ 20 → s.ringEn n r = false →
    s.getF (ringRegs n r).status IW_RING_STATUS.STATE ≠ 3 →
    s.ringPlace n (s.getF (ringRegs n r).wline IW_RING_WLINE.ADDR * 64) false = some (.comp a) →
    ∃ t port, exec (.ringEnable n r v) s = .next t ∧ t.ringEn n r = true ∧ t.ringL n r = v / 2 ^ 11 % 32 ∧ t.ringVec n r = v % 2 ^ 11 ∧
      t.getF (ringRegs n r).status IW_RING_STATUS.STATE = (if n = 65 then 1 else 2) ∧ (t.ring n r).enabling = true ∧
      t.ccl.out = s.ccl.out ++ [⟨.rds, a, [], port, .watched n r⟩] ∧ t.cores = s.cores ∧
      ∀ q, q ≠ (ringRegs n r).ctl → q ≠ (ringRegs n r).status → t.reg q = s.reg q) ∧
  (∀ (s : State) (n v : Nat), s.clocksStopped = false → n ≤ 64 → v < 2 ^ 32 → v / 2 ^ 31 = 1 → 4 ≤ v % 32 → v % 32 ≤ 20 →
    s.getF (.imDlogCtl n) IM_DLOG_CTL.EN = 0 → s.instState n = stQUIESCED →
    ∃ t, exec (.digestLogEnable n v) s = .next t ∧ t = { s with regs := t.regs } ∧ t.getF (.imDlogCtl n) IM_DLOG_CTL.EN = 1 ∧
      t.getF (.imDlogCtl n) IM_DLOG_CTL.L = v % 32 ∧ t.reg (.imDlogProd n) = 0 ∧
      ∀ r, r ≠ .imDlogCtl n → r ≠ .imDlogProd n → t.reg r = s.reg r) ∧
  (∀ (s : State) (v w : Nat), s.clocksStopped = false → v < 2048 → w < 2 ^ 32 → w % 2 = 0 → s.getF (.cclMsic v) CCL_MSIC.MASK = 1 →
    ∃ t, exec (.msiUnmask v w) s = .next t ∧ t = { s with regs := t.regs, ccl := t.ccl } ∧ t.getF (.cclMsic v) CCL_MSIC.MASK = 0 ∧
      t.getF (.cclMsic v) CCL_MSIC.PEND = 0 ∧ (∀ r, r ≠ .cclMsic v → t.reg r = s.reg r) ∧
      (s.getF (.cclMsic v) CCL_MSIC.PEND = 0 → t.ccl = s.ccl) ∧
      (s.getF (.cclMsic v) CCL_MSIC.PEND = 1 → ∃ x, t.ccl.out = s.ccl.out ++ [x] ∧ x.purpose = .msi v ∧ x.kind = .wrp))

/-- Enabling a queue pair and a fronthaul port, and the two halves of a flow entry (R381, R383, R386, R387, R418): a bad queue pair word and a
change of MODE while a port runs change no register but the count of lost records; the low half of a flow entry waits until its high
half is written, and both then take effect together; a companion cannot write them while the port is enabled. -/
def Obligations.PortsAndPairsAreEnabled : Prop :=
  (∀ (s : State) (q v : Nat), s.clocksStopped = false → q < 64 → v < 2 ^ 32 → RL_QP_CTL.EN.get (BitVec.ofNat 64 v) = 1 →
    s.getF (.rlQpCtl q) RL_QP_CTL.EN = 0 → RL_QP_CTL.CTX.get (BitVec.ofNat 64 v) = 127 →
    ∃ t, exec (.queuePairEnable q v) s = .next t ∧ t = { s with regs := t.regs, log := t.log } ∧
      ∀ r, r ≠ .gctlElogLost → t.reg r = s.reg r) ∧
  (∀ (s : State) (q v : Nat), s.clocksStopped = false → q < 64 → v < 2 ^ 32 → RL_QP_CTL.EN.get (BitVec.ofNat 64 v) = 1 →
    s.getF (.rlQpCtl q) RL_QP_CTL.EN = 0 → RL_QP_CTL.CTX.get (BitVec.ofNat 64 v) ≠ 127 →
    16 ≤ RL_QP_CTL.LIN.get (BitVec.ofNat 64 v) → RL_QP_CTL.LIN.get (BitVec.ofNat 64 v) ≤ 26 →
    16 ≤ RL_QP_CTL.LOUT.get (BitVec.ofNat 64 v) → RL_QP_CTL.LOUT.get (BitVec.ofNat 64 v) ≤ 26 →
    s.getF (.rlQpStatus q) RL_QP_STATUS.STATE ≤ 1 →
    ∃ t, exec (.queuePairEnable q v) s = .next t ∧ t.getF (.rlQpCtl q) RL_QP_CTL.EN = 1 ∧
      t.getF (.rlQpCtl q) RL_QP_CTL.CTX = RL_QP_CTL.CTX.get (BitVec.ofNat 64 v) ∧ t.cores = s.cores ∧ t.stackSet = s.stackSet) ∧
  (∀ (s : State) (p v : Nat), s.clocksStopped = false → p < 24 → v < 2 ^ 32 → v / 2 ^ 31 = 1 → s.getF (.fhCfg p) FH_CFG.EN = 0 →
    v / 2 ^ 29 % 4 ≠ 3 →
    ∃ t, exec (.fhPortEnable p v) s = .next t ∧ t.fhEn p = true ∧ t.getF (.fhCfg p) FH_CFG.MODE = v / 2 ^ 29 % 4 ∧
      t.domainOn (220 + p) = true ∧ (t.fhp p).tokens = [] ∧ t.cores = s.cores ∧ ∀ q, q ≠ p → t.fhp q = s.fhp q) ∧
  (∀ (s : State) (p f v : Nat) (g : Bool), s.clocksStopped = false → p < 24 → f < 1024 → v < 2 ^ 64 → s.fhEn p = false ∨ g = true →
    ∃ t, exec (.flowStagingWrite p f v g) s = .next t ∧ t = { s with fh := t.fh } ∧ (t.fhp p).staging = some (f, v) ∧
      ∀ q, q ≠ p → t.fhp q = s.fhp q) ∧
  (∀ (s : State) (p f v w : Nat) (g : Bool), s.clocksStopped = false → p < 24 → f < 1024 → v < 2 ^ 64 → w < 2 ^ 64 →
    s.fhEn p = false ∨ g = true → (s.fhp p).staging = some (f, w) →
    ∃ t, exec (.flowEntryReplace p f v g) s = .next t ∧ t = { s with fh := t.fh, regs := t.regs } ∧ (t.fhp p).staging = none ∧
      t.reg (.fhFlowLo p f) = BitVec.ofNat 64 (w / 2 ^ 24 * 2 ^ 24) ∧ t.reg (.fhFlowHi p f) = BitVec.ofNat 64 (v / 2 ^ 14 * 2 ^ 14) ∧
      ∀ r, r ≠ .fhFlowLo p f → r ≠ .fhFlowHi p f → t.reg r = s.reg r) ∧
  (∀ (s : State) (p f v : Nat), s.clocksStopped = false → p < 24 → f < 1024 → v < 2 ^ 64 → s.fhEn p = true →
    ∃ t u, exec (.flowStagingWrite p f v false) s = .next t ∧ exec (.flowEntryReplace p f v false) s = .next u ∧ t.fh = s.fh ∧
      u.fh = s.fh ∧ ∀ r, r ≠ .gctlElogLost → t.reg r = s.reg r ∧ u.reg r = s.reg r)

/-! ## Stops, borrows and take-overs -/

/-- The stop of a tenant side (R99, R175, R267): after the stop-issue step a side with an open no-preempt region waits for it, PHASE 2, and
else drains, PHASE 3; a drained side that a borrow waits for has stopped and its banks switch, PHASE 4. A borrow (R269 to R274): a ready radio command queues at its core with the cycle of its request; the bank switch selects the radio side,
then its dispatch, whose LAST shows the cycles since the request, PHASE 5; the switch back leads to the weight reload where an MMT
stopped, and the reload ends the return; a radio command past the extension of its beat is stopped with its context, cause 2. -/
def Obligations.SidesStopAndBorrowsReturn : Prop :=
  ((∀ (s : State) (p : Nat), s.clocksStopped = false → p < 208 → (s.core p).t.stop = .stopIssue →
    ∃ t, exec (.stopIssueComplete p) s = .next t ∧ s.SlotFrame t p [.coreCqPre p] ∧
      ((s.core p).openRegion → t.core p = { s.core p with t := { (s.core p).t with stop := .regionWait } } ∧
        t.getF (.coreCqPre p) CORE_CQ_PRE.PHASE = 2) ∧
      (¬ (s.core p).openRegion → t.core p = { s.core p with t := { (s.core p).t with stop := .drain } } ∧
        t.getF (.coreCqPre p) CORE_CQ_PRE.PHASE = 3)) ∧
  (∀ (s : State) (p : Nat) (stops : List Nat) (b : Borrow), s.clocksStopped = false → p < 208 → (s.core p).t.stop = .drain →
    ((s.meStop p 0 stops).core p).borrow = some b → b.phase = .stopping →
    ∃ t, exec (.meDrainComplete p stops) s = .next t ∧ (t.core p).t.stop = .stopped ∧
      (t.core p).borrow = some { b with phase := .bankSwitch } ∧ t.getF (.coreCqPre p) CORE_CQ_PRE.PHASE = 4 ∧
      (t.core p).t.meQ = ((s.meStop p 0 stops).core p).t.meQ) ∧
  (∀ (s : State) (p : Nat) (stops : List Nat), s.clocksStopped = false → p < 208 → (s.core p).t.stop = .drain →
    exec (.meDrainComplete p stops) s =
      .next (s.keep (((s.meStop p 0 stops).modCore p fun c => { c with t := { c.t with stop := .stopped } }).afterStop p)))) ∧
  ((∀ (s : State) (p no : Nat) (c : Cmd), s.clocksStopped = false → p < 208 → s.cmd no = some c → c.inst = 0 →
    (s.mapped c).inst = 0 → (s.mapped c).isKernel = true ∨ (s.mapped c).isCopy = true → s.head 0 (s.mapped c).ring = some c → s.duePast 0 (s.mapped c).ring = true →
    s.lcoreNo p ∈ (s.mapped c).todo → s.isStake p = false → (∀ y ∈ (s.core p).radioQ, y.2 ≠ no) →
    ∃ u : State, exec (.borrowRequest p no) s = .next (s.keep (u.serveRadio p)) ∧ (u.core p).req = s.gtc ∧
      (u.core p).radioQ = (s.core p).radioQ ++ [((s.mapped c).ctx, no)] ∧ (∀ q, q ≠ p → u.core q = s.core q) ∧ u.insts = s.insts) ∧
  (∀ (s : State) (p : Nat) (b : Borrow), s.clocksStopped = false → p < 208 → (s.core p).borrow = some b → b.phase = .bankSwitch →
    ∃ t, exec (.bankSwitchComplete p) s = .next t ∧ s.SlotFrame t p [] ∧
      t.core p = { s.core p with radio := true, borrow := some { b with phase := .dispatch } }) ∧
  (∀ (s : State) (p : Nat) (b : Borrow) (e : MeEntry) (o : MmtOp), s.clocksStopped = false → p < 208 → (s.core p).borrow = some b →
    b.phase = .switchBack → e ∈ (s.core p).t.meQ → e.phase = .stopped → e.op = .mmt o → (s.core p).takeover = none →
    ∃ t, exec (.bankSwitchComplete p) s = .next t ∧ s.SlotFrame t p [] ∧
      t.core p = { s.core p with radio := false, borrow := some { b with phase := .reload } }) ∧
  (∀ (s : State) (p : Nat) (b : Borrow), s.clocksStopped = false → p < 208 → (s.core p).borrow = some b → b.phase = .switchBack →
    (s.core p).takeover.isSome = true ∨ (∀ e ∈ (s.core p).t.meQ, e.phase ≠ .stopped) →
    ∃ u : State, exec (.bankSwitchComplete p) s = .next (s.keep (u.endReturn p)) ∧ s.SlotFrame u p [] ∧
      u.core p = { s.core p with radio := false, borrow := some { b with phase := .reload } }) ∧
  (∀ (s : State) (p : Nat) (b : Borrow), s.clocksStopped = false → p < 208 → (s.core p).borrow = some b → b.phase = .dispatch →
    ∃ u : State, exec (.radioDispatchComplete p) s = .next (s.keep ((u.radioNext p).kickCore p)) ∧ s.SlotFrame u p [.coreCqPre p] ∧
      u.core p = { s.core p with borrow := some { b with phase := .radio } } ∧
      u.getF (.coreCqPre p) CORE_CQ_PRE.LAST = min (s.gtc - (s.core p).req) 0xFFFF ∧ u.getF (.coreCqPre p) CORE_CQ_PRE.PHASE = 5) ∧
  (∀ (s : State) (p : Nat) (b : Borrow), s.clocksStopped = false → p < 208 → (s.core p).borrow = some b → b.phase = .reload →
    exec (.weightReloadComplete p) s = .next (s.keep ((s.reloadWeights p).endReturn p))) ∧
  (∀ (s : State) (p : Nat) (b : Borrow), (s.core p).borrow = some b → (s.core p).takeover = none →
    ∃ u : State, s.endReturn p = (if (s.core p).throttled = true then u.setPhase p 0 else u.resumeTenant p) ∧
      u.core p = { s.core p with borrow := none, extension := 0, tiles := (s.core p).tiles.filter fun t => t.side != 1 } ∧
      (∀ q, q ≠ p → u.core q = s.core q) ∧ u.regs = s.regs) ∧
  (∀ (s : State) (p : Nat) (r : Resident), s.clocksStopped = false → p < 208 → (s.core p).extension = 2 →
    (s.core p).residents.filter (fun r => r.side == 1) = [r] →
    exec (.dlAbort p) s = .next (s.keep
      ((s.event (srcCore p) 2 0x36 (s.lcoreNo p) r.ctx.group (min (s.gtc - r.began) (2 ^ 28 - 1))).contextDown r.ctx.group 2 5))))

/-- A take-over (R281 to R286): a spill keeps the holder's tenant state, its locks 0 to 47 and its arithmetic registers in the save slot;
zeroing clears the tenant's scratchpad range, its threads and plaits and those locks, and leaves the rest of the core; a restore puts
the image back with its weights read again and frees its slot, and faults the instance where the slot holds poisoned data. -/
def Obligations.TakeOversSpillZeroAndRestore : Prop :=
  (∀ (s : State) (p j : Nat) (k : TakeOver), s.clocksStopped = false → p < 208 → (s.core p).takeover = some k → k.phase = .spill →
    k.slot = some j → (s.core p).borrow = none → (s.core p).throttled = false →
    ∃ (t : State) (i : Image), exec (.spillComplete p) s = .next t ∧ SMap.get none t.images j = some i ∧ i.inst = k.from_ ∧ i.lcore = s.lcoreNo p ∧
      i.role = k.role ∧ i.core = { (s.core p).tenantPart (if k.role = 3 then 0xC00000 else 0xB00000) with sp := [] } ∧
      t.stackSet = (s.saveSp j ((s.core p).tenantPart (if k.role = 3 then 0xC00000 else 0xB00000)).sp).stackSet ∧
      (∀ n, n < 48 → i.locks[n]? = some (s.reg (.coreCqLock p n))) ∧ (∀ m, m ≠ j → SMap.get none t.images m = SMap.get none s.images m) ∧
      t.core p = { s.core p with takeover := some { k with phase := .zero, slot := none } } ∧
      (∀ q, q ≠ p → t.core q = s.core q) ∧ t.regs = s.regs) ∧
  (∀ (s : State) (p : Nat) (k : TakeOver), s.clocksStopped = false → p < 208 → (s.core p).takeover = some k → k.phase = .zero →
    (s.core p).borrow = none → (s.core p).throttled = false →
    ∃ u : State, exec (.zeroingComplete p) s = .next (s.keep (if k.restore.isSome = true
        then u.modCore p fun c => { c with takeover := some { k with phase := .restore } } else u.endTake p)) ∧
      (∀ a, u.spByte p a = if a < s.zeroTop p k.role then 0 else s.spByte p a) ∧
      (∀ i, (u.core p).thread i = if i < 12 then Thread.idle else (s.core p).thread i) ∧
      (∀ n, (u.core p).plait n = if n < (if s.zeroTop p k.role = 0xC00000 then 256 else 224) then Plait.idle else (s.core p).plait n) ∧ (u.core p).t = Side.zero ∧
      (u.core p).r = (s.core p).r ∧ (∀ n, n < 48 → u.reg (.coreCqLock p n) = (Reg.coreCqLock p n).resetWord) ∧
      (∀ n, 48 ≤ n → u.reg (.coreCqLock p n) = s.reg (.coreCqLock p n)) ∧ (∀ q, q ≠ p → u.core q = s.core q)) ∧
  (∀ (s : State) (p j : Nat) (k : TakeOver) (i : Image), s.clocksStopped = false → p < 208 → (s.core p).takeover = some k →
    k.phase = .restore → k.restore = some j → SMap.get none s.images j = some i → (s.core p).borrow = none →
    (s.core p).throttled = false → s.saveBad j = false →
    ∃ u : State, exec (.restoreComplete p) s = .next (s.keep (((u.reloadWeights p).charge i.inst fun a =>
        { a with bytes := a.bytes + imageBytes (i.role == 3) (!i.core.plaits.isEmpty) }).endTake p)) ∧
      u.core p = (s.core p).withTenant { i.core with sp := s.savedSp j (if i.role = 3 then 0xC00000 else 0xB00000) } ∧
      SMap.get none u.images j = none ∧ (∀ n w, i.locks[n]? = some w → u.reg (.coreCqLock p n) = w) ∧
      (∀ q, q ≠ p → u.core q = s.core q)) ∧
  (∀ (s : State) (p j : Nat) (k : TakeOver) (i : Image), s.clocksStopped = false → p < 208 → (s.core p).takeover = some k →
    k.phase = .restore → k.restore = some j → SMap.get none s.images j = some i → (s.core p).borrow = none →
    (s.core p).throttled = false → s.saveBad j = true →
    exec (.restoreComplete p) s = .next (s.keep ((s.ceFault p 2 (.tenant i.inst) 0).endTake p)))

/-! ## The beat -/

/-- Plans (R260 to R264, R277, R278, R280): a prepared plan of the next period, whose take-overs and returns follow R278 and R280, is
committed and later found for each beat that it covers, whatever the MP notes and drops with it; at the latch the
entries of the next beat are taken when every condition holds, nothing is latched without a plan, and a plan with a failed condition is
refused with INVALID and the count. The VCORE target of the latch is a free value between 650 and 850 mV. The boundary of a beat (R28, R258, R259, R264, R266, R506): it comes when it is due; the beat number counts modulo the hyperframe
and the boundary moves on by the beat's length; without latched entries the previous ones hold again, with TKO and RST cleared; locks
held without NP lose one from their lease; the first boundary leaves the number as it is. -/
def Obligations.PlansAreLatchedAtEachBoundary : Prop :=
  ((∀ (s : State) (first : Nat) (beats : List (List (Nat × Nat))), s.clocksStopped = false → s.boot.grizor = true → s.beat.started = true →
    first = s.nextPeriod → beats.length = s.periodBeats → (∀ b ∈ beats, ∀ x ∈ b, x.1 < 192 ∧ x.2 < 2 ^ 32) →
    (∀ m, (beats.map fun b => b.foldl (fun m x => SMap.put 0 m x.1 x.2) []).getLast? = some m → s.takesPlanned m = true) →
    s.returnsPlanned (beats.map fun b => b.foldl (fun m x => SMap.put 0 m x.1 x.2) []) = true →
    (∃ t, exec (.planPreparation first beats [] []) s = .next t ∧ t = { s with beat := { s.beat with plans := t.beat.plans } } ∧
      ∀ k m, beats[k]? = some m → t.planAt (first + k) = some (m.foldl (fun m x => SMap.put 0 m x.1 x.2) [])) ∧
    ∀ (excess : List (Nat × Nat)) (drop : List Nat),
      (∀ x ∈ excess, x.1 < 450 ∧ min 100 (WV_RBUDGET.PCT.get s.weave.rbudget) < x.2) →
      ∃ t, exec (.planPreparation first beats excess drop) s = .next t ∧ t.cores = s.cores ∧ t.insts = s.insts ∧
        ∀ k m, beats[k]? = some m → t.planAt (first + k) = some (m.foldl (fun m x => SMap.put 0 m x.1 x.2) [])) ∧
  (∀ (s : State), s.clocksStopped = false → s.beat.started = true → s.beat.latchDone = false →
    (if s.beat.first then s.beat.boundary else s.beat.boundary + s.beat.length) ≤ s.gtc + s.getF .timePlancfg TIME_PLANCFG.LATCH →
    ∃ v, 650 ≤ v ∧ v ≤ 850 ∧ v % 5 = 0 ∧
      let u := { s with free := s.free + 1, beat := { s.beat with latchDone := true } }.setF .gctlVcore GCTL_VCORE.TARGET v
      let nb := if s.beat.first then s.beatNo 0 else s.beatNo 1
      (s.planAt nb = none → exec .planLatch s = .next u) ∧
      (∀ m, s.planAt nb = some m → u.planFault m = none →
        exec .planLatch s = .next { u with beat := { u.beat with latched := some m } }) ∧
      (∀ m c, s.planAt nb = some m → u.planFault m = some c →
        ∃ t, exec .planLatch s = .next t ∧ t.beat = { u.beat with latched := none, refused := true } ∧
          t.getF .timePlanstat TIME_PLANSTAT.INVALID = 1 ∧ t.cores = s.cores ∧
          ∀ r, r ≠ .timePlanstat → r ≠ .gctlElogLost → t.reg r = u.reg r))) ∧
  ((∀ (s : State) (avg : Nat) (alert : Bool), s.clocksStopped = false → s.beat.started = true → avg < 4096 →
    (if s.beat.first then s.beat.boundary else s.beat.boundary + s.beat.length) ≤ s.gtc →
    ∃ t, exec (.beatBoundary avg alert) s = .next t ∧ t.gtc = s.gtc ∧ t.pending = s.pending ∧ t.clocksStopped = false) ∧
  (∀ (s : State), s.beat.first = false → 0 < s.hyperBeats → s.hyperBeats ≤ 2 ^ 21 →
    s.nextBeat.getF .timeBeat TIME_BEAT.NUM = (s.getF .timeBeat TIME_BEAT.NUM + 1) % s.hyperBeats ∧
    s.nextBeat.beat.boundary = s.beat.boundary + s.beat.length ∧ (∀ r, r ≠ .timeBeat → s.nextBeat.reg r = s.reg r)) ∧
  (∀ (s : State), s.beat.first = true → s.nextBeat = { s with beat := { s.beat with first := false } }) ∧
  (∀ (s : State) (l : Nat), s.beat.latched = none → l < 192 → SMap.find? s.nextEntries.1 l = some (s.bindEntry l (eKeep (s.entry l))) ∧
    s.nextEntries.2 = true) ∧
  (∀ (s : State) (p n : Nat), let t := { s with regs := decrLeases s.regs }
    (s.getF (.coreCqLock p n) CORE_CQ_LOCK.STATE = 1 → s.getF (.coreCqLock p n) CORE_CQ_LOCK.NP = 0 →
      0 < s.getF (.coreCqLock p n) CORE_CQ_LOCK.LEASE →
      t.getF (.coreCqLock p n) CORE_CQ_LOCK.LEASE = s.getF (.coreCqLock p n) CORE_CQ_LOCK.LEASE - 1 ∧
      t.getF (.coreCqLock p n) CORE_CQ_LOCK.OWNER = s.getF (.coreCqLock p n) CORE_CQ_LOCK.OWNER) ∧
    (s.getF (.coreCqLock p n) CORE_CQ_LOCK.STATE ≠ 1 → t.reg (.coreCqLock p n) = s.reg (.coreCqLock p n))))

/-- Events of the beat for locks, fixed leases and cores (R17, R106, R112, R180, R255, R319, R527, R528): a lock whose lease has run out is
BROKEN with its owner in LAST; a fixed lease ends with its term; a failed core is zero and failed; a mapped core whose test finds nothing
new is no longer under test; a woken core is zero; a failed die has failed cores and its power is off; a failed logical core passes to
the lowest free spare slot of its die. -/
def Obligations.CoresLeasesAndLocksEnd : Prop :=
  (∀ (s : State) (p n : Nat), s.clocksStopped = false → p < 208 → n < 64 → s.getF (.coreCqLock p n) CORE_CQ_LOCK.STATE = 1 →
    s.getF (.coreCqLock p n) CORE_CQ_LOCK.NP = 0 → s.getF (.coreCqLock p n) CORE_CQ_LOCK.LEASE = 0 →
    ∃ t, exec (.lockLeaseExpiry p n) s = .next t ∧ t = { s with regs := t.regs } ∧ t.getF (.coreCqLock p n) CORE_CQ_LOCK.STATE = 2 ∧
      t.getF (.coreCqLock p n) CORE_CQ_LOCK.LAST = s.getF (.coreCqLock p n) CORE_CQ_LOCK.OWNER ∧
      t.getF (.coreCqLock p n) CORE_CQ_LOCK.OWNER = 0 ∧ ∀ r, r ≠ .coreCqLock p n → t.reg r = s.reg r) ∧
  (∀ (s : State) (n : Nat), s.clocksStopped = false → 1 ≤ n → n ≤ 64 → (s.inst n).fixedLeft = some 0 → (s.inst n).lease = [] →
    ∃ t, exec (.fixedLeaseEnd n) s = .next t ∧ t = { s with insts := t.insts, regs := t.regs } ∧ (t.inst n).fixedLeft = none ∧
      t.getF (.iwState n) IW_STATE.FIXED = 0 ∧ (∀ m, m ≠ n → t.inst m = s.inst m) ∧ ∀ r, r ≠ .iwState n → t.reg r = s.reg r) ∧
  (∀ (s : State) (n l p : Nat), s.clocksStopped = false → 1 ≤ n → n ≤ 64 → (s.inst n).fixedLeft = some 0 → (s.inst n).lease = [l] →
    s.slotOf l = some p → s.role p = 3 → s.getF (.coreCqPlan p) CORE_CQ_PLAN.OWNER = n →
    let u := ((s.modInst n fun x => { x with fixedLeft := none, fixedTerm := 0 }).setF (.iwState n) IW_STATE.FIXED 0).setF
      (.coreCqPlan p) CORE_CQ_PLAN.ROLE 2
    exec (.fixedLeaseEnd n) s = .next (s.keep ((u.discard p).startTake p
      { phase := .stopping, from_ := n, to_ := n, role := 3, since := s.gtc, spillAt := 0, slot := none, restore := none }))) ∧
  (∀ (s : State) (p : Nat), s.clocksStopped = false → p < 208 → (s.core p).failed = false →
    ∃ t, exec (.coreFailed p) s = .next t ∧ t.core p = { Core.zero with failed := true, nextId := (s.core p).nextId } ∧
      (∀ q, q ≠ p → t.core q = s.core q) ∧ t.regs = s.regs ∧ t.stackSet = s.stackSet) ∧
  (∀ (s : State) (p : Nat), s.clocksStopped = false → p < 208 → (s.core p).waking = true →
    ∃ t, exec (.coreWakeComplete p) s = .next t ∧ (t.core p).waking = false ∧ (t.core p).sp = [] ∧ (t.core p).threads = [] ∧
      (t.core p).radioQ = (s.core p).radioQ ∧ (∀ q, q ≠ p → t.core q = s.core q) ∧
      ∀ r, (∀ k, r ≠ .coreMeSpare p k) → t.reg r = s.reg r) ∧
  (∀ (s : State) (p : Nat), s.clocksStopped = false → p < 208 → s.powered p = true → (s.core p).waking = false →
    (s.core p).failed = false → (s.core p).residents = [] → (s.core p).takeover = none → (s.core p).borrow = none → s.role p = 0 →
    s.getF (.coreCqPlan p) CORE_CQ_PLAN.BRW = 0 →
    (∃ t, exec (.knownAnswerTestComplete p []) s = .next t ∧ s.SlotFrame t p [] ∧ t.core p = { s.core p with testing := false }) ∧
    (∀ r, r < 260 → (p, r) ∉ s.boot.rows →
      ∃ t, exec (.knownAnswerTestComplete p [r]) s = .next t ∧ (∀ q, q ≠ p → t.core q = s.core q) ∧
        ((s.boot.rows.filter fun x => x.1 == p).length < 4 →
          t.core p = { s.core p with testing := true } ∧ t.boot.rows = s.boot.rows ++ [(p, r)]) ∧
        (4 ≤ (s.boot.rows.filter fun x => x.1 == p).length →
          t.core p = { s.core p with failed := true, testing := false } ∧ t.boot.rows = s.boot.rows))) ∧
  (∀ (s : State) (d : Nat), s.clocksStopped = false → d < 8 → s.domainOn (260 + d) = true →
    ∃ t, exec (.dieFail d) s = .next t ∧ t.domainOn (260 + d) = false ∧ t.gtc = s.gtc ∧ t.pending = s.pending) ∧
  (∀ (s : State) (l p q : Nat) (rest : List Nat), s.clocksStopped = false → l < 192 → s.slotOf l = some p → (s.core p).failed = true →
    s.entry l = 0 → (∀ x ∈ s.insts, l ∉ x.2.lease) → (∀ c ∈ s.cmds, c.phase = .running → l ∉ c.left) → s.spareSlots (l / 24) = q :: rest →
    ∃ t, exec (.spareSubstitution l) s = .next t ∧ t.slotOf l = some q ∧ t.getF (.gctlCmap l) GCTL_CMAP.SPARE = 1 ∧ t.cores = s.cores ∧
      (∀ r, r ≠ .gctlCmap l → r ≠ .gctlElogLost → t.reg r = s.reg r) ∧
      ∃ x, t.boot.flash.records = s.boot.flash.records ++ [x] ∧ x.type = 0x8001 ∧ x.subject = p ∧ x.body = [l, q]) ∧
  (∀ (s : State) (l p : Nat), s.clocksStopped = false → l < 192 → s.slotOf l = some p → (s.core p).failed = true → s.entry l = 0 →
    (∀ x ∈ s.insts, l ∉ x.2.lease) → (∀ c ∈ s.cmds, c.phase = .running → l ∉ c.left) → s.spareSlots (l / 24) = [] →
    ∃ t, exec (.spareSubstitution l) s = .next t ∧ t.slotOf l = none ∧ t.cores = s.cores) ∧
  (∀ (s : State), s.images = [] → s.failedCores = [] → (∀ x ∈ s.insts, x.2.lease = []) → s.dropFailed = s) ∧
  (∀ (s : State) (n : Nat), (∀ c ∈ s.cmds, c.phase ≠ .running) → (s.inst n).lease.any s.failedCores.contains = true → SMap.find? s.insts n = some (s.inst n) →
    (s.insts.filter fun x => x.1 == n).length = 1 → (s.dropFailed.inst n).lease = (s.inst n).lease.filter fun l => !s.failedCores.contains l)

/-! ## Rings and commands -/

/-- Descriptors (R154, R248 to R250, R306, R316, R325): a live ring requests as many as it may, each by two RDCs for a tenant, or stops with
JOURNAL_FULL at a full journal; a checked one starts its ACCEPT or REJECT record, the latter with the first failing cause, and a well-formed
management or device request goes to Grizor; a durable ACCEPT makes the command wait and a durable REJECT is reported; a retired record at the journal's end frees its slot. -/
def Obligations.DescriptorsBecomeCommands : Prop :=
  (∀ (s : State) (n r : Nat), s.clocksStopped = false → 0 < n → n ≤ 65 → r < 64 → s.ringLive n r = true → s.cclUp = true →
    (s.ring n r).enabling = false → s.boot.warm = false → s.boot.recover = false → s.cacheRoom 2 = true →
    (s.fetchCount n r = 0 → exec (.descriptorFetch n r) s = .next s) ∧
    (0 < s.fetchCount n r → s.journalRoom = true → exec (.descriptorFetch n r) s = .next (s.keep
      ((List.range (s.fetchCount n r)).foldl
        (fun u i => u.requestDescr n r ((s.ring n r).next + i) (i + 1 == s.fetchCount n r)) s))) ∧
    (0 < s.fetchCount n r → s.journalRoom = false → s.stackSet.journal.full = false →
      ∃ t, exec (.descriptorFetch n r) s = .next t ∧ t.stackSet.journal.full = true ∧ t.rings = s.rings ∧ t.ccl = s.ccl)) ∧
  (∀ (s : State) (r : Nat), let u := s.readOwnLine 0 r
    s.clocksStopped = false → r < 64 → s.ringLive 0 r = true → s.cclUp = true → (s.ring 0 r).enabling = false → s.boot.warm = false →
    u.ringLive 0 r = true → 0 < u.fetchCount 0 r → u.journalRoom = true → exec (.descriptorFetch 0 r) s = .next (s.keep
      ((List.range (u.fetchCount 0 r)).foldl
        (fun v i => v.requestDescr 0 r ((u.ring 0 r).next + i) (i + 1 == u.fetchCount 0 r)) u))) ∧
  (∀ (s : State) (n r x p q : Nat) (last : Bool), 0 < n → s.getF (ringRegs n r).status IW_RING_STATUS.STATE ≠ 3 →
    s.ringPlace n (s.getF (ringRegs n r).cmdbase IW_RING_CMDBASE.ADDR * 64 + 128 * (x % 2 ^ s.ringL n r)) false = some (.comp p) →
    s.ringPlace n (s.getF (ringRegs n r).cmdbase IW_RING_CMDBASE.ADDR * 64 + 128 * (x % 2 ^ s.ringL n r) + 64) false = some (.comp q) →
    let t := s.requestDescr n r x last
    ∃ a b, t.ccl.out = s.ccl.out ++ [⟨.rdc, p, [], a, .descriptor n r x⟩, ⟨.rdc, q, [], b, .descriptor n r x⟩] ∧
      (t.ring n r).next = x + 1 ∧ ((t.ring n r).fetched.map fun f => f.ridx) = ((s.ring n r).fetched.map fun f => f.ridx) ++ [x] ∧
      t.regs = s.regs ∧ t.cores = s.cores) ∧
  (∀ (s : State) (n r : Nat) (f : Fetched) (lo hi : List Byte), s.clocksStopped = false → n < 65 → r < 64 → s.journalRoom = true →
    (s.ring n r).fetched.find? (fun f => !f.checked) = some f → f.lo = some lo → f.hi = some hi →
    ∃ t q, exec (.descriptorCheck n r) s = .next t ∧ t = { s with rings := t.rings, stackSet := t.stackSet, ccl := t.ccl } ∧ t.ccl.out = s.ccl.out ∧
      t.stackSet.journal.recs = s.stackSet.journal.recs ++ [q] ∧ q.seq = s.stackSet.journal.next ∧ q.inst = n ∧ q.ring = r ∧
      q.ridx = f.ridx ∧ q.step = fieldAt (lo ++ hi) 16 8 ∧ q.written = false ∧ q.durable = false ∧
      q.kind = (if s.checkDescr n r f.limit (lo ++ hi) = 0 then .accept else .reject) ∧
      q.cause = s.checkDescr n r f.limit (lo ++ hi) ∧
      (s.checkDescr n r f.limit (lo ++ hi) = 0 → q.body = lo ++ hi)) ∧
  (∀ (s : State) (r : Nat) (f : Fetched) (lo hi : List Byte), s.clocksStopped = false → r < 2 →
    (s.ring 65 r).fetched.find? (fun f => !f.checked) = some f → f.lo = some lo → f.hi = some hi →
    (r = 0 → mgmtMalformed (lo ++ hi) = false → ∃ t, exec (.descriptorCheck 65 r) s = .next t ∧ t.mgmtQ = s.mgmtQ ++ [⟨f.ridx, lo ++ hi⟩] ∧
      t.devQ = s.devQ ∧ t.stackSet = s.stackSet) ∧
    (r = 1 → devMalformed (lo ++ hi) = false → ∃ t, exec (.descriptorCheck 65 r) s = .next t ∧ t.devQ = s.devQ ++ [⟨f.ridx, lo ++ hi⟩] ∧
      t.mgmtQ = s.mgmtQ ∧ t.stackSet = s.stackSet)) ∧
  (∀ (s : State) (comp : List Nat) (q : JRec) (f : Fetched), s.clocksStopped = false →
    s.stackSet.journal.recs.find? (fun q => !q.durable) = some q → q.written = true → q.kind = .accept →
    (s.ring q.inst q.ring).fetched.find? (fun f => f.ridx == q.ridx && f.checked) = some f →
    exec (.journalRecordDurable comp) s = .next (s.keep
      ((((((s.modJrec q.seq fun q => { q with durable := true }).journalBusy).accepted q f.last).retireRing q.inst q.ring).finishReset
        q.inst).finishRemove q.inst))) ∧
  (∀ (s : State) (comp : List Nat) (q : JRec) (f : Fetched), s.clocksStopped = false →
    s.stackSet.journal.recs.find? (fun q => !q.durable) = some q → q.written = true → q.kind = .reject →
    (s.ring q.inst q.ring).fetched.find? (fun f => f.ridx == q.ridx && f.checked) = some f →
    exec (.journalRecordDurable comp) s = .next (s.keep
      ((((((s.modJrec q.seq fun q => { q with durable := true }).journalBusy).rejected q f.tag f.last).retireRing q.inst q.ring).finishReset
        q.inst).finishRemove q.inst))) ∧
  (∀ (s : State) (comp : List Nat) (q : JRec) (c : Cmd), s.clocksStopped = false →
    s.stackSet.journal.recs.find? (fun q => !q.durable) = some q → q.written = true → q.kind = .commit → s.cmd q.key.no = some c →
    c.phase = .ended →
    exec (.journalRecordDurable comp) s = .next (s.keep
      ((((((s.modJrec q.seq fun q => { q with durable := true }).journalBusy).committed c comp).retireRing q.inst q.ring).finishReset
        q.inst).finishRemove q.inst))) ∧
  (∀ (s : State) (q : JRec) (last : Bool),
    q.inst = 0 ∨ s.instState q.inst ≠ stFAULTED ∧ s.instState q.inst ≠ stRESETTING ∧ s.instState q.inst ≠ stREMOVING →
    ∃ c ∈ (s.accepted q last).cmds, c.inst = q.inst ∧ c.ring = q.ring ∧ c.ridx = q.ridx ∧ c.d = descrOf q.body ∧ c.phase = .waiting) ∧
  (∀ (s : State) (q : JRec) (rest : List JRec), s.clocksStopped = false → s.stackSet.journal.recs = q :: rest → q.retired = true →
    ∃ t, exec .journalSlotFreed s = .next t ∧ t.stackSet.journal.recs = rest.dropWhile (fun q => q.retired) ∧
      t.stackSet.journal.full = false ∧ t.cores = s.cores ∧ ∀ r, r ≠ .gctlElogLost → t.reg r = s.reg r)

/-- A KERNEL begins on every core of its set that can take it, on each with its thread's pc at ENTRY of its code, its arguments in s1 to
s4 and its core index and count in its resident entry; a synchronised one begins on all at once; a COPY begins on its core with as many
descriptors of its list as its queue has room for (R153, R157 to R161, R353). -/
def Obligations.KernelsAndCopiesBegin : Prop :=
  (∀ (s : State) (n r : Nat) (c0 : Cmd), s.clocksStopped = false → s.head n r = some c0 → (s.mapped c0).isKernel = true →
    (s.ring n r).due = none → (s.mapped c0).cores.length = (s.mapped c0).size → s.starts (s.mapped c0) ≠ [] →
    exec (.kernel n r) s = .next (s.keep (s.beginAll (s.mapped c0) (s.starts (s.mapped c0))))) ∧
  (∀ (s : State) (n r t : Nat) (c0 : Cmd), s.clocksStopped = false → s.head n r = some c0 →
    (s.mapped c0).isKernel = true ∨ (s.mapped c0).isCopy = true →
    (s.ring n r).due = some t → t ≤ s.gtc → (s.mapped c0).phase = .waiting → (s.mapped c0).cores.length = (s.mapped c0).size →
    (s.starts (s.mapped c0)).length = (s.mapped c0).size →
    exec (.synchronisedStart n r) s = .next (s.keep ((s.takeDue n r).beginAll (s.mapped c0) (s.starts (s.mapped c0))))) ∧
  (∀ (s : State) (p k t i : Nat) (c : Cmd) (b : KernelBody), c.d.body = .kernel b → c.d.launch = false → i < b.args.length →
    (s.core p).resident c.key.no = none →
    let u := s.beginOn p k t c
    ((u.core p).thread t).running = true ∧ ((u.core p).thread t).pc = b.code + b.entry ∧ ((u.core p).thread t).cmd = c.key.no ∧
      some (((u.core p).thread t).reg (i + 1)) = b.args[i]? ∧
      (∀ j, j ≠ t → (u.core p).thread j = (s.core p).thread j) ∧ (u.core p).sp = (s.core p).sp ∧ (∀ q, q ≠ p → u.core q = s.core q) ∧
      ∃ x, (u.core p).resident c.key.no = some x ∧ x.side = k ∧ x.code = b.code ∧ x.count = c.cores.length ∧ x.began = s.gtc) ∧
  (∀ (s : State) (n r : Nat) (data comp : List Nat) (c0 : Cmd) (b : CopyBody) (x : Nat × Nat × Nat) (rest : List (Nat × Nat × Nat)),
    s.clocksStopped = false → s.head n r = some c0 → (s.mapped c0).d.body = .copy b → (s.mapped c0).phase = .waiting →
    (s.ring n r).due = none → (s.mapped c0).cores.length = 1 → s.starts (s.mapped c0) = x :: rest →
    exec (.copy n r data comp) s = .next (s.keep (State.copyFill (s.mapped c0) b x.1 x.2.1
      ((s.beginAll (s.mapped c0) [x]).copyRoom b x.1 x.2.1 0) data comp (s.beginAll (s.mapped c0) [x])))) ∧
  (∀ (s : State) (n r p l : Nat) (data comp : List Nat) (c0 : Cmd) (b : CopyBody) (x : Resident) (rest : List Nat),
    s.clocksStopped = false → s.head n r = some c0 → (s.mapped c0).d.body = .copy b → (s.mapped c0).phase ≠ .waiting →
    (s.mapped c0).cores = l :: rest → s.slotOf l = some p → (s.core p).resident (s.mapped c0).key.no = some x →
    s.ceRuns p x.side b.engine = true → (s.mapped c0).fetched < b.dcount → (s.ceQueue p x.side b.engine).entries.length < 16 →
    exec (.copy n r data comp) s = .next (s.keep (State.copyFill (s.mapped c0) b p x.side
      (s.copyRoom b p x.side (s.mapped c0).fetched) data comp s)))

/-- BARRIER, FENCE and SIGNAL (R162 to R164, R323, R353, R355): a barrier without WADDR holds its ring, and is released when every earlier
command of its instance is done; with SCOPE 1 it waits for TREL and the ring's next command is then due 512 cycles later; a fence with
nothing outstanding completes at once and another when its acknowledgements have come; a signal reads its word and its result is SVAL,
or the wrapping sum. -/
def Obligations.BarriersFencesAndSignalsFollowTheirRules : Prop :=
  (∀ (s : State) (n r : Nat) (comp : List Nat) (c : Cmd) (b : BarrierBody), s.clocksStopped = false → s.head n r = some c →
    c.d.body = .barrier b → c.phase = .waiting → s.duePast n r = true →
    let u := (s.takeDue n r).modCmd c.key.no fun c => { c with
      phase := .running
      atTrel := if b.scope = 1 ∧ s.trel b ≤ s.tbValue 2 then some (s.tbState 2, false) else none }
    (b.waddr = 0 → exec (.barrier n r comp) s = .next (s.keep u)) ∧
    (∀ (a : Nat) (v : State), b.waddr ≠ 0 → u.xlate n b.waddr 8 false comp = (.ok (.comp a), v) →
      ∃ t port, exec (.barrier n r comp) s = .next t ∧ t.ccl.out = v.ccl.out ++ [⟨.rds, a / 64 * 64, [], port, .barrierWord c.key⟩] ∧
        (∀ y ∈ t.cmds, y.key.no = c.key.no → y.waddr = some a ∧ y.word = none) ∧ t.cores = v.cores ∧ t.regs = v.regs) ∧
    (∀ (cause level addr : Nat) (v : State), b.waddr ≠ 0 → u.xlate n b.waddr 8 false comp = (.fault cause level addr, v) →
      exec (.barrier n r comp) s = .next (s.keep (v.transFault c.ctx cause level addr false 2 0xFF))) ∧
    (∀ (a : Nat) (v : State), b.waddr ≠ 0 → u.xlate n b.waddr 8 false comp = (.ok (.stack a), v) →
      exec (.barrier n r comp) s = .next (s.keep (v.transFault c.ctx 4 0 b.waddr false 2 0xFF))) ∧
    (∀ v : State, b.waddr ≠ 0 → u.xlate n b.waddr 8 false comp = (.held, v) → exec (.barrier n r comp) s = .next s)) ∧
  (∀ (s : State) (n r : Nat) (c : Cmd) (b : BarrierBody), s.clocksStopped = false → s.head n r = some c → c.d.body = .barrier b →
    c.phase = .running → s.barrierMet c b = true → b.scope ≠ 1 →
    exec (.barrierRelease n r) s = .next (s.keep ((s.endCommand c.key.no 1 0).dropWord c))) ∧
  (∀ (s : State) (n r : Nat) (c : Cmd) (b : BarrierBody), s.clocksStopped = false → s.head n r = some c → c.d.body = .barrier b →
    c.phase = .running → s.barrierMet c b = true → b.scope = 1 → s.trel b ≤ s.tbValue 2 →
    ∃ t, exec (.barrierRelease n r) s = .next t ∧ (t.ring n r).due = some (s.gtc + 512) ∧ t.cores = s.cores ∧
      (∀ q, q ≠ .gctlElogLost → t.reg q = s.reg q)) ∧
  (∀ (s : State) (n r : Nat) (c : Cmd) (a b : Bool), s.clocksStopped = false → s.head n r = some c → c.d.body = .fence a b →
    c.phase = .waiting → s.duePast n r = true →
    let t := (s.takeDue n r).modCmd c.key.no fun c => { c with phase := .running }
    (s.fenceMet n r a b = true → exec (.fence n r) s = .next (s.keep (t.endCommand c.key.no 1 0))) ∧
    (s.fenceMet n r a b = false → exec (.fence n r) s = .next (s.keep t))) ∧
  (∀ (s : State) (n r : Nat) (c : Cmd) (a b : Bool), s.clocksStopped = false → s.head n r = some c → c.d.body = .fence a b →
    c.phase = .running → s.fenceMet n r a b = true → exec (.fenceComplete n r) s = .next (s.keep (s.endCommand c.key.no 1 0))) ∧
  (∀ (s : State) (n r : Nat) (comp : List Nat) (c : Cmd) (b : SignalBody), s.clocksStopped = false → s.head n r = some c →
    c.d.body = .signal b → c.phase = .waiting → s.duePast n r = true → s.signalling n = false →
    let u := (s.takeDue n r).modCmd c.key.no fun c => { c with phase := .running }
    (∀ (a : Nat) (v : State), u.xlate n b.saddr 8 false comp = (.ok (.comp a), v) →
      ∃ t port, exec (.signal n r comp) s = .next t ∧ t.ccl.out = v.ccl.out ++ [⟨.rdc, a / 64 * 64, [], port, .signalRead c.key⟩] ∧
        t.cores = v.cores ∧ t.regs = v.regs) ∧
    (∀ (a : Nat) (v w : State) (bs : List Byte), u.xlate n b.saddr 8 false comp = (.ok (.stack a), v) →
      (v.modCmd c.key.no fun c => { c with saddr := some a }).stackRead n a 8 = (some bs, w) →
      exec (.signal n r comp) s = .next (s.keep (w.signalRead c (leNat bs)))) ∧
    (∀ (a : Nat) (v w : State), u.xlate n b.saddr 8 false comp = (.ok (.stack a), v) →
      (v.modCmd c.key.no fun c => { c with saddr := some a }).stackRead n a 8 = (none, w) →
      exec (.signal n r comp) s = .next (s.keep (w.tearDown c.ctx 4 0xFF))) ∧
    (∀ (cause level addr : Nat) (v : State), u.xlate n b.saddr 8 false comp = (.fault cause level addr, v) →
      exec (.signal n r comp) s = .next (s.keep (v.transFault c.ctx cause level addr false 2 0xFF))) ∧
    (∀ v : State, u.xlate n b.saddr 8 false comp = (.held, v) → exec (.signal n r comp) s = .next s)) ∧
  (∀ (s : State) (c c1 : Cmd) (b : SignalBody) (w : Nat), c.d.body = .signal b → s.cmd c.key.no = some c1 → c1.silent = false →
    c1.d = c.d →
    ∀ y ∈ (s.signalRead c w).cmds, y.key.no = c.key.no →
      y.result = (if b.op = 0 then b.sval else (w + b.sval) % 2 ^ 64) ∧ y.phase = .ended ∧ y.status = 1)

/-! ## Management requests -/

/-- Requests of an instance (R313, R316 to R319, R327): each is answered, REJECTED with its cause where it is refused; else SETW sets the weight and
the priority, MAP and UNMAP change one region and drop the cached translations, QUIESCE leads to QUIESCING and, once every command is
done, to QUIESCED, and RESUME leads to ACTIVE with its enabled rings fetching again; in MAINT every one is refused (R507). -/
def Obligations.ManagementRequestsTakeEffect : Prop :=
  (∀ (s : State) (n : Nat) (q : Req), s.Serves n 4 q →
    (s.allowed n [1, 2, 3, 4, 5, 6, 7] = false → exec (.setw n) s = .next (s.keep ((s.dropReq q).answer q 2))) ∧
    (s.allowed n [1, 2, 3, 4, 5, 6, 7] = true → 7 < q.f 16 1 ∨ q.f 19 1 < 1 →
      exec (.setw n) s = .next (s.keep ((s.dropReq q).answer q 3))) ∧
    (s.allowed n [1, 2, 3, 4, 5, 6, 7] = true → q.f 16 1 ≤ 7 → 1 ≤ q.f 19 1 →
      ∃ u : State, exec (.setw n) s = .next (s.keep (u.answer q 0)) ∧ u.getF (.wvWeight n) WV_WEIGHT.WEIGHT = q.f 19 1 ∧
        u.getF (.iwState n) IW_STATE.PRIO = q.f 16 1 ∧ u = { s with regs := u.regs, mgmtQ := u.mgmtQ } ∧
        ∀ r, r ≠ .wvWeight n → r ≠ .iwState n → u.reg r = s.reg r)) ∧
  (∀ (s : State) (n : Nat) (q : Req), s.Serves n 5 q →
    (mapCause n (s.dropReq q) q ≠ 0 → exec (.map n) s = .next (s.keep ((s.dropReq q).answer q (mapCause n (s.dropReq q) q)))) ∧
    (mapCause n (s.dropReq q) q = 0 →
      ∃ u : State, exec (.map n) s = .next (s.keep (u.answer q 0)) ∧ u.regs = s.regs ∧ u.cores = s.cores ∧
        u.inst n = { s.inst n with regions := (u.inst n).regions, tlb := [], root := s.reg (.iwS1root n) } ∧
        (∀ k, SMap.get none (u.inst n).regions k = if k = q.f 16 1 then some (regionOf q) else SMap.get none (s.inst n).regions k) ∧
        ∀ m, m ≠ n → u.inst m = s.inst m)) ∧
  (∀ (s : State) (n : Nat) (q : Req), s.Serves n 6 q →
    (s.allowed n [stQUIESCED] = true → q.f 16 1 ≤ 63 →
      ∃ u : State, exec (.unmap n) s = .next (s.keep (u.answer q 0)) ∧ u.regs = s.regs ∧
        u.inst n = { s.inst n with regions := (u.inst n).regions, tlb := [], root := s.reg (.iwS1root n) } ∧
        (∀ k, SMap.get none (u.inst n).regions k = if k = q.f 16 1 then none else SMap.get none (s.inst n).regions k)) ∧
    (s.allowed n [stQUIESCED] = true → 63 < q.f 16 1 → exec (.unmap n) s = .next (s.keep ((s.dropReq q).answer q 3))) ∧
    (s.allowed n [stQUIESCED] = false → exec (.unmap n) s = .next (s.keep ((s.dropReq q).answer q 2)))) ∧
  (∀ (s : State) (n : Nat) (q : Req), s.Serves n 7 q →
    (s.allowed n [stACTIVE] = true →
      ∃ t, exec (.quiesce n) s = .next t ∧ t.instState n = stQUIESCING ∧ (t.inst n).work = some ⟨.quiesce, q.ridx, q.tag⟩ ∧
        t.cmds = s.cmds ∧ t.cores = s.cores) ∧
    (s.allowed n [stACTIVE] = false → exec (.quiesce n) s = .next (s.keep ((s.dropReq q).answer q 2)))) ∧
  (∀ (s : State) (n : Nat) (w : MgmtWork), s.clocksStopped = false → (s.inst n).work = some w → w.op = .quiesce →
    (∀ c ∈ s.cmds, c.inst = n → c.phase = .committed ∧ s.signalOut c.key = false) → (∀ r, r < 64 → (s.ring n r).fetched = []) →
    ∃ u : State, exec (.quiesceComplete n) s = .next (s.keep (u.mgmtReply w.ridx w.tag 1 0)) ∧ u.instState n = stQUIESCED ∧
      (u.inst n).work = none ∧ (u.inst n).lease = (s.inst n).lease ∧ u.cores = s.cores) ∧
  (∀ (s : State) (n : Nat) (q : Req), s.Serves n 8 q →
    (s.allowed n [stQUIESCED] = true →
      ∃ u : State, exec (.resume n) s = .next (s.keep (u.answer q 0)) ∧ u.instState n = stACTIVE ∧
        ∀ r, r < 64 → s.ringEn n r = true → s.getF (.iwRingStatus n r) IW_RING_STATUS.STATE = 2 →
          u.getF (.iwRingStatus n r) IW_RING_STATUS.STATE = 1) ∧
    (s.allowed n [stQUIESCED] = false → exec (.resume n) s = .next (s.keep ((s.dropReq q).answer q 2)))) ∧
  (∀ (s : State) (n op : Nat) (q : Req) (i : Instr), s.clocksStopped = false → s.nextReq n op = some q → s.mpServes = true →
    s.getF .mpBootstat MP_BOOTSTAT.STAGE = 7 →
    (i, op) ∈ [(Instr.setw n, 4), (.map n, 5), (.unmap n, 6), (.quiesce n, 7), (.resume n, 8), (.reset n, 9), (.remove n, 10)] →
    exec i s = .next (s.keep ((s.dropReq q).answer q 2)))

/-- Life and death of an instance (R225, R237, R317 to R319, R321, R327): CREATE gives it its cores, weight, priority, quota and keys in
state CREATING and leaves it QUIESCED once its frames are clear; RESIZE and FIXLEASE change its lease; RESET retires its commands and
leaves it QUIESCED, and REMOVE ABSENT, once their completions have been reported; a repeated request changes nothing; each is refused in other states. The cores and frames are Grizor's choice. -/
def Obligations.InstancesLiveAndEnd : Prop :=
  (∀ (s : State) (n : Nat) (q : Req) (cores : List Nat) (frames : List (List Nat)), s.Serves n 1 q →
    (s.sameCreate n q = true → exec (.create n cores frames) s = .next (s.keep ((s.dropReq q).answer q 0))) ∧
    (s.sameCreate n q = false → createCause n (s.dropReq q) q ≠ 0 →
      exec (.create n cores frames) s = .next (s.keep ((s.dropReq q).answer q (createCause n (s.dropReq q) q)))) ∧
    (s.sameCreate n q = false → createCause n (s.dropReq q) q = 0 → s.coresChosen n (q.f 18 1) cores = true →
      s.framesChosen (stacksOf (q.f 20 2)) (perSlot (stacksOf (q.f 20 2)).length (q.f 24 2) (q.f 22 1 == 1)) frames = true →
      ∃ t, exec (.create n cores frames) s = .next t ∧ t.instState n = stCREATING ∧ (t.inst n).lease = cores ∧
        (t.inst n).quota = q.f 24 2 ∧ (t.inst n).work = some ⟨.create, q.ridx, q.tag⟩ ∧
        t.getF (.wvWeight n) WV_WEIGHT.WEIGHT = q.f 19 1 ∧ t.getF (.iwState n) IW_STATE.PRIO = q.f 16 1 ∧
        (∃ k, ∀ m ∈ stacksOf (q.f 20 2), SMap.get none t.stackSet.keys (66 * m + n) = some k) ∧ ∀ m, m ≠ n → t.inst m = s.inst m)) ∧
  (∀ (s : State) (n : Nat) (w : MgmtWork), s.clocksStopped = false → (s.inst n).work = some w → w.op = .create → s.framesReady n = true →
    ∃ u : State, exec (.createComplete n) s = .next (s.keep (u.mgmtReply w.ridx w.tag 1 0)) ∧ u.instState n = stQUIESCED ∧
      (u.inst n).work = none ∧ (u.inst n).lease = (s.inst n).lease) ∧
  (∀ (s : State) (n : Nat) (q : Req) (cores : List Nat) (frames : List (List Nat)), s.Serves n 2 q →
    (resizeCause n (s.dropReq q) q ≠ 0 →
      exec (.resize n cores frames) s = .next (s.keep ((s.dropReq q).answer q (resizeCause n (s.dropReq q) q)))) ∧
    (resizeCause n (s.dropReq q) q = 0 → s.coresChosen n (q.f 18 1 - (s.inst n).lease.length) cores = true →
      s.framesChosen (s.inst n).stackSet (perSlot (s.inst n).stackSet.length (q.f 24 2) (s.inst n).mirror -
        perSlot (s.inst n).stackSet.length (s.inst n).quota (s.inst n).mirror) frames = true →
      exec (.resize n cores frames) s = .next (s.keep (resizeEff n cores frames (s.dropReq q) q)))) ∧
  (∀ (s : State) (n : Nat) (q : Req) (cores : List Nat), s.Serves n 3 q →
    (s.fixAgain n q = true → exec (.fixlease n cores) s = .next (s.keep ((s.dropReq q).answer q 0))) ∧
    (s.fixAgain n q = false → fixCause n (s.dropReq q) q ≠ 0 → exec (.fixlease n cores) s = .next (s.keep ((s.dropReq q).answer q (fixCause n (s.dropReq q) q)))) ∧
    (s.fixAgain n q = false → fixCause n (s.dropReq q) q = 0 → s.coresChosen n (q.f 18 1 - (s.inst n).lease.length) cores = true →
      ∃ u : State, exec (.fixlease n cores) s = .next (s.keep (u.answer q 0)) ∧ u.getF (.iwState n) IW_STATE.FIXED = 1 ∧
        (u.inst n).lease = (s.inst n).lease.take (q.f 18 1) ++ cores ∧ (u.inst n).fixedTerm = q.f 28 4 ∧ u.cores = s.cores)) ∧
  (∀ (s : State) (n : Nat) (q : Req), s.Serves n 9 q →
    (s.allowed n [stACTIVE, stQUIESCING, stQUIESCED, stFAULTED] = true →
      exec (.reset n) s = .next (s.keep
        ((((s.dropReq q).setInstState n stRESETTING).resetInst n).begin_ n .reset q |>.finishReset n))) ∧
    (s.allowed n [stACTIVE, stQUIESCING, stQUIESCED, stFAULTED] = false →
      exec (.reset n) s = .next (s.keep ((s.dropReq q).answer q 2)))) ∧
  (∀ (s : State) (n status cause : Nat) (c : Cmd), c ∈ (s.retireAll n status cause).cmds → c.inst = n → c.open_ = false) ∧
  (∀ (s : State) (n : Nat) (q : Req), s.Serves n 10 q →
    (s.allowed n [0, 1, 2, 3, 4, 5, 6, 7] = true → s.instState n = stABSENT →
      exec (.remove n) s = .next (s.keep ((s.dropReq q).answer q 0))) ∧
    (s.allowed n [0, 1, 2, 3, 4, 5, 6, 7] = true → s.instState n ≠ stABSENT →
      exec (.remove n) s = .next (s.keep
        ((((s.dropReq q).setInstState n stREMOVING).resetInst n).begin_ n .remove q |>.finishRemove n)))) ∧
  (∀ (s : State) (n : Nat) (w : MgmtWork), (s.inst n).work = some w → w.op = .reset →
    (s.retired n = false → s.finishReset n = s) ∧
    (s.retired n = true → ∃ u : State, s.finishReset n = u.mgmtReply w.ridx w.tag 1 0 ∧ u.instState n = stQUIESCED ∧ (u.inst n).work = none ∧
      (u.inst n).lease = (s.inst n).lease ∧ ∀ c ∈ u.cmds, c.inst ≠ n)) ∧
  (∀ (s : State) (n : Nat) (w : MgmtWork), (s.inst n).work = some w → w.op = .remove →
    (s.retired n = false → s.finishRemove n = s) ∧
    (s.retired n = true → ∃ u : State, s.finishRemove n = u.mgmtReply w.ridx w.tag 1 0 ∧ u.instState n = stABSENT ∧
      u.inst n = { Instance.absent with acct := (s.inst n).acct } ∧ ∀ c ∈ u.cmds, c.inst ≠ n))

/-! ## Fronthaul -/

/-- Ingress (R388 to R390, R406): a frame at a stopped engine, with a bad FCS or a length outside 64 to 9,216 bytes, for another
destination, of an unknown type, or of no flow is counted by its own counter and delivers nothing; every other frame is received. A
frame of a flow without a rate, in its window and with the next sequence number delivers its sections' values once; a delay measurement
request is answered by a frame of the second class. -/
def Obligations.IngressFramesAreFilteredInOrder : Prop :=
  (∀ (s : State) (p frac : Nat) (f : FhRx), s.clocksStopped = false → p < 24 → f.sub < 4 → s.fhUp p f.sub = true → frac < 256 →
    (∀ w, (s.fhp p).stop = some w → exec (.ingressFrame p f frac) s = .next (s.keep (s.fhCount p 13 1))) ∧
    ((s.fhp p).stop = none → exec (.ingressFrame p f frac) s = .next (s.keep (s.fhReceive p f frac)))) ∧
  (∀ (s : State) (p frac : Nat) (f : FhRx),
    (f.fcs = false ∨ f.len < 64 ∨ 9216 < f.len → s.fhReceive p f frac = s.fhCount p 1 1) ∧
    (f.fcs = true → 64 ≤ f.len → f.len ≤ 9216 → s.fhDest p f = false → s.fhReceive p f frac = s.fhCount p 2 1) ∧
    (f.fcs = true → 64 ≤ f.len → f.len ≤ 9216 → s.fhDest p f = true → f.etype = 0xAEFE → f.rev = 1 → f.sized = true → f.mtype = 0 →
      f.ebit = true →
      (s.fhMatch p f = none → ∃ t, s.fhReceive p f frac = t ∧ t = { s with regs := t.regs } ∧
        t.getF (.fhCnt p 3) FH_CNT.VALUE = (s.getF (.fhCnt p 3) FH_CNT.VALUE + 1) % 2 ^ 64 ∧ t.getF (.fhExcsub p) FH_EXCSUB.VALID = 1 ∧
        ∀ k, k ≠ 3 → t.reg (.fhCnt p k) = s.reg (.fhCnt p k)) ∧
      (∀ k, s.fhMatch p f = some k → ∃ t, s.fhReceive p f frac = s.fhDeliver p k f t))) ∧
  (∀ (s : State) (p k : Nat) (f : FhRx) (t : Rat), SMap.get 0 (s.fhp p).rates k ≠ 0 →
    SMap.get 0 (s.fhp p).tokens k < (f.len + (s.fhp p).ovh) * 256 → s.fhDeliver p k f t = (s.fhCount p 5 1).flowDrop p k) ∧
  (∀ (s : State) (p k : Nat) (f : FhRx) (t : Rat) (l : List ((Nat × Nat) × FhSection)),
    let air := s.airTime f (FH_FLOW_HI.SCS.get (s.reg (.fhFlowHi p k))) t
    SMap.get 0 (s.fhp p).rates k = 0 → air + ((signed 32 (s.getF (.fhWin p f.sub) FH_WIN.TA4MIN) : Int) : Rat) ≤ t →
    t ≤ air + ((signed 32 (s.getF (.fhWin p f.sub) FH_WIN.TA4MAX) : Int) : Rat) →
    SMap.get 0 (s.fhp p).seqs k = 0 ∨ f.seq % 256 = SMap.get 0 (s.fhp p).seqs k % 256 → s.fhSections p k f = some l →
    ∃ u : State, s.fhDeliver p k f t = u.gotPrbs p k (frameSlot f (FH_FLOW_HI.SCS.get (s.reg (.fhFlowHi p k))))
        ((f.sections.map fun x => x.prbs.length).sum) ∧
      SMap.get [] (u.fhp p).iq k = (fhDecompress l).1 ∧ SMap.get 0 (u.fhp p).seqs k = f.seq % 256 + 1 ∧
      u.getF (.fhCnt p 0) FH_CNT.VALUE = (s.getF (.fhCnt p 0) FH_CNT.VALUE + 1) % 2 ^ 64 ∧
      u.getF (.fhCnt p 9) FH_CNT.VALUE = (s.getF (.fhCnt p 9) FH_CNT.VALUE + (fhDecompress l).2) % 2 ^ 64 ∧
      (∀ r, r ≠ .fhCnt p 0 → r ≠ .fhCnt p 9 → u.reg r = s.reg r) ∧ ∀ q, q ≠ p → u.fhp q = s.fhp q) ∧
  (∀ (s : State) (p frac : Nat) (f : FhRx), f.fcs = true → 64 ≤ f.len → f.len ≤ 9216 → s.fhDest p f = true → f.etype = 0xAEFE → f.rev = 1 →
    f.sized = true → f.mtype = 5 → f.ebit = true →
    ∃ x, ((s.fhReceive p f frac).fhp p).queue = (s.fhp p).queue ++ [x] ∧ x.cls = 2 ∧ x.sub = f.sub ∧ x.len = f.len ∧ x.got.isSome = true ∧
      (s.fhReceive p f frac).regs = s.regs)

/-- Egress (R395 to R398, R405, R406): I0 queues a frame of a flow that the port sends; the frame whose turn it is takes the free line and
its wire length is taken from the credits of its flow and sub-port, a PTP message or response carries its transmit timestamp, and a frame of
a sub-port that is down or of an invalid flow is dropped; a sent frame is counted in FH_CNT10; a refill adds the rates once a
period; a Delay_Req enters the queue of the first class. -/
def Obligations.EgressFramesFollowTheirCredits : Prop :=
  (∀ (s : State) (p cls flow len e l slot : Nat), s.clocksStopped = false → p < 24 → flow < 1024 → s.fhEn p = true →
    (s.fhp p).stop = none → FH_FLOW_HI.DIR.get (s.reg (.fhFlowHi p flow)) = 1 →
    cls = (if FH_FLOW_HI.PLANE.get (s.reg (.fhFlowHi p flow)) = 1 then 3 else 4) → 64 ≤ len → len ≤ s.getF (.fhMtu p) FH_MTU.MTU →
    ∃ t f, exec (.egressFrameQueue p cls flow len e l slot []) s = .next t ∧ (t.fhp p).queue = (s.fhp p).queue ++ [f] ∧
      f.cls = cls ∧ f.flow = flow ∧ f.len = len ∧ f.earliest = e ∧ f.latest = l ∧ f.slot = slot ∧
      f.sub = FH_FLOW_HI.SUB.get (s.reg (.fhFlowHi p flow)) ∧ t.regs = s.regs ∧ ∀ q, q ≠ p → t.fhp q = s.fhp q) ∧
  (∀ (s : State) (p cls flow len e l slot : Nat) (prbs : List (List Int)), s.clocksStopped = false → p < 24 → flow < 1024 →
    s.fhEn p = true → (s.fhp p).stop = none → FH_FLOW_HI.DIR.get (s.reg (.fhFlowHi p flow)) = 1 →
    FH_FLOW_HI.PLANE.get (s.reg (.fhFlowHi p flow)) ≠ 1 → cls = 4 → 64 ≤ len → len ≤ s.getF (.fhMtu p) FH_MTU.MTU →
    (∀ x ∈ prbs, x.length = 24 ∧ ∀ v ∈ x, -32767 ≤ v ∧ v ≤ 32767) →
    ∃ t f, exec (.egressFrameQueue p cls flow len e l slot prbs) s = .next t ∧ (t.fhp p).queue = (s.fhp p).queue ++ [f] ∧
      f.wire = prbs.map fun x =>
        let w := flowWidth (FH_FLOW_HI.WIDTH.get (s.reg (.fhFlowHi p flow)))
        if FH_FLOW_HI.COMP.get (s.reg (.fhFlowHi p flow)) = 1 then prbPack true w (prbCompress w x).1 (prbCompress w x).2
        else prbPack false 16 0 x) ∧
  (∀ (s : State) (p sub : Nat) (f : FhFrame), s.clocksStopped = false → p < 24 → sub < 4 → s.fhTurn p sub = some f → s.fhEn p = true →
    (s.fhp p).stop = none → SMap.get none (s.fhp p).line sub = none → s.fhUp p sub = true → 3 ≤ f.cls →
    s.getF (.fhFlowHi p f.flow) FH_FLOW_HI.VALID = 1 →
    ∃ t, exec (.egressFrameStart p sub) s = .next t ∧ t = { s with fh := t.fh } ∧ SMap.get none (t.fhp p).line sub = some f ∧
      (t.fhp p).queue = (s.fhp p).queue.filter (fun y => y.id != f.id) ∧
      SMap.get 0 (t.fhp p).credits f.flow = SMap.get 0 (s.fhp p).credits f.flow - (((f.len + (s.fhp p).ovh) * 256 : Nat) : Int) ∧
      SMap.get 0 (t.fhp p).subCredits sub = SMap.get 0 (s.fhp p).subCredits sub - (((f.len + (s.fhp p).ovh) * 256 : Nat) : Int) ∧
      ∀ q, q ≠ p → t.fhp q = s.fhp q) ∧
  (∀ (s : State) (p sub : Nat) (f : FhFrame), s.clocksStopped = false → p < 24 → sub < 4 → s.fhTurn p sub = some f → s.fhEn p = true →
    (s.fhp p).stop = none → SMap.get none (s.fhp p).line sub = none →
    (s.fhUp p sub = true → f.cls < 3 →
      ∃ t g, exec (.egressFrameStart p sub) s = .next t ∧ SMap.get none (t.fhp p).line sub = some g ∧ g = { f with sent := g.sent } ∧
        g.sent.isSome = true ∧ (f.cls = 1 → (t.ptp f.tb).t3 = g.sent) ∧ (t.fhp p).queue = (s.fhp p).queue.filter (fun y => y.id != f.id) ∧
        (t.fhp p).credits = (s.fhp p).credits ∧ (t.fhp p).subCredits = (s.fhp p).subCredits ∧ t.regs = s.regs) ∧
    (s.fhUp p sub = false ∨ 3 ≤ f.cls ∧ s.getF (.fhFlowHi p f.flow) FH_FLOW_HI.VALID = 0 →
      ∃ t, exec (.egressFrameStart p sub) s = .next t ∧ t = { s with fh := t.fh, regs := t.regs } ∧
        (t.fhp p).queue = (s.fhp p).queue.filter (fun y => y.id != f.id) ∧ (t.fhp p).line = (s.fhp p).line ∧
        t.getF (.fhCnt p 12) FH_CNT.VALUE = (s.getF (.fhCnt p 12) FH_CNT.VALUE + 1) % 2 ^ 64)) ∧
  (∀ (s : State) (p sub : Nat) (f : FhFrame), s.clocksStopped = false → p < 24 → sub < 4 → SMap.get none (s.fhp p).line sub = some f →
    ∃ t, exec (.egressFrameEnd p sub) s = .next t ∧ t = { s with fh := t.fh, regs := t.regs } ∧ SMap.get none (t.fhp p).line sub = none ∧
      t.getF (.fhCnt p 10) FH_CNT.VALUE = (s.getF (.fhCnt p 10) FH_CNT.VALUE + 1) % 2 ^ 64 ∧ ∀ r, r ≠ .fhCnt p 10 → t.reg r = s.reg r) ∧
  (∀ (s : State) (p id : Nat) (f : FhFrame), s.clocksStopped = false → p < 24 → (s.fhp p).queue.find? (fun f => f.id == id) = some f →
    f.cls = 3 ∨ f.cls = 4 ∧ SMap.get false s.radio.overrun (s.getF (.fhFlowHi p f.flow) FH_FLOW_HI.CGC) = false → (f.latest : Rat) < s.tbr →
    ∃ t, exec (.egressFrameLate p id) s = .next t ∧ t = { s with fh := t.fh, regs := t.regs } ∧
      (t.fhp p).queue = (s.fhp p).queue.filter (fun y => y.id != id) ∧
      t.getF (.fhCnt p 11) FH_CNT.VALUE = (s.getF (.fhCnt p 11) FH_CNT.VALUE + 1) % 2 ^ 64) ∧
  (∀ (s : State) (p id : Nat) (f : FhFrame), let g := s.getF (.fhFlowHi p f.flow) FH_FLOW_HI.CGC
    s.clocksStopped = false → p < 24 → (s.fhp p).queue.find? (fun f => f.id == id) = some f → f.cls = 4 → (f.latest : Rat) < s.tbr →
    SMap.get false s.radio.overrun g = true → (g, f.slot) ∉ s.radio.missed →
    ∃ t, exec (.egressFrameLate p id) s = .next t ∧ (t.fhp p).queue = (s.fhp p).queue.filter (fun y => y.id != id) ∧
      t.radio.missed = s.radio.missed ++ [(g, f.slot)]) ∧
  (∀ (s : State) (p : Nat), s.clocksStopped = false → p < 24 → s.fhEn p = true → s.gtc % refillCycles (s.fhp p).period = 0 →
    (s.fhp p).refilled ≠ s.gtc + 1 →
    ∃ t, exec (.refill p) s = .next t ∧ t = { s with fh := t.fh } ∧ (t.fhp p).refilled = s.gtc + 1 ∧ (t.fhp p).queue = (s.fhp p).queue ∧
      (∀ q, q ≠ p → t.fhp q = s.fhp q) ∧
      (∀ f, f < 1024 → s.getF (.fhFlowHi p f) FH_FLOW_HI.VALID = 1 → s.getF (.fhFlowHi p f) FH_FLOW_HI.DIR ≠ 1 →
        SMap.get 0 (t.fhp p).tokens f = min (SMap.get 0 (s.fhp p).tokens f + s.getF (.fhFlowLo p f) FH_FLOW_LO.RATE)
          (256 * s.getF (.fhFlowLo p f) FH_FLOW_LO.BURST))) ∧
  (∀ (s : State) (n p : Nat) (t2 : Rat), s.clocksStopped = false → n < 2 → s.getF (.timeTbCfg n) TIME_TB_CFG.PPORT = p → p < 24 →
    s.psrc n = 1 → s.tbState n ≠ tbOFF → s.fhEn p = true → (s.ptp n).t2 = some t2 →
    ∃ t f, exec (.delayReqSend n) s = .next t ∧ (t.fhp p).queue = (s.fhp p).queue ++ [f] ∧ f.cls = 1 ∧ f.len = 64 ∧ f.tb = n ∧
      (t.ptp n).reqSeq = ((s.ptp n).reqSeq + 1) % 2 ^ 16 ∧ (t.ptp n).t3 = none ∧ t.regs = s.regs)

/-- Sub-ports, modules and packet engines (R383, R401 to R405): LINK follows the sub-port, with its record, and a frame on a line that
goes down is lost; an inserted module is read, refused where its CMIS revision is not 4.0 or 5.x, and reaches its state; one that is not
ready in 60 s stays in low power; an engine that stops loses its queue, and its restart ends the stop. -/
def Obligations.LinksModulesAndEnginesChangeState : Prop :=
  (∀ (s : State) (p sub : Nat), s.clocksStopped = false → p < 24 → s.fhEn p = true → sub < subPorts (s.getF (.fhCfg p) FH_CFG.MODE) →
    s.fhUp p sub = false →
    ∃ u : State, exec (.subportUp p sub) s = .next (s.keep (u.fronthaulFault p (some sub) 2)) ∧ u.fhUp p sub = true ∧
      (∀ r, r ≠ .fhStatus p → r ≠ .gctlElogLost → u.reg r = s.reg r) ∧ u = { s with regs := u.regs, log := u.log }) ∧
  (∀ (s : State) (p sub : Nat), s.clocksStopped = false → p < 24 → sub < 4 → s.fhUp p sub = true →
    ∃ u : State, exec (.subportDown p sub) s = .next (s.keep ((u.fronthaulFault p (some sub) 2).loseLine p sub)) ∧ u.fhUp p sub = false ∧
      (∀ r, r ≠ .fhStatus p → r ≠ .gctlElogLost → u.reg r = s.reg r) ∧ u = { s with regs := u.regs, log := u.log }) ∧
  (∀ (s : State) (p ident cmis age : Nat) (words eq : List Nat) (ready : Bool), s.clocksStopped = false → p < 24 → s.boot.grizor = true →
    cmis < 256 → ident < 256 → age < 256 →
    ∃ t, exec (.moduleInsertion p ident cmis age ⟨words, eq⟩ ready) s = .next t ∧ t.getF (.fhStatus p) FH_STATUS.MODPRS = 1 ∧
      (t.fhp p).txEq = eq.take 4 ∧
      t.getF (.fhStatus p) FH_STATUS.MODSTATE = (if cmis ≠ 0x40 ∧ cmis / 16 ≠ 5 then 1 else if ready = true then 3 else 2) ∧
      t.getF (.fhMod p) FH_MOD.IDENT = ident ∧ t.getF (.fhMod p) FH_MOD.CMISVER = cmis ∧ t.getF (.fhMod p) FH_MOD.LASERAGE = age ∧
      t.cores = s.cores) ∧
  (∀ (s : State) (p at_ : Nat), s.clocksStopped = false → p < 24 → (s.fhp p).inserted = some at_ → at_ + 216000000000 ≤ s.gtc →
    ∃ t, exec (.moduleReadyTimeout p) s = .next t ∧ (t.fhp p).inserted = none ∧ t.getF (.fhStatus p) FH_STATUS.MODSTATE = 1 ∧
      ∀ r, r ≠ .fhStatus p → r ≠ .gctlElogLost → t.reg r = s.reg r) ∧
  (∀ (s : State) (p st age : Nat), s.clocksStopped = false → p < 24 → s.boot.grizor = true →
    s.getF (.fhStatus p) FH_STATUS.MODPRS = 1 → st < 6 → age < 256 →
    ∃ t, exec (.moduleInterrupt p st age) s = .next t ∧ t.getF (.fhStatus p) FH_STATUS.MODSTATE = st ∧
      t.getF (.fhMod p) FH_MOD.LASERAGE = age ∧ ∀ r, r ≠ .fhStatus p → r ≠ .fhMod p → r ≠ .gctlElogLost → t.reg r = s.reg r) ∧
  (∀ (s : State) (p st age : Nat), s.clocksStopped = false → p < 24 → s.boot.grizor = true → s.getF (.fhStatus p) FH_STATUS.MODPRS = 1 →
    st < 6 → age < 256 → (s.fhp p).readAt + 36000000000 ≤ s.gtc → s.getF .mpLoad MP_LOAD.LEVEL = 0 →
    ∃ t, exec (.modulePeriodicRead p ⟨st, age⟩) s = .next t ∧ (t.fhp p).readAt = s.gtc ∧ t.getF (.fhMod p) FH_MOD.LASERAGE = age ∧
      t.getF (.fhStatus p) FH_STATUS.MODSTATE = st ∧ ∀ r, r ≠ .fhMod p → r ≠ .fhStatus p → r ≠ .gctlElogLost → t.reg r = s.reg r) ∧
  (∀ (s : State) (p : Nat), s.clocksStopped = false → p < 24 → s.fhEn p = true → (s.fhp p).stop = none →
    ∃ t, exec (.peWatchdogExpiry p) s = .next t ∧ (t.fhp p).queue = [] ∧ (t.fhp p).stop = some .watchdog ∧
      (∀ k, k < 4 → SMap.get none (t.fhp p).line k = none) ∧ t.getF (.fhStatus p) FH_STATUS.PESTOP = 1 ∧ t.cores = s.cores) ∧
  (∀ (s : State) (p : Nat), s.clocksStopped = false → p < 24 → (s.fhp p).stop = some .reset →
    ∃ u : State, exec (.peRestartComplete p) s = .next (s.keep (u.fronthaulFault p none 3)) ∧ (u.fhp p).stop = none ∧
      u.getF (.fhStatus p) FH_STATUS.PESTOP = 0 ∧ u.log = s.log) ∧
  (∀ (s : State) (p : Nat), s.clocksStopped = false → p < 24 → (s.fhp p).stop = some .watchdog ∨ (s.fhp p).stop = some .update →
    ∃ u : State, exec (.peRestartComplete p) s = .next (s.keep (u.fronthaulFault p none 3)) ∧ (u.fhp p).stop = none ∧
      u.getF (.fhStatus p) FH_STATUS.PESTOP = 0)

/-! ## Radio service -/

/-- P5 messages (R408, R409, R417, R427 to R430): a record is consumed, then answered; PARAM.request by PARAM.response, CONFIG.request by
its refusal or by a configured cell of the context whose cost is that of its table row, START.request fixes the radio frame at which the
cell starts, STOP.request stops a running cell and returns a configured one to IDLE; a message for a running cell that needs another state
gets an error; while Grizor does not serve, its messages wait in order. Message numbers and error codes are the model's choice (log 25). P7 messages (R424, R425): a downlink request, UL_DCI and TX_DATA at least two slots less half a slot of beats before their slot, UL_TTI at
least one slot before it, are accepted for processing, and later ones are errors with their SLOT_LATE record; the slot of a late DL_TTI.request carries section type 0. -/
def Obligations.CellMessagesAndSlotRequests : Prop :=
  ((∀ (s : State) (q seq len phy : Nat), s.Inbound q seq len phy true → s.mpServes = true → s.radio.p5 = [] →
    exec (.paramRequest q seq len phy) s = .next (s.keep ((s.qpTake q len false).fapi q ⟨msgPARAMRESP, phy, [errOK]⟩))) ∧
  (∀ (s : State) (q seq len phy : Nat) (cfg : CellCfg), s.Inbound q seq len phy true → s.mpServes = true → s.radio.p5 = [] →
    let u := s.qpTake q len false
    let g := s.getF (.rlQpCtl q) RL_QP_CTL.CTX
    (∀ l, u.configRefusal phy g cfg = some l →
      exec (.configRequest q seq len phy cfg) s = .next (s.keep (u.fapi q ⟨msgCONFIGRESP, phy, l⟩))) ∧
    (u.configRefusal phy g cfg = none →
      ∃ (v : State) (c : Cell), exec (.configRequest q seq len phy cfg) s = .next (s.keep (v.fapi q ⟨msgCONFIGRESP, phy, [errOK]⟩)) ∧
        v.cell phy = some c ∧ c.ctx = g ∧ c.phase = .configured ∧ c.mu = cfg.mu ∧ some c.cost = u.cellCost cfg ∧ c.model = cfg.model ∧
        c.accepted = [] ∧ ∀ m, m ≠ phy → v.cell m = s.cell m)) ∧
  (∀ (s : State) (q seq len phy : Nat) (c : Cell), s.Inbound q seq len phy false → s.mpServes = true → s.beat.started = true →
    s.radio.p5 = [] → s.cell phy = some c →
    (c.phase = .configured →
      ∃ t, exec (.startRequest q seq len phy) s = .next t ∧ t.cell phy = some { c with start := some s.nextFrame } ∧
        (∀ m, m ≠ phy → t.cell m = s.cell m) ∧ t.cores = s.cores) ∧
    (c.phase = .running →
      exec (.startRequest q seq len phy) s = .next (s.keep ((s.qpTake q len false).errorInd q phy errSTATE [0x04])))) ∧
  (∀ (s : State) (phy t0 : Nat) (c : Cell), s.clocksStopped = false → s.cell phy = some c → c.start = some t0 → t0 ≤ s.gtc →
    ∃ t, exec (.cellStart phy) s = .next t ∧ t.cell phy = some { c with phase := .running, start := none } ∧
      (∀ m, m ≠ phy → t.cell m = s.cell m) ∧ t.cores = s.cores) ∧
  (∀ (s : State) (q seq len phy : Nat) (c : Cell), s.Inbound q seq len phy false → s.mpServes = true → s.radio.p5 = [] →
    s.cell phy = some c →
    (c.phase = .running → c.accepted = [] →
      exec (.stopRequest q seq len phy) s = .next (s.keep ((s.qpTake q len false).cellStopped phy c))) ∧
    (c.phase = .running → c.accepted ≠ [] →
      ∃ t, exec (.stopRequest q seq len phy) s = .next t ∧ t.cell phy = some { c with stopping := true }) ∧
    (c.phase = .configured →
      ∃ v : State, exec (.stopRequest q seq len phy) s = .next (s.keep (v.fapi q ⟨msgSTOPIND, phy, []⟩)) ∧ v.cell phy = none)) ∧
  (∀ (s : State) (q seq len phy : Nat) (cfg : CellCfg), s.clocksStopped = false → q < 64 → s.qpLive q = true →
    (s.qp q).inCons < (s.qp q).inProd → s.cell phy = none → 1024 ≤ phy →
    ∃ above, exec (.configRequest q seq len phy cfg) s = .next (s.keep ((s.qpTake q len above).errorInd q phy 0x80 [])) ∧
      exec (.startRequest q seq len phy) s = .next (s.keep ((s.qpTake q len above).errorInd q phy 0x80 []))) ∧
  (∀ (s : State) (q seq len phy no size chain samples coeffs : Nat) (adders orders : List Nat) (clean signed : Bool) (cfg : CellCfg) (i : Instr)
    (m : P5Msg), s.Inbound q seq len phy false → s.mpServes = false →
    (i, m) ∈ [(Instr.paramRequest q seq len phy, P5Msg.param), (.configRequest q seq len phy cfg, .config cfg),
      (.startRequest q seq len phy, .start), (.stopRequest q seq len phy, .stop),
      (.modelLoadRequest q seq len phy no size adders clean signed, .modelLoad no size adders clean signed),
      (.dpdTrainRequest q seq len phy chain orders samples coeffs, .dpdTrain chain orders samples coeffs)] →
    let u := s.qpTake q len false
    exec i s = .next (s.keep { u with radio := { u.radio with p5 := u.radio.p5 ++ [⟨q, phy, m⟩] } }))) ∧
  (slotRequest .dlTtiRequest 0x80 dlLead (fun n => ⟨n, true, 0, 0, 0, 0⟩) ∧
  slotRequest .ulDciRequest 0x83 dlLead (fun n => ⟨n, true, 0, 0, 0, 0⟩) ∧
  slotRequest .txDataRequest 0x84 dlLead (fun n => ⟨n, true, 0, 0, 0, 0⟩) ∧
  (∀ pusch uci prbs : Nat, slotRequest (fun q seq len phy slot => .ulTtiRequest q seq len phy slot pusch uci prbs) 0x81 ulLead
    (fun n => ⟨n, false, pusch, uci, prbs, 0⟩)))

/-- Models, DPD training, slots and contexts (R416, R417, R430 to R438): a clean, signed model image of at most 2^28 bytes is held under its
number, any other is refused (its code is a free value, log 3); a DPD request in range waits for its fit and then answers with it, or
times out; a slot starts once a slot and gives each running cell its SLOT.indication; a context torn down three times within a second
halts; a cell leaves the classical estimator; a held indication is discarded and counted. -/
def Obligations.ModelsSlotsAndContextsFollowTheirRules : Prop :=
  (∀ (s : State) (q seq len phy no size : Nat) (adders : List Nat) (clean signed : Bool), s.Inbound q seq len phy true →
    s.mpServes = true → s.radio.p5 = [] →
    (no < 64 ∧ size ≤ 2 ^ 28 ∧ clean = true ∧ signed = true →
      ∃ u : State, exec (.modelLoadRequest q seq len phy no size adders clean signed) s =
          .next (s.keep (u.fapi q ⟨msgMODELRESP, phy, [0, no]⟩)) ∧ SMap.get none u.radio.models no = some adders ∧
        ∀ m, m ≠ no → SMap.get none u.radio.models m = SMap.get none s.radio.models m) ∧
    (¬ (no < 64 ∧ size ≤ 2 ^ 28 ∧ clean = true ∧ signed = true) →
      ∃ (u : State) (code : Nat), exec (.modelLoadRequest q seq len phy no size adders clean signed) s =
          .next (s.keep (u.fapi q ⟨msgMODELRESP, phy, [code, no]⟩)) ∧ code ≠ 0 ∧ u.radio.models = s.radio.models)) ∧
  (∀ (s : State) (q seq len phy chain k m c samples coeffs : Nat), s.Inbound q seq len phy false → s.mpServes = true → s.radio.p5 = [] →
    (k = 1 ∨ k = 3 ∨ k = 5 ∨ k = 7 ∨ k = 9 → 1 ≤ m → m ≤ 8 → c ≤ 4 → 4096 ≤ samples → samples ≤ 1048576 → coeffs ≤ 128 →
      ∃ t j, exec (.dpdTrainRequest q seq len phy chain [k, m, c] samples coeffs) s = .next t ∧ t.radio.dpd = s.radio.dpd ++ [j] ∧
        j.phy = phy ∧ j.chain = chain ∧ j.len = samples ∧ j.at_ = s.gtc) ∧
    (samples < 4096 ∨ 8 < m →
      exec (.dpdTrainRequest q seq len phy chain [k, m, c] samples coeffs) s = .next (s.keep
        ((s.qpTake q len false).dpdAnswer q phy (s.getF (.rlQpCtl q) RL_QP_CTL.CTX) 7 [0x87, chain])))) ∧
  (∀ (s : State) (phy chain : Nat) (capture : List Nat) (j : DpdJob), s.clocksStopped = false →
    s.radio.dpd.find? (fun j => j.phy == phy && j.chain == chain) = some j →
    (s.radio.dpdCtx.isSome = true → capture.length = j.len → s.gtc ≤ j.at_ + s.radio.dpdMax →
      ∃ u : State, exec (.dpdTrainComplete phy chain capture) s = .next (s.keep
          (u.dpdAnswer j.qp phy (s.radio.dpdCtx.getD 127) 0 ([0, chain] ++ Config.dpdFit capture j.orders))) ∧
        u.radio.dpd = s.radio.dpd.filter (fun x => x != j)) ∧
    (j.at_ + s.radio.dpdMax ≤ s.gtc →
      ∃ u : State, exec (.dpdTrainTimeout phy chain) s =
          .next (s.keep (u.dpdAnswer j.qp phy (s.radio.dpdCtx.getD 127) 8 [0x88, chain])) ∧
        u.radio.dpd = s.radio.dpd.filter (fun x => x != j))) ∧
  (∀ (s : State) (mu : Nat), s.clocksStopped = false → mu = 0 ∨ mu = 1 ∨ mu = 3 → s.beat.started = true → s.beat.first = false →
    0 < s.slotBeats mu → s.getF .timeBeat TIME_BEAT.NUM % s.slotBeats mu = 0 →
    SMap.get 0 s.radio.slotMark mu ≠ s.beat.boundary + 1 →
    ∃ t, exec (.slotStart mu) s = .next t ∧ t.gtc = s.gtc ∧ t.pending = s.pending) ∧
  (∀ (s : State) (phy q : Nat) (c : Cell), s.cell phy = some c → c.phase = .running → c.accepted = [] → c.stopping = false →
    s.qpsOf c.ctx = [q] → s.cellSlot phy c =
      (s.fapi q ⟨msgSLOT, phy, [s.slotNo c.mu]⟩).modCell phy
        (fun c => { c with accepted := [], fallback := if 1 < c.fallback then c.fallback - 1 else c.fallback })) ∧
  (∀ (s : State) (g : Nat), s.clocksStopped = false → g < 127 → (s.rctx g).halted = false →
    3 ≤ ((s.rctx g).recent.filter fun t => decide (s.gtc < t + 3600000000)).length →
    ∃ t, exec (.contextHalt g) s = .next t ∧ (t.rctx g).halted = true ∧ ∀ phy c, t.cell phy = some c → c.ctx = g → c.phase = .configured) ∧
  (∀ (s : State) (phy : Nat) (c : Cell), s.clocksStopped = false → s.cell phy = some c → c.fallback = 1 →
    ∃ t, exec (.ceFallbackEnd phy) s = .next t ∧ t.cell phy = some { c with fallback := 0 } ∧ (∀ m, m ≠ phy → t.cell m = s.cell m) ∧
      t.regs = s.regs ∧ t.cores = s.cores) ∧
  (∀ (s : State) (q : Nat) (x : Nat × Fapi) (rest : List (Nat × Fapi)), s.clocksStopped = false → q < 64 → (s.qp q).held = x :: rest →
    x.1 + 4 * (s.slotBeats (s.finest (s.getF (.rlQpCtl q) RL_QP_CTL.CTX)) * s.beat.length) ≤ s.gtc →
    ∃ t, exec (.indicationDiscard q) s = .next t ∧ (t.qp q).held = rest ∧ (t.qp q).discarded = (s.qp q).discarded + 1 ∧
      (∀ k, k ≠ q → t.qp k = s.qp k) ∧ t.regs = s.regs)

/-! ## Withy links -/

/-- Remote access (R452 to R459): transactions are dropped at a FENCED port, sent on with one hop more, or handled here; a target refuses an
unknown group with cause 6 and a read of a scratchpad with cause 8, ignores a TID that it has completed, and holds an ORD transaction behind
one that it could not apply yet; a write to a core of its lease
changes those bytes alone and is acknowledged; an answer frees the held transaction of its TID; an unanswered transaction is sent again, up
to 4 times. -/
def Obligations.RemoteTransactionsAreRoutedAndAnswered : Prop :=
  (∀ (s : State) (w : Nat) (h : WyHdr) (data comp : List Nat), s.Arrives w h → 0 < data.length → h.addr % 4096 + data.length ≤ 4096 →
    s.routed w h (.wr w h data comp) (fun g => .wr g (data.map (BitVec.ofNat 8)))
      fun u => if u.wySeen h = true then u else if u.wyWaits h = true then u.wyStall h
        else u.wyWrite w h (data.map (BitVec.ofNat 8)) comp) ∧
  (∀ (s : State) (w len : Nat) (h : WyHdr) (data comp : List Nat), s.Arrives w h → 0 < len → h.addr % 4096 + len ≤ 4096 →
    s.routed w h (.rd w h len comp data) (fun g => .rd g len) fun u => if u.wySeen h = true then u
      else if u.wyWaits h = true then u.wyStall h else u.wyRead w h len comp data) ∧
  (∀ (s : State) (w : Nat) (h : WyHdr) (data : List Nat) (t : WyTxn), s.Arrives w h → data.length ≤ 4096 → s.wyHeld h.tid = some t →
    t.write = false → t.len = data.length → s.routed w h (.rddata w h data) (fun g => .rddata g (data.map (BitVec.ofNat 8)))
      fun u => (u.wyFree h.tid).wyDeliver t (data.map (BitVec.ofNat 8))) ∧
  (∀ (s : State) (w : Nat) (h : WyHdr) (t : WyTxn), s.Arrives w h → s.wyHeld h.tid = some t → t.write = true →
    s.routed w h (.ack w h) .ack fun u => u.wyFree h.tid) ∧
  (∀ (s : State) (w cause : Nat) (h : WyHdr) (t : WyTxn), s.Arrives w h → (1 ≤ cause ∧ cause ≤ 6 ∨ cause = 8) → s.wyHeld h.tid = some t →
    s.routed w h (.nack w h cause) (fun g => .nack g cause) fun u => (u.wyFree h.tid).wyNacked t cause) ∧
  (∀ (s : State) (w : Nat) (h : WyHdr) (data : List Nat), s.Arrives w h → data.length ≤ 4096 → s.wyHeld h.tid = none →
    s.routed w h (.rddata w h data) (fun g => .rddata g (data.map (BitVec.ofNat 8))) id ∧ s.routed w h (.ack w h) .ack id) ∧
  (∀ (s : State) (w len : Nat) (h : WyHdr) (data : List Byte) (comp bytes : List Nat), s.groupInst h.group = none →
    s.wyWrite w h data comp = s.wyRefuse w h 0x7F 6 ∧ s.wyRead w h len comp bytes = s.wyRefuse w h 0x7F 6) ∧
  (∀ (s : State) (w n len : Nat) (h : WyHdr) (comp bytes : List Nat), s.groupInst h.group = some n → h.addr / 2 ^ 47 = 1 →
    s.wyRead w h len comp bytes = s.wyRefuse w h n 8) ∧
  (∀ (s : State) (w n p a : Nat) (h : WyHdr) (data : List Byte) (comp : List Nat), s.groupInst h.group = some n → h.addr / 2 ^ 47 = 1 →
    s.wyScratch n h.addr data.length = some (p, a) → (s.core p).partialBad a data.length = false →
    let t := s.wyWrite w h data comp
    (t.core p).sp.read a data.length = data ∧ (∀ b, b < a ∨ a + data.length ≤ b → t.spByte p b = s.spByte p b) ∧
      (∀ q, q ≠ p → t.core q = s.core q) ∧ t.wySeen h = true ∧ t.stackSet = s.stackSet) ∧
  (∀ (s : State) (h : WyHdr), h.tid < 2 ^ 32 → (∀ q ∈ s.withy.stalled, q.src = h.src → q.tid ≠ h.tid) → (s.wyStall h).wySeen h = s.wySeen h ∧
    ∀ g : WyHdr, g.ord = true → g.src = h.src → g.group = h.group → g.tid = (h.tid + 1) % 2 ^ 32 → (s.wyStall h).wyWaits g = true) ∧
  (∀ (s : State) (tid tid' : Nat) (t : WyTxn), s.wyHeld tid = some t → (s.wyFree tid).wyHeld tid = none ∧
    (tid' ≠ tid → (s.wyFree tid).wyHeld tid' = s.wyHeld tid')) ∧
  (∀ (s : State) (tid : Nat) (t : WyTxn), s.clocksStopped = false → s.wyHeld tid = some t →
    t.at_ + 3600 * s.getF .wyRto WY_RTO.TIMEOUT ≤ s.gtc →
    (t.attempts < 4 → ∃ u, exec (.transactionTimeout tid) s = .next u ∧
      u.wyHeld tid = some { t with attempts := t.attempts + 1, at_ := s.gtc } ∧ u.cores = s.cores) ∧
    (4 ≤ t.attempts → exec (.transactionTimeout tid) s =
      .next (s.keep ((s.wyFree tid).rerunFor (s.cmds.filter fun c => c.key.no == t.cmd)))))

/-- Bring-up and retry of a Withy port (R443, R444, R450, R461, R462): an inserted cable counts and starts the identity read where the port is in
service; a signed record, or any with CABPOL 1, leads to TRAINING and others to REFUSED; the handshake refuses a wrong MODE and its own
device ID and else brings the port UP; a retrain counts 64 toward rt; a CRC error and a NAK are counted and answered; lane-hours saturate. Ring time (R447, R448): a port that is UP and not the ring-time source sends a SYNC every 64 microseconds with the hop count; a DREQ is
answered with a DRESP that carries the arrival time; a message of 32 hops or more ends the exchange, and a DRESP closes it with the offset of its four times. -/
def Obligations.WithyPortsComeUpAndExchangeTime : Prop :=
  ((∀ (s : State) (w : Nat), s.clocksStopped = false → w < 16 → s.wyState w = wyDOWN ∨ s.wyState w = wyREFUSED →
    ∃ t, exec (.cableDetected w) s = .next t ∧ (t.wyPort w).cable = true ∧ (t.wyPort w).fresh = true ∧
      t.getF (.wyLife w) WY_LIFE.MATES = min (s.getF (.wyLife w) WY_LIFE.MATES + 1) WY_LIFE.MATES.top ∧
      t.wyState w = (if s.getF (.wyCfg w) WY_CFG.EN = 1 ∧ s.devid ≠ 0xFFFF then wyIDENTITY else wyDOWN) ∧
      (∀ v, v ≠ w → t.wyPort v = s.wyPort v) ∧ ∀ r, r ≠ .wyLife w → r ≠ .wyStatus w → t.reg r = s.reg r) ∧
  (∀ (s : State) (w serial m h : Nat) (record : List Nat) (signed : Bool), s.clocksStopped = false → w < 16 → s.wyState w = wyIDENTITY →
    record = [] ∨ record.length = 128 →
    ∃ t, exec (.cableIdentityReadComplete w record serial m h signed) s = .next t ∧
      t.getF (.wyLife w) WY_LIFE.SIGOK = (if record ≠ [] ∧ signed = true then 1 else 0) ∧
      t.wyState w = (if (record ≠ [] ∧ signed = true) ∨ s.getF (.wyCfg w) WY_CFG.CABPOL = 1 then wyTRAINING else wyREFUSED) ∧
      (t.wyPort w).serial = (if record = [] then none else some serial)) ∧
  (∀ (s : State) (w peer lanes : Nat) (lr : Bool) (fofs : Int), s.clocksStopped = false → w < 16 → peer < 65535 → lanes = 2 ∨ lanes = 4 →
    s.wyState w = wyTRAINING ∨ s.wyState w = wyRETRAIN →
    ∃ t, exec (.linkUp w peer lr lanes fofs) s = .next t ∧ t.wyPeer w = peer ∧
      (s.getF (.wyCfg w) WY_CFG.MODE ≠ lr.toNat ∨ peer = s.devid → t.wyState w = wyDOWN ∧ t.getF (.wyStatus w) WY_STATUS.WIDTH = 0) ∧
      (s.getF (.wyCfg w) WY_CFG.MODE = lr.toNat → peer ≠ s.devid → t.getF (.wyStatus w) WY_STATUS.WIDTH = lanes ∧
        t.wyState w = (if s.fencedPeer peer = true then wyFENCED else wyUP)) ∧
      ∀ r, r ≠ .wyStatus w → r ≠ .wyFofs w → r ≠ .gctlElogLost → t.reg r = s.reg r) ∧
  (∀ (s : State) (w lanes : Nat) (lock : Bool), s.clocksStopped = false → w < 16 → s.wyState w = wyUP →
    lock = true ∨ s.getF (.wyCfg w) WY_CFG.RETHR < (s.wyPort w).crcMs ∨ lanes < 4 → lanes = 0 ∨ lanes = 2 ∨ lanes = 4 →
    ∃ t, exec (.retrain w lock lanes) s = .next t ∧ t.wyState w = (if lanes = 0 then wyDOWN else wyRETRAIN) ∧
      t.getF (.wyStatus w) WY_STATUS.WIDTH = lanes ∧ t.waling.rt = sat8 s.waling.rt 64 ∧ (t.wyPort w).crcMs = 0) ∧
  (∀ (s : State) (w after : Nat), s.clocksStopped = false → w < 16 → after < 512 → s.wyState w = wyUP →
    ∃ t, exec (.flitCrcError w after) s = .next t ∧
      t.getF (.wyErr w) WY_ERR.CRC = min (s.getF (.wyErr w) WY_ERR.CRC + 1) WY_ERR.CRC.top ∧
      (t.wyPort w).crcMs = (s.wyPort w).crcMs + 1 ∧ t.withy.out = s.withy.out ++ [(w, .nak (((s.wyPort w).got + 1023) % 1024))] ∧
      ∀ r, r ≠ .wyErr w → t.reg r = s.reg r) ∧
  (∀ (s : State) (w n credits : Nat), s.clocksStopped = false → w < 16 → s.wyState w = wyUP → 0 < n → n < 1024 → credits < 256 →
    (s.wyPort w).first + n ≤ (s.wyPort w).seq →
    ∃ t l, exec (.nak w (((s.wyPort w).seq + 1023 * (n + 1)) % 1024) credits) s = .next t ∧ t.withy.out = s.withy.out ++ [(w, .replay l)] ∧
      l.length = n ∧ (∀ i, i < n → l[i]? = some (((s.wyPort w).seq - n + i) % 1024)) ∧ (t.wyPort w).first = (s.wyPort w).seq - n ∧
      (t.wyPort w).used0 = (s.wyPort w).used0 - 4 * (credits % 16) ∧ (t.wyPort w).used1 = (s.wyPort w).used1 - 4 * (credits / 16) ∧
      t.getF (.wyErr w) WY_ERR.RETRY = min (s.getF (.wyErr w) WY_ERR.RETRY + 1) WY_ERR.RETRY.top) ∧
  (∀ (s : State) (w l : Nat), s.clocksStopped = false → w < 16 → l < s.getF (.wyStatus w) WY_STATUS.WIDTH → s.wyState w = wyUP →
    ∃ t, exec (.laneHourTick w l) s = .next t ∧
      t.getF (.wyLife w) WY_LIFE.LANEHRS = min (s.getF (.wyLife w) WY_LIFE.LANEHRS + 1) WY_LIFE.LANEHRS.top ∧
      ∀ r, r ≠ .wyLife w → r ≠ .gctlElogLost → t.reg r = s.reg r) ∧
  (∀ (s : State), s.clocksStopped = false → s.boot.grizor = true → s.getF .mpLoad MP_LOAD.LEVEL = 0 →
    ∃ t, exec .ledgerCopy s = .next t ∧ t = { s with withy := { s.withy with ledger := t.withy.ledger } } ∧
      ∀ n, (∀ w, w < 16 → (s.wyPort w).serial ≠ some n) → SMap.get (0, 0) t.withy.ledger n = SMap.get (0, 0) s.withy.ledger n) ∧
  (∀ (s : State) (w n : Nat), (s.wyPort w).serial = some n → SMap.get (0, 0) (s.wyLedger w).withy.ledger n =
    (s.getF (.wyLife w) WY_LIFE.MATES, s.getF (.wyLife w) WY_LIFE.LANEHRS))) ∧
  ((∀ (s : State) (w n : Nat), s.clocksStopped = false → s.ringHops = some n → w < 16 → s.wyState w = wyUP → s.tbState 2 ≠ tbOFF →
    s.ringPort w = false → (s.wyPort w).exch + 230400 ≤ s.gtc →
    ∃ t, exec (.ringTimeExchange w) s = .next t ∧ (t.wyPort w).exch = s.gtc ∧
      t.withy.out = controlInsert w 2 [n, 0, stamp24 (s.tbValue 2)] s.withy.out ∧ t.regs = s.regs ∧
      ∀ v, v ≠ w → t.wyPort v = s.wyPort v) ∧
  (∀ (s : State) (w n ts frac m : Nat), s.clocksStopped = false → w < 16 → s.wyState w = wyUP → n < 256 → ts < 2 ^ 24 → frac < 256 →
    s.ringHops = some m →
    let u := s.wyGot w 1
    exec (.time w 1 n ts frac) s = .next (s.keep { u with withy := { u.withy with
      out := controlInsert w 2 [m, 2, stamp24 (subNs (s.tbValue 2 + s.addend 2 * ((frac : Rat) / 256)))] s.withy.out } })) ∧
  (∀ (s : State) (w kind n ts frac : Nat), s.clocksStopped = false → w < 16 → s.wyState w = wyUP → kind = 0 ∨ kind = 2 → n < 256 →
    ts < 2 ^ 24 → frac < 256 → s.ringPort w = true →
    (32 ≤ n → ∃ t, exec (.time w kind n ts frac) s = .next t ∧ t.withy.hops = some n ∧ t.withy.sync = none ∧ t.time = s.time) ∧
    (n < 32 → ∃ t, exec (.time w kind n ts frac) s = .next t ∧ t.withy.hops = some n)) ∧
  (∀ (s : State) (w kind n ts frac : Nat), s.clocksStopped = false → w < 16 → s.wyState w = wyUP → kind = 0 ∨ kind = 2 → n < 256 →
    ts < 2 ^ 24 → frac < 256 → s.ringPort w = false → exec (.time w kind n ts frac) s = .next (s.keep (s.wyGot w 1))) ∧
  (∀ (s : State) (w n ts frac t1 : Nat) (t2 t3 : Rat), s.clocksStopped = false → w < 16 → s.wyState w = wyUP → n < 32 → ts < 2 ^ 24 →
    frac < 256 → s.ringPort w = true → s.withy.sync = some (t1, t2, t3) →
    ∃ v : State, exec (.time w 2 n ts frac) s = .next (s.keep (v.measure 2
        (-((wrap24 (t2 * 16 - (t1 : Rat)) - wrap24 ((ts : Rat) - t3 * 16)) / 2 / 16)))) ∧ v.time = s.time ∧ v.withy.sync = none ∧ v.regs = s.regs))

/-! ## Waling -/

/-- Heartbeats, death and fencing (R469 to R477): a member sends HB with the next sequence number every 8 microseconds; a heard neighbour is
present and a suspect without a token a member again, and one never heard is not watched; a missed window counts; after 4 misses the neighbour is SUSPECT with its record; a
death that has come from both directions is committed; a probe is answered; the witness of a silent probe commits the death; a DREPLY goes
back to its origin; a commit that has been applied is absorbed; a FENCE notice fences. -/
def Obligations.MembersAreWatchedAndFenced : Prop :=
  (∀ (s : State), s.clocksStopped = false → s.wlActive = true → s.waling.hbAt + 28800 ≤ s.gtc →
    ∃ t, exec .heartbeatSend s = .next t ∧ t.waling = { s.waling with hbSeq := (s.waling.hbSeq + 1) % 256, hbAt := s.gtc } ∧
      t = { s with waling := t.waling, withy := { s.withy with out := t.withy.out } }) ∧
  (∀ (s : State) (x score : Nat), s.clocksStopped = false → x < 2 → score < 1024 → s.wlOn = true → s.wyState (s.wlPort x) = wyUP →
    s.waling.probes = [] → (s.nbr x).suspect = false →
    ∃ t, exec (.hb x score) s = .next t ∧ t.nbr x = { s.nbr x with seen := true, heard := true } ∧ (∀ y, y ≠ x → t.nbr y = s.nbr y) ∧
      (∀ k d st, s.members.find? (fun e => e.2.1 == s.nbrId x) = some (k, d, st) →
        t.getF (.wlMember k) WL_MEMBER.SCORE = score ∧ t.getF (.wlMember k) WL_MEMBER.STATE = st)) ∧
  (∀ (s : State) (x score : Nat), s.clocksStopped = false → x < 2 → score < 1024 → s.wlOn = true → s.wyState (s.wlPort x) = wyUP →
    s.waling.probes = [] → (s.nbr x).suspect = true → (s.nbr x).token = false → s.memberState (s.nbrId x) = 2 →
    ∃ t, exec (.hb x score) s = .next t ∧ t.memberState (s.nbrId x) = 1 ∧
      t.nbr x = { s.nbr x with seen := true, heard := true, misses := 0, suspect := false }) ∧
  (∀ (s : State) (x : Nat), s.clocksStopped = false → x < 2 → s.wlActive = true →
    s.memberState (s.nbrId x) = 1 ∨ s.memberState (s.nbrId x) = 5 → (s.nbr x).seen = true → (s.nbr x).heard = false →
    (s.nbr x).winEnd ≤ s.gtc →
    ∃ t, exec (.heartbeatMissWindow x) s = .next t ∧ t = { s with waling := t.waling } ∧
      t.nbr x = { s.nbr x with misses := (s.nbr x).misses + 1, winEnd := wlNextWindow s.gtc } ∧ ∀ y, y ≠ x → t.nbr y = s.nbr y) ∧
  (∀ (s : State) (x : Nat), s.clocksStopped = false → x < 2 → s.wlActive = true → 4 ≤ (s.nbr x).misses → (s.nbr x).suspect = false →
    s.memberState (s.nbrId x) = 1 ∨ s.memberState (s.nbrId x) = 5 →
    ∃ u : State, exec (.suspect x) s = .next (s.keep (u.passToken (1 - x) none
        { WlMsg.blank with origin := s.devid, subject := s.nbrId x, inserv := 1 })) ∧
      u.nbr x = { s.nbr x with suspect := true, token := true } ∧ u.memberState (s.nbrId x) = 2) ∧
  (∀ (s : State) (x : Nat) (m : WlMsg), s.Hears x m →
    (s.wlActive = false ∨ inService (s.memberState m.subject) = false → exec (.death x m) s = .next (s.keep (s.wlGot x))) ∧
    (s.wlActive = true → inService (s.memberState m.subject) = true → s.devid ∉ m.subject :: m.run →
      (∃ t ∈ s.waling.tokens, t.subject = m.subject ∧ t.side ≠ x) →
      exec (.death x m) s = .next (s.keep ((s.wlGot x).commitDeath m.subject m.run))) ∧
    (s.wlActive = true → inService (s.memberState m.subject) = true → s.devid ∉ m.subject :: m.run →
      (∀ t ∈ s.waling.tokens, t.subject = m.subject → t.side = x) →
      ∃ u : State, exec (.death x m) s = .next (s.keep (u.passToken (1 - x) (some x) m)) ∧
        u.waling.tokens = s.waling.tokens ++ [⟨m.subject, m.run, m.origin, x, m.inserv⟩] ∧ u = { s.wlGot x with waling := u.waling })) ∧
  (∀ (s : State) (w d : Nat), s.clocksStopped = false → w < 16 → d < 65536 → s.wyState w = wyUP →
    (s.wlOn = true → exec (.probe w d) s = .next (s.keep ((s.wyGot w 1).wyControl w 4 [d % 256, d / 256, 0, 0, 0]))) ∧
    (s.wlOn = false → exec (.probe w d) s = .next (s.keep (s.wyGot w 1))) ∧
    (∀ v, d ≠ s.devid → s.wyRoute d = some v →
      exec (.probeAck w d) s = .next (s.keep ((s.wyGot w 1).wyControl v 4 [d % 256, d / 256, 0, 0, 0]))) ∧
    (d ≠ s.devid → s.wyRoute d = none → exec (.probeAck w d) s = .next (s.keep (s.wyGot w 1)))) ∧
  (∀ (s : State) (w : Nat), s.clocksStopped = false → w < 16 → s.devid < 65536 → s.wyState w = wyUP → s.waling.probes = [] →
    (s.waling.reprobe = none → exec (.probeAck w s.devid) s = .next (s.keep (s.wyGot w 1))) ∧
    (∀ t0, s.waling.reprobe = some t0 → s.wyRoute (s.getF .wlReprobe WL_REPROBE.ID) = some w →
      ∃ t, exec (.probeAck w s.devid) s = .next t ∧ t.getF .wlReprobe WL_REPROBE.BUSY = 0 ∧ t.getF .wlReprobe WL_REPROBE.RESULT = 1 ∧
        t.waling.reprobe = none)) ∧
  (∀ (s : State) (subject : Nat) (q : WlToken × Nat), s.clocksStopped = false →
    s.waling.probes.find? (fun q => q.1.subject == subject) = some q → q.2 + 57600 ≤ s.gtc →
    ∃ u : State, exec (.witnessProbeTimeout subject) s = .next (s.keep (u.commitDeath subject q.1.run)) ∧
      u.waling.probes = s.waling.probes.filter (fun z => z != q) ∧ u = { s with waling := u.waling }) ∧
  (∀ (s : State) (x : Nat) (m : WlMsg), s.Hears x m → m.result = 1 ∨ m.result = 2 → s.wlActive = true →
    ∃ u : State, exec (.dreply x m) s = .next (s.keep (if m.origin = s.devid then u.tokenAnswered m else u.wlSend (1 - x) 2 m)) ∧
      (∀ t ∈ u.waling.tokens, t.subject ≠ m.subject) ∧ u = { s.wlGot x with waling := u.waling }) ∧
  (∀ (s : State) (x : Nat) (m : WlMsg), s.Hears x m → 0 < m.result → m.result < 5 →
    (s.wlOn = false ∨ s.applied m = true → exec (.commit x m) s = .next (s.keep (s.wlGot x))) ∧
    (s.wlOn = true → s.applied m = false → s.wlState ≠ wlFENCED →
      exec (.commit x m) s = .next (s.keep (((s.wlGot x).wlSend (1 - x) 3 m).applyCommit m))) ∧
    (s.wlOn = true → s.applied m = false → s.wlState = wlFENCED →
      exec (.commit x m) s = .next (s.keep ((s.wlGot x).applyCommit m)))) ∧
  (∀ (s : State) (w : Nat), s.clocksStopped = false → w < 16 → s.wyState w = wyUP ∨ s.wyState w = wyFENCED → s.wlOn = true →
    ∃ t, exec (.fenceNotice w) s = .next t ∧ t.wlState = wlFENCED ∧ ∀ r, r ≠ .wlState → r ≠ .gctlElogLost → t.reg r = s.reg r)

/-- Health, the expulsion budget, re-probes, claims and admission (R479 to R489): every 100 ms the demerit loses a sixteenth, rounded half up,
and takes the weighted penalties, and the score is 1,023 less it; three low scores make a candidate; of two budget tokens the lower
device's stays; a re-probe ends as ALIVE or on its time; an umpire gives a claim to its first claimant; an admission runs its phases. -/
def Obligations.HealthClaimsAndAdmissionFollowTheirRules : Prop :=
  (∀ (s : State), s.clocksStopped = false → s.waling.healthAt + 360000000 ≤ s.gtc →
    s.wlActive = false ∨ s.gtc < s.waling.hbAt + 28800 →
    let wt (f : Fld) : Nat := s.getF .wlHweight f
    let p := s.waling.ce * wt WL_HWEIGHT.WCE + s.waling.rt * wt WL_HWEIGHT.WRT + 16 * s.waling.th * wt WL_HWEIGHT.WTH
      + 16 * s.waling.st * wt WL_HWEIGHT.WST
    let d := s.getF .wlHealth WL_HEALTH.DEMERIT
    ∃ t, exec .healthUpdate s = .next t ∧ t.getF .wlHealth WL_HEALTH.DEMERIT = min (d - (d + 8) / 16 + p) 1023 ∧
      t.getF .wlHealth WL_HEALTH.SCORE = 1023 - min (d - (d + 8) / 16 + p) 1023 ∧ t.waling.ce = 0 ∧ t.waling.rt = 0 ∧ t.waling.th = 0 ∧
      t.waling.st = 0 ∧ t.waling.healthAt = s.gtc ∧ ∀ r, r ≠ .wlHealth → r ≠ .gctlElogLost → t.reg r = s.reg r) ∧
  (∀ (s : State), s.clocksStopped = false →
    (s.waling.candidate = true → 3 ≤ s.waling.highRun →
      exec .expulsionCandidate s = .next { s with waling := { s.waling with candidate := false } }) ∧
    (s.waling.candidate = false → s.getF .wlHealth WL_HEALTH.LOWRUN = 3 →
      exec .expulsionCandidate s = .next { s with waling := { s.waling with candidate := true } })) ∧
  (∀ (s : State) (x : Nat) (m : WlMsg), s.Hears x m →
    (s.wlActive = false → exec (.budget x m) s = .next (s.keep (s.wlGot x))) ∧
    (∀ t, s.waling.budgetAt = some t → s.gtc < t + 28800000 → s.waling.budgetFrom < m.origin →
      exec (.budget x m) s = .next (s.keep (s.wlGot x))) ∧
    (s.wlActive = true → s.waling.budgetAt = none → s.waling.candidate = false →
      ∃ u : State, exec (.budget x m) s = .next (s.keep (u.wlSend (1 - x) 5 (s.budgetMsg m))) ∧
        u = { s.wlGot x with waling := { s.waling with budgetAt := some s.gtc, budgetFrom := m.origin } })) ∧
  (∀ (s : State), s.clocksStopped = false → s.wlActive = true → s.waling.budgetAt.getD 0 + 28800000 ≤ s.gtc →
    (∀ d ∈ s.serving, s.devid ≤ d) →
    ∃ t, exec .budgetTokenTimeout s = .next t ∧ t.waling.budgetAt = some s.gtc ∧ t.waling.budgetFrom = s.devid ∧ t.cores = s.cores) ∧
  (∀ (s : State) (v : Nat), s.clocksStopped = false → v < 2 ^ 32 → v / 2 ^ 31 = 1 →
    (s.getF .wlReprobe WL_REPROBE.BUSY = 1 → exec (.reprobe v) s = .next s) ∧
    (s.getF .wlReprobe WL_REPROBE.BUSY ≠ 1 → s.wlOn = true →
      ∃ t, exec (.reprobe v) s = .next t ∧ t.getF .wlReprobe WL_REPROBE.ID = v % 65536 ∧ t.getF .wlReprobe WL_REPROBE.BUSY = 1 ∧
        t.getF .wlReprobe WL_REPROBE.RESULT = 0 ∧ t.waling.reprobe = some s.gtc)) ∧
  (∀ (s : State) (hops at_ : Nat), s.clocksStopped = false → s.waling.reprobe = some at_ → 0 < hops → at_ + 57600 * hops ≤ s.gtc →
    ∃ t, exec (.reprobeTimeout hops) s = .next t ∧ t.getF .wlReprobe WL_REPROBE.BUSY = 0 ∧ t.waling.reprobe = none ∧
      t.getF .wlReprobe WL_REPROBE.RESULT = (if (s.wyRoute (s.getF .wlReprobe WL_REPROBE.ID)).isSome = true then 2 else 3)) ∧
  (∀ (s : State) (v : Nat), s.clocksStopped = false → v < 2 ^ 32 → v / 2 ^ 31 = 1 → s.getF .wlClaimCtl WL_CLAIM_CTL.BUSY = 0 →
    WL_CLAIM_CTL.INST.get (BitVec.ofNat 64 v) ≤ 64 → s.fencedPeer (s.getF .wlClaimKey WL_CLAIM_KEY.UMPIRE) = true →
    ∃ t, exec (.claimSend v) s = .next t ∧ t.getF .wlClaimRes WL_CLAIM_RES.STATUS = 3 ∧ t.getF .wlClaimCtl WL_CLAIM_CTL.BUSY = 0) ∧
  (∀ (s : State) (v : Nat), s.clocksStopped = false → v < 2 ^ 32 → v / 2 ^ 31 = 1 → s.getF .wlClaimCtl WL_CLAIM_CTL.BUSY = 0 →
    WL_CLAIM_CTL.INST.get (BitVec.ofNat 64 v) ≤ 64 → s.fencedPeer (s.getF .wlClaimKey WL_CLAIM_KEY.UMPIRE) = false →
    s.getF .wlClaimKey WL_CLAIM_KEY.UMPIRE ≠ s.devid →
    ∃ t, exec (.claimSend v) s = .next t ∧ t.getF .wlClaimCtl WL_CLAIM_CTL.BUSY = 1 ∧ t.cores = s.cores) ∧
  (∀ (s : State) (v : Nat), s.clocksStopped = false → v < 2 ^ 32 → v / 2 ^ 31 = 1 → s.getF .wlClaimCtl WL_CLAIM_CTL.BUSY = 0 →
    WL_CLAIM_CTL.INST.get (BitVec.ofNat 64 v) ≤ 64 → s.fencedPeer (s.getF .wlClaimKey WL_CLAIM_KEY.UMPIRE) = false →
    s.getF .wlClaimKey WL_CLAIM_KEY.UMPIRE = s.devid →
    ∃ t, exec (.claimSend v) s = .next t ∧ t.getF .wlClaimCtl WL_CLAIM_CTL.BUSY = 0) ∧
  (∀ (s : State) (w : Nat) (m : WlMsg), s.clocksStopped = false → w < 16 → wlFits m = true → s.wyState w = wyUP → s.wlOn = true →
    let u := s.wyGot w 1
    (m.subject ≠ s.devid → exec (.claim w m) s = .next (s.keep
      (u.wySend w m.subject (m.hops + 1) 0x7F (.link 7 { m with hops := m.hops + 1 })))) ∧
    (m.subject = s.devid → s.wlState = wlFENCED → exec (.claim w m) s = .next (s.keep u)) ∧
    (m.subject = s.devid → s.wlState ≠ wlFENCED → exec (.claim w m) s = .next (s.keep
      ((u.umpire m).2.2.wySend w m.origin 0 0x7F (.link 8 { m with hops := 0, result := (u.umpire m).1, winner := (u.umpire m).2.1 }))))) ∧
  (∀ (s : State) (m : WlMsg) (n : Nat), m.group ≠ 0 → n < 65 → s.getF (.wyGroup n) WY_GROUP.GROUP = m.group → m.result % 2 = 0 →
    (s.waling.claims.find? (fun c => c.tag == m.group && c.key == m.key) = none → s.waling.claims.length < 4096 →
      s.umpire m = (1, m.origin, { s with waling := { s.waling with claims := s.waling.claims ++ [⟨m.group, m.key, m.origin⟩] } })) ∧
    (∀ c, s.waling.claims.find? (fun c => c.tag == m.group && c.key == m.key) = some c → c.winner ≠ m.origin →
      s.umpire m = (2, c.winner, s))) ∧
  (∀ (s : State) (w : Nat) (m : WlMsg), s.clocksStopped = false → w < 16 → wlFits m = true → m.result < 8 → s.wyState w = wyUP →
    (m.origin ≠ s.devid → exec (.claimRes w m) s = .next (s.keep
      ((s.wyGot w 1).wySend w m.origin (m.hops + 1) 0x7F (.link 8 { m with hops := m.hops + 1 })))) ∧
    (m.origin = s.devid → s.getF .wlClaimCtl WL_CLAIM_CTL.BUSY = 1 →
      exec (.claimRes w m) s = .next (s.keep ((s.wyGot w 1).claimResult m.result m.winner)))) ∧
  (∀ (s : State) (v : Nat), s.clocksStopped = false → v < 2 ^ 32 → v / 2 ^ 31 = 1 → s.wlOn = true → s.wlState = wlOFF ∨ s.wlState = wlFENCED →
    s.getF .wlAdmit WL_ADMIT.PHASE = 0 ∨ s.getF .wlAdmit WL_ADMIT.PHASE = 5 →
    ∃ t, exec (.admission v) s = .next t ∧ t.getF .wlAdmit WL_ADMIT.PHASE = 1 ∧ t.getF .wlAdmit WL_ADMIT.CAUSE = 0 ∧
      t.wlState = (if s.wlState = wlOFF then wlJOINING else wlFENCED)) ∧
  (∀ (s : State) (pass : Bool), s.clocksStopped = false → s.getF .wlAdmit WL_ADMIT.PHASE = 1 ∨ s.getF .wlAdmit WL_ADMIT.PHASE = 2 →
    ∃ t, exec (.admissionPhaseComplete pass) s = .next t ∧
      t.getF .wlAdmit WL_ADMIT.PHASE = (if pass = true then s.getF .wlAdmit WL_ADMIT.PHASE + 1 else 5)) ∧
  (∀ (s : State) (x : Nat) (m : WlMsg), s.Hears x m →
    (m.subject ≠ s.devid → s.wlActive = false → exec (.admitMessage x m) s = .next (s.keep (s.wlGot x))) ∧
    (m.subject = s.devid → s.getF .wlAdmit WL_ADMIT.PHASE ≠ 3 → exec (.admitMessage x m) s = .next (s.keep (s.wlGot x))) ∧
    (m.subject = s.devid → s.getF .wlAdmit WL_ADMIT.PHASE = 3 → m.result ≠ 0 →
      exec (.admitMessage x m) s = .next (s.keep ((s.wlGot x).admitPhase 5 (m.result % 16)))) ∧
    (m.subject = s.devid → s.getF .wlAdmit WL_ADMIT.PHASE = 3 → m.result = 0 →
      ∃ u : State, exec (.admitMessage x m) s = .next (s.keep (u.setF .wlAdmit WL_ADMIT.PHASE 0)) ∧
        u = ((s.wlGot x).admitPhase 4 0).commit { m with result := 3 }) ∧
    (m.subject ≠ s.devid → s.wlActive = true → m.origin ≠ m.subject →
      ∃ k, exec (.admitMessage x m) s = .next (s.keep ((s.wlGot x).wlSend (1 - x) 6 k)) ∧ k.subject = m.subject ∧ k.origin = m.origin ∧
        k.result = (if m.result = 0 then s.admitCause m else m.result)))

/-! ## Update and configuration -/

/-- Device requests one at a time (R514 to R516, R519, R520): each is answered REJECTED with its cause where it is refused. ATTEST writes the
report and answers with its length; FW_WRITE erases the inactive slot and stages the set, which FLASH_PROGRAM_COMPLETE finds written or
failed; FW_COMMIT raises counter 0 to the active SETVER and ends the trial; CFG_WRITE replaces the copy that is not in force;
CFG_COMMIT raises counter 1. FW_WRITE and CFG_WRITE, which read companion memory, wait for a CCL port. In recovery only FW_WRITE and FW_ACTIVATE run; during an activation FW_WRITE and CFG_WRITE get cause
0x14. -/
def Obligations.DeviceRequestsTakeEffect : Prop :=
  (∀ (s : State) (q : Req), s.DevServes 0x21 q → s.boot.recovery = false →
    (s.getF .secStatus SEC_STATUS.IDOK = 0 → exec .attest s = .next (s.keep (s.dropDev.devReply q.ridx q.tag 0x14 0))) ∧
    (s.getF .secStatus SEC_STATUS.IDOK ≠ 0 → ∀ bs, bs = s.dropDev.attestReport (q.f 24 9) ((q.bytes.drop 40).take 32) →
      exec .attest s = .next (s.keep ((s.dropDev.wrlBytes (q.f 16 8) bs (bs.length + 1)).devReply q.ridx q.tag 0 bs.length)))) ∧
  (∀ (s : State) (set : FwSet) (img : CfgImage) (ok : Bool), s.clocksStopped = false → s.cclUp = false →
    exec (.fwWrite set) s = .next s ∧ exec (.cfgWrite img ok) s = .next s) ∧
  (∀ (s : State) (q : Req) (set : FwSet), s.DevServes 0x22 q → s.cclUp = true →
    (set.good = false → exec (.fwWrite set) s = .next (s.keep (s.dropDev.devReply q.ridx q.tag 0x10 0))) ∧
    (set.good = true → set.setver < s.boot.running.setver →
      exec (.fwWrite set) s = .next (s.keep (s.dropDev.devReply q.ridx q.tag 0x11 0))) ∧
    (set.good = true → s.boot.running.setver ≤ set.setver → s.boot.flash.floor ≤ set.setver →
      ∃ t, exec (.fwWrite set) s = .next t ∧ t.boot.work = some ⟨0x22, q.ridx, q.tag⟩ ∧ t.boot.staged = some set ∧
        t.devQ = s.devQ.tail ∧ t.boot.flash.h0 = s.boot.flash.h0 ∧ t.boot.flash.h1 = s.boot.flash.h1 ∧
        (s.activeSlot < 2 → t.boot.flash.slot s.activeSlot = s.boot.flash.slot s.activeSlot) ∧
        t = { s with devQ := t.devQ, boot := t.boot })) ∧
  (∀ (s : State) (w : DevWork) (set : FwSet), s.clocksStopped = false → s.boot.grizor = true → s.boot.work = some w →
    s.boot.staged = some set → s.activeSlot < 2 →
    (∃ u : State, exec (.flashProgramComplete true) s = .next (s.keep (u.devReply w.ridx w.tag 0 set.setver)) ∧
      u.boot.work = none ∧ u.boot.flash.slot (1 - s.activeSlot) = set ∧
      u.boot.flash.slot s.activeSlot = s.boot.flash.slot s.activeSlot ∧ u = { s with boot := u.boot } ∧
      ∀ i h, s.boot.flash.header = some (i, h) →
        (if i = 0 then u.boot.flash.h1 else u.boot.flash.h0).seq = (h.seq + 1) % 2 ^ 32 ∧
        (if i = 0 then u.boot.flash.h0 else u.boot.flash.h1) = (if i = 0 then s.boot.flash.h0 else s.boot.flash.h1)) ∧
    (∃ u : State, exec (.flashProgramComplete false) s = .next (s.keep (u.devReply w.ridx w.tag 0x15 0)) ∧
      u = { s with boot := { s.boot with work := none, staged := none } })) ∧
  (∀ (s : State) (q : Req), s.DevServes 0x24 q → s.boot.recovery = false →
    (s.getF .mpBootstat MP_BOOTSTAT.TRIAL = 0 → exec .fwCommit s = .next (s.keep (s.dropDev.devReply q.ridx q.tag 0x14 0))) ∧
    (s.getF .mpBootstat MP_BOOTSTAT.TRIAL ≠ 0 →
      ∃ u : State, exec .fwCommit s =
          .next (s.keep (u.devReply q.ridx q.tag 0 (max s.boot.flash.minver s.boot.running.setver))) ∧
        u.boot.flash.minver = max s.boot.flash.minver s.boot.running.setver ∧ u.getF .mpBootstat MP_BOOTSTAT.TRIAL = 0 ∧
        u.boot.flash.slotA = s.boot.flash.slotA ∧ u.boot.flash.slotB = s.boot.flash.slotB ∧
        (∀ r ∈ u.boot.flash.records, r ∈ s.boot.flash.records ∧ s.boot.rver ≤ r.rver) ∧ u.cores = s.cores ∧ u.insts = s.insts)) ∧
  (∀ (s : State) (q : Req) (img : CfgImage), s.DevServes 0x26 q → s.boot.recovery = false → s.cclUp = true →
    (img.good = false → ∀ ok, exec (.cfgWrite img ok) s = .next (s.keep (s.dropDev.devReply q.ridx q.tag 0x10 0))) ∧
    (img.good = true → img.cseq ≤ s.boot.cfg.cseq →
      ∀ ok, exec (.cfgWrite img ok) s = .next (s.keep (s.dropDev.devReply q.ridx q.tag 0x11 0))) ∧
    (img.good = true → s.boot.cfg.cseq < img.cseq → s.boot.flash.mincseq ≤ img.cseq →
      exec (.cfgWrite img false) s = .next (s.keep (s.dropDev.devReply q.ridx q.tag 0x15 0)) ∧
      ∃ u : State, exec (.cfgWrite img true) s = .next (s.keep (u.devReply q.ridx q.tag 0 img.cseq)) ∧
        (s.getF .mpBootstat MP_BOOTSTAT.CFGCOPY = 0 → u.boot.flash = { s.boot.flash with cfg1 := img }) ∧
        (s.getF .mpBootstat MP_BOOTSTAT.CFGCOPY ≠ 0 → u.boot.flash = { s.boot.flash with cfg0 := img }) ∧
        u.boot.cfg = s.boot.cfg ∧ u.regs = s.regs)) ∧
  (∀ (s : State) (q : Req), s.DevServes 0x27 q → s.boot.recovery = false → s.boot.cfg.good = true →
    ∃ u : State, exec .cfgCommit s = .next (s.keep (u.devReply q.ridx q.tag 0 (max s.boot.flash.mincseq s.boot.cfg.cseq))) ∧
      u.boot.flash = { s.boot.flash with mincseq := max s.boot.flash.mincseq s.boot.cfg.cseq } ∧ u.regs = s.regs) ∧
  (∀ (s : State) (q : Req) (set : FwSet) (img : CfgImage) (ok : Bool), s.clocksStopped = false → s.mpServes = true →
    s.devQ.head? = some q → s.boot.work = none → s.boot.act ≠ none → s.cclUp = true →
    (q.op = 0x22 → exec (.fwWrite set) s = .next (s.keep (s.dropDev.devReply q.ridx q.tag 0x14 0))) ∧
    (q.op = 0x26 → exec (.cfgWrite img ok) s = .next (s.keep (s.dropDev.devReply q.ridx q.tag 0x14 0)))) ∧
  (∀ (s : State) (q : Req), s.DevServes 0x24 q → s.boot.recovery = true →
    exec .fwCommit s = .next (s.keep (s.dropDev.devReply q.ridx q.tag 0x14 0)))

/-- Activation (R517 to R520): FW_ACTIVATE checks the set in the inactive slot (0x14 not valid or below the running one, 0x12 LEVEL, 0x13 an
unasked-for FWREV), then the instances load one at a time in the order of R517, a failed load stops the activation, and after the
last instance the header and SLOT name the new slot, on trial with three tries; FW_REVERT does the same with the other slot during a trial and leaves no
trial; the plan of the blackout stands before Grizor's own step (R521). When a request is answered is the model's choice (log 37). -/
def Obligations.ActivationLoadsInOrder : Prop :=
  (∀ (s : State) (q : Req), s.DevServes 0x23 q → ∀ set, set = s.boot.flash.slot (1 - s.activeSlot) →
    (s.boot.flash.valid set = false → exec .fwActivate s = .next (s.keep (s.dropDev.devReply q.ridx q.tag 0x14 0))) ∧
    (s.boot.flash.valid set = true → set.setver < s.boot.running.setver →
      exec .fwActivate s = .next (s.keep (s.dropDev.devReply q.ridx q.tag 0x14 0))) ∧
    (s.boot.flash.valid set = true → s.boot.running.setver ≤ set.setver →
      (∃ c ∈ set.comps, ∃ x ∈ s.boot.comps, x.1 = c.type ∧ c.level ≠ x.2.2.1 ∧ c.level ≠ x.2.2.1 + 1) →
      exec .fwActivate s = .next (s.keep (s.dropDev.devReply q.ridx q.tag 0x12 0))) ∧
    (s.boot.flash.valid set = true → s.boot.running.setver ≤ set.setver →
      (∀ c ∈ set.comps, ∀ x ∈ s.boot.comps, x.1 = c.type → c.level = x.2.2.1 ∨ c.level = x.2.2.1 + 1) →
      (set.fwrev ≠ s.boot.running.fwrev → q.f 16 1 = 0 →
        exec .fwActivate s = .next (s.keep (s.dropDev.devReply q.ridx q.tag 0x13 0))) ∧
      (set.fwrev = s.boot.running.fwrev ∨ q.f 16 1 ≠ 0 → s.boot.recovery = false →
        ∃ u : State, exec .fwActivate s = .next (s.keep (u.devReply q.ridx q.tag 0 0)) ∧
          ∃ a x, u.boot.act = some a ∧ u.boot.update = some x ∧ (a.step, a.inst) = x ∧ x ∈ stepOrder ∧ s.dropDev.stepHas x = true ∧
            a.set = set ∧ a.slot = 1 - s.activeSlot ∧ a.revert = false ∧ u.getF .mpBootstat MP_BOOTSTAT.MIXED = 1 ∧
            u.boot.flash = s.boot.flash ∧ u.boot.comps = s.boot.comps))) ∧
  (∀ (s : State) (a : Activation), s.clocksStopped = false → s.boot.act = some a → s.stepReady a = true →
    (∃ t, exec (.activationStepComplete false) s = .next t ∧ t.boot = { s.boot with act := none, update := none } ∧
      t = { s with boot := t.boot, log := t.log, regs := t.regs } ∧ ∀ r, r ≠ .gctlElogLost → t.reg r = s.reg r) ∧
    (a.step = 6 → a.revert = false →
      ∃ t, exec (.activationStepComplete true) s = .next t ∧ t.boot.act = none ∧ t.boot.update = none ∧
        t.getF .mpBootstat MP_BOOTSTAT.MIXED = 0 ∧ (a.slot < 2 → t.getF .mpBootstat MP_BOOTSTAT.SLOT = a.slot) ∧
        t.getF .mpBootstat MP_BOOTSTAT.TRIAL = 1 ∧ t.boot.running = a.set ∧
        ∀ i h, s.boot.flash.header = some (i, h) →
          (if i = 0 then t.boot.flash.h1 else t.boot.flash.h0) =
            { h with active := a.slot, trial := true, tries := 3, good := true, seq := (h.seq + 1) % 2 ^ 32 }) ∧
    (a.step = 6 → a.revert = true →
      ∃ t, exec (.activationStepComplete true) s = .next t ∧ t.boot.act = none ∧ t.getF .mpBootstat MP_BOOTSTAT.TRIAL = 0 ∧
        t.getF .mpBootstat MP_BOOTSTAT.MIXED = 0 ∧ t.boot.running = a.set) ∧
    (a.step = 4 → a.inst < 15 →
      ∃ t, exec (.activationStepComplete true) s = .next t ∧ t.boot.update = some (4, a.inst + 1) ∧
        t.boot.act = some { a with inst := a.inst + 1, at_ := s.gtc } ∧ t.boot.flash = s.boot.flash ∧
        t.getF .mpBootstat MP_BOOTSTAT.MIXED = s.getF .mpBootstat MP_BOOTSTAT.MIXED ∧
        ∀ x ∈ t.boot.comps, x ∈ s.boot.comps ∨ x.2.1 = a.inst)) ∧
  (∀ (s : State) (q : Req), s.DevServes 0x25 q → s.boot.recovery = false →
    (s.getF .mpBootstat MP_BOOTSTAT.TRIAL = 0 → s.getF .mpBootstat MP_BOOTSTAT.MIXED = 0 →
      exec .fwRevert s = .next (s.keep (s.dropDev.devReply q.ridx q.tag 0x14 0))) ∧
    (s.getF .mpBootstat MP_BOOTSTAT.TRIAL = 1 → ∀ set, set = s.boot.flash.slot (1 - s.activeSlot) →
      s.boot.flash.valid set = true →
      (∀ c ∈ set.comps, ∀ x ∈ s.boot.comps, x.1 = c.type → c.level ≤ x.2.2.1 + 1 ∧ x.2.2.1 ≤ c.level + 1) →
      ∃ u : State, exec .fwRevert s = .next (s.keep (u.devReply q.ridx q.tag 0 0)) ∧
        ∃ a, u.boot.act = some a ∧ a.set = set ∧ a.slot = 1 - s.activeSlot ∧ a.revert = true ∧
          u.getF .mpBootstat MP_BOOTSTAT.MIXED = 1 ∧ u.boot.flash = s.boot.flash)) ∧
  (∀ (s : State) (a : Activation), a.step = 5 → a.inst = 23 → s.stepReady a = true → s.blackoutPlan = true)

/-! ## Sensors, AVSBus and the TAP -/

/-- Temperatures (R232, R531, R533, R534, R538): a junction sample raises its die's temperature for the beat and, at 95 degrees, asserts
THERMALERT_N; two samples in a row at 105 degrees write THERMTRIP into the log and stop every clock; DRAM samples set HOT above 85 degrees
and STACKHOT above 95; AVSOK falls with a missing answer and rises with the next one, whose
record ends the failure. -/
def Obligations.SensorsAndRegulatorFollowTheirRules : Prop :=
  (∀ (s : State) (u k temp : Nat), s.clocksStopped = false → s.boot.started = true → u < 10 → k < (if u < 8 then 32 else 8) → temp < 420 →
    ∃ t, exec (.sensorSample u k temp) s = .next t ∧ t.clocksStopped = false ∧
      SMap.get 0 t.power.top u = max temp (SMap.get 0 s.power.top u) ∧ SMap.get 0 t.power.trips (64 * u + k) = 0 ∧
      (380 ≤ temp → t.power.thermalert = true) ∧ t = { s with power := t.power, log := t.log, regs := t.regs } ∧
      ∀ r, r ≠ .gctlElogLost → t.reg r = s.reg r) ∧
  (∀ (s : State) (u k temp : Nat), s.clocksStopped = false → s.boot.started = true → u < 10 → k < (if u < 8 then 32 else 8) →
    420 ≤ temp → temp < 1024 →
    (SMap.get 0 s.power.trips (64 * u + k) = 0 → ∃ t, exec (.sensorSample u k temp) s = .next t ∧ t.clocksStopped = false ∧
      SMap.get 0 t.power.trips (64 * u + k) = 1 ∧ t.cores = s.cores) ∧
    (1 ≤ SMap.get 0 s.power.trips (64 * u + k) → ∃ t, exec (.sensorSample u k temp) s = .next t ∧ t.clocksStopped = true ∧
      t.power.thermtrip = true ∧ t.cores = s.cores ∧ t.gtc = s.gtc ∧ t.log.nextSeq = s.log.nextSeq + 1 ∧
      ∃ e : EvOut, SMap.get none t.log.ring (s.log.nextSeq % 16384) = some e ∧ e.ev.cls = 0xB3 ∧ e.ev.gtc = s.gtc ∧ e.seq = s.log.nextSeq)) ∧
  (∀ (s : State) (m k temp : Nat), s.clocksStopped = false → s.boot.started = true → m < 12 → k < 16 → temp < 420 →
    ∃ t, exec (.sensorSample (16 + m) k temp) s = .next t ∧ t.clocksStopped = false ∧
      (340 < temp → t.getF (.msStatus m) MS_STATUS.HOT = 1) ∧
      (temp ≤ 340 → (∀ j, j < 16 → j ≠ k → SMap.get false s.power.warm (64 * (16 + m) + j) = false) →
        t.getF (.msStatus m) MS_STATUS.HOT = 0) ∧
      (380 < temp → t.getF (.gctlDietemp (stackDie m)) GCTL_DIETEMP.STACKHOT = 1 ∧ t.power.thermalert = true) ∧ t.cores = s.cores ∧
      ∀ r, r ≠ .msStatus m → r ≠ .gctlDietemp (stackDie m) → r ≠ .gctlElogLost → t.reg r = s.reg r) ∧
  (∀ (s : State) (m temp : Nat), s.clocksStopped = false → s.boot.started = true → m < 12 → temp < 420 →
    ∃ t, exec (.sensorSample (16 + m) 16 temp) s = .next t ∧ t = { s with power := t.power, log := t.log, regs := t.regs } ∧
      (∀ r, r ≠ .gctlElogLost → t.reg r = s.reg r) ∧ (380 ≤ temp → t.power.thermalert = true) ∧
      (temp < 380 ∨ SMap.get false s.power.crit (64 * (16 + m) + 16) = true → t.log = s.log)) ∧
  (∀ (s : State), s.clocksStopped = false → s.boot.started = true →
    (∃ t, exec .avsTimeout s = .next t ∧ t.getF .gctlVcore GCTL_VCORE.AVSOK = 0 ∧
      t.getF .gctlVcore GCTL_VCORE.TARGET = s.getF .gctlVcore GCTL_VCORE.TARGET ∧ t.power = { s.power with avsFault := true } ∧
      t = { s with regs := t.regs, log := t.log, power := t.power } ∧ ∀ r, r ≠ .gctlVcore → r ≠ .gctlElogLost → t.reg r = s.reg r) ∧
    (s.power.avsFault = true → ∃ t, exec .avsAnswer s = .next t ∧ t.getF .gctlVcore GCTL_VCORE.AVSOK = 1 ∧
      t.power = { s.power with avsFault := false } ∧ t = { s with regs := t.regs, log := t.log, power := t.power } ∧
      ∀ r, r ≠ .gctlVcore → r ≠ .gctlElogLost → t.reg r = s.reg r) ∧
    (s.power.avsFault = false → ∃ t, exec .avsAnswer s = .next t ∧ t.getF .gctlVcore GCTL_VCORE.AVSOK = 1 ∧
      t = { s with regs := t.regs } ∧ ∀ r, r ≠ .gctlVcore → t.reg r = s.reg r))

/-- The TAP (R547): BYPASS and IDCODE work in every state, with the code 0x1960_025B; SAMPLE/PRELOAD and the EXTEST instructions act in
boundary-scan mode alone; none of them changes anything but the TAP's own registers and what the lands drive. -/
def Obligations.TapReachesNoDeviceState : Prop :=
  (∀ (s : State), exec .bypass s = .next { s with power := { s.power with tap := .bypass, tapData := 0 } } ∧
    exec .idcode s = .next { s with power := { s.power with tap := .idcode, tapData := 0x1960025B } }) ∧
  (∀ (s : State) (bits : List Bool), s.clocksStopped = false → s.boundaryMode = true →
    exec (.samplePreload bits) s = .next { s with power := { s.power with tap := .samplePreload, tapData := 0, boundary := bits } } ∧
    exec .extest s = .next { s with power := { s.power with tap := .extest, tapData := 0, driven := some s.power.boundary } } ∧
    exec .extestPulse s = .next { s with power := { s.power with tap := .extestPulse, tapData := 0, driven := some s.power.boundary } } ∧
    exec .extestTrain s = .next { s with power := { s.power with tap := .extestTrain, tapData := 0, driven := some s.power.boundary } }) ∧
  (∀ (s : State) (bits : List Bool), s.clocksStopped = false → s.boundaryMode = false →
    exec (.samplePreload bits) s = .next s ∧ exec .extest s = .next s ∧ exec .extestPulse s = .next s ∧ exec .extestTrain s = .next s)

/-! ## Tear-down and the scratchpad's checks -/

/-- A fault tears down its context (R34, R150, R174, R315, R320, R435): the tenant instance becomes FAULTED with CLASS and CORE in IW_FAULT,
no core keeps a running thread, a plait or a resident of it and every accepted command of it has ended; a cell-group context goes down at that
cycle. A hold timer of 2,048 cycles records thread and context in CORE_CQ_NP and tears the context down; a translation fault is
recorded in IW_TFAULT and IW_TFAULT_VA first. -/
def Obligations.FaultsTearDownTheirContext : Prop :=
  (∀ (s : State) (n cls lcore : Nat), 1 ≤ n → n ≤ 64 → cls < 16 → lcore < 256 →
    let t := s.tearDown (.tenant n) cls lcore
    t.instState n = stFAULTED ∧ t.getF (.iwFault n) IW_FAULT.VALID = 1 ∧ t.getF (.iwFault n) IW_FAULT.CLASS = cls ∧
      t.getF (.iwFault n) IW_FAULT.CORE = lcore ∧
      (∀ p, (∀ x ∈ (t.core p).threads, x.2.ctx = .tenant n → x.2.running = false) ∧ (∀ x ∈ (t.core p).plaits, x.2.ctx ≠ .tenant n) ∧
        ∀ x ∈ (t.core p).residents, x.ctx ≠ .tenant n) ∧
      (∀ c ∈ t.cmds, c.inst = n → c.open_ = false) ∧ t.gtc = s.gtc) ∧
  (∀ (s : State) (g cls lcore : Nat), g < 127 →
    (SMap.get RCtx.up (s.tearDown (.cg g) cls lcore).radio.ctxs g).down = some s.gtc) ∧
  (∀ (s : State) (p t : Nat), s.clocksStopped = false → p < 208 → t < 16 → ((s.core p).thread t).running = true →
    ((s.core p).thread t).region.isSome = true → 2048 ≤ ((s.core p).thread t).hold → ∃ u : State,
      exec (.holdTimeout p t) s =
        .next (s.keep ((u.tearDown ((s.core p).thread t).ctx 3 (s.lcoreNo p)).regionClosed p (threadSide t))) ∧ u.cores = s.cores ∧
      u.getF (.coreCqNp p) CORE_CQ_NP.FVALID = 1 ∧
      (s.getF (.coreCqNp p) CORE_CQ_NP.FVALID = 0 → u.getF (.coreCqNp p) CORE_CQ_NP.FTHREAD = t ∧
        u.getF (.coreCqNp p) CORE_CQ_NP.FCTX = ((s.core p).thread t).ctx.code % 256) ∧
      (s.getF (.coreCqNp p) CORE_CQ_NP.FVALID = 1 → u.reg (.coreCqNp p) = s.reg (.coreCqNp p)) ∧
      ∀ r, r ≠ .coreCqNp p → r ≠ .gctlElogLost → u.reg r = s.reg r) ∧
  (∀ (s : State) (ctx : Ctx) (cause level addr src lcore : Nat) (write : Bool), cause < 8 → level < 4 → src < 4 → ∃ u : State,
    s.transFault ctx cause level addr write src lcore = u.tearDown ctx 1 lcore ∧ u.cores = s.cores ∧
      u.getF (.iwTfault ctx.inst) IW_TFAULT.VALID = 1 ∧ u.getF (.iwTfault ctx.inst) IW_TFAULT.CAUSE = cause ∧
      u.getF (.iwTfault ctx.inst) IW_TFAULT.LEVEL = (if cause = 1 ∨ cause = 2 ∨ cause = 5 then level else 0) ∧
      u.getF (.iwTfault ctx.inst) IW_TFAULT.WRITE = write.toNat ∧ u.getF (.iwTfault ctx.inst) IW_TFAULT.SRC = src ∧
      u.reg (.iwTfaultVa ctx.inst) = BitVec.ofNat 64 addr)

/-- The check bits of the scratchpad (R186, R187): the scrubber leaves every word of its line good but the uncorrectable ones and changes no
data and no other word; an uncorrectable word is marked, counted and recorded with its address, and the issuer that reads it faults
with cause 2. Which words are found wrong is the sender's choice. -/
def Obligations.ScratchpadErrorsAreCorrectedOrRecorded : Prop :=
  (∀ (s : State) (p n bad : Nat), s.clocksStopped = false → p < 208 → n < 196608 → s.getF (.coreSpEcc p) CORE_SP_ECC.SCRUBEN = 1 →
    ∃ t, exec (.scratchpadScrub p n bad) s = .next t ∧ (∀ q, q ≠ p → t.core q = s.core q) ∧
      t.core p = { s.core p with spCheck := (t.core p).spCheck } ∧
      (∀ w, 8 * n ≤ w → w < 8 * n + 8 → SMap.get .good (s.core p).spCheck w ≠ .double → SMap.get .good (t.core p).spCheck w = .good) ∧
      (∀ w, (w, .single) ∉ (s.core p).spCheck → SMap.get .good (s.core p).spCheck w = .double →
        SMap.get .good (t.core p).spCheck w = .double) ∧
      (∀ w, w < 8 * n ∨ 8 * n + 8 ≤ w → SMap.get .good (t.core p).spCheck w = SMap.get .good (s.core p).spCheck w) ∧
      ∀ r, r ∉ eccRegs p → t.reg r = s.reg r) ∧
  (∀ (s : State) (p n i : Nat), s.clocksStopped = false → p < 208 → n < 1572864 →
    ∃ t, exec (.scratchpadUncorrectableError p n 0 i) s = .next t ∧ SMap.get .good (t.core p).spCheck n = .double ∧
      t.getF (.coreSpEcc p) CORE_SP_ECC.UNCORR = min (s.getF (.coreSpEcc p) CORE_SP_ECC.UNCORR + 1) 255 ∧
      t.getF (.coreSpEaddr p) CORE_SP_EADDR.VALID = 1 ∧ t.getF (.coreSpEaddr p) CORE_SP_EADDR.UNC = 1 ∧
      t.getF (.coreSpEaddr p) CORE_SP_EADDR.ADDR = 8 * n ∧ (t.core p).sp = (s.core p).sp ∧
      (∀ q, q ≠ p → t.core q = s.core q) ∧ ∀ r, r ∉ eccRegs p → t.reg r = s.reg r) ∧
  (∀ (s : State) (p n i : Nat), s.clocksStopped = false → p < 208 → n < 1572864 → ∀ pc ctx cmd, (s.core p).where_ i = some (pc, ctx, cmd) →
    ∃ u : State, exec (.scratchpadUncorrectableError p n 1 i) s = .next (s.keep (u.veFault p 2 ctx (issuerOf i))) ∧
      SMap.get .good (u.core p).spCheck n = .double ∧ u.getF (.coreSpEaddr p) CORE_SP_EADDR.ADDR = 8 * n)

/-! ## The whole device -/

/-- A step runs the command at the front of the queue with the rest of the queue. -/
def Obligations.StepRunsTheFrontCommand : Prop :=
  ∀ (s : State) (c : Instr) (rest : List Instr), step { s with pending := c :: rest } = exec c { s with pending := rest }

/-- On an empty queue one ACLK cycle passes (the model's choice, log 1): the GTC counts modulo 2^64 (R357) once the device has started, outside
boundary-scan mode, and nothing happens before that, nor once every clock has stopped (R538). -/
def Obligations.AnEmptyQueueLetsACyclePass : Prop :=
  (∀ (s : State), s.pending = [] → s.clocksStopped = false → s.boot.started = true → s.scanMode = false →
    ∃ t, step s = .next t ∧ t.gtc = (s.gtc + 1) % 2 ^ 64 ∧ t.pending = [] ∧ t.clocksStopped = false) ∧
  (∀ (s : State), s.pending = [] → s.clocksStopped = true → step s = .next s) ∧
  (∀ (s : State), s.pending = [] → s.clocksStopped = false → s.boot.started = false ∨ s.scanMode = true → step s = .next s)

/-- What reset leaves (R357, R559 and the registers' reset values): the GTC is 0, no command waits or runs, every core slot is zero and every
register holds its reset word; some of those words, as the tables give them; and the
clock invariant holds there. -/
def Obligations.ResetLeavesTheStatedValues : Prop :=
  State.reset.gtc = 0 ∧ State.reset.pending = [] ∧ State.reset.cmds = [] ∧ State.reset.clocksStopped = false ∧
  (∀ p, State.reset.core p = Core.zero) ∧ (∀ r : Reg, State.reset.reg r = r.resetWord) ∧
  (∀ p, State.reset.getF (.coreCqNplimit p) CORE_CQ_NPLIMIT.LIMIT = 2048 ∧ State.reset.getF (.coreSpEcc p) CORE_SP_ECC.SCRUBEN = 1 ∧
    State.reset.getF (.coreAmode p 0) CORE_AMODE.ASHIFT_EN = 1) ∧
  State.reset.getF .gctlId GCTL_ID.PART = 0x9600 ∧ State.reset.getF .gctlId GCTL_ID.STEP = 0xB0 ∧
  State.reset.getF .gctlVcore GCTL_VCORE.TARGET = 850 ∧ State.reset.getF .gctlVcore GCTL_VCORE.AVSOK = 0 ∧
  State.reset.getF .timePlancfg TIME_PLANCFG.LATCH = 1024 ∧ State.reset.getF .timePlancfg TIME_PLANCFG.BPEAK = 96 ∧
  State.reset.getF .gctlThermcfg GCTL_THERMCFG.CRIT = 95 ∧ State.reset.getF .wyDevid WY_DEVID.ID = 0xFFFF ∧
  State.reset.getF .wlHealth WL_HEALTH.SCORE = 1023 ∧ State.reset.getF .mpBootstat MP_BOOTSTAT.STAGE = 0 ∧
  State.reset.ClockInv ∧ State.reset.getF .gctlElogCtl GCTL_ELOG_CTL.IRQSEV = 3 ∧ (∀ v, State.reset.getF (.cclMsic v) CCL_MSIC.MASK = 1)

/-- Every command but a cold reset and a thermal trip leaves the GTC, the clocks and the queue alone, and every step takes the front of
the queue and no more: commands run first in, first out. -/
def Obligations.CommandsKeepTheClockAndTheQueue : Prop :=
  (∀ (c : Instr) (s t : State), (∀ b, c ≠ .coldReset b) → exec c s = .next t →
    t.gtc = s.gtc ∧ t.pending = s.pending ∧ ((∀ u k v, c ≠ .sensorSample u k v) → t.clocksStopped = s.clocksStopped)) ∧
  (∀ (s t : State) (c : Instr) (rest : List Instr), s.pending = c :: rest → step s = .next t → t.pending = rest)

/-- Once every clock has stopped, every command but a cold reset and the two TAP instructions that need no clock is refused (R538); while
the clocks run every command answers a next state, but a register write outside the register space. -/
def Obligations.StoppedClocksRefuseCommands : Prop :=
  (∀ (c : Instr) (s : State), s.clocksStopped = true → (∀ b, c ≠ .coldReset b) → c ≠ .bypass → c ≠ .idcode →
    exec c s = .refused .clocksStopped) ∧
  (∀ (c : Instr) (s : State), s.clocksStopped = false → (∀ off size v, c = .registerWrite off size v → off < 2 ^ 26) →
    ∃ t, exec c s = .next t)

/-- The clock invariant, that the GTC stays a 64-bit count and only a thermal trip stops the clocks (R357, R538), is kept by every step. -/
def Obligations.EveryStepKeepsTheClockInvariant : Prop :=
  ∀ (s t : State), s.ClockInv → step s = .next t → t.ClockInv
end

