-- ==== Sys2Proof/Laws/Outcome.lean ====
section
/-!
SUPPORT. What the shared outcome operations answer: one lemma per operation says everything it can do.
-/
namespace Sys2Proof.Machine

/-! keep -/

@[simp] theorem State.keep_gtc (s t : State) : (s.keep t).gtc = s.gtc := rfl
@[simp] theorem State.keep_clocksStopped (s t : State) : (s.keep t).clocksStopped = s.clocksStopped := rfl
@[simp] theorem State.keep_pending (s t : State) : (s.keep t).pending = s.pending := rfl
@[simp] theorem State.keep_regs (s t : State) : (s.keep t).regs = t.regs := rfl
@[simp] theorem State.keep_cores (s t : State) : (s.keep t).cores = t.cores := rfl
@[simp] theorem State.keep_insts (s t : State) : (s.keep t).insts = t.insts := rfl
@[simp] theorem State.keep_rings (s t : State) : (s.keep t).rings = t.rings := rfl
@[simp] theorem State.keep_cmds (s t : State) : (s.keep t).cmds = t.cmds := rfl
@[simp] theorem State.keep_ccl (s t : State) : (s.keep t).ccl = t.ccl := rfl
@[simp] theorem State.keep_beat (s t : State) : (s.keep t).beat = t.beat := rfl
@[simp] theorem State.keep_images (s t : State) : (s.keep t).images = t.images := rfl
@[simp] theorem State.keep_stacks (s t : State) : (s.keep t).stackSet = t.stackSet := rfl
@[simp] theorem State.keep_weave (s t : State) : (s.keep t).weave = t.weave := rfl
@[simp] theorem State.keep_withy (s t : State) : (s.keep t).withy = t.withy := rfl
@[simp] theorem State.keep_radio (s t : State) : (s.keep t).radio = t.radio := rfl
@[simp] theorem State.keep_time (s t : State) : (s.keep t).time = t.time := rfl
@[simp] theorem State.keep_boot (s t : State) : (s.keep t).boot = t.boot := rfl
@[simp] theorem State.keep_power (s t : State) : (s.keep t).power = t.power := rfl
@[simp] theorem State.keep_waling (s t : State) : (s.keep t).waling = t.waling := rfl
@[simp] theorem State.keep_fh (s t : State) : (s.keep t).fh = t.fh := rfl
@[simp] theorem State.keep_mgmtQ (s t : State) : (s.keep t).mgmtQ = t.mgmtQ := rfl
@[simp] theorem State.keep_devQ (s t : State) : (s.keep t).devQ = t.devQ := rfl
@[simp] theorem State.keep_log (s t : State) : (s.keep t).log = t.log := rfl
@[simp] theorem State.keep_free (s t : State) : (s.keep t).free = t.free := rfl

/-- Two states that differ at most in the count, the stop of the clocks and the queue are kept alike. -/
theorem State.keep_self (s : State) : s.keep s = s := rfl

/-! when -/

/-- All that `when` can do. -/
theorem State.when_cases (s : State) (can : Bool) (t : State) :
    (s.clocksStopped = true ∧ s.when can t = .refused .clocksStopped) ∨
    (s.clocksStopped = false ∧ can = true ∧ s.when can t = .next (s.keep t)) ∨
    (s.clocksStopped = false ∧ can = false ∧ s.when can t = .next s) := by
  cases hs : s.clocksStopped <;> cases can <;> simp [State.when, hs]

theorem State.when_next {s t u : State} {can : Bool} (h : s.when can t = .next u) :
    s.clocksStopped = false ∧ (u = s.keep t ∨ u = s) := by
  rcases State.when_cases s can t with ⟨_, e⟩ | ⟨a, _, e⟩ | ⟨a, _, e⟩ <;> rw [e] at h
  · cases h
  · cases h; exact ⟨a, .inl rfl⟩
  · cases h; exact ⟨a, .inr rfl⟩

/-- Whatever `when` answers next keeps the count of cycles, the stop of the clocks and the queue. -/
theorem State.when_keeps {s t u : State} {can : Bool} (h : s.when can t = .next u) :
    u.gtc = s.gtc ∧ u.clocksStopped = s.clocksStopped ∧ u.pending = s.pending := by
  obtain ⟨_, rfl | rfl⟩ := State.when_next h <;> exact ⟨rfl, rfl, rfl⟩

@[simp] theorem State.when_true (s t : State) (hs : s.clocksStopped = false) :
    s.when true t = .next (s.keep t) := by
  simp [State.when, hs]

theorem State.when_of {s t : State} {can : Bool} (hs : s.clocksStopped = false) (hc : can = true) :
    s.when can t = .next (s.keep t) := by
  subst hc; exact State.when_true s t hs

/-- While the clocks run, `when` answers a next state. -/
theorem State.when_total (s t : State) (can : Bool) (hs : s.clocksStopped = false) : ∃ u, s.when can t = .next u := by
  rcases State.when_cases s can t with ⟨h, _⟩ | ⟨_, _, e⟩ | ⟨_, _, e⟩
  · rw [hs] at h; cases h
  · exact ⟨_, e⟩
  · exact ⟨_, e⟩

/-- No stop of `when` is a fault. -/
theorem State.when_not_fault (s t : State) (can : Bool) (f : Fault) : s.when can t ≠ .fault f := by
  rcases State.when_cases s can t with ⟨_, e⟩ | ⟨_, _, e⟩ | ⟨_, _, e⟩ <;> rw [e] <;> intro h <;> cases h

/-! instr -/

/-- All that an instruction answers: nothing issues, or it has its effect, or its word is illegal. -/
theorem instr_next {p i cls op : Nat} {legal : State → Iss → Bool} {eff : State → Iss → State} {s u : State}
    (h : instr p i cls op legal eff s = .next u) :
    s.clocksStopped = false ∧ (u = s ∨ ∃ x, s.iss p i = some x ∧
      (u = s.keep (eff (s.spCorrect p x.pc 8) x) ∨ u = s.keep ((s.spCorrect p x.pc 8).illegal x))) := by
  unfold instr at h
  split at h
  · obtain ⟨a, rfl | rfl⟩ := State.when_next h <;> exact ⟨a, .inl rfl⟩
  · rename_i x hx
    obtain ⟨a, b⟩ := State.when_next h
    refine ⟨a, ?_⟩
    rcases b with rfl | rfl
    · refine .inr ⟨x, hx, ?_⟩
      split
      · exact .inl rfl
      · exact .inr rfl
    · exact .inl rfl

/-- No instruction moves the count of cycles, the stop of the clocks or the queue. -/
theorem instr_keeps {p i cls op : Nat} {legal : State → Iss → Bool} {eff : State → Iss → State} {s u : State}
    (h : instr p i cls op legal eff s = .next u) :
    u.gtc = s.gtc ∧ u.clocksStopped = s.clocksStopped ∧ u.pending = s.pending := by
  obtain ⟨_, rfl | ⟨x, _, rfl | rfl⟩⟩ := instr_next h <;> exact ⟨rfl, rfl, rfl⟩

theorem instr_not_fault (p i cls op : Nat) (legal : State → Iss → Bool) (eff : State → Iss → State) (s : State)
    (f : Fault) : instr p i cls op legal eff s ≠ .fault f := by
  unfold instr
  split <;> apply State.when_not_fault

end Sys2Proof.Machine
end

