-- ==== Sys2Proof/Laws/Maps.lean ====
section
/-!
SUPPORT. Laws of the sparse tables and memories: a read after a write, and the canonical form that every memory operation keeps.
-/
namespace Sys2Proof

/-! ## Tables -/

theorem SMap.get_erase_self {α : Type} (d : α) (m : SMap α) (k : Nat) : SMap.get d (SMap.erase m k) k = d := by
  induction m with
  | nil => rfl
  | cons x m ih =>
    obtain ⟨j, a⟩ := x
    unfold SMap.erase
    split
    · exact ih
    · rename_i h
      rw [SMap.get, if_neg h, ih]

theorem SMap.get_erase_other {α : Type} (d : α) (m : SMap α) {k n : Nat} (h : n ≠ k) :
    SMap.get d (SMap.erase m k) n = SMap.get d m n := by
  induction m with
  | nil => rfl
  | cons x m ih =>
    obtain ⟨j, a⟩ := x
    unfold SMap.erase
    split
    · rename_i e
      rw [ih, SMap.get, if_neg (by omega)]
    · rw [SMap.get, SMap.get, ih]

theorem SMap.get_insert_self {α : Type} (d : α) (m : SMap α) (k : Nat) (a : α) : SMap.get d (SMap.insert m k a) k = a := by
  induction m with
  | nil => simp [SMap.insert, SMap.get]
  | cons x m ih =>
    obtain ⟨j, b⟩ := x
    unfold SMap.insert
    split
    · simp [SMap.get]
    · split
      · simp [SMap.get]
      · rename_i h
        rw [SMap.get, if_neg h, ih]

theorem SMap.get_insert_other {α : Type} (d : α) (m : SMap α) {k n : Nat} (a : α) (h : n ≠ k) :
    SMap.get d (SMap.insert m k a) n = SMap.get d m n := by
  induction m with
  | nil => simp [SMap.insert, SMap.get, Ne.symm h]
  | cons x m ih =>
    obtain ⟨j, b⟩ := x
    unfold SMap.insert
    split
    · rw [SMap.get, if_neg (by omega)]
    · split
      · rename_i e
        rw [SMap.get, if_neg (by omega), SMap.get, if_neg (by omega)]
      · rw [SMap.get, SMap.get, ih]

/-- A read of the key just written gives the value written. -/
@[simp] theorem SMap.get_put_self {α : Type} [DecidableEq α] (d : α) (m : SMap α) (k : Nat) (a : α) :
    SMap.get d (SMap.put d m k a) k = a := by
  unfold SMap.put
  split
  · rename_i h; rw [h, SMap.get_erase_self]
  · exact SMap.get_insert_self d m k a

/-- A write leaves every other key alone. -/
theorem SMap.get_put_other {α : Type} [DecidableEq α] (d : α) (m : SMap α) {k n : Nat} (a : α) (h : n ≠ k) :
    SMap.get d (SMap.put d m k a) n = SMap.get d m n := by
  unfold SMap.put
  split
  · exact SMap.get_erase_other d m h
  · exact SMap.get_insert_other d m a h

theorem SMap.get_put {α : Type} [DecidableEq α] (d : α) (m : SMap α) (k n : Nat) (a : α) :
    SMap.get d (SMap.put d m k a) n = if n = k then a else SMap.get d m n := by
  split
  · rename_i h; rw [h, SMap.get_put_self]
  · rename_i h; exact SMap.get_put_other d m a h

/-! ## Memories -/

@[simp] theorem Memory.byte_setByte (m : Memory) (a n : Nat) (b : Byte) :
    (m.setByte a b).byte n = if n = a then b else m.byte n := SMap.get_put 0 m a n b

/-- A byte below the written range, or at or above its end, reads as before; a byte inside reads as written. -/
theorem Memory.byte_write (m : Memory) (a : Nat) (bs : List Byte) (n : Nat) :
    (m.write a bs).byte n = if a ≤ n ∧ n < a + bs.length then (bs[n - a]?).getD 0 else m.byte n := by
  induction bs generalizing m a with
  | nil => simp only [Memory.write, List.length_nil]; rw [if_neg (by omega)]
  | cons b bs ih =>
    rw [Memory.write, ih, List.length_cons]
    by_cases h1 : n = a
    · subst h1
      rw [if_neg (by omega), if_pos (by omega), Memory.byte_setByte, if_pos rfl]
      simp
    · rw [Memory.byte_setByte, if_neg h1]
      by_cases h2 : a ≤ n ∧ n < a + (bs.length + 1)
      · have e : n - a = (n - (a + 1)) + 1 := by omega
        rw [if_pos (by omega), if_pos h2, e, List.getElem?_cons_succ]
      · rw [if_neg (by omega), if_neg h2]

theorem Memory.byte_write_outside (m : Memory) (a : Nat) (bs : List Byte) (n : Nat) (h : n < a ∨ a + bs.length ≤ n) :
    (m.write a bs).byte n = m.byte n := by
  rw [Memory.byte_write, if_neg (by omega)]

@[simp] theorem leBytes_length (n v : Nat) : (leBytes n v).length = n := by
  induction n generalizing v with
  | zero => rfl
  | succ n ih => simp [leBytes, ih]

/-- Bytes of a value give back the value (R5). -/
theorem leNat_leBytes (n v : Nat) : leNat (leBytes n v) = v % 256 ^ n := by
  induction n generalizing v with
  | zero => simp [leBytes, leNat, Nat.mod_one]
  | succ n ih =>
    have e : v % 256 ^ (n + 1) = v % 256 + 256 * (v / 256 % 256 ^ n) := by
      rw [Nat.pow_succ, Nat.mul_comm, Nat.mod_mul]
    rw [leBytes, leNat, ih, e]; rfl

theorem Memory.read_length (m : Memory) (a n : Nat) : (m.read a n).length = n := by
  simp [Memory.read]

/-- Reading back the bytes just written. -/
theorem Memory.read_write (m : Memory) (a : Nat) (bs : List Byte) : (m.write a bs).read a bs.length = bs := by
  apply List.ext_getElem
  · simp [Memory.read]
  · intro i h1 h2
    have h : i < bs.length := h2
    simp [Memory.read, Memory.byte_write, h]

theorem Memory.readLE_writeLE (m : Memory) (a n v : Nat) : (m.writeLE a n v).readLE a n = v % 256 ^ n := by
  have h : (m.write a (leBytes n v)).read a n = leBytes n v := by
    have := Memory.read_write m a (leBytes n v)
    rwa [leBytes_length] at this
  rw [Memory.writeLE, Memory.readLE, h, leNat_leBytes]

/-! ## The canonical form -/

/-- Addresses above a rise strictly and no listed byte is 0. -/
def Memory.wfFrom : Nat → Memory → Bool
  | _, [] => true
  | lo, (a, b) :: m => decide (lo ≤ a) && decide (b ≠ 0) && Memory.wfFrom (a + 1) m

theorem Memory.wfFrom_mono {m : Memory} {lo hi : Nat} (h : hi ≤ lo) (w : Memory.wfFrom lo m = true) :
    Memory.wfFrom hi m = true := by
  cases m with
  | nil => rfl
  | cons x m =>
    obtain ⟨a, b⟩ := x
    simp only [Memory.wfFrom, Bool.and_eq_true, decide_eq_true_eq] at w ⊢
    exact ⟨⟨by omega, w.1.2⟩, w.2⟩

theorem Memory.wf_iff (m : Memory) : Memory.wf m = Memory.wfFrom 0 m := by
  induction m with
  | nil => rfl
  | cons x m ih =>
    obtain ⟨a, b⟩ := x
    cases m with
    | nil => simp [Memory.wf, Memory.wfFrom]
    | cons y m =>
      obtain ⟨a', b'⟩ := y
      rw [Memory.wf, ih]
      simp only [Memory.wfFrom, Nat.zero_le, decide_true, Bool.true_and]
      by_cases h : a < a'
      · have e : a + 1 ≤ a' := h
        simp [h, e]
      · have e : ¬ a + 1 ≤ a' := h
        simp [h, e]

theorem Memory.wfFrom_erase {m : Memory} {lo : Nat} (w : Memory.wfFrom lo m = true) (k : Nat) :
    Memory.wfFrom lo (SMap.erase m k) = true := by
  induction m generalizing lo with
  | nil => rfl
  | cons x m ih =>
    obtain ⟨a, b⟩ := x
    simp only [Memory.wfFrom, Bool.and_eq_true, decide_eq_true_eq] at w
    unfold SMap.erase
    split
    · exact Memory.wfFrom_mono (by omega) (ih w.2)
    · simp only [Memory.wfFrom, Bool.and_eq_true, decide_eq_true_eq]
      exact ⟨w.1, ih w.2⟩

theorem Memory.wfFrom_insert {m : Memory} {lo k : Nat} {v : Byte} (w : Memory.wfFrom lo m = true) (hk : lo ≤ k) (hv : v ≠ 0) :
    Memory.wfFrom lo (SMap.insert m k v) = true := by
  induction m generalizing lo with
  | nil =>
    simp only [SMap.insert, Memory.wfFrom, Bool.and_eq_true, decide_eq_true_eq]
    exact ⟨⟨hk, hv⟩, trivial⟩
  | cons x m ih =>
    obtain ⟨a, b⟩ := x
    simp only [Memory.wfFrom, Bool.and_eq_true, decide_eq_true_eq] at w
    unfold SMap.insert
    split
    · rename_i h
      simp only [Memory.wfFrom, Bool.and_eq_true, decide_eq_true_eq]
      exact ⟨⟨hk, hv⟩, ⟨by omega, w.1.2⟩, w.2⟩
    · split
      · rename_i h
        subst h
        simp only [Memory.wfFrom, Bool.and_eq_true, decide_eq_true_eq]
        exact ⟨⟨hk, hv⟩, w.2⟩
      · simp only [Memory.wfFrom, Bool.and_eq_true, decide_eq_true_eq]
        exact ⟨w.1, ih w.2 (by omega)⟩

/-- A write of one byte keeps the canonical form. -/
theorem Memory.wf_setByte {m : Memory} (w : m.wf = true) (a : Nat) (b : Byte) : (m.setByte a b).wf = true := by
  rw [Memory.wf_iff] at w ⊢
  unfold Memory.setByte SMap.put
  split
  · exact Memory.wfFrom_erase w a
  · rename_i h
    exact Memory.wfFrom_insert w (Nat.zero_le a) h

/-- A write of bytes keeps the canonical form. -/
theorem Memory.wf_write {m : Memory} (w : m.wf = true) (a : Nat) (bs : List Byte) : (m.write a bs).wf = true := by
  induction bs generalizing m a with
  | nil => exact w
  | cons b bs ih => exact ih (Memory.wf_setByte w a b) (a + 1)

theorem Memory.wfFrom_filter {m : Memory} {lo : Nat} (w : Memory.wfFrom lo m = true) (f : Nat × Byte → Bool) :
    Memory.wfFrom lo (m.filter f) = true := by
  induction m generalizing lo with
  | nil => rfl
  | cons x m ih =>
    obtain ⟨a, b⟩ := x
    simp only [Memory.wfFrom, Bool.and_eq_true, decide_eq_true_eq] at w
    rw [List.filter_cons]
    split
    · simp only [Memory.wfFrom, Bool.and_eq_true, decide_eq_true_eq]
      exact ⟨w.1, ih w.2⟩
    · exact Memory.wfFrom_mono (by omega) (ih w.2)

/-- Dropping listed bytes keeps the canonical form: clearing, and every other filter. -/
theorem Memory.wf_filter {m : Memory} (w : m.wf = true) (f : Nat × Byte → Bool) : Memory.wf (m.filter f) = true := by
  rw [Memory.wf_iff] at w ⊢
  exact Memory.wfFrom_filter w f

theorem Memory.wf_clear {m : Memory} (w : m.wf = true) (a n : Nat) : (m.clear a n).wf = true :=
  Memory.wf_filter w _

namespace Machine

/-- A scratchpad write keeps the canonical form. -/
theorem Core.spWrite_wf {c : Core} (w : c.sp.wf = true) (a : Nat) (bs : List Byte) : (c.spWrite a bs).sp.wf = true :=
  Memory.wf_write w a bs

end Machine

end Sys2Proof
end

