-- ==== Sys2Proof/Laws/State.lean ====
section
/-!
SUPPORT. What each update of the state leaves: one lemma for each field and update.
-/
namespace Sys2Proof.Machine

@[simp] theorem State.setReg_gtc (s : State) (r : Reg) (w : BitVec 64) : (s.setReg r w).gtc = s.gtc := rfl
@[simp] theorem State.setReg_cores (s : State) (r : Reg) (w : BitVec 64) : (s.setReg r w).cores = s.cores := rfl
@[simp] theorem State.setReg_insts (s : State) (r : Reg) (w : BitVec 64) : (s.setReg r w).insts = s.insts := rfl
@[simp] theorem State.setReg_rings (s : State) (r : Reg) (w : BitVec 64) : (s.setReg r w).rings = s.rings := rfl
@[simp] theorem State.setReg_cmds (s : State) (r : Reg) (w : BitVec 64) : (s.setReg r w).cmds = s.cmds := rfl
@[simp] theorem State.setReg_ccl (s : State) (r : Reg) (w : BitVec 64) : (s.setReg r w).ccl = s.ccl := rfl
@[simp] theorem State.setReg_beat (s : State) (r : Reg) (w : BitVec 64) : (s.setReg r w).beat = s.beat := rfl
@[simp] theorem State.setReg_images (s : State) (r : Reg) (w : BitVec 64) : (s.setReg r w).images = s.images := rfl
@[simp] theorem State.setReg_stacks (s : State) (r : Reg) (w : BitVec 64) : (s.setReg r w).stackSet = s.stackSet := rfl
@[simp] theorem State.setReg_weave (s : State) (r : Reg) (w : BitVec 64) : (s.setReg r w).weave = s.weave := rfl
@[simp] theorem State.setReg_withy (s : State) (r : Reg) (w : BitVec 64) : (s.setReg r w).withy = s.withy := rfl
@[simp] theorem State.setReg_radio (s : State) (r : Reg) (w : BitVec 64) : (s.setReg r w).radio = s.radio := rfl
@[simp] theorem State.setReg_time (s : State) (r : Reg) (w : BitVec 64) : (s.setReg r w).time = s.time := rfl
@[simp] theorem State.setReg_boot (s : State) (r : Reg) (w : BitVec 64) : (s.setReg r w).boot = s.boot := rfl
@[simp] theorem State.setReg_power (s : State) (r : Reg) (w : BitVec 64) : (s.setReg r w).power = s.power := rfl
@[simp] theorem State.setReg_waling (s : State) (r : Reg) (w : BitVec 64) : (s.setReg r w).waling = s.waling := rfl
@[simp] theorem State.setReg_fh (s : State) (r : Reg) (w : BitVec 64) : (s.setReg r w).fh = s.fh := rfl
@[simp] theorem State.setReg_mgmtQ (s : State) (r : Reg) (w : BitVec 64) : (s.setReg r w).mgmtQ = s.mgmtQ := rfl
@[simp] theorem State.setReg_devQ (s : State) (r : Reg) (w : BitVec 64) : (s.setReg r w).devQ = s.devQ := rfl
@[simp] theorem State.setReg_log (s : State) (r : Reg) (w : BitVec 64) : (s.setReg r w).log = s.log := rfl
@[simp] theorem State.setReg_clocksStopped (s : State) (r : Reg) (w : BitVec 64) : (s.setReg r w).clocksStopped = s.clocksStopped := rfl
@[simp] theorem State.setReg_free (s : State) (r : Reg) (w : BitVec 64) : (s.setReg r w).free = s.free := rfl
@[simp] theorem State.setReg_pending (s : State) (r : Reg) (w : BitVec 64) : (s.setReg r w).pending = s.pending := rfl

@[simp] theorem State.setF_gtc (s : State) (r : Reg) (f : Fld) (x : Nat) : (s.setF r f x).gtc = s.gtc := rfl
@[simp] theorem State.setF_cores (s : State) (r : Reg) (f : Fld) (x : Nat) : (s.setF r f x).cores = s.cores := rfl
@[simp] theorem State.setF_insts (s : State) (r : Reg) (f : Fld) (x : Nat) : (s.setF r f x).insts = s.insts := rfl
@[simp] theorem State.setF_rings (s : State) (r : Reg) (f : Fld) (x : Nat) : (s.setF r f x).rings = s.rings := rfl
@[simp] theorem State.setF_cmds (s : State) (r : Reg) (f : Fld) (x : Nat) : (s.setF r f x).cmds = s.cmds := rfl
@[simp] theorem State.setF_ccl (s : State) (r : Reg) (f : Fld) (x : Nat) : (s.setF r f x).ccl = s.ccl := rfl
@[simp] theorem State.setF_beat (s : State) (r : Reg) (f : Fld) (x : Nat) : (s.setF r f x).beat = s.beat := rfl
@[simp] theorem State.setF_images (s : State) (r : Reg) (f : Fld) (x : Nat) : (s.setF r f x).images = s.images := rfl
@[simp] theorem State.setF_stacks (s : State) (r : Reg) (f : Fld) (x : Nat) : (s.setF r f x).stackSet = s.stackSet := rfl
@[simp] theorem State.setF_weave (s : State) (r : Reg) (f : Fld) (x : Nat) : (s.setF r f x).weave = s.weave := rfl
@[simp] theorem State.setF_withy (s : State) (r : Reg) (f : Fld) (x : Nat) : (s.setF r f x).withy = s.withy := rfl
@[simp] theorem State.setF_radio (s : State) (r : Reg) (f : Fld) (x : Nat) : (s.setF r f x).radio = s.radio := rfl
@[simp] theorem State.setF_time (s : State) (r : Reg) (f : Fld) (x : Nat) : (s.setF r f x).time = s.time := rfl
@[simp] theorem State.setF_boot (s : State) (r : Reg) (f : Fld) (x : Nat) : (s.setF r f x).boot = s.boot := rfl
@[simp] theorem State.setF_power (s : State) (r : Reg) (f : Fld) (x : Nat) : (s.setF r f x).power = s.power := rfl
@[simp] theorem State.setF_waling (s : State) (r : Reg) (f : Fld) (x : Nat) : (s.setF r f x).waling = s.waling := rfl
@[simp] theorem State.setF_fh (s : State) (r : Reg) (f : Fld) (x : Nat) : (s.setF r f x).fh = s.fh := rfl
@[simp] theorem State.setF_mgmtQ (s : State) (r : Reg) (f : Fld) (x : Nat) : (s.setF r f x).mgmtQ = s.mgmtQ := rfl
@[simp] theorem State.setF_devQ (s : State) (r : Reg) (f : Fld) (x : Nat) : (s.setF r f x).devQ = s.devQ := rfl
@[simp] theorem State.setF_log (s : State) (r : Reg) (f : Fld) (x : Nat) : (s.setF r f x).log = s.log := rfl
@[simp] theorem State.setF_clocksStopped (s : State) (r : Reg) (f : Fld) (x : Nat) : (s.setF r f x).clocksStopped = s.clocksStopped := rfl
@[simp] theorem State.setF_free (s : State) (r : Reg) (f : Fld) (x : Nat) : (s.setF r f x).free = s.free := rfl
@[simp] theorem State.setF_pending (s : State) (r : Reg) (f : Fld) (x : Nat) : (s.setF r f x).pending = s.pending := rfl

@[simp] theorem State.satF_gtc (s : State) (r : Reg) (f : Fld) (n : Nat) : (s.satF r f n).gtc = s.gtc := rfl
@[simp] theorem State.satF_cores (s : State) (r : Reg) (f : Fld) (n : Nat) : (s.satF r f n).cores = s.cores := rfl
@[simp] theorem State.satF_insts (s : State) (r : Reg) (f : Fld) (n : Nat) : (s.satF r f n).insts = s.insts := rfl
@[simp] theorem State.satF_rings (s : State) (r : Reg) (f : Fld) (n : Nat) : (s.satF r f n).rings = s.rings := rfl
@[simp] theorem State.satF_cmds (s : State) (r : Reg) (f : Fld) (n : Nat) : (s.satF r f n).cmds = s.cmds := rfl
@[simp] theorem State.satF_ccl (s : State) (r : Reg) (f : Fld) (n : Nat) : (s.satF r f n).ccl = s.ccl := rfl
@[simp] theorem State.satF_beat (s : State) (r : Reg) (f : Fld) (n : Nat) : (s.satF r f n).beat = s.beat := rfl
@[simp] theorem State.satF_images (s : State) (r : Reg) (f : Fld) (n : Nat) : (s.satF r f n).images = s.images := rfl
@[simp] theorem State.satF_stacks (s : State) (r : Reg) (f : Fld) (n : Nat) : (s.satF r f n).stackSet = s.stackSet := rfl
@[simp] theorem State.satF_weave (s : State) (r : Reg) (f : Fld) (n : Nat) : (s.satF r f n).weave = s.weave := rfl
@[simp] theorem State.satF_withy (s : State) (r : Reg) (f : Fld) (n : Nat) : (s.satF r f n).withy = s.withy := rfl
@[simp] theorem State.satF_radio (s : State) (r : Reg) (f : Fld) (n : Nat) : (s.satF r f n).radio = s.radio := rfl
@[simp] theorem State.satF_time (s : State) (r : Reg) (f : Fld) (n : Nat) : (s.satF r f n).time = s.time := rfl
@[simp] theorem State.satF_boot (s : State) (r : Reg) (f : Fld) (n : Nat) : (s.satF r f n).boot = s.boot := rfl
@[simp] theorem State.satF_power (s : State) (r : Reg) (f : Fld) (n : Nat) : (s.satF r f n).power = s.power := rfl
@[simp] theorem State.satF_waling (s : State) (r : Reg) (f : Fld) (n : Nat) : (s.satF r f n).waling = s.waling := rfl
@[simp] theorem State.satF_fh (s : State) (r : Reg) (f : Fld) (n : Nat) : (s.satF r f n).fh = s.fh := rfl
@[simp] theorem State.satF_mgmtQ (s : State) (r : Reg) (f : Fld) (n : Nat) : (s.satF r f n).mgmtQ = s.mgmtQ := rfl
@[simp] theorem State.satF_devQ (s : State) (r : Reg) (f : Fld) (n : Nat) : (s.satF r f n).devQ = s.devQ := rfl
@[simp] theorem State.satF_log (s : State) (r : Reg) (f : Fld) (n : Nat) : (s.satF r f n).log = s.log := rfl
@[simp] theorem State.satF_clocksStopped (s : State) (r : Reg) (f : Fld) (n : Nat) : (s.satF r f n).clocksStopped = s.clocksStopped := rfl
@[simp] theorem State.satF_free (s : State) (r : Reg) (f : Fld) (n : Nat) : (s.satF r f n).free = s.free := rfl
@[simp] theorem State.satF_pending (s : State) (r : Reg) (f : Fld) (n : Nat) : (s.satF r f n).pending = s.pending := rfl

@[simp] theorem State.orF_gtc (s : State) (r : Reg) (f : Fld) (x : Nat) : (s.orF r f x).gtc = s.gtc := rfl
@[simp] theorem State.orF_cores (s : State) (r : Reg) (f : Fld) (x : Nat) : (s.orF r f x).cores = s.cores := rfl
@[simp] theorem State.orF_insts (s : State) (r : Reg) (f : Fld) (x : Nat) : (s.orF r f x).insts = s.insts := rfl
@[simp] theorem State.orF_rings (s : State) (r : Reg) (f : Fld) (x : Nat) : (s.orF r f x).rings = s.rings := rfl
@[simp] theorem State.orF_cmds (s : State) (r : Reg) (f : Fld) (x : Nat) : (s.orF r f x).cmds = s.cmds := rfl
@[simp] theorem State.orF_ccl (s : State) (r : Reg) (f : Fld) (x : Nat) : (s.orF r f x).ccl = s.ccl := rfl
@[simp] theorem State.orF_beat (s : State) (r : Reg) (f : Fld) (x : Nat) : (s.orF r f x).beat = s.beat := rfl
@[simp] theorem State.orF_images (s : State) (r : Reg) (f : Fld) (x : Nat) : (s.orF r f x).images = s.images := rfl
@[simp] theorem State.orF_stacks (s : State) (r : Reg) (f : Fld) (x : Nat) : (s.orF r f x).stackSet = s.stackSet := rfl
@[simp] theorem State.orF_weave (s : State) (r : Reg) (f : Fld) (x : Nat) : (s.orF r f x).weave = s.weave := rfl
@[simp] theorem State.orF_withy (s : State) (r : Reg) (f : Fld) (x : Nat) : (s.orF r f x).withy = s.withy := rfl
@[simp] theorem State.orF_radio (s : State) (r : Reg) (f : Fld) (x : Nat) : (s.orF r f x).radio = s.radio := rfl
@[simp] theorem State.orF_time (s : State) (r : Reg) (f : Fld) (x : Nat) : (s.orF r f x).time = s.time := rfl
@[simp] theorem State.orF_boot (s : State) (r : Reg) (f : Fld) (x : Nat) : (s.orF r f x).boot = s.boot := rfl
@[simp] theorem State.orF_power (s : State) (r : Reg) (f : Fld) (x : Nat) : (s.orF r f x).power = s.power := rfl
@[simp] theorem State.orF_waling (s : State) (r : Reg) (f : Fld) (x : Nat) : (s.orF r f x).waling = s.waling := rfl
@[simp] theorem State.orF_fh (s : State) (r : Reg) (f : Fld) (x : Nat) : (s.orF r f x).fh = s.fh := rfl
@[simp] theorem State.orF_mgmtQ (s : State) (r : Reg) (f : Fld) (x : Nat) : (s.orF r f x).mgmtQ = s.mgmtQ := rfl
@[simp] theorem State.orF_devQ (s : State) (r : Reg) (f : Fld) (x : Nat) : (s.orF r f x).devQ = s.devQ := rfl
@[simp] theorem State.orF_log (s : State) (r : Reg) (f : Fld) (x : Nat) : (s.orF r f x).log = s.log := rfl
@[simp] theorem State.orF_clocksStopped (s : State) (r : Reg) (f : Fld) (x : Nat) : (s.orF r f x).clocksStopped = s.clocksStopped := rfl
@[simp] theorem State.orF_free (s : State) (r : Reg) (f : Fld) (x : Nat) : (s.orF r f x).free = s.free := rfl
@[simp] theorem State.orF_pending (s : State) (r : Reg) (f : Fld) (x : Nat) : (s.orF r f x).pending = s.pending := rfl

@[simp] theorem State.resetReg_gtc (s : State) (r : Reg) : (s.resetReg r).gtc = s.gtc := rfl
@[simp] theorem State.resetReg_cores (s : State) (r : Reg) : (s.resetReg r).cores = s.cores := rfl
@[simp] theorem State.resetReg_insts (s : State) (r : Reg) : (s.resetReg r).insts = s.insts := rfl
@[simp] theorem State.resetReg_rings (s : State) (r : Reg) : (s.resetReg r).rings = s.rings := rfl
@[simp] theorem State.resetReg_cmds (s : State) (r : Reg) : (s.resetReg r).cmds = s.cmds := rfl
@[simp] theorem State.resetReg_ccl (s : State) (r : Reg) : (s.resetReg r).ccl = s.ccl := rfl
@[simp] theorem State.resetReg_beat (s : State) (r : Reg) : (s.resetReg r).beat = s.beat := rfl
@[simp] theorem State.resetReg_images (s : State) (r : Reg) : (s.resetReg r).images = s.images := rfl
@[simp] theorem State.resetReg_stacks (s : State) (r : Reg) : (s.resetReg r).stackSet = s.stackSet := rfl
@[simp] theorem State.resetReg_weave (s : State) (r : Reg) : (s.resetReg r).weave = s.weave := rfl
@[simp] theorem State.resetReg_withy (s : State) (r : Reg) : (s.resetReg r).withy = s.withy := rfl
@[simp] theorem State.resetReg_radio (s : State) (r : Reg) : (s.resetReg r).radio = s.radio := rfl
@[simp] theorem State.resetReg_time (s : State) (r : Reg) : (s.resetReg r).time = s.time := rfl
@[simp] theorem State.resetReg_boot (s : State) (r : Reg) : (s.resetReg r).boot = s.boot := rfl
@[simp] theorem State.resetReg_power (s : State) (r : Reg) : (s.resetReg r).power = s.power := rfl
@[simp] theorem State.resetReg_waling (s : State) (r : Reg) : (s.resetReg r).waling = s.waling := rfl
@[simp] theorem State.resetReg_fh (s : State) (r : Reg) : (s.resetReg r).fh = s.fh := rfl
@[simp] theorem State.resetReg_mgmtQ (s : State) (r : Reg) : (s.resetReg r).mgmtQ = s.mgmtQ := rfl
@[simp] theorem State.resetReg_devQ (s : State) (r : Reg) : (s.resetReg r).devQ = s.devQ := rfl
@[simp] theorem State.resetReg_log (s : State) (r : Reg) : (s.resetReg r).log = s.log := rfl
@[simp] theorem State.resetReg_clocksStopped (s : State) (r : Reg) : (s.resetReg r).clocksStopped = s.clocksStopped := rfl
@[simp] theorem State.resetReg_free (s : State) (r : Reg) : (s.resetReg r).free = s.free := rfl
@[simp] theorem State.resetReg_pending (s : State) (r : Reg) : (s.resetReg r).pending = s.pending := rfl

@[simp] theorem State.setCore_regs (s : State) (p : Nat) (c : Core) : (s.setCore p c).regs = s.regs := rfl
@[simp] theorem State.setCore_gtc (s : State) (p : Nat) (c : Core) : (s.setCore p c).gtc = s.gtc := rfl
@[simp] theorem State.setCore_insts (s : State) (p : Nat) (c : Core) : (s.setCore p c).insts = s.insts := rfl
@[simp] theorem State.setCore_rings (s : State) (p : Nat) (c : Core) : (s.setCore p c).rings = s.rings := rfl
@[simp] theorem State.setCore_cmds (s : State) (p : Nat) (c : Core) : (s.setCore p c).cmds = s.cmds := rfl
@[simp] theorem State.setCore_ccl (s : State) (p : Nat) (c : Core) : (s.setCore p c).ccl = s.ccl := rfl
@[simp] theorem State.setCore_beat (s : State) (p : Nat) (c : Core) : (s.setCore p c).beat = s.beat := rfl
@[simp] theorem State.setCore_images (s : State) (p : Nat) (c : Core) : (s.setCore p c).images = s.images := rfl
@[simp] theorem State.setCore_stacks (s : State) (p : Nat) (c : Core) : (s.setCore p c).stackSet = s.stackSet := rfl
@[simp] theorem State.setCore_weave (s : State) (p : Nat) (c : Core) : (s.setCore p c).weave = s.weave := rfl
@[simp] theorem State.setCore_withy (s : State) (p : Nat) (c : Core) : (s.setCore p c).withy = s.withy := rfl
@[simp] theorem State.setCore_radio (s : State) (p : Nat) (c : Core) : (s.setCore p c).radio = s.radio := rfl
@[simp] theorem State.setCore_time (s : State) (p : Nat) (c : Core) : (s.setCore p c).time = s.time := rfl
@[simp] theorem State.setCore_boot (s : State) (p : Nat) (c : Core) : (s.setCore p c).boot = s.boot := rfl
@[simp] theorem State.setCore_power (s : State) (p : Nat) (c : Core) : (s.setCore p c).power = s.power := rfl
@[simp] theorem State.setCore_waling (s : State) (p : Nat) (c : Core) : (s.setCore p c).waling = s.waling := rfl
@[simp] theorem State.setCore_fh (s : State) (p : Nat) (c : Core) : (s.setCore p c).fh = s.fh := rfl
@[simp] theorem State.setCore_mgmtQ (s : State) (p : Nat) (c : Core) : (s.setCore p c).mgmtQ = s.mgmtQ := rfl
@[simp] theorem State.setCore_devQ (s : State) (p : Nat) (c : Core) : (s.setCore p c).devQ = s.devQ := rfl
@[simp] theorem State.setCore_log (s : State) (p : Nat) (c : Core) : (s.setCore p c).log = s.log := rfl
@[simp] theorem State.setCore_clocksStopped (s : State) (p : Nat) (c : Core) : (s.setCore p c).clocksStopped = s.clocksStopped := rfl
@[simp] theorem State.setCore_free (s : State) (p : Nat) (c : Core) : (s.setCore p c).free = s.free := rfl
@[simp] theorem State.setCore_pending (s : State) (p : Nat) (c : Core) : (s.setCore p c).pending = s.pending := rfl

@[simp] theorem State.modCore_regs (s : State) (p : Nat) (f : Core → Core) : (s.modCore p f).regs = s.regs := rfl
@[simp] theorem State.modCore_gtc (s : State) (p : Nat) (f : Core → Core) : (s.modCore p f).gtc = s.gtc := rfl
@[simp] theorem State.modCore_insts (s : State) (p : Nat) (f : Core → Core) : (s.modCore p f).insts = s.insts := rfl
@[simp] theorem State.modCore_rings (s : State) (p : Nat) (f : Core → Core) : (s.modCore p f).rings = s.rings := rfl
@[simp] theorem State.modCore_cmds (s : State) (p : Nat) (f : Core → Core) : (s.modCore p f).cmds = s.cmds := rfl
@[simp] theorem State.modCore_ccl (s : State) (p : Nat) (f : Core → Core) : (s.modCore p f).ccl = s.ccl := rfl
@[simp] theorem State.modCore_beat (s : State) (p : Nat) (f : Core → Core) : (s.modCore p f).beat = s.beat := rfl
@[simp] theorem State.modCore_images (s : State) (p : Nat) (f : Core → Core) : (s.modCore p f).images = s.images := rfl
@[simp] theorem State.modCore_stacks (s : State) (p : Nat) (f : Core → Core) : (s.modCore p f).stackSet = s.stackSet := rfl
@[simp] theorem State.modCore_weave (s : State) (p : Nat) (f : Core → Core) : (s.modCore p f).weave = s.weave := rfl
@[simp] theorem State.modCore_withy (s : State) (p : Nat) (f : Core → Core) : (s.modCore p f).withy = s.withy := rfl
@[simp] theorem State.modCore_radio (s : State) (p : Nat) (f : Core → Core) : (s.modCore p f).radio = s.radio := rfl
@[simp] theorem State.modCore_time (s : State) (p : Nat) (f : Core → Core) : (s.modCore p f).time = s.time := rfl
@[simp] theorem State.modCore_boot (s : State) (p : Nat) (f : Core → Core) : (s.modCore p f).boot = s.boot := rfl
@[simp] theorem State.modCore_power (s : State) (p : Nat) (f : Core → Core) : (s.modCore p f).power = s.power := rfl
@[simp] theorem State.modCore_waling (s : State) (p : Nat) (f : Core → Core) : (s.modCore p f).waling = s.waling := rfl
@[simp] theorem State.modCore_fh (s : State) (p : Nat) (f : Core → Core) : (s.modCore p f).fh = s.fh := rfl
@[simp] theorem State.modCore_mgmtQ (s : State) (p : Nat) (f : Core → Core) : (s.modCore p f).mgmtQ = s.mgmtQ := rfl
@[simp] theorem State.modCore_devQ (s : State) (p : Nat) (f : Core → Core) : (s.modCore p f).devQ = s.devQ := rfl
@[simp] theorem State.modCore_log (s : State) (p : Nat) (f : Core → Core) : (s.modCore p f).log = s.log := rfl
@[simp] theorem State.modCore_clocksStopped (s : State) (p : Nat) (f : Core → Core) : (s.modCore p f).clocksStopped = s.clocksStopped := rfl
@[simp] theorem State.modCore_free (s : State) (p : Nat) (f : Core → Core) : (s.modCore p f).free = s.free := rfl
@[simp] theorem State.modCore_pending (s : State) (p : Nat) (f : Core → Core) : (s.modCore p f).pending = s.pending := rfl

@[simp] theorem State.mapCores_regs (s : State) (f : Nat → Core → Core) : (s.mapCores f).regs = s.regs := rfl
@[simp] theorem State.mapCores_gtc (s : State) (f : Nat → Core → Core) : (s.mapCores f).gtc = s.gtc := rfl
@[simp] theorem State.mapCores_insts (s : State) (f : Nat → Core → Core) : (s.mapCores f).insts = s.insts := rfl
@[simp] theorem State.mapCores_rings (s : State) (f : Nat → Core → Core) : (s.mapCores f).rings = s.rings := rfl
@[simp] theorem State.mapCores_cmds (s : State) (f : Nat → Core → Core) : (s.mapCores f).cmds = s.cmds := rfl
@[simp] theorem State.mapCores_ccl (s : State) (f : Nat → Core → Core) : (s.mapCores f).ccl = s.ccl := rfl
@[simp] theorem State.mapCores_beat (s : State) (f : Nat → Core → Core) : (s.mapCores f).beat = s.beat := rfl
@[simp] theorem State.mapCores_images (s : State) (f : Nat → Core → Core) : (s.mapCores f).images = s.images := rfl
@[simp] theorem State.mapCores_stacks (s : State) (f : Nat → Core → Core) : (s.mapCores f).stackSet = s.stackSet := rfl
@[simp] theorem State.mapCores_weave (s : State) (f : Nat → Core → Core) : (s.mapCores f).weave = s.weave := rfl
@[simp] theorem State.mapCores_withy (s : State) (f : Nat → Core → Core) : (s.mapCores f).withy = s.withy := rfl
@[simp] theorem State.mapCores_radio (s : State) (f : Nat → Core → Core) : (s.mapCores f).radio = s.radio := rfl
@[simp] theorem State.mapCores_time (s : State) (f : Nat → Core → Core) : (s.mapCores f).time = s.time := rfl
@[simp] theorem State.mapCores_boot (s : State) (f : Nat → Core → Core) : (s.mapCores f).boot = s.boot := rfl
@[simp] theorem State.mapCores_power (s : State) (f : Nat → Core → Core) : (s.mapCores f).power = s.power := rfl
@[simp] theorem State.mapCores_waling (s : State) (f : Nat → Core → Core) : (s.mapCores f).waling = s.waling := rfl
@[simp] theorem State.mapCores_fh (s : State) (f : Nat → Core → Core) : (s.mapCores f).fh = s.fh := rfl
@[simp] theorem State.mapCores_mgmtQ (s : State) (f : Nat → Core → Core) : (s.mapCores f).mgmtQ = s.mgmtQ := rfl
@[simp] theorem State.mapCores_devQ (s : State) (f : Nat → Core → Core) : (s.mapCores f).devQ = s.devQ := rfl
@[simp] theorem State.mapCores_log (s : State) (f : Nat → Core → Core) : (s.mapCores f).log = s.log := rfl
@[simp] theorem State.mapCores_clocksStopped (s : State) (f : Nat → Core → Core) : (s.mapCores f).clocksStopped = s.clocksStopped := rfl
@[simp] theorem State.mapCores_free (s : State) (f : Nat → Core → Core) : (s.mapCores f).free = s.free := rfl
@[simp] theorem State.mapCores_pending (s : State) (f : Nat → Core → Core) : (s.mapCores f).pending = s.pending := rfl

@[simp] theorem State.setInst_regs (s : State) (n : Nat) (x : Instance) : (s.setInst n x).regs = s.regs := rfl
@[simp] theorem State.setInst_gtc (s : State) (n : Nat) (x : Instance) : (s.setInst n x).gtc = s.gtc := rfl
@[simp] theorem State.setInst_cores (s : State) (n : Nat) (x : Instance) : (s.setInst n x).cores = s.cores := rfl
@[simp] theorem State.setInst_rings (s : State) (n : Nat) (x : Instance) : (s.setInst n x).rings = s.rings := rfl
@[simp] theorem State.setInst_cmds (s : State) (n : Nat) (x : Instance) : (s.setInst n x).cmds = s.cmds := rfl
@[simp] theorem State.setInst_ccl (s : State) (n : Nat) (x : Instance) : (s.setInst n x).ccl = s.ccl := rfl
@[simp] theorem State.setInst_beat (s : State) (n : Nat) (x : Instance) : (s.setInst n x).beat = s.beat := rfl
@[simp] theorem State.setInst_images (s : State) (n : Nat) (x : Instance) : (s.setInst n x).images = s.images := rfl
@[simp] theorem State.setInst_stacks (s : State) (n : Nat) (x : Instance) : (s.setInst n x).stackSet = s.stackSet := rfl
@[simp] theorem State.setInst_weave (s : State) (n : Nat) (x : Instance) : (s.setInst n x).weave = s.weave := rfl
@[simp] theorem State.setInst_withy (s : State) (n : Nat) (x : Instance) : (s.setInst n x).withy = s.withy := rfl
@[simp] theorem State.setInst_radio (s : State) (n : Nat) (x : Instance) : (s.setInst n x).radio = s.radio := rfl
@[simp] theorem State.setInst_time (s : State) (n : Nat) (x : Instance) : (s.setInst n x).time = s.time := rfl
@[simp] theorem State.setInst_boot (s : State) (n : Nat) (x : Instance) : (s.setInst n x).boot = s.boot := rfl
@[simp] theorem State.setInst_power (s : State) (n : Nat) (x : Instance) : (s.setInst n x).power = s.power := rfl
@[simp] theorem State.setInst_waling (s : State) (n : Nat) (x : Instance) : (s.setInst n x).waling = s.waling := rfl
@[simp] theorem State.setInst_fh (s : State) (n : Nat) (x : Instance) : (s.setInst n x).fh = s.fh := rfl
@[simp] theorem State.setInst_mgmtQ (s : State) (n : Nat) (x : Instance) : (s.setInst n x).mgmtQ = s.mgmtQ := rfl
@[simp] theorem State.setInst_devQ (s : State) (n : Nat) (x : Instance) : (s.setInst n x).devQ = s.devQ := rfl
@[simp] theorem State.setInst_log (s : State) (n : Nat) (x : Instance) : (s.setInst n x).log = s.log := rfl
@[simp] theorem State.setInst_clocksStopped (s : State) (n : Nat) (x : Instance) : (s.setInst n x).clocksStopped = s.clocksStopped := rfl
@[simp] theorem State.setInst_free (s : State) (n : Nat) (x : Instance) : (s.setInst n x).free = s.free := rfl
@[simp] theorem State.setInst_pending (s : State) (n : Nat) (x : Instance) : (s.setInst n x).pending = s.pending := rfl

@[simp] theorem State.modInst_regs (s : State) (n : Nat) (f : Instance → Instance) : (s.modInst n f).regs = s.regs := rfl
@[simp] theorem State.modInst_gtc (s : State) (n : Nat) (f : Instance → Instance) : (s.modInst n f).gtc = s.gtc := rfl
@[simp] theorem State.modInst_cores (s : State) (n : Nat) (f : Instance → Instance) : (s.modInst n f).cores = s.cores := rfl
@[simp] theorem State.modInst_rings (s : State) (n : Nat) (f : Instance → Instance) : (s.modInst n f).rings = s.rings := rfl
@[simp] theorem State.modInst_cmds (s : State) (n : Nat) (f : Instance → Instance) : (s.modInst n f).cmds = s.cmds := rfl
@[simp] theorem State.modInst_ccl (s : State) (n : Nat) (f : Instance → Instance) : (s.modInst n f).ccl = s.ccl := rfl
@[simp] theorem State.modInst_beat (s : State) (n : Nat) (f : Instance → Instance) : (s.modInst n f).beat = s.beat := rfl
@[simp] theorem State.modInst_images (s : State) (n : Nat) (f : Instance → Instance) : (s.modInst n f).images = s.images := rfl
@[simp] theorem State.modInst_stacks (s : State) (n : Nat) (f : Instance → Instance) : (s.modInst n f).stackSet = s.stackSet := rfl
@[simp] theorem State.modInst_weave (s : State) (n : Nat) (f : Instance → Instance) : (s.modInst n f).weave = s.weave := rfl
@[simp] theorem State.modInst_withy (s : State) (n : Nat) (f : Instance → Instance) : (s.modInst n f).withy = s.withy := rfl
@[simp] theorem State.modInst_radio (s : State) (n : Nat) (f : Instance → Instance) : (s.modInst n f).radio = s.radio := rfl
@[simp] theorem State.modInst_time (s : State) (n : Nat) (f : Instance → Instance) : (s.modInst n f).time = s.time := rfl
@[simp] theorem State.modInst_boot (s : State) (n : Nat) (f : Instance → Instance) : (s.modInst n f).boot = s.boot := rfl
@[simp] theorem State.modInst_power (s : State) (n : Nat) (f : Instance → Instance) : (s.modInst n f).power = s.power := rfl
@[simp] theorem State.modInst_waling (s : State) (n : Nat) (f : Instance → Instance) : (s.modInst n f).waling = s.waling := rfl
@[simp] theorem State.modInst_fh (s : State) (n : Nat) (f : Instance → Instance) : (s.modInst n f).fh = s.fh := rfl
@[simp] theorem State.modInst_mgmtQ (s : State) (n : Nat) (f : Instance → Instance) : (s.modInst n f).mgmtQ = s.mgmtQ := rfl
@[simp] theorem State.modInst_devQ (s : State) (n : Nat) (f : Instance → Instance) : (s.modInst n f).devQ = s.devQ := rfl
@[simp] theorem State.modInst_log (s : State) (n : Nat) (f : Instance → Instance) : (s.modInst n f).log = s.log := rfl
@[simp] theorem State.modInst_clocksStopped (s : State) (n : Nat) (f : Instance → Instance) : (s.modInst n f).clocksStopped = s.clocksStopped := rfl
@[simp] theorem State.modInst_free (s : State) (n : Nat) (f : Instance → Instance) : (s.modInst n f).free = s.free := rfl
@[simp] theorem State.modInst_pending (s : State) (n : Nat) (f : Instance → Instance) : (s.modInst n f).pending = s.pending := rfl

@[simp] theorem State.setRing_regs (s : State) (n r : Nat) (x : Ring) : (s.setRing n r x).regs = s.regs := rfl
@[simp] theorem State.setRing_gtc (s : State) (n r : Nat) (x : Ring) : (s.setRing n r x).gtc = s.gtc := rfl
@[simp] theorem State.setRing_cores (s : State) (n r : Nat) (x : Ring) : (s.setRing n r x).cores = s.cores := rfl
@[simp] theorem State.setRing_insts (s : State) (n r : Nat) (x : Ring) : (s.setRing n r x).insts = s.insts := rfl
@[simp] theorem State.setRing_cmds (s : State) (n r : Nat) (x : Ring) : (s.setRing n r x).cmds = s.cmds := rfl
@[simp] theorem State.setRing_ccl (s : State) (n r : Nat) (x : Ring) : (s.setRing n r x).ccl = s.ccl := rfl
@[simp] theorem State.setRing_beat (s : State) (n r : Nat) (x : Ring) : (s.setRing n r x).beat = s.beat := rfl
@[simp] theorem State.setRing_images (s : State) (n r : Nat) (x : Ring) : (s.setRing n r x).images = s.images := rfl
@[simp] theorem State.setRing_stacks (s : State) (n r : Nat) (x : Ring) : (s.setRing n r x).stackSet = s.stackSet := rfl
@[simp] theorem State.setRing_weave (s : State) (n r : Nat) (x : Ring) : (s.setRing n r x).weave = s.weave := rfl
@[simp] theorem State.setRing_withy (s : State) (n r : Nat) (x : Ring) : (s.setRing n r x).withy = s.withy := rfl
@[simp] theorem State.setRing_radio (s : State) (n r : Nat) (x : Ring) : (s.setRing n r x).radio = s.radio := rfl
@[simp] theorem State.setRing_time (s : State) (n r : Nat) (x : Ring) : (s.setRing n r x).time = s.time := rfl
@[simp] theorem State.setRing_boot (s : State) (n r : Nat) (x : Ring) : (s.setRing n r x).boot = s.boot := rfl
@[simp] theorem State.setRing_power (s : State) (n r : Nat) (x : Ring) : (s.setRing n r x).power = s.power := rfl
@[simp] theorem State.setRing_waling (s : State) (n r : Nat) (x : Ring) : (s.setRing n r x).waling = s.waling := rfl
@[simp] theorem State.setRing_fh (s : State) (n r : Nat) (x : Ring) : (s.setRing n r x).fh = s.fh := rfl
@[simp] theorem State.setRing_mgmtQ (s : State) (n r : Nat) (x : Ring) : (s.setRing n r x).mgmtQ = s.mgmtQ := rfl
@[simp] theorem State.setRing_devQ (s : State) (n r : Nat) (x : Ring) : (s.setRing n r x).devQ = s.devQ := rfl
@[simp] theorem State.setRing_log (s : State) (n r : Nat) (x : Ring) : (s.setRing n r x).log = s.log := rfl
@[simp] theorem State.setRing_clocksStopped (s : State) (n r : Nat) (x : Ring) : (s.setRing n r x).clocksStopped = s.clocksStopped := rfl
@[simp] theorem State.setRing_free (s : State) (n r : Nat) (x : Ring) : (s.setRing n r x).free = s.free := rfl
@[simp] theorem State.setRing_pending (s : State) (n r : Nat) (x : Ring) : (s.setRing n r x).pending = s.pending := rfl

@[simp] theorem State.modRing_regs (s : State) (n r : Nat) (f : Ring → Ring) : (s.modRing n r f).regs = s.regs := rfl
@[simp] theorem State.modRing_gtc (s : State) (n r : Nat) (f : Ring → Ring) : (s.modRing n r f).gtc = s.gtc := rfl
@[simp] theorem State.modRing_cores (s : State) (n r : Nat) (f : Ring → Ring) : (s.modRing n r f).cores = s.cores := rfl
@[simp] theorem State.modRing_insts (s : State) (n r : Nat) (f : Ring → Ring) : (s.modRing n r f).insts = s.insts := rfl
@[simp] theorem State.modRing_cmds (s : State) (n r : Nat) (f : Ring → Ring) : (s.modRing n r f).cmds = s.cmds := rfl
@[simp] theorem State.modRing_ccl (s : State) (n r : Nat) (f : Ring → Ring) : (s.modRing n r f).ccl = s.ccl := rfl
@[simp] theorem State.modRing_beat (s : State) (n r : Nat) (f : Ring → Ring) : (s.modRing n r f).beat = s.beat := rfl
@[simp] theorem State.modRing_images (s : State) (n r : Nat) (f : Ring → Ring) : (s.modRing n r f).images = s.images := rfl
@[simp] theorem State.modRing_stacks (s : State) (n r : Nat) (f : Ring → Ring) : (s.modRing n r f).stackSet = s.stackSet := rfl
@[simp] theorem State.modRing_weave (s : State) (n r : Nat) (f : Ring → Ring) : (s.modRing n r f).weave = s.weave := rfl
@[simp] theorem State.modRing_withy (s : State) (n r : Nat) (f : Ring → Ring) : (s.modRing n r f).withy = s.withy := rfl
@[simp] theorem State.modRing_radio (s : State) (n r : Nat) (f : Ring → Ring) : (s.modRing n r f).radio = s.radio := rfl
@[simp] theorem State.modRing_time (s : State) (n r : Nat) (f : Ring → Ring) : (s.modRing n r f).time = s.time := rfl
@[simp] theorem State.modRing_boot (s : State) (n r : Nat) (f : Ring → Ring) : (s.modRing n r f).boot = s.boot := rfl
@[simp] theorem State.modRing_power (s : State) (n r : Nat) (f : Ring → Ring) : (s.modRing n r f).power = s.power := rfl
@[simp] theorem State.modRing_waling (s : State) (n r : Nat) (f : Ring → Ring) : (s.modRing n r f).waling = s.waling := rfl
@[simp] theorem State.modRing_fh (s : State) (n r : Nat) (f : Ring → Ring) : (s.modRing n r f).fh = s.fh := rfl
@[simp] theorem State.modRing_mgmtQ (s : State) (n r : Nat) (f : Ring → Ring) : (s.modRing n r f).mgmtQ = s.mgmtQ := rfl
@[simp] theorem State.modRing_devQ (s : State) (n r : Nat) (f : Ring → Ring) : (s.modRing n r f).devQ = s.devQ := rfl
@[simp] theorem State.modRing_log (s : State) (n r : Nat) (f : Ring → Ring) : (s.modRing n r f).log = s.log := rfl
@[simp] theorem State.modRing_clocksStopped (s : State) (n r : Nat) (f : Ring → Ring) : (s.modRing n r f).clocksStopped = s.clocksStopped := rfl
@[simp] theorem State.modRing_free (s : State) (n r : Nat) (f : Ring → Ring) : (s.modRing n r f).free = s.free := rfl
@[simp] theorem State.modRing_pending (s : State) (n r : Nat) (f : Ring → Ring) : (s.modRing n r f).pending = s.pending := rfl

@[simp] theorem State.modCmd_regs (s : State) (no : Nat) (f : Cmd → Cmd) : (s.modCmd no f).regs = s.regs := rfl
@[simp] theorem State.modCmd_gtc (s : State) (no : Nat) (f : Cmd → Cmd) : (s.modCmd no f).gtc = s.gtc := rfl
@[simp] theorem State.modCmd_cores (s : State) (no : Nat) (f : Cmd → Cmd) : (s.modCmd no f).cores = s.cores := rfl
@[simp] theorem State.modCmd_insts (s : State) (no : Nat) (f : Cmd → Cmd) : (s.modCmd no f).insts = s.insts := rfl
@[simp] theorem State.modCmd_rings (s : State) (no : Nat) (f : Cmd → Cmd) : (s.modCmd no f).rings = s.rings := rfl
@[simp] theorem State.modCmd_ccl (s : State) (no : Nat) (f : Cmd → Cmd) : (s.modCmd no f).ccl = s.ccl := rfl
@[simp] theorem State.modCmd_beat (s : State) (no : Nat) (f : Cmd → Cmd) : (s.modCmd no f).beat = s.beat := rfl
@[simp] theorem State.modCmd_images (s : State) (no : Nat) (f : Cmd → Cmd) : (s.modCmd no f).images = s.images := rfl
@[simp] theorem State.modCmd_stacks (s : State) (no : Nat) (f : Cmd → Cmd) : (s.modCmd no f).stackSet = s.stackSet := rfl
@[simp] theorem State.modCmd_weave (s : State) (no : Nat) (f : Cmd → Cmd) : (s.modCmd no f).weave = s.weave := rfl
@[simp] theorem State.modCmd_withy (s : State) (no : Nat) (f : Cmd → Cmd) : (s.modCmd no f).withy = s.withy := rfl
@[simp] theorem State.modCmd_radio (s : State) (no : Nat) (f : Cmd → Cmd) : (s.modCmd no f).radio = s.radio := rfl
@[simp] theorem State.modCmd_time (s : State) (no : Nat) (f : Cmd → Cmd) : (s.modCmd no f).time = s.time := rfl
@[simp] theorem State.modCmd_boot (s : State) (no : Nat) (f : Cmd → Cmd) : (s.modCmd no f).boot = s.boot := rfl
@[simp] theorem State.modCmd_power (s : State) (no : Nat) (f : Cmd → Cmd) : (s.modCmd no f).power = s.power := rfl
@[simp] theorem State.modCmd_waling (s : State) (no : Nat) (f : Cmd → Cmd) : (s.modCmd no f).waling = s.waling := rfl
@[simp] theorem State.modCmd_fh (s : State) (no : Nat) (f : Cmd → Cmd) : (s.modCmd no f).fh = s.fh := rfl
@[simp] theorem State.modCmd_mgmtQ (s : State) (no : Nat) (f : Cmd → Cmd) : (s.modCmd no f).mgmtQ = s.mgmtQ := rfl
@[simp] theorem State.modCmd_devQ (s : State) (no : Nat) (f : Cmd → Cmd) : (s.modCmd no f).devQ = s.devQ := rfl
@[simp] theorem State.modCmd_log (s : State) (no : Nat) (f : Cmd → Cmd) : (s.modCmd no f).log = s.log := rfl
@[simp] theorem State.modCmd_clocksStopped (s : State) (no : Nat) (f : Cmd → Cmd) : (s.modCmd no f).clocksStopped = s.clocksStopped := rfl
@[simp] theorem State.modCmd_free (s : State) (no : Nat) (f : Cmd → Cmd) : (s.modCmd no f).free = s.free := rfl
@[simp] theorem State.modCmd_pending (s : State) (no : Nat) (f : Cmd → Cmd) : (s.modCmd no f).pending = s.pending := rfl

@[simp] theorem State.setDomain_gtc (s : State) (d : Nat) (on : Bool) : (s.setDomain d on).gtc = s.gtc := rfl
@[simp] theorem State.setDomain_cores (s : State) (d : Nat) (on : Bool) : (s.setDomain d on).cores = s.cores := rfl
@[simp] theorem State.setDomain_insts (s : State) (d : Nat) (on : Bool) : (s.setDomain d on).insts = s.insts := rfl
@[simp] theorem State.setDomain_rings (s : State) (d : Nat) (on : Bool) : (s.setDomain d on).rings = s.rings := rfl
@[simp] theorem State.setDomain_cmds (s : State) (d : Nat) (on : Bool) : (s.setDomain d on).cmds = s.cmds := rfl
@[simp] theorem State.setDomain_ccl (s : State) (d : Nat) (on : Bool) : (s.setDomain d on).ccl = s.ccl := rfl
@[simp] theorem State.setDomain_beat (s : State) (d : Nat) (on : Bool) : (s.setDomain d on).beat = s.beat := rfl
@[simp] theorem State.setDomain_images (s : State) (d : Nat) (on : Bool) : (s.setDomain d on).images = s.images := rfl
@[simp] theorem State.setDomain_stacks (s : State) (d : Nat) (on : Bool) : (s.setDomain d on).stackSet = s.stackSet := rfl
@[simp] theorem State.setDomain_weave (s : State) (d : Nat) (on : Bool) : (s.setDomain d on).weave = s.weave := rfl
@[simp] theorem State.setDomain_withy (s : State) (d : Nat) (on : Bool) : (s.setDomain d on).withy = s.withy := rfl
@[simp] theorem State.setDomain_radio (s : State) (d : Nat) (on : Bool) : (s.setDomain d on).radio = s.radio := rfl
@[simp] theorem State.setDomain_time (s : State) (d : Nat) (on : Bool) : (s.setDomain d on).time = s.time := rfl
@[simp] theorem State.setDomain_boot (s : State) (d : Nat) (on : Bool) : (s.setDomain d on).boot = s.boot := rfl
@[simp] theorem State.setDomain_power (s : State) (d : Nat) (on : Bool) : (s.setDomain d on).power = s.power := rfl
@[simp] theorem State.setDomain_waling (s : State) (d : Nat) (on : Bool) : (s.setDomain d on).waling = s.waling := rfl
@[simp] theorem State.setDomain_fh (s : State) (d : Nat) (on : Bool) : (s.setDomain d on).fh = s.fh := rfl
@[simp] theorem State.setDomain_mgmtQ (s : State) (d : Nat) (on : Bool) : (s.setDomain d on).mgmtQ = s.mgmtQ := rfl
@[simp] theorem State.setDomain_devQ (s : State) (d : Nat) (on : Bool) : (s.setDomain d on).devQ = s.devQ := rfl
@[simp] theorem State.setDomain_log (s : State) (d : Nat) (on : Bool) : (s.setDomain d on).log = s.log := rfl
@[simp] theorem State.setDomain_clocksStopped (s : State) (d : Nat) (on : Bool) : (s.setDomain d on).clocksStopped = s.clocksStopped := rfl
@[simp] theorem State.setDomain_free (s : State) (d : Nat) (on : Bool) : (s.setDomain d on).free = s.free := rfl
@[simp] theorem State.setDomain_pending (s : State) (d : Nat) (on : Bool) : (s.setDomain d on).pending = s.pending := rfl

@[simp] theorem State.health_regs (s : State) (a b c d : Nat) : (s.health a b c d).regs = s.regs := rfl
@[simp] theorem State.health_gtc (s : State) (a b c d : Nat) : (s.health a b c d).gtc = s.gtc := rfl
@[simp] theorem State.health_cores (s : State) (a b c d : Nat) : (s.health a b c d).cores = s.cores := rfl
@[simp] theorem State.health_insts (s : State) (a b c d : Nat) : (s.health a b c d).insts = s.insts := rfl
@[simp] theorem State.health_rings (s : State) (a b c d : Nat) : (s.health a b c d).rings = s.rings := rfl
@[simp] theorem State.health_cmds (s : State) (a b c d : Nat) : (s.health a b c d).cmds = s.cmds := rfl
@[simp] theorem State.health_ccl (s : State) (a b c d : Nat) : (s.health a b c d).ccl = s.ccl := rfl
@[simp] theorem State.health_beat (s : State) (a b c d : Nat) : (s.health a b c d).beat = s.beat := rfl
@[simp] theorem State.health_images (s : State) (a b c d : Nat) : (s.health a b c d).images = s.images := rfl
@[simp] theorem State.health_stacks (s : State) (a b c d : Nat) : (s.health a b c d).stackSet = s.stackSet := rfl
@[simp] theorem State.health_weave (s : State) (a b c d : Nat) : (s.health a b c d).weave = s.weave := rfl
@[simp] theorem State.health_withy (s : State) (a b c d : Nat) : (s.health a b c d).withy = s.withy := rfl
@[simp] theorem State.health_radio (s : State) (a b c d : Nat) : (s.health a b c d).radio = s.radio := rfl
@[simp] theorem State.health_time (s : State) (a b c d : Nat) : (s.health a b c d).time = s.time := rfl
@[simp] theorem State.health_boot (s : State) (a b c d : Nat) : (s.health a b c d).boot = s.boot := rfl
@[simp] theorem State.health_power (s : State) (a b c d : Nat) : (s.health a b c d).power = s.power := rfl
@[simp] theorem State.health_fh (s : State) (a b c d : Nat) : (s.health a b c d).fh = s.fh := rfl
@[simp] theorem State.health_mgmtQ (s : State) (a b c d : Nat) : (s.health a b c d).mgmtQ = s.mgmtQ := rfl
@[simp] theorem State.health_devQ (s : State) (a b c d : Nat) : (s.health a b c d).devQ = s.devQ := rfl
@[simp] theorem State.health_log (s : State) (a b c d : Nat) : (s.health a b c d).log = s.log := rfl
@[simp] theorem State.health_clocksStopped (s : State) (a b c d : Nat) : (s.health a b c d).clocksStopped = s.clocksStopped := rfl
@[simp] theorem State.health_free (s : State) (a b c d : Nat) : (s.health a b c d).free = s.free := rfl
@[simp] theorem State.health_pending (s : State) (a b c d : Nat) : (s.health a b c d).pending = s.pending := rfl

@[simp] theorem State.dropClaims_regs (s : State) (n : Nat) : (s.dropClaims n).regs = s.regs := rfl
@[simp] theorem State.dropClaims_gtc (s : State) (n : Nat) : (s.dropClaims n).gtc = s.gtc := rfl
@[simp] theorem State.dropClaims_cores (s : State) (n : Nat) : (s.dropClaims n).cores = s.cores := rfl
@[simp] theorem State.dropClaims_insts (s : State) (n : Nat) : (s.dropClaims n).insts = s.insts := rfl
@[simp] theorem State.dropClaims_rings (s : State) (n : Nat) : (s.dropClaims n).rings = s.rings := rfl
@[simp] theorem State.dropClaims_cmds (s : State) (n : Nat) : (s.dropClaims n).cmds = s.cmds := rfl
@[simp] theorem State.dropClaims_ccl (s : State) (n : Nat) : (s.dropClaims n).ccl = s.ccl := rfl
@[simp] theorem State.dropClaims_beat (s : State) (n : Nat) : (s.dropClaims n).beat = s.beat := rfl
@[simp] theorem State.dropClaims_images (s : State) (n : Nat) : (s.dropClaims n).images = s.images := rfl
@[simp] theorem State.dropClaims_stacks (s : State) (n : Nat) : (s.dropClaims n).stackSet = s.stackSet := rfl
@[simp] theorem State.dropClaims_weave (s : State) (n : Nat) : (s.dropClaims n).weave = s.weave := rfl
@[simp] theorem State.dropClaims_withy (s : State) (n : Nat) : (s.dropClaims n).withy = s.withy := rfl
@[simp] theorem State.dropClaims_radio (s : State) (n : Nat) : (s.dropClaims n).radio = s.radio := rfl
@[simp] theorem State.dropClaims_time (s : State) (n : Nat) : (s.dropClaims n).time = s.time := rfl
@[simp] theorem State.dropClaims_boot (s : State) (n : Nat) : (s.dropClaims n).boot = s.boot := rfl
@[simp] theorem State.dropClaims_power (s : State) (n : Nat) : (s.dropClaims n).power = s.power := rfl
@[simp] theorem State.dropClaims_fh (s : State) (n : Nat) : (s.dropClaims n).fh = s.fh := rfl
@[simp] theorem State.dropClaims_mgmtQ (s : State) (n : Nat) : (s.dropClaims n).mgmtQ = s.mgmtQ := rfl
@[simp] theorem State.dropClaims_devQ (s : State) (n : Nat) : (s.dropClaims n).devQ = s.devQ := rfl
@[simp] theorem State.dropClaims_log (s : State) (n : Nat) : (s.dropClaims n).log = s.log := rfl
@[simp] theorem State.dropClaims_clocksStopped (s : State) (n : Nat) : (s.dropClaims n).clocksStopped = s.clocksStopped := rfl
@[simp] theorem State.dropClaims_free (s : State) (n : Nat) : (s.dropClaims n).free = s.free := rfl
@[simp] theorem State.dropClaims_pending (s : State) (n : Nat) : (s.dropClaims n).pending = s.pending := rfl

@[simp] theorem State.charge_regs (s : State) (n : Nat) (f : Acct → Acct) : (s.charge n f).regs = s.regs := rfl
@[simp] theorem State.charge_gtc (s : State) (n : Nat) (f : Acct → Acct) : (s.charge n f).gtc = s.gtc := rfl
@[simp] theorem State.charge_cores (s : State) (n : Nat) (f : Acct → Acct) : (s.charge n f).cores = s.cores := rfl
@[simp] theorem State.charge_rings (s : State) (n : Nat) (f : Acct → Acct) : (s.charge n f).rings = s.rings := rfl
@[simp] theorem State.charge_cmds (s : State) (n : Nat) (f : Acct → Acct) : (s.charge n f).cmds = s.cmds := rfl
@[simp] theorem State.charge_ccl (s : State) (n : Nat) (f : Acct → Acct) : (s.charge n f).ccl = s.ccl := rfl
@[simp] theorem State.charge_beat (s : State) (n : Nat) (f : Acct → Acct) : (s.charge n f).beat = s.beat := rfl
@[simp] theorem State.charge_images (s : State) (n : Nat) (f : Acct → Acct) : (s.charge n f).images = s.images := rfl
@[simp] theorem State.charge_stacks (s : State) (n : Nat) (f : Acct → Acct) : (s.charge n f).stackSet = s.stackSet := rfl
@[simp] theorem State.charge_weave (s : State) (n : Nat) (f : Acct → Acct) : (s.charge n f).weave = s.weave := rfl
@[simp] theorem State.charge_withy (s : State) (n : Nat) (f : Acct → Acct) : (s.charge n f).withy = s.withy := rfl
@[simp] theorem State.charge_radio (s : State) (n : Nat) (f : Acct → Acct) : (s.charge n f).radio = s.radio := rfl
@[simp] theorem State.charge_time (s : State) (n : Nat) (f : Acct → Acct) : (s.charge n f).time = s.time := rfl
@[simp] theorem State.charge_boot (s : State) (n : Nat) (f : Acct → Acct) : (s.charge n f).boot = s.boot := rfl
@[simp] theorem State.charge_power (s : State) (n : Nat) (f : Acct → Acct) : (s.charge n f).power = s.power := rfl
@[simp] theorem State.charge_waling (s : State) (n : Nat) (f : Acct → Acct) : (s.charge n f).waling = s.waling := rfl
@[simp] theorem State.charge_fh (s : State) (n : Nat) (f : Acct → Acct) : (s.charge n f).fh = s.fh := rfl
@[simp] theorem State.charge_mgmtQ (s : State) (n : Nat) (f : Acct → Acct) : (s.charge n f).mgmtQ = s.mgmtQ := rfl
@[simp] theorem State.charge_devQ (s : State) (n : Nat) (f : Acct → Acct) : (s.charge n f).devQ = s.devQ := rfl
@[simp] theorem State.charge_log (s : State) (n : Nat) (f : Acct → Acct) : (s.charge n f).log = s.log := rfl
@[simp] theorem State.charge_clocksStopped (s : State) (n : Nat) (f : Acct → Acct) : (s.charge n f).clocksStopped = s.clocksStopped := rfl
@[simp] theorem State.charge_free (s : State) (n : Nat) (f : Acct → Acct) : (s.charge n f).free = s.free := rfl
@[simp] theorem State.charge_pending (s : State) (n : Nat) (f : Acct → Acct) : (s.charge n f).pending = s.pending := rfl

@[simp] theorem State.modThread_regs (s : State) (p t : Nat) (f : Thread → Thread) : (s.modThread p t f).regs = s.regs := rfl
@[simp] theorem State.modThread_gtc (s : State) (p t : Nat) (f : Thread → Thread) : (s.modThread p t f).gtc = s.gtc := rfl
@[simp] theorem State.modThread_insts (s : State) (p t : Nat) (f : Thread → Thread) : (s.modThread p t f).insts = s.insts := rfl
@[simp] theorem State.modThread_rings (s : State) (p t : Nat) (f : Thread → Thread) : (s.modThread p t f).rings = s.rings := rfl
@[simp] theorem State.modThread_cmds (s : State) (p t : Nat) (f : Thread → Thread) : (s.modThread p t f).cmds = s.cmds := rfl
@[simp] theorem State.modThread_ccl (s : State) (p t : Nat) (f : Thread → Thread) : (s.modThread p t f).ccl = s.ccl := rfl
@[simp] theorem State.modThread_beat (s : State) (p t : Nat) (f : Thread → Thread) : (s.modThread p t f).beat = s.beat := rfl
@[simp] theorem State.modThread_images (s : State) (p t : Nat) (f : Thread → Thread) : (s.modThread p t f).images = s.images := rfl
@[simp] theorem State.modThread_stacks (s : State) (p t : Nat) (f : Thread → Thread) : (s.modThread p t f).stackSet = s.stackSet := rfl
@[simp] theorem State.modThread_weave (s : State) (p t : Nat) (f : Thread → Thread) : (s.modThread p t f).weave = s.weave := rfl
@[simp] theorem State.modThread_withy (s : State) (p t : Nat) (f : Thread → Thread) : (s.modThread p t f).withy = s.withy := rfl
@[simp] theorem State.modThread_radio (s : State) (p t : Nat) (f : Thread → Thread) : (s.modThread p t f).radio = s.radio := rfl
@[simp] theorem State.modThread_time (s : State) (p t : Nat) (f : Thread → Thread) : (s.modThread p t f).time = s.time := rfl
@[simp] theorem State.modThread_boot (s : State) (p t : Nat) (f : Thread → Thread) : (s.modThread p t f).boot = s.boot := rfl
@[simp] theorem State.modThread_power (s : State) (p t : Nat) (f : Thread → Thread) : (s.modThread p t f).power = s.power := rfl
@[simp] theorem State.modThread_waling (s : State) (p t : Nat) (f : Thread → Thread) : (s.modThread p t f).waling = s.waling := rfl
@[simp] theorem State.modThread_fh (s : State) (p t : Nat) (f : Thread → Thread) : (s.modThread p t f).fh = s.fh := rfl
@[simp] theorem State.modThread_mgmtQ (s : State) (p t : Nat) (f : Thread → Thread) : (s.modThread p t f).mgmtQ = s.mgmtQ := rfl
@[simp] theorem State.modThread_devQ (s : State) (p t : Nat) (f : Thread → Thread) : (s.modThread p t f).devQ = s.devQ := rfl
@[simp] theorem State.modThread_log (s : State) (p t : Nat) (f : Thread → Thread) : (s.modThread p t f).log = s.log := rfl
@[simp] theorem State.modThread_clocksStopped (s : State) (p t : Nat) (f : Thread → Thread) : (s.modThread p t f).clocksStopped = s.clocksStopped := rfl
@[simp] theorem State.modThread_free (s : State) (p t : Nat) (f : Thread → Thread) : (s.modThread p t f).free = s.free := rfl
@[simp] theorem State.modThread_pending (s : State) (p t : Nat) (f : Thread → Thread) : (s.modThread p t f).pending = s.pending := rfl

@[simp] theorem State.modPlait_regs (s : State) (p n : Nat) (f : Plait → Plait) : (s.modPlait p n f).regs = s.regs := rfl
@[simp] theorem State.modPlait_gtc (s : State) (p n : Nat) (f : Plait → Plait) : (s.modPlait p n f).gtc = s.gtc := rfl
@[simp] theorem State.modPlait_insts (s : State) (p n : Nat) (f : Plait → Plait) : (s.modPlait p n f).insts = s.insts := rfl
@[simp] theorem State.modPlait_rings (s : State) (p n : Nat) (f : Plait → Plait) : (s.modPlait p n f).rings = s.rings := rfl
@[simp] theorem State.modPlait_cmds (s : State) (p n : Nat) (f : Plait → Plait) : (s.modPlait p n f).cmds = s.cmds := rfl
@[simp] theorem State.modPlait_ccl (s : State) (p n : Nat) (f : Plait → Plait) : (s.modPlait p n f).ccl = s.ccl := rfl
@[simp] theorem State.modPlait_beat (s : State) (p n : Nat) (f : Plait → Plait) : (s.modPlait p n f).beat = s.beat := rfl
@[simp] theorem State.modPlait_images (s : State) (p n : Nat) (f : Plait → Plait) : (s.modPlait p n f).images = s.images := rfl
@[simp] theorem State.modPlait_stacks (s : State) (p n : Nat) (f : Plait → Plait) : (s.modPlait p n f).stackSet = s.stackSet := rfl
@[simp] theorem State.modPlait_weave (s : State) (p n : Nat) (f : Plait → Plait) : (s.modPlait p n f).weave = s.weave := rfl
@[simp] theorem State.modPlait_withy (s : State) (p n : Nat) (f : Plait → Plait) : (s.modPlait p n f).withy = s.withy := rfl
@[simp] theorem State.modPlait_radio (s : State) (p n : Nat) (f : Plait → Plait) : (s.modPlait p n f).radio = s.radio := rfl
@[simp] theorem State.modPlait_time (s : State) (p n : Nat) (f : Plait → Plait) : (s.modPlait p n f).time = s.time := rfl
@[simp] theorem State.modPlait_boot (s : State) (p n : Nat) (f : Plait → Plait) : (s.modPlait p n f).boot = s.boot := rfl
@[simp] theorem State.modPlait_power (s : State) (p n : Nat) (f : Plait → Plait) : (s.modPlait p n f).power = s.power := rfl
@[simp] theorem State.modPlait_waling (s : State) (p n : Nat) (f : Plait → Plait) : (s.modPlait p n f).waling = s.waling := rfl
@[simp] theorem State.modPlait_fh (s : State) (p n : Nat) (f : Plait → Plait) : (s.modPlait p n f).fh = s.fh := rfl
@[simp] theorem State.modPlait_mgmtQ (s : State) (p n : Nat) (f : Plait → Plait) : (s.modPlait p n f).mgmtQ = s.mgmtQ := rfl
@[simp] theorem State.modPlait_devQ (s : State) (p n : Nat) (f : Plait → Plait) : (s.modPlait p n f).devQ = s.devQ := rfl
@[simp] theorem State.modPlait_log (s : State) (p n : Nat) (f : Plait → Plait) : (s.modPlait p n f).log = s.log := rfl
@[simp] theorem State.modPlait_clocksStopped (s : State) (p n : Nat) (f : Plait → Plait) : (s.modPlait p n f).clocksStopped = s.clocksStopped := rfl
@[simp] theorem State.modPlait_free (s : State) (p n : Nat) (f : Plait → Plait) : (s.modPlait p n f).free = s.free := rfl
@[simp] theorem State.modPlait_pending (s : State) (p n : Nat) (f : Plait → Plait) : (s.modPlait p n f).pending = s.pending := rfl

end Sys2Proof.Machine
end

