-- ==== Sys2Proof/Laws/Regs.lean ====
section
/-!
SUPPORT. Laws of the register file, its fields, event records and cores.
-/
namespace Sys2Proof.Machine

/-! ## Words -/

theorem regGet_regPut (m : List (Reg × BitVec 64)) (r q : Reg) (w : BitVec 64) :
    regGet (regPut m r w) q = if q = r then w else regGet m q := by
  induction m with
  | nil =>
    by_cases h : q = r
    · subst h; simp [regPut, regGet]
    · simp [regPut, regGet, h, Ne.symm h]
  | cons x m ih =>
    obtain ⟨a, v⟩ := x
    unfold regPut
    by_cases h1 : a = r
    · subst h1
      by_cases h : q = a
      · subst h; simp [regGet]
      · simp [regGet, h, Ne.symm h]
    · rw [if_neg h1]
      split
      · by_cases h : q = r
        · subst h; simp [regGet]
        · simp [regGet, h, Ne.symm h]
      · rw [regGet, ih]
        by_cases h : q = r
        · subst h; simp [h1]
        · simp only [h, if_false, regGet]

@[simp] theorem State.reg_setReg (s : State) (r q : Reg) (w : BitVec 64) :
    (s.setReg r w).reg q = if q = r then w else s.reg q := regGet_regPut s.regs r q w

theorem State.reg_setReg_self (s : State) (r : Reg) (w : BitVec 64) : (s.setReg r w).reg r = w := by simp

theorem State.reg_setReg_other (s : State) {r q : Reg} (w : BitVec 64) (h : q ≠ r) : (s.setReg r w).reg q = s.reg q := by
  simp [h]

@[simp] theorem State.getF_keep (s t : State) (r : Reg) (f : Fld) : (s.keep t).getF r f = t.getF r f := rfl

/-! ## Fields -/

theorem Fld.get_lt (f : Fld) (w : BitVec 64) : f.get w < 2 ^ (f.hi + 1 - f.lo) := Nat.mod_lt _ (Nat.two_pow_pos _)

/-- A field just set reads as the low bits of what was set. -/
theorem Fld.get_set (f : Fld) (w : BitVec 64) (x : Nat) (h1 : f.lo ≤ f.hi) (h2 : f.hi < 64) :
    f.get (f.set w x) = x % 2 ^ (f.hi + 1 - f.lo) := by
  unfold Fld.get Fld.set
  generalize hk : f.hi + 1 - f.lo = k
  have e1 : 2 ^ (f.hi + 1) = 2 ^ f.lo * 2 ^ k := by rw [← Nat.pow_add]; congr 1; omega
  have e2 : (2 : Nat) ^ 64 = 2 ^ f.lo * (2 ^ k * 2 ^ (63 - f.hi)) := by
    rw [← Nat.pow_add, ← Nat.pow_add]; congr 1; omega
  simp only [BitVec.toNat_ofNat]
  generalize w.toNat = n
  have p0 := Nat.two_pow_pos f.lo
  have r : n / 2 ^ (f.hi + 1) * 2 ^ (f.hi + 1) + x % 2 ^ k * 2 ^ f.lo + n % 2 ^ f.lo
      = n % 2 ^ f.lo + 2 ^ f.lo * (n / 2 ^ (f.hi + 1) * 2 ^ k + x % 2 ^ k) := by
    rw [e1, Nat.mul_add]; generalize n / (2 ^ f.lo * 2 ^ k) = q; ac_rfl
  rw [r, e2, Nat.mod_mul_right_div_self, Nat.add_mul_div_left _ _ p0, Nat.div_eq_of_lt (Nat.mod_lt _ p0), Nat.zero_add,
    Nat.mod_mul_right_mod, Nat.mul_comm, Nat.mul_add_mod, Nat.mod_mod]

/-- Setting a field leaves a field that lies apart from it. -/
theorem Fld.get_set_other (f g : Fld) (w : BitVec 64) (x : Nat) (h1 : g.lo ≤ g.hi) (h2 : g.hi < 64) (hl : f.lo ≤ f.hi)
    (h : g.hi < f.lo ∨ f.hi < g.lo) : g.get (f.set w x) = g.get w := by
  unfold Fld.get Fld.set
  simp only [BitVec.toNat_ofNat]
  have hw := w.isLt
  generalize hn : w.toNat = n at *
  apply Nat.eq_of_testBit_eq
  intro i
  simp only [Nat.testBit_mod_two_pow, Nat.testBit_div_two_pow]
  rcases Nat.lt_or_ge i (g.hi + 1 - g.lo) with hi | hi
  case inr => rw [decide_eq_false (by omega), Bool.false_and, Bool.false_and]
  have hk : 2 ^ (f.hi + 1) = 2 ^ f.lo * 2 ^ (f.hi + 1 - f.lo) := by rw [← Nat.pow_add]; congr 1; omega
  have e : n / 2 ^ (f.hi + 1) * 2 ^ (f.hi + 1) + x % 2 ^ (f.hi + 1 - f.lo) * 2 ^ f.lo + n % 2 ^ f.lo
      = 2 ^ f.lo * (2 ^ (f.hi + 1 - f.lo) * (n / 2 ^ (f.hi + 1)) + x % 2 ^ (f.hi + 1 - f.lo)) + n % 2 ^ f.lo := by
    rw [hk, Nat.mul_add]; generalize n / (2 ^ f.lo * 2 ^ (f.hi + 1 - f.lo)) = q; ac_rfl
  rw [e]
  simp only [hi, decide_true, Bool.true_and]
  rw [show decide (i + g.lo < 64) = true by simp; omega, Bool.true_and,
    Nat.testBit_two_pow_mul_add _ (Nat.mod_lt _ (Nat.two_pow_pos _)),
    Nat.testBit_two_pow_mul_add _ (Nat.mod_lt _ (Nat.two_pow_pos _))]
  rcases h with h | h
  · rw [if_pos (by omega), Nat.testBit_mod_two_pow]; simp; omega
  · rw [if_neg (by omega), if_neg (by omega), Nat.testBit_div_two_pow]
    congr 1
    omega

@[simp] theorem State.getF_setReg (s : State) (r q : Reg) (w : BitVec 64) (g : Fld) :
    (s.setReg r w).getF q g = if q = r then g.get w else s.getF q g := by
  unfold State.getF
  rw [State.reg_setReg]
  split <;> rfl

theorem State.reg_setF_other (s : State) {r q : Reg} (f : Fld) (x : Nat) (h : q ≠ r) : (s.setF r f x).reg q = s.reg q :=
  State.reg_setReg_other s _ h

theorem State.reg_setF_self (s : State) (r : Reg) (f : Fld) (x : Nat) : (s.setF r f x).reg r = f.set (s.reg r) x :=
  State.reg_setReg_self s r _

theorem State.getF_setF_other_reg (s : State) {r q : Reg} (f g : Fld) (x : Nat) (h : q ≠ r) :
    (s.setF r f x).getF q g = s.getF q g := by
  unfold State.getF; rw [State.reg_setF_other s f x h]

theorem State.getF_setF_self (s : State) (r : Reg) (f : Fld) (x : Nat) (h1 : f.lo ≤ f.hi) (h2 : f.hi < 64) :
    (s.setF r f x).getF r f = x % 2 ^ (f.hi + 1 - f.lo) := by
  unfold State.getF; rw [State.reg_setF_self, Fld.get_set f _ x h1 h2]

theorem State.getF_setF_other (s : State) (r : Reg) (f g : Fld) (x : Nat) (h1 : g.lo ≤ g.hi) (h2 : g.hi < 64)
    (hl : f.lo ≤ f.hi) (h : g.hi < f.lo ∨ f.hi < g.lo) : (s.setF r f x).getF r g = s.getF r g := by
  unfold State.getF; rw [State.reg_setF_self, Fld.get_set_other f g _ x h1 h2 hl h]

/-- Registers are read from the register file alone. -/
theorem State.reg_congr {s t : State} (h : t.regs = s.regs) (r : Reg) : t.reg r = s.reg r := by
  unfold State.reg; rw [h]

/-! ## Event records (R493) -/

/-- All that queueing a record can do. -/
theorem State.emitRec_cases (s : State) (e : EvRec) :
    s.emitRec e = { s with log := { s.log with queued := s.log.queued ++ [e] } } ∨
    s.emitRec e = { s.satF .gctlElogLost GCTL_ELOG_LOST.COUNT 1 with
      log := { s.log with dropped := SMap.modify 0 s.log.dropped e.source (· + 1) } } := by
  unfold State.emitRec; split
  · exact Or.inl rfl
  · exact Or.inr rfl

/-- A record is written with no effect outside the log and the count of lost records. -/
theorem State.event_frame (s : State) (src sev cls l n d : Nat) :
    s.event src sev cls l n d = { s with regs := (s.event src sev cls l n d).regs, log := (s.event src sev cls l n d).log } ∧
    ∀ r, r ≠ .gctlElogLost → (s.event src sev cls l n d).reg r = s.reg r := by
  unfold State.event
  rcases State.emitRec_cases s ⟨s.gtc, src, sev, cls, evPayload (s.getF .timeBeat TIME_BEAT.NUM) l n d⟩ with h | h <;> rw [h]
  · exact ⟨rfl, fun _ _ => rfl⟩
  · exact ⟨rfl, fun r hr => State.reg_setF_other s _ _ hr⟩

theorem State.reg_event (s : State) (src sev cls l n d : Nat) {r : Reg} (h : r ≠ .gctlElogLost) :
    (s.event src sev cls l n d).reg r = s.reg r := (State.event_frame s src sev cls l n d).2 r h

theorem State.getF_event (s : State) (src sev cls l n d : Nat) {r : Reg} (f : Fld) (h : r ≠ .gctlElogLost) :
    (s.event src sev cls l n d).getF r f = s.getF r f := by
  unfold State.getF; rw [State.reg_event s src sev cls l n d h]

theorem State.getF_note (s : State) (src sev cls d : Nat) {r : Reg} (f : Fld) (h : r ≠ .gctlElogLost) :
    (s.note src sev cls d).getF r f = s.getF r f := State.getF_event s src sev cls 0xFF 0x7F d f h

theorem State.reg_note (s : State) (src sev cls d : Nat) {r : Reg} (h : r ≠ .gctlElogLost) :
    (s.note src sev cls d).reg r = s.reg r := State.reg_event s src sev cls 0xFF 0x7F d h

/-- A record is written with no effect outside the log and the count of lost records. -/
theorem State.note_rest (s : State) (src sev cls d : Nat) :
    s.note src sev cls d = { s with regs := (s.note src sev cls d).regs, log := (s.note src sev cls d).log } :=
  (State.event_frame s src sev cls 0xFF 0x7F d).1

/-- The record just written stands last among the undelivered ones of its source, unless the source holds 16. -/
theorem State.event_queued (s : State) (src sev cls l n d : Nat)
    (h : (s.log.queued.filter fun q => q.source == src).length < 16) :
    (s.event src sev cls l n d).log.queued =
      s.log.queued ++ [⟨s.gtc, src, sev, cls, evPayload (s.getF .timeBeat TIME_BEAT.NUM) l n d⟩] := by
  unfold State.event State.emitRec
  rw [if_pos h]

/-! ## Cores -/

@[simp] theorem State.core_setCore (s : State) (p q : Nat) (c : Core) :
    (s.setCore p c).core q = if q = p then c else s.core q := SMap.get_put _ _ _ _ _

@[simp] theorem State.core_modCore (s : State) (p q : Nat) (f : Core → Core) :
    (s.modCore p f).core q = if q = p then f (s.core p) else s.core q := State.core_setCore s p q _

theorem State.core_congr {s t : State} (h : t.cores = s.cores) (p : Nat) : t.core p = s.core p := by
  unfold State.core; rw [h]

@[simp] theorem State.core_keep (s t : State) (p : Nat) : (s.keep t).core p = t.core p := rfl
@[simp] theorem State.reg_keep (s t : State) (r : Reg) : (s.keep t).reg r = t.reg r := rfl
@[simp] theorem State.core_setReg (s : State) (r : Reg) (w : BitVec 64) (p : Nat) : (s.setReg r w).core p = s.core p := rfl
@[simp] theorem State.core_setF (s : State) (r : Reg) (f : Fld) (x p : Nat) : (s.setF r f x).core p = s.core p := rfl
@[simp] theorem State.core_satF (s : State) (r : Reg) (f : Fld) (x p : Nat) : (s.satF r f x).core p = s.core p := rfl
@[simp] theorem State.core_orF (s : State) (r : Reg) (f : Fld) (x p : Nat) : (s.orF r f x).core p = s.core p := rfl
@[simp] theorem State.core_health (s : State) (a b c d p : Nat) : (s.health a b c d).core p = s.core p := rfl
@[simp] theorem State.reg_setCore (s : State) (p : Nat) (c : Core) (r : Reg) : (s.setCore p c).reg r = s.reg r := rfl
@[simp] theorem State.reg_modCore (s : State) (p : Nat) (f : Core → Core) (r : Reg) : (s.modCore p f).reg r = s.reg r := rfl
@[simp] theorem State.reg_modThread (s : State) (p t : Nat) (f : Thread → Thread) (r : Reg) : (s.modThread p t f).reg r = s.reg r := rfl
@[simp] theorem State.reg_modPlait (s : State) (p t : Nat) (f : Plait → Plait) (r : Reg) : (s.modPlait p t f).reg r = s.reg r := rfl

theorem State.core_event (s : State) (src sev cls l n d p : Nat) : (s.event src sev cls l n d).core p = s.core p := by
  rw [(State.event_frame s src sev cls l n d).1]; rfl

/-! ## Threads and plaits -/

@[simp] theorem Core.thread_setThread (c : Core) (t u : Nat) (x : Thread) :
    (c.setThread t x).thread u = if u = t then x else c.thread u := SMap.get_put _ _ _ _ _

@[simp] theorem Core.plait_setPlait (c : Core) (t u : Nat) (x : Plait) :
    (c.setPlait t x).plait u = if u = t then x else c.plait u := SMap.get_put _ _ _ _ _

@[simp] theorem Core.plait_setThread (c : Core) (t u : Nat) (x : Thread) : (c.setThread t x).plait u = c.plait u := rfl
@[simp] theorem Core.thread_setPlait (c : Core) (t u : Nat) (x : Plait) : (c.setPlait t x).thread u = c.thread u := rfl

@[simp] theorem Thread.reg_zero (t : Thread) : t.reg 0 = 0 := rfl

/-- A thread's registers after a write: s0 keeps reading 0 (R133). -/
@[simp] theorem Thread.reg_setReg (t : Thread) (n m : Nat) (v : Word) :
    (t.setReg n v).reg m = if m = n ∧ n ≠ 0 then v else t.reg m := by
  unfold Thread.setReg
  by_cases h : n = 0
  · simp [h]
  · rw [if_neg h]
    unfold Thread.reg
    by_cases hm : m = 0
    · subst hm; simp [Ne.symm h]
    · simp only [if_neg hm, SMap.get_put]
      simp [h]

@[simp] theorem Thread.setReg_pc (t : Thread) (n : Nat) (v : Word) : (t.setReg n v).pc = t.pc := by
  unfold Thread.setReg; split <;> rfl

/-! ## Vector banks -/

@[simp] theorem VBank.reg_setReg (b : VBank) (n m : Nat) (x : BitVec 2048) :
    (b.setReg n x).reg m = if m = n then x else b.reg m := by
  unfold VBank.reg VBank.setReg; rw [SMap.get_put]

@[simp] theorem VBank.vacc_setVacc (b : VBank) (n m : Nat) (x : BitVec 5120) :
    (b.setVacc n x).vacc m = if m = n then x else b.vacc m := by
  unfold VBank.vacc VBank.setVacc; rw [SMap.get_put]

/-- k0 reads as all ones and ignores writes (R117). -/
@[simp] theorem VBank.mask_setMask (b : VBank) (n m : Nat) (x : BitVec 64) :
    (b.setMask n x).mask m = if m = n ∧ n ≠ 0 then x else b.mask m := by
  unfold VBank.setMask
  by_cases h : n = 0
  · simp [h]
  · rw [if_neg h]
    unfold VBank.mask
    by_cases hm : m = 0
    · subst hm; simp [Ne.symm h]
    · simp only [if_neg hm, SMap.get_put]
      simp [h]

@[simp] theorem VBank.mask_setReg (b : VBank) (n m : Nat) (x : BitVec 2048) : (b.setReg n x).mask m = b.mask m := rfl
@[simp] theorem VBank.vacc_setReg (b : VBank) (n m : Nat) (x : BitVec 2048) : (b.setReg n x).vacc m = b.vacc m := rfl
@[simp] theorem VBank.reg_setVacc (b : VBank) (n m : Nat) (x : BitVec 5120) : (b.setVacc n x).reg m = b.reg m := rfl
@[simp] theorem VBank.mask_setVacc (b : VBank) (n m : Nat) (x : BitVec 5120) : (b.setVacc n x).mask m = b.mask m := rfl
@[simp] theorem VBank.reg_setMask (b : VBank) (n m : Nat) (x : BitVec 64) : (b.setMask n x).reg m = b.reg m := by
  unfold VBank.setMask; split <;> rfl
@[simp] theorem VBank.vacc_setMask (b : VBank) (n m : Nat) (x : BitVec 64) : (b.setMask n x).vacc m = b.vacc m := by
  unfold VBank.setMask; split <;> rfl

end Sys2Proof.Machine
end

