-- ==== Sys2Proof/Laws/Fetch.lean ====
section
/-!
SUPPORT. What the correction of fetched words leaves (R186), and what an instruction that issues answers.
-/
namespace Sys2Proof.Machine

/-- One corrected word. -/
theorem correct_step (s : State) (p w : Nat) :
    let s1 := s.modCore p fun c => { c with spCheck := SMap.erase c.spCheck w }
    let s2 := (s1.satF (.coreSpEcc p) CORE_SP_ECC.CORR 1).health 1 0 0 0
    let s3 := ((s2.setF (.coreSpEaddr p) CORE_SP_EADDR.VALID 1).setF (.coreSpEaddr p) CORE_SP_EADDR.UNC 0).setF
      (.coreSpEaddr p) CORE_SP_EADDR.ADDR (8 * w)
    let t := s3.event (srcCore p) 1 0x02 (s3.lcoreNo p) 0x7F (w % 2 ^ 21 * 2)
    t = { s with regs := t.regs, cores := t.cores, log := t.log, waling := t.waling } ∧
    (∀ q, q ≠ p → t.core q = s.core q) ∧ t.core p = { s.core p with spCheck := (t.core p).spCheck } ∧
    (∀ r, r ∉ eccRegs p → t.reg r = s.reg r) := by
  intro s1 s2 s3 t
  have e := State.event_frame s3 (srcCore p) 1 0x02 (s3.lcoreNo p) 0x7F (w % 2 ^ 21 * 2)
  have e1 : t = { s3 with regs := t.regs, log := t.log } := e.1
  have c : ∀ q, t.core q = s1.core q := fun q => by rw [e1]; rfl
  refine ⟨?_, ?_, ?_, ?_⟩
  · rw [e1]; rfl
  · intro q hq; rw [c, State.core_modCore, if_neg hq]
  · rw [c, State.core_modCore, if_pos rfl]
  · intro r hr
    simp only [eccRegs, List.mem_cons, List.not_mem_nil, or_false, not_or] at hr
    rw [e.2 r hr.2.2]
    rw [State.reg_setF_other _ _ _ hr.2.1, State.reg_setF_other _ _ _ hr.2.1, State.reg_setF_other _ _ _ hr.2.1]
    exact State.reg_setF_other _ _ _ hr.1

/-- Correcting words changes check marks of the core, the ECC registers, the log and the health inputs alone. -/
theorem State.spCorrect_frame (s : State) (p a n : Nat) :
    (s.spCorrect p a n) = { s with regs := (s.spCorrect p a n).regs, cores := (s.spCorrect p a n).cores, log := (s.spCorrect p a n).log,
                                   waling := (s.spCorrect p a n).waling } ∧
    (∀ q, q ≠ p → (s.spCorrect p a n).core q = s.core q) ∧
    (s.spCorrect p a n).core p = { s.core p with spCheck := ((s.spCorrect p a n).core p).spCheck } ∧
    (∀ r, r ∉ eccRegs p → (s.spCorrect p a n).reg r = s.reg r) := by
  unfold State.spCorrect
  generalize Core.spSingles (s.core p) a n = ws
  induction ws generalizing s with
  | nil => exact ⟨rfl, fun _ _ => rfl, rfl, fun _ _ => rfl⟩
  | cons w ws ih =>
    rw [List.foldl_cons]
    have h := correct_step s p w
    dsimp only at h
    generalize State.event _ (srcCore p) 1 0x02 _ 0x7F _ = t at h
    have g := ih t
    generalize List.foldl _ t ws = u at g
    obtain ⟨h1, h2, h3, h4⟩ := h
    obtain ⟨g1, g2, g3, g4⟩ := g
    refine ⟨?_, ?_, ?_, ?_⟩
    · rw [g1, h1]
    · intro q hq; rw [g2 q hq, h2 q hq]
    · rw [g3, h3]
    · intro r hr; rw [g4 r hr, h4 r hr]

/-- With no single-bit error under the bytes nothing changes. -/
theorem State.spCorrect_clean (s : State) (p a n : Nat) (h : Core.spSingles (s.core p) a n = []) : s.spCorrect p a n = s := by
  unfold State.spCorrect; rw [h]; rfl

@[simp] theorem State.spCorrect_thread (s : State) (p a n q t : Nat) :
    ((s.spCorrect p a n).core q).thread t = (s.core q).thread t := by
  obtain ⟨_, h2, h3, _⟩ := State.spCorrect_frame s p a n
  by_cases h : q = p
  · subst h; rw [h3]; rfl
  · rw [h2 q h]

@[simp] theorem State.spCorrect_plait (s : State) (p a n q t : Nat) :
    ((s.spCorrect p a n).core q).plait t = (s.core q).plait t := by
  obtain ⟨_, h2, h3, _⟩ := State.spCorrect_frame s p a n
  by_cases h : q = p
  · subst h; rw [h3]; rfl
  · rw [h2 q h]

/-- The value of a scalar operand is that of the state before the fetch. -/
@[simp] theorem State.spCorrect_sval (s : State) (p a n : Nat) (x : Iss) (m : Nat) :
    (s.spCorrect p a n).sval x m = s.sval x m := by
  unfold State.sval; simp

@[simp] theorem State.spCorrect_resident (s : State) (p a n q c : Nat) :
    ((s.spCorrect p a n).core q).resident c = (s.core q).resident c := by
  obtain ⟨_, h2, h3, _⟩ := State.spCorrect_frame s p a n
  by_cases h : q = p
  · subst h; rw [h3]; rfl
  · rw [h2 q h]

@[simp] theorem State.spCorrect_gtc (s : State) (p a n : Nat) : (s.spCorrect p a n).gtc = s.gtc := by
  rw [(State.spCorrect_frame s p a n).1]

theorem State.spCorrect_getF (s : State) (p a n : Nat) (r : Reg) (f : Fld) (h : r ∉ eccRegs p) :
    (s.spCorrect p a n).getF r f = s.getF r f := by
  unfold State.getF; rw [(State.spCorrect_frame s p a n).2.2.2 r h]

@[simp] theorem State.spCorrect_slotOf (s : State) (p a n l : Nat) : (s.spCorrect p a n).slotOf l = s.slotOf l := by
  unfold State.slotOf
  rw [State.spCorrect_getF _ _ _ _ _ _ (by simp [eccRegs]), State.spCorrect_getF _ _ _ _ _ _ (by simp [eccRegs])]

@[simp] theorem State.spCorrect_lcoreNo (s : State) (p a n q : Nat) : (s.spCorrect p a n).lcoreNo q = s.lcoreNo q := by
  unfold State.lcoreNo State.lcoreOf
  simp

@[simp] theorem State.spCorrect_amode (s : State) (p a n q k : Nat) : (s.spCorrect p a n).amode q k = s.amode q k := by
  unfold State.amode
  rw [State.spCorrect_getF _ _ _ _ _ _ (by simp [eccRegs]), State.spCorrect_getF _ _ _ _ _ _ (by simp [eccRegs]),
    State.spCorrect_getF _ _ _ _ _ _ (by simp [eccRegs])]

theorem State.spCorrect_side (s : State) (p a n q k : Nat) : ((s.spCorrect p a n).core q).side k = (s.core q).side k := by
  obtain ⟨_, h2, h3, _⟩ := State.spCorrect_frame s p a n
  by_cases h : q = p
  · subst h; rw [h3]; rfl
  · rw [h2 q h]

@[simp] theorem State.spCorrect_bank (s : State) (p a n : Nat) (x : Iss) : (s.spCorrect p a n).bank x = s.bank x := by
  unfold State.bank; simp [State.spCorrect_side]

theorem State.spCorrect_sp (s : State) (p a n q : Nat) : ((s.spCorrect p a n).core q).sp = (s.core q).sp := by
  obtain ⟨_, h2, h3, _⟩ := State.spCorrect_frame s p a n
  by_cases h : q = p
  · subst h; rw [h3]
  · rw [h2 q h]

/-- An instruction that issues has its effect where its word is legal, and is an illegal word where it is not (R183). -/
theorem instr_issues {p i cls op : Nat} {legal : State → Iss → Bool} {eff : State → Iss → State} {s : State} {x : Iss}
    (h : s.Issues p i cls op x) :
    instr p i cls op legal eff s =
      .next (s.keep (if legal s x then eff (s.spCorrect p x.pc 8) x else (s.spCorrect p x.pc 8).illegal x)) := by
  unfold instr
  rw [h.next]
  exact State.when_of h.clocks (by simp [h.fetch, h.whole, h.cls, h.op, h.ready])

theorem instr_legal {p i cls op : Nat} {legal : State → Iss → Bool} {eff : State → Iss → State} {s : State} {x : Iss}
    (h : s.Issues p i cls op x) (l : legal s x = true) :
    instr p i cls op legal eff s = .next (s.keep (eff (s.spCorrect p x.pc 8) x)) := by
  rw [instr_issues h, if_pos l]

/-- The slot and issuer that an instruction names are those of the command. -/
theorem State.iss_pi {s : State} {p i : Nat} {x : Iss} (h : s.iss p i = some x) : x.p = p ∧ x.i = i := by
  unfold State.iss at h
  dsimp only at h
  split at h
  · cases h
  · cases h; exact ⟨rfl, rfl⟩

end Sys2Proof.Machine
end

