-- ==== Sys2Proof/Laws/Lanes.lean ====
section
/-!
SUPPORT. Lanes of a vector register made from a function, and what a row that writes lanes leaves (R118).
-/
namespace Sys2Proof.Machine

theorem packNat_lt (w : Nat) (l : List Nat) : packNat w l < 2 ^ (w * l.length) := by
  induction l with
  | nil => simp [packNat]
  | cons x xs ih =>
    rw [packNat, List.length_cons, Nat.mul_succ, Nat.add_comm (w * xs.length) w, Nat.pow_add]
    have h1 : x % 2 ^ w < 2 ^ w := Nat.mod_lt _ (Nat.two_pow_pos w)
    have h2 : packNat w xs + 1 ≤ 2 ^ (w * xs.length) := ih
    calc x % 2 ^ w + 2 ^ w * packNat w xs < 2 ^ w + 2 ^ w * packNat w xs := by omega
      _ = 2 ^ w * (packNat w xs + 1) := by rw [Nat.mul_add, Nat.mul_one, Nat.add_comm]
      _ ≤ 2 ^ w * 2 ^ (w * xs.length) := Nat.mul_le_mul_left _ h2

theorem packNat_piece (w : Nat) (l : List Nat) (i : Nat) (h : i < l.length) :
    packNat w l / 2 ^ (w * i) % 2 ^ w = l[i] % 2 ^ w := by
  induction l generalizing i with
  | nil => simp at h
  | cons x xs ih =>
    have hp := Nat.two_pow_pos w
    cases i with
    | zero => simp [packNat, Nat.add_mul_mod_self_left]
    | succ i =>
      have e : w * (i + 1) = w + w * i := by rw [Nat.mul_succ, Nat.add_comm]
      rw [packNat, e, Nat.pow_add, ← Nat.div_div_eq_div_mul, Nat.add_mul_div_left _ _ hp, Nat.div_eq_of_lt (Nat.mod_lt _ hp),
        Nat.zero_add, ih i (by simpa using h)]
      simp

/-- Lane l of a register made from a function. -/
theorem laneOf_ofLanes (f : Nat → Nat) (l : Nat) (h : l < 64) : laneOf (ofLanes f) l = f l % 2 ^ 32 := by
  unfold laneOf ofLanes
  have b : packNat 32 ((List.range 64).map f) < 2 ^ 2048 := by
    have := packNat_lt 32 ((List.range 64).map f)
    rwa [List.length_map, List.length_range] at this
  rw [BitVec.toNat_ofNat, Nat.mod_eq_of_lt b, packNat_piece 32 _ l (by simpa using h)]
  simp

theorem laneOf_lt (r : BitVec 2048) (l : Nat) : laneOf r l < 2 ^ 32 := Nat.mod_lt _ (Nat.two_pow_pos 32)

theorem laneFlags_none (g : Nat → Flags) : laneFlags 0 g = 0 := by
  unfold laneFlags
  generalize List.range 64 = l
  induction l with
  | nil => rfl
  | cons x xs ih =>
    rw [List.foldl_cons]
    have : (0 : BitVec 64).getLsbD x = false := by simp
    rw [this]; exact ih

end Sys2Proof.Machine
end

