-- ==== Sys2Proof/Laws/Links.lean ====
section
/-!
SUPPORT. What the operations of the companion link, the management requests, the arbitration points, the line code and the array's rows
can do, said once.
-/
namespace Sys2Proof
open Machine

/-! ## The line code (R222, R233) -/

@[simp] theorem rsCheck_length (data : List Nat) : (rsCheck data).length = 6 := by
  have hg : rsGenerator.tail.length = 6 := by decide
  suffices ∀ (l r : List Nat), r.length = 6 → (l.foldl (fun r x =>
      let f := x ^^^ r.headD 0
      (r.tail ++ [0]).zipWith (· ^^^ ·) (rsGenerator.tail.map fun g => gfMul f g)) r).length = 6 from this data _ (by decide)
  intro l
  induction l with
  | nil => exact fun r h => h
  | cons x l ih =>
    refine fun r h => ih _ ?_
    simp only [List.length_zipWith, List.length_append, List.length_tail, List.length_map, hg, h, List.length_singleton]
    rfl

/-- A stored line has 72 bytes. -/
theorem storedLine_length (cipher : List Byte) (poison : Bool) (h : cipher.length = 64) : (storedLine cipher poison).length = 72 := by
  simp [storedLine, h]

namespace Machine

/-! ## Rows of the array (R104) -/

theorem physRow_cons (l x : Nat) (f : List Nat) : physRow l (x :: f) = physRow (if x ≤ l then l + 1 else l) f := rfl

theorem physRow_ge (l : Nat) (f : List Nat) : l ≤ physRow l f := by
  induction f generalizing l with
  | nil => exact Nat.le_refl l
  | cons x f ih => rw [physRow_cons]; exact Nat.le_trans (by split <;> omega) (ih _)

/-- Each failed row moves a logical row by at most one. -/
theorem physRow_le (l : Nat) (f : List Nat) : physRow l f ≤ l + f.length := by
  induction f generalizing l with
  | nil => exact Nat.le_refl l
  | cons x f ih => rw [physRow_cons, List.length_cons]; exact Nat.le_trans (ih _) (by split <;> omega)

/-- No step is taken past rows that lie beyond. -/
theorem physRow_below (l : Nat) (f : List Nat) (h : ∀ x ∈ f, l < x) : physRow l f = l := by
  induction f with
  | nil => rfl
  | cons x f ih =>
    rw [physRow_cons, if_neg (by have := h x List.mem_cons_self; omega)]
    exact ih fun y hy => h y (List.mem_cons_of_mem x hy)

/-- No logical row lies on a failed row. -/
theorem physRow_not_mem (l : Nat) (f : List Nat) (h : f.Pairwise (· < ·)) : physRow l f ∉ f := by
  induction f generalizing l with
  | nil => exact List.not_mem_nil
  | cons x f ih =>
    rw [List.pairwise_cons] at h
    rw [physRow_cons, List.mem_cons, not_or]
    refine ⟨?_, ih _ h.2⟩
    by_cases hx : x ≤ l
    · rw [if_pos hx]; have := physRow_ge (l + 1) f; omega
    · rw [if_neg hx, physRow_below l f fun y hy => by have := h.1 y hy; omega]; omega

/-! ## The link to the companion (R296 to R300) -/

theorem foldl_ccl {α : Type} (f : State → α → State) (hf : ∀ s a, f s a = { s with ccl := (f s a).ccl }) (l : List α) (s : State) :
    l.foldl f s = { s with ccl := (l.foldl f s).ccl } := by
  induction l generalizing s with
  | nil => rfl
  | cons a l ih => rw [List.foldl_cons, ih, hf s a]

/-- A flit changes nothing but the link. -/
theorem State.flitOut_frame (s : State) (i : Nat) : s.flitOut i = { s with ccl := (s.flitOut i).ccl } := by
  unfold State.flitOut; split <;> rfl

/-- Issuing a transaction changes nothing but the link, and the transaction is the last one of those under way. -/
theorem State.cclSend_frame (s : State) (kind : CclKind) (addr : Nat) (data : List Byte) (pu : CclPurpose) :
    s.cclSend kind addr data pu = { s with ccl := (s.cclSend kind addr data pu).ccl } ∧
    (s.cclSend kind addr data pu).ccl.out = s.ccl.out ++ [⟨kind, addr, data, s.cclOutPort addr, pu⟩] := by
  by_cases h : s.cclOutPort addr < 2 <;> simp [State.cclSend, State.flitOut, State.modLink, h]

theorem foldl_snd_ccl {α β : Type} (g : β × State → α → β × State) (hg : ∀ x a, (g x a).2 = { x.2 with ccl := (g x a).2.ccl })
    (l : List α) (x : β × State) : (l.foldl g x).2 = { x.2 with ccl := (l.foldl g x).2.ccl } := by
  induction l generalizing x with
  | nil => rfl
  | cons a l ih => rw [List.foldl_cons, ih, hg x a]

theorem State.cclRoute_frame (s : State) (hit : CclTxn → Bool) : s.cclRoute hit = { s with ccl := (s.cclRoute hit).ccl } := by
  simp only [State.cclRoute]
  rw [foldl_snd_ccl]
  intro x t
  by_cases h : hit t
  · simp only [h, if_true]; exact State.flitOut_frame _ _
  · simp only [h]; rfl

theorem State.flitAcked_frame (s : State) (i : Nat) : s.flitAcked i = { s with ccl := (s.flitAcked i).ccl } := by
  unfold State.flitAcked
  split
  · rw [State.cclRoute_frame]; rfl
  · rfl

/-- Reads of companion memory change nothing but the link. -/
theorem State.rdcNow_frame (s : State) (a n : Nat) : s.rdcNow a n = { s with ccl := (s.rdcNow a n).ccl } := by
  unfold State.rdcNow
  rw [State.flitAcked_frame, foldl_ccl _ (fun s _ => State.flitOut_frame s (s.cclPort a))]

theorem State.rdcLines_frame (s : State) (a n : Nat) (pu : CclPurpose) :
    s.rdcLines a n pu = { s with ccl := (s.rdcLines a n pu).ccl } :=
  foldl_ccl _ (fun s _ => (State.cclSend_frame s _ _ _ _).1) _ _

/-! ## Management requests (R316 to R321) -/

/-- All that serving a management request can do: nothing, an answer with a cause, or the request's effect. -/
theorem mgmt_next {n op : Nat} {operands : Bool} {cause : State → Req → Nat} {eff : State → Req → State} {s t : State}
    (h : mgmt n op operands cause eff s = .next t) :
    t = s ∨ ∃ q, s.nextReq n op = some q ∧
      ((∃ c, c ≠ 0 ∧ t = s.keep ((s.dropReq q).answer q c)) ∨ t = s.keep (eff (s.dropReq q) q)) := by
  unfold mgmt at h
  cases hq : s.nextReq n op with
  | none => rw [hq] at h; obtain ⟨-, rfl | rfl⟩ := State.when_next h <;> exact .inl rfl
  | some q =>
    rw [hq] at h
    obtain ⟨-, rfl | rfl⟩ := State.when_next h
    · refine .inr ⟨q, rfl, ?_⟩
      by_cases hc : (if s.getF .mpBootstat MP_BOOTSTAT.STAGE = 7 then 2 else cause (s.dropReq q) q) = 0
      · right; simp [hc]
      · left; exact ⟨_, hc, by rw [if_pos hc]⟩
    · exact .inl rfl

/-! ## Arbitration points (R214) -/

/-- Charging flits touches the requester's credit and the rank-0 count alone. -/
theorem WvPoint.charge_frame (x : WvPoint) (q : WvReq) (flits : Nat) :
    x.charge q flits = { x with reqrs := (x.charge q flits).reqrs, rank0 := (x.charge q flits).rank0 } ∧
    (x.charge q flits).rank0 = x.rank0 + (if q.rank = 0 then flits else 0) := by
  unfold WvPoint.charge WvPoint.modReqr
  by_cases h : q.rank = 0 <;> simp [h]

end Machine
end Sys2Proof
end

