-- ==== Sys2Proof/Laws/Memory.lean ====
section
/-!
SUPPORT. Every operation on the stacks' memory keeps the canonical form.
-/
namespace Sys2Proof.Machine

theorem State.reset_memory_wf : State.reset.stackSet.mem.wf = true := rfl


theorem State.emitRec_stacks (s : State) (e : EvRec) : (s.emitRec e).stackSet = s.stackSet := by
  unfold State.emitRec; split <;> rfl

theorem State.msRecord_stacks (s : State) (m ch syms : Nat) (a b : Bool) : (s.msRecord m ch syms a b).stackSet = s.stackSet :=
  State.emitRec_stacks s _

theorem State.setMem_unpoison_mem (s : State) (m : Memory) (pa n : Nat) : ((s.setMem m).unpoison pa n).stackSet.mem = m := rfl

theorem State.paWrite_wf {s : State} (w : s.stackSet.mem.wf = true) (pa : Nat) (bs : List Byte) :
    (s.paWrite pa bs).stackSet.mem.wf = true := by
  unfold State.paWrite
  split
  · exact w
  · exact Memory.wf_write w pa bs

/-- Rewriting lines from the partner copy keeps the canonical form. -/
theorem State.mirrorLines_wf {s : State} (w : s.stackSet.mem.wf = true) (pa pb n : Nat) :
    (s.mirrorLines pa pb n).stackSet.mem.wf = true := by
  unfold State.mirrorLines
  dsimp only
  rw [State.msRecord_stacks]
  split
  · exact w
  · exact Memory.wf_write w _ _

theorem State.stackWrite_wf {s t : State} (w : s.stackSet.mem.wf = true) {n a : Nat} {bs : List Byte}
    (h : s.stackWrite n a bs = some t) : t.stackSet.mem.wf = true := by
  unfold State.stackWrite at h
  dsimp only at h
  split at h
  · split at h
    · cases h
    · cases h; exact State.paWrite_wf w _ _
  · split at h
    · cases h
    · cases h
      apply State.paWrite_wf
      apply State.paWrite_wf
      split
      · exact State.mirrorLines_wf w _ _ _
      · split
        · exact State.mirrorLines_wf w _ _ _
        · exact w

theorem State.clearText_mem (s : State) (n pa len : Nat) : (s.clearText n pa len).2.stackSet.mem = s.stackSet.mem := by
  unfold State.clearText
  split <;> rfl

theorem State.stackRead_wf {s : State} (w : s.stackSet.mem.wf = true) (n a len : Nat) :
    (s.stackRead n a len).2.stackSet.mem.wf = true := by
  unfold State.stackRead
  dsimp only
  split
  · rw [State.clearText_mem]; exact w
  · split
    · exact w
    · split
      · exact w
      · dsimp only
        rw [State.clearText_mem]; exact State.mirrorLines_wf w _ _ _

theorem State.clearMem_wf {s : State} (w : s.stackSet.mem.wf = true) (a n : Nat) : (s.clearMem a n).stackSet.mem.wf = true :=
  Memory.wf_clear w a n

theorem State.copyChannel_wf {s : State} (w : s.stackSet.mem.wf = true) (ch : Nat) (f g : Frame) :
    (s.copyChannel ch f g).stackSet.mem.wf = true := by
  unfold State.copyChannel
  dsimp only
  generalize List.filter _ s.stackSet.mem = cells
  generalize hm : s.stackSet.mem = m at *
  clear hm
  induction cells generalizing m with
  | nil => exact w
  | cons x xs ih => exact ih _ (Memory.wf_setByte w _ _)

/-- A vector store of one element keeps the canonical form of the scratchpad. -/
theorem storeElem_wf {c : Core} (w : c.sp.wf = true) (f : Fmt) (e : Elt) (v : Nat) : (storeElem f c e v).sp.wf = true := by
  unfold storeElem
  dsimp only
  split <;> exact Memory.wf_write w _ _

/-- A run of atomics keeps the canonical form of the scratchpad. -/
theorem atomRun_wf (am : AMode) (op : Nat) (ra rb rc : BitVec 2048) (ls : List Nat) (x : Core × SMap Nat × Flags)
    (w : x.1.sp.wf = true) : (atomRun am op ra rb rc ls x).1.sp.wf = true := by
  induction ls generalizing x with
  | nil => exact w
  | cons l ls ih =>
    obtain ⟨c, olds, fl⟩ := x
    unfold atomRun
    apply ih
    dsimp only
    split
    · exact w
    · exact Memory.wf_write w _ _

theorem mergeMap_wf (n lo : Nat) (x y : Memory) (wx : Memory.wfFrom lo x = true) (wy : Memory.wfFrom lo y = true)
    (d : ∀ a ∈ x, ∀ b ∈ y, a.1 ≠ b.1) : Memory.wfFrom lo (mergeMap n x y) = true := by
  induction n generalizing lo x y with
  | zero => exact wx
  | succ n ih =>
    match x, y with
    | [], y => simpa [mergeMap] using wy
    | (j, a) :: x, [] => simpa [mergeMap] using wx
    | (j, a) :: x, (k, b) :: y =>
      have hjk : j ≠ k := d (j, a) (by simp) (k, b) (by simp)
      simp only [Memory.wfFrom, Bool.and_eq_true, decide_eq_true_eq] at wx wy
      unfold mergeMap
      split
      · rename_i h
        simp only [Memory.wfFrom, Bool.and_eq_true, decide_eq_true_eq]
        refine ⟨wx.1, ih (j + 1) x ((k, b) :: y) wx.2 ?_ fun u hu v hv => d u (List.mem_cons_of_mem _ hu) v hv⟩
        simp only [Memory.wfFrom, Bool.and_eq_true, decide_eq_true_eq]
        exact ⟨⟨h, wy.1.2⟩, wy.2⟩
      · rename_i h
        simp only [Memory.wfFrom, Bool.and_eq_true, decide_eq_true_eq]
        refine ⟨wy.1, ih (k + 1) ((j, a) :: x) y ?_ wy.2 fun u hu v hv => d u hu v (List.mem_cons_of_mem _ hv)⟩
        simp only [Memory.wfFrom, Bool.and_eq_true, decide_eq_true_eq]
        exact ⟨⟨by omega, wx.1.2⟩, wx.2⟩

/-- Spilling a range away, taking it out, and restoring an image keep the canonical form of the scratchpad (R283, R284). -/
theorem Core.withTenant_wf {c i : Core} (w : c.sp.wf = true) (v : i.sp.wf = true) : (c.withTenant i).sp.wf = true := by
  rw [Memory.wf_iff] at w v ⊢
  apply mergeMap_wf _ _ _ _ v (Memory.wfFrom_filter w _)
  intro a ha b hb e
  have := (List.mem_filter.mp hb).2
  simp only [Bool.not_eq_true', List.any_eq_false, beq_iff_eq] at this
  exact this a ha e

theorem Core.tenantPart_wf {c : Core} (w : c.sp.wf = true) (top : Nat) : (c.tenantPart top).sp.wf = true :=
  Memory.wf_filter w _

theorem Core.withoutTenant_wf {c : Core} (w : c.sp.wf = true) (top : Nat) : (c.withoutTenant top).sp.wf = true :=
  Memory.wf_filter w _

end Sys2Proof.Machine
end

