-- ==== Sys2Proof/Machine/Lands.lean ====
section
/-!
DEFINITION. The lands of the package: row codes, what each land carries, and where the high-speed pairs lie (R539 to R543). Rows are 0 to 111
and columns 1 to 102.
-/
namespace Sys2Proof.Machine

/-- The alphabet of the row codes (R540). -/
def rowLetters : List Char := ['A', 'B', 'C', 'D', 'E', 'F', 'G', 'J', 'K', 'L', 'M', 'N', 'P', 'S', 'T', 'U', 'V', 'W', 'Y', 'Z']

/-- Code of row i: letters number i div 20 and i mod 20 (R540). -/
def rowCode (i : Nat) : List Char := [rowLetters.getD (i / 20) 'A', rowLetters.getD (i % 20) 'A']

/-- What a high-speed pair carries, with its port and lane (R542). -/
inductive PairUse where
  | fhTx (p lane : Nat)
  | fhRx (p lane : Nat)
  | withy (w lane : Nat)
  | cclTx (i lane : Nat)
  | cclRx (i lane : Nat)
  | reserved
  deriving DecidableEq, Repr

/-- A single-ended land (R543): line 0 to 5 of a module's management (SCL, SDA, MODPRS_N, INT_N, RESET_N, LPMODE), line 0 to 2 of a Withy
cable's (SCL, SDA, PRSNT_N), any other by its name. -/
inductive Signal where
  | fhModule (p line : Nat)
  | wyCable (w line : Nat)
  | named (name : String)
  deriving DecidableEq, Repr

inductive Supply where
  | vcore | vsram | vddq (n : Nat) | vphy | vphyh | vaon | vio
  deriving DecidableEq, Repr

inductive Land where
  | vss
  | supply (v : Supply)
  | pair (u : PairUse) (negative : Bool)
  | signal (x : Signal)
  | reserved
  deriving DecidableEq, Repr

/-- Pair slot g of die X0 (x1 false) or X1 (R542). -/
def pairUse (x1 : Bool) (g : Nat) : PairUse :=
  let p := if x1 then 12 else 0
  let w := if x1 then 8 else 0
  if g < 48 then .fhTx (p + g / 4) (g % 4)
  else if g < 96 then .fhRx (p + (g - 48) / 4) (g % 4)
  else if g < 128 then .withy (w + (g - 96) / 4) (g % 4)
  else if g < 144 then .cclTx x1.toNat (g - 128)
  else if g < 160 then .cclRx x1.toNat (g - 144)
  else .reserved

/-- Pair rows of X0 and of X1 in the order of R541. -/
def pairRows (x1 : Bool) : List Nat := if x1 then [110, 108, 106, 104, 102] else [1, 3, 5, 7, 9]

/-- Land of the n-th pair row of a die at column c (R542). -/
def pairLand (x1 : Bool) (n c : Nat) : Land :=
  if c % 3 = 0 then .vss else .pair (pairUse x1 (34 * n + (c - 1) / 3)) (decide (c % 3 = 2))

/-- Management lands of 12 modules in columns 1 to 72 and of 8 cables in columns 73 to 96 (R543). -/
def managementLand (p w c : Nat) : Option Signal :=
  if c ≤ 72 then some (.fhModule (p + (c - 1) / 6) ((c - 1) % 6))
  else if c ≤ 96 then some (.wyCable (w + (c - 73) / 3) ((c - 73) % 3))
  else none

/-- Row AM from column 97, and row AN from column 1 (R543). -/
def clockLands : List String := ["REFCLK_P", "REFCLK_N", "REF10M_P", "REF10M_N", "PPS_IN0", "PPS_IN1"]
def anLands : List String :=
  ["PPS_OUT", "TOD_RX", "XSPI_CLK", "XSPI_CS_N", "XSPI_DQS", "XSPI_DQ0", "XSPI_DQ1", "XSPI_DQ2", "XSPI_DQ3", "XSPI_DQ4", "XSPI_DQ5",
    "XSPI_DQ6", "XSPI_DQ7", "XSPI_RESET_N", "I3C_SCL", "I3C_SDA", "TCK", "TMS", "TDI", "TDO", "TRST_N", "PWRGOOD", "COLDRST_N",
    "WARMRST_N", "THERMALERT_N", "THERMTRIP_N", "PWRALERT_N", "AVS_CLK", "AVS_MDATA", "AVS_SDATA", "STRAP0", "STRAP1", "STRAP2", "STRAP3",
    "VCORE_SENSE_P", "VCORE_SENSE_N", "VSRAM_SENSE_P", "VSRAM_SENSE_N", "VDDQ0_SENSE_P", "VDDQ0_SENSE_N", "VDDQ1_SENSE_P",
    "VDDQ1_SENSE_N", "VDDQ2_SENSE_P", "VDDQ2_SENSE_N", "VDDQ3_SENSE_P", "VDDQ3_SENSE_N", "VPHY_SENSE_P", "VPHY_SENSE_N"]

def namedLand (l : List String) (n : Nat) : Land :=
  match l[n]? with
  | some x => .signal (.named x)
  | none => .reserved

/-- Supply of a land of the I/O checkerboard rows, and of the rows AV to EU (R541). -/
def ioSupply (c : Nat) : Supply := if c ≤ 60 then .vphy else if c ≤ 90 then .vphyh else if c ≤ 98 then .vaon else .vio
def coreSupply (i c : Nat) : Supply :=
  if c ≤ 10 ∨ 93 ≤ c then .vddq ((i - 16) / 20) else if c ≤ 20 ∨ 83 ≤ c then .vsram else .vcore

/-- What the land at row i and column c carries (R541 to R543). -/
def landAt (i c : Nat) : Land :=
  match (pairRows false).idxOf? i, (pairRows true).idxOf? i with
  | some n, _ => pairLand false n c
  | none, some n => pairLand true n c
  | none, none =>
    if i = 10 then ((managementLand 0 0 c).map Land.signal).getD (namedLand clockLands (c - 97))
    else if i = 11 then namedLand anLands (c - 1)
    else if i = 101 then ((managementLand 12 8 c).map Land.signal).getD .reserved
    else if i = 100 then .reserved
    else if i < 10 ∨ 102 ≤ i then .vss
    else if (i + c) % 2 = 0 then .vss
    else if i < 16 ∨ 96 ≤ i then .supply (ioSupply c)
    else .supply (coreSupply i c)

end Sys2Proof.Machine
end

