-- ==== Sys2Proof/Machine/Views.lean ====
section
/-!
DEFINITION. What a read of a register shows (R7, R552, R553). No row of the table is a read of a register, but TIME_SEC_READ, so no step
reads a register through this file; it says what the registers whose fields are computed from other state show.
-/
namespace Sys2Proof.Machine

/-- One bit for each of n numbers that has the property. -/
def bitsWhere (n : Nat) (p : Nat → Bool) : Nat := (List.range n).foldl (fun a i => if p i then a ||| 2 ^ i else a) 0

/-- A register word with fields set, the rest 0. -/
def fieldWord (l : List (Fld × Nat)) : BitVec 64 := l.foldl (fun w x => x.1.set w x.2) 0

/-- CORE_ME_STATUS (R112). -/
def State.meStatus (s : State) (p : Nat) : BitVec 64 :=
  let c := s.core p
  let covers (q part : Nat) : Bool := (partQuads part).testBit q
  let flying (q : Nat) (e : MeEntry) : Bool := match e.op with
    | .mmt o => e.phase == .running && covers q o.part
    | _ => false
  fieldWord [(CORE_ME_STATUS.NSPARE, ((List.range 4).filter fun i => s.getF (.coreMeSpare p i) CORE_ME_SPARE.VALID == 1).length),
    (CORE_ME_STATUS.WSHADOW, bitsWhere 4 fun q => c.tiles.any fun t => t.place == .shadow && t.loaded && covers q t.part),
    (CORE_ME_STATUS.POISONED, c.poisoned),
    (CORE_ME_STATUS.BUSY, bitsWhere 4 fun q => (c.t.meQ ++ c.r.meQ).any (flying q)),
    (CORE_ME_STATUS.SIDE, c.radio.toNat)]

/-- CORE_VE_STATUS (R151). -/
def State.veStatus (s : State) (p : Nat) : BitVec 64 :=
  let c := s.core p
  let side (cmd : Nat) : Nat := ((c.resident cmd).map (·.side)).getD 0
  let active (cmd : Nat) : Bool := s.isStake p || side cmd == c.radio.toNat
  fieldWord [(CORE_VE_STATUS.THREADS, bitsWhere 16 fun t => (c.thread t).running),
    (CORE_VE_STATUS.PLAITS, (c.plaits.filter fun y => active y.2.cmd).length),
    (CORE_VE_STATUS.SIDE, c.radio.toNat)]

/-- CORE_CE_STATUS (R206): queues in the order CE0 tenant, CE0 radio, CE1 tenant, CE1 radio. -/
def State.ceStatus (s : State) (p : Nat) : BitVec 64 :=
  let c := s.core p
  let q := [c.t.ce0, c.r.ce0, c.t.ce1, c.r.ce1]
  let at_ (i : Nat) : CeQueue := (q[i]?).getD ⟨[], false⟩
  fieldWord [(CORE_CE_STATUS.PAUSED, bitsWhere 4 fun i => (at_ i).paused),
    (CORE_CE_STATUS.Q3, (at_ 3).entries.length), (CORE_CE_STATUS.Q2, (at_ 2).entries.length),
    (CORE_CE_STATUS.Q1, (at_ 1).entries.length), (CORE_CE_STATUS.Q0, (at_ 0).entries.length)]

/-- Accounting counter k of instance n, in the order of R293. -/
def Acct.counter (a : Acct) (k : Nat) : BitVec 64 := BitVec.ofNat 64 (([a.qwait, a.npre, a.held, a.array, a.bytes, a.ovr][k]?).getD 0)

/-- What register r shows: WO fields read 0 (R7), fields that other state holds are computed, every other register shows its word. -/
def State.shown (s : State) (r : Reg) : BitVec 64 :=
  match r with
  | .coreMeStatus p => s.meStatus p
  | .coreVeStatus p => s.veStatus p
  | .coreCeStatus p => s.ceStatus p
  | .coreCqNp p => CORE_CQ_NP.OPEN.set (s.reg r) (bitsWhere 16 fun t => ((s.core p).thread t).region.isSome)
  | .timeBeatpos => TIME_BEATPOS.CYC.set 0 (if s.beat.started then s.gtc - s.beat.boundary else 0)
  | .timeGtc => BitVec.ofNat 64 s.gtc
  | .imAcct n k => (s.inst n).acct.counter k
  | .iwAcct n k => (s.inst n).acct.counter k
  | _ => r.fields.foldl (fun w f => if f.acc == .wo then f.fld.set w 0 else w) (s.reg r)

/-- The word of 4 bytes that a read of a 32-bit register, or of two packed 16-bit entries, at o gives (R552). -/
def State.wordAt (s : State) (o : Nat) : Nat :=
  match Reg.at o with
  | none => 0
  | some r =>
    if r.bytes = 2 then (s.shown r).toNat % 2 ^ 16 + 2 ^ 16 * (((Reg.at (o + 2)).map fun q => (s.shown q).toNat % 2 ^ 16).getD 0)
    else (s.shown r).toNat % 2 ^ 32

/-- Word at an offset of the on-chip event log (R494). -/
def State.logWord (s : State) (o : Nat) : Nat :=
  match SMap.get none s.log.ring (o / 32) with
  | some e => leNat ((e.bytes.drop (o % 32)).take 4)
  | none => 0

/-- A 4-byte read at an aligned offset (R551 to R553): a word of the event log, a 32-bit register, two 16-bit entries, or a half of a 64-bit register; reserved
places and the registers of a powered-down slot read 0 (R551). -/
def State.read4 (s : State) (o : Nat) : Nat :=
  if s.coreOff o then 0
  else if 0x80000 ≤ o ∧ o < 0x100000 then s.logWord (o - 0x80000)
  else match Reg.at (o / 8 * 8) with
    | some q => if q.bytes = 8 then (s.shown q).toNat / 2 ^ (8 * (o % 8)) % 2 ^ 32 else s.wordAt o
    | none => s.wordAt o

/-- An 8-byte read at an aligned offset: the lower half first (R553). -/
def State.read8 (s : State) (o : Nat) : Nat := s.read4 o + 2 ^ 32 * s.read4 (o + 4)

end Sys2Proof.Machine
end

