-- ==== Sys2Proof/WellFormed.lean ====
section
/-!
DEFINITION. Well-formed commands: every operand that numbers a core slot, an issuer, a side, an instance, a ring, a stack, a channel, a
port, a time base or a queue pair, and every whole register word, lies in its range. Lists of bytes hold bytes.
-/
namespace Sys2Proof

/-- Every entry is a byte. -/
def bytesOk (l : List Nat) : Bool := l.all fun b => decide (b < 256)

/-- Sensors of a unit: 0 to 7 compute dies, 8 and 9 X0 and X1, 16 to 27 base dies (R232, R533). -/
def sensorCount (u : Nat) : Nat := if u < 8 then 32 else if u < 10 then 8 else if 16 ≤ u ∧ u < 28 then 17 else 0

/-- The fields of a Withy header fit (R450). -/
def WyHdr.fits (h : WyHdr) : Bool :=
  decide (h.dst < 65536) && decide (h.src < 65536) && decide (h.hops < 256) && decide (h.group < 65536) && decide (h.tid < 2 ^ 32)
    && decide (h.addr < 2 ^ 48)

/-- The fields of a LINK message fit its body (R468). -/
def WlMsg.fits (m : WlMsg) : Bool :=
  decide (m.hops < 256) && decide (m.origin < 65536) && decide (m.subject < 65536) && decide (m.witness < 65536) && decide (m.result < 256)
    && decide (m.run.length ≤ 20) && decide (m.window < 2 ^ 32) && decide (m.count < 65536) && decide (m.inserv < 65536)
    && decide (m.key < 2 ^ 48) && decide (m.group < 65536) && decide (m.winner < 65536)

/-- The operands lie in their ranges. -/
def Instr.wellFormed : Instr → Bool
  | .coldReset _ => true
  | .coldStart straps _ => decide (straps.length = 4)
  | .grizorStart rver => decide (rver < 256)
  | .selfTestComplete slots rows stackSet _ =>
    slots.all (fun p => decide (p < 208)) && rows.all (fun x => decide (x.1 < 208) && decide (x.2 < 260))
      && stackSet.all fun m => decide (m < 12)
  | .configurationApply => true
  | .bootLate => true
  | .recoveryPoll _ => true
  | .warmReset _ => true
  | .warmResetRequest v => decide (v < 4294967296)
  | .grizorRestart rver => decide (rver < 256)
  | .mpWatchdog => true
  | .mpLoadWindow load => decide (load < 101)
  | .tamper source => decide (source < 16)
  | .seal => true
  | .registerWrite off _ _ => decide (off < 67108864)
  | .timeSecRead n => decide (n < 4)
  | .imAcctLatch v => decide (v < 4294967296)
  | .tlbInvalidate n => decide (n < 65)
  | .tlbInvalidateDone n => decide (n < 65)
  | .ringEnable n r v => decide (n < 66) && decide (r < 64) && decide (v < 4294967296)
  | .digestLogEnable n v => decide (n < 65) && decide (v < 4294967296)
  | .queuePairEnable q v => decide (q < 64) && decide (v < 4294967296)
  | .fhPortEnable p v => decide (p < 24) && decide (v < 4294967296)
  | .flowStagingWrite p f v _ => decide (p < 24) && decide (f < 1024) && decide (v < 18446744073709551616)
  | .flowEntryReplace p f v _ => decide (p < 24) && decide (f < 1024) && decide (v < 18446744073709551616)
  | .msiUnmask v w => decide (v < 2048) && decide (w < 4294967296)
  | .radioSwitch active => decide (active < 2)
  | .appofsWrite v => decide (v < 18446744073709551616)
  | .reprobe v => decide (v < 4294967296)
  | .reprobeTimeout hops => decide (0 < hops)
  | .admission _ => true
  | .admissionPhaseComplete _ => true
  | .claimSend v => decide (v < 4294967296)
  | .eventTimerTick => true
  | .beatStart => true
  | .beatBoundary avg _ => decide (avg < 4096)
  | .dlAbort p => decide (p < 208)
  | .coreWakeComplete p => decide (p < 208)
  | .planPreparation _ _ _ _ => true
  | .planLatch => true
  | .lockLeaseExpiry p n => decide (p < 208) && decide (n < 64)
  | .fixedLeaseEnd n => decide (n < 65)
  | .holdTimeout p t => decide (p < 208) && decide (t < 16)
  | .borrowRequest p _ => decide (p < 208)
  | .stopIssueComplete p => decide (p < 208)
  | .meDrainComplete p _ => decide (p < 208)
  | .bankSwitchComplete p => decide (p < 208)
  | .radioDispatchComplete p => decide (p < 208)
  | .weightReloadComplete p => decide (p < 208)
  | .spillComplete p => decide (p < 208)
  | .zeroingComplete p => decide (p < 208)
  | .restoreComplete p => decide (p < 208)
  | .knownAnswerTestComplete p rows => decide (p < 208) && rows.all fun r => decide (r < 260)
  | .coreFailed p => decide (p < 208)
  | .spareSubstitution l => decide (l < 192)
  | .dieFail d => decide (d < 8)
  | .descriptorFetch n r => decide (n < 66) && decide (r < 64)
  | .descriptorCheck n r => decide (n < 66) && decide (r < 64)
  | .journalRecordDurable _ => true
  | .journalSlotFreed => true
  | .kernel n r => decide (n < 65) && decide (r < 64)
  | .copy n r _ _ => decide (n < 65) && decide (r < 64)
  | .barrier n r _ => decide (n < 65) && decide (r < 64)
  | .barrierRelease n r => decide (n < 65) && decide (r < 64)
  | .synchronisedStart n r => decide (n < 65) && decide (r < 64)
  | .fence n r => decide (n < 65) && decide (r < 64)
  | .fenceComplete n r => decide (n < 65) && decide (r < 64)
  | .signal n r _ => decide (n < 65) && decide (r < 64)
  | .create n _ _ => decide (n < 256)
  | .createComplete n => decide (n < 65)
  | .resize n _ _ => decide (n < 256)
  | .fixlease n _ => decide (n < 256)
  | .setw n => decide (n < 256)
  | .map n => decide (n < 256)
  | .unmap n => decide (n < 256)
  | .quiesce n => decide (n < 256)
  | .quiesceComplete n => decide (n < 65)
  | .resume n => decide (n < 256)
  | .reset n => decide (n < 256)
  | .remove n => decide (n < 256)
  | .scratchpadUncorrectableError p n kind i => decide (p < 208) && decide (n < 1572864) && decide (kind < 5) && (kind != 1 || decide (i < 272))
  | .scratchpadScrub p n bad => decide (p < 208) && decide (n < 196608) && decide (bad < 256)
  | .mmt p i => decide (p < 208) && decide (i < 272)
  | .mmtComplete p k _ => decide (p < 208) && decide (k < 2)
  | .mwl p i => decide (p < 208) && decide (i < 272)
  | .weightPassComplete p k => decide (p < 208) && decide (k < 2)
  | .mdr p i => decide (p < 208) && decide (i < 272)
  | .mdrComplete p k _ => decide (p < 208) && decide (k < 2)
  | .add p i => decide (p < 208) && decide (i < 272)
  | .sub p i => decide (p < 208) && decide (i < 272)
  | .mul p i => decide (p < 208) && decide (i < 272)
  | .andS p i => decide (p < 208) && decide (i < 272)
  | .orS p i => decide (p < 208) && decide (i < 272)
  | .xorS p i => decide (p < 208) && decide (i < 272)
  | .sll p i => decide (p < 208) && decide (i < 272)
  | .sra p i => decide (p < 208) && decide (i < 272)
  | .bfx p i => decide (p < 208) && decide (i < 272)
  | .addi p i => decide (p < 208) && decide (i < 272)
  | .li p i => decide (p < 208) && decide (i < 272)
  | .lih p i => decide (p < 208) && decide (i < 272)
  | .beq p i => decide (p < 208) && decide (i < 272)
  | .bne p i => decide (p < 208) && decide (i < 272)
  | .blt p i => decide (p < 208) && decide (i < 272)
  | .bge p i => decide (p < 208) && decide (i < 272)
  | .bltu p i => decide (p < 208) && decide (i < 272)
  | .bgeu p i => decide (p < 208) && decide (i < 272)
  | .jmp p i => decide (p < 208) && decide (i < 272)
  | .jr p i => decide (p < 208) && decide (i < 272)
  | .ld p i => decide (p < 208) && decide (i < 272)
  | .st p i => decide (p < 208) && decide (i < 272)
  | .loadDataReturn p i _ => decide (p < 208) && decide (i < 272)
  | .fadd p i => decide (p < 208) && decide (i < 272)
  | .fsub p i => decide (p < 208) && decide (i < 272)
  | .fmul p i => decide (p < 208) && decide (i < 272)
  | .ffma p i => decide (p < 208) && decide (i < 272)
  | .fcvtif p i => decide (p < 208) && decide (i < 272)
  | .fcvtfi p i => decide (p < 208) && decide (i < 272)
  | .fork p i => decide (p < 208) && decide (i < 272)
  | .halt p i => decide (p < 208) && decide (i < 272)
  | .waite p i => decide (p < 208) && decide (i < 272)
  | .waiteReturn p t => decide (p < 208) && decide (t < 16)
  | .npb p i => decide (p < 208) && decide (i < 272)
  | .npe p i => decide (p < 208) && decide (i < 272)
  | .lkacq p i => decide (p < 208) && decide (i < 272)
  | .lkrel p i => decide (p < 208) && decide (i < 272)
  | .rdctr p i => decide (p < 208) && decide (i < 272)
  | .vadd p i => decide (p < 208) && decide (i < 272)
  | .vsub p i => decide (p < 208) && decide (i < 272)
  | .vshl p i => decide (p < 208) && decide (i < 272)
  | .vadds p i => decide (p < 208) && decide (i < 272)
  | .vsubs p i => decide (p < 208) && decide (i < 272)
  | .vmul p i => decide (p < 208) && decide (i < 272)
  | .vfma p i => decide (p < 208) && decide (i < 272)
  | .vdot p i => decide (p < 208) && decide (i < 272)
  | .vsra p i => decide (p < 208) && decide (i < 272)
  | .vand p i => decide (p < 208) && decide (i < 272)
  | .vor p i => decide (p < 208) && decide (i < 272)
  | .vxor p i => decide (p < 208) && decide (i < 272)
  | .vmin p i => decide (p < 208) && decide (i < 272)
  | .vmax p i => decide (p < 208) && decide (i < 272)
  | .vcmp p i => decide (p < 208) && decide (i < 272)
  | .vsel p i => decide (p < 208) && decide (i < 272)
  | .vcvt p i => decide (p < 208) && decide (i < 272)
  | .vcmac p i => decide (p < 208) && decide (i < 272)
  | .vbf4 p i => decide (p < 208) && decide (i < 272)
  | .vbex p i => decide (p < 208) && decide (i < 272)
  | .vmova p i => decide (p < 208) && decide (i < 272)
  | .vperm4 p i => decide (p < 208) && decide (i < 272)
  | .vred p i => decide (p < 208) && decide (i < 272)
  | .vscan p i => decide (p < 208) && decide (i < 272)
  | .vrcp p i => decide (p < 208) && decide (i < 272)
  | .vrsq p i => decide (p < 208) && decide (i < 272)
  | .vexp2 p i => decide (p < 208) && decide (i < 272)
  | .vlog2 p i => decide (p < 208) && decide (i < 272)
  | .vcni p i => decide (p < 208) && decide (i < 272)
  | .vcnu p i => decide (p < 208) && decide (i < 272)
  | .vcno p i => decide (p < 208) && decide (i < 272)
  | .vld p i => decide (p < 208) && decide (i < 272)
  | .vst p i => decide (p < 208) && decide (i < 272)
  | .vlds p i => decide (p < 208) && decide (i < 272)
  | .vsts p i => decide (p < 208) && decide (i < 272)
  | .vgth p i => decide (p < 208) && decide (i < 272)
  | .vsct p i => decide (p < 208) && decide (i < 272)
  | .vatom p i => decide (p < 208) && decide (i < 272)
  | .vsid p i => decide (p < 208) && decide (i < 272)
  | .vbcst p i => decide (p < 208) && decide (i < 272)
  | .ifP p i => decide (p < 208) && decide (i < 272)
  | .elseP p i => decide (p < 208) && decide (i < 272)
  | .endifP p i => decide (p < 208) && decide (i < 272)
  | .loopP p i => decide (p < 208) && decide (i < 272)
  | .brkP p i => decide (p < 208) && decide (i < 272)
  | .contP p i => decide (p < 208) && decide (i < 272)
  | .endloopP p i => decide (p < 208) && decide (i < 272)
  | .exitP p i => decide (p < 208) && decide (i < 272)
  | .skb p i => decide (p < 208) && decide (i < 272)
  | .skbRelease p n => decide (p < 208) && decide (n < 256)
  | .cpq p i => decide (p < 208) && decide (i < 272)
  | .lin p k e => decide (p < 208) && decide (k < 2) && decide (e < 2)
  | .rect p k e => decide (p < 208) && decide (k < 2) && decide (e < 2)
  | .box p k e => decide (p < 208) && decide (k < 2) && decide (e < 2)
  | .gather p k e => decide (p < 208) && decide (k < 2) && decide (e < 2)
  | .fill p k e => decide (p < 208) && decide (k < 2) && decide (e < 2)
  | .transactionIssue p k e _ _ => decide (p < 208) && decide (k < 2) && decide (e < 2)
  | .weaveTransactionComplete p k e _ data => decide (p < 208) && decide (k < 2) && decide (e < 2) && bytesOk data
  | .copyDescriptorComplete p k e => decide (p < 208) && decide (k < 2) && decide (e < 2)
  | .weaveRequest pt rank _ flits txn _ => decide (pt < 450) && decide (rank < 2) && decide (1 ≤ flits) && decide (flits ≤ 64) && (match txn with | none => true | some z => decide (z.1 < 208))
  | .arbitrationRound pt => decide (pt < 450)
  | .holdCutoff pt _ => decide (pt < 450)
  | .windowStart => true
  | .stackRowAccessComplete pa syms => decide (pa < 1649267441664) && decide (pa % 64 = 0) && decide (syms ≤ 71)
  | .stackRefresh m ch bank => decide (m < 12) && decide (ch < 16) && decide (bank < 32)
  | .refreshComplete m ch bank => decide (m < 12) && decide (ch < 16) && decide (bank < 32)
  | .stackScrub m ch syms => decide (m < 12) && decide (ch < 16) && decide (syms ≤ 71)
  | .frameClearComplete m f => decide (m < 12) && decide (f < 128)
  | .sequencerRequest p k e _ => decide (p < 208) && decide (k < 2) && decide (e < 2)
  | .gatherProgram x words data => decide (x.stack < 12) && words.all (fun w => decide (w < 2 ^ 64)) && bytesOk data
  | .scatter x words data => decide (x.stack < 12) && words.all (fun w => decide (w < 2 ^ 64)) && bytesOk data
  | .kvwalk x words data => decide (x.stack < 12) && words.all (fun w => decide (w < 2 ^ 64)) && bytesOk data
  | .scatadd x words data => decide (x.stack < 12) && words.all (fun w => decide (w < 2 ^ 64)) && bytesOk data
  | .harq x words data => decide (x.stack < 12) && words.all (fun w => decide (w < 2 ^ 64)) && bytesOk data
  | .journalWrite => true
  | .stackProgramComplete m _ => decide (m < 12)
  | .channelMigration m ch _ => decide (m < 12) && decide (ch < 16)
  | .migrationComplete m => decide (m < 12)
  | .channelFail m ch => decide (m < 12) && decide (ch < 16)
  | .mirrorRebuildComplete m => decide (m < 12)
  | .stackLost m => decide (m < 12)
  | .journalRebuildComplete => true
  | .cclPortUp i up => decide (i < 2) && [8, 16].contains up.lanes && decide (up.base < 2 ^ 51)
  | .cclPortDown i lanes => decide (i < 2) && decide (lanes < 16)
  | .cclRetry i => decide (i < 2)
  | .snpinv a => decide (a % 64 = 0) && decide (a < 2251799813685248)
  | .lineDataReturn _ data => decide (data.length = 64) && bytesOk data
  | .writeAcknowledge _ => true
  | .watchedLineReread => true
  | .timeBaseLock n => decide (n < 4)
  | .timeBaseUnlock n => decide (n < 4)
  | .holdover n => decide (n < 4)
  | .ppsEdge i frac => decide (i < 2) && decide (frac < 256)
  | .timeOfDayMessage cs => bytesOk cs
  | .todMessageTimeout i => decide (i < 2)
  | .ppsMissing i => decide (i < 2)
  | .frequencyWindow src _ => decide (src < 25)
  | .delayReqSend n => decide (n < 2)
  | .ppsOutPulse => true
  | .ppsOutPulseEnd => true
  | .beatTracePulseEnd => true
  | .ingressFrame p f frac => decide (p < 24) && decide (f.sub < 4) && decide (frac < 256)
  | .egressFrameQueue p cls flow len _ _ _ _ => decide (p < 24) && decide (cls < 5) && decide (flow < 1024) && decide (64 ≤ len)
  | .egressFrameStart p sub_ => decide (p < 24) && decide (sub_ < 4)
  | .egressFrameEnd p sub_ => decide (p < 24) && decide (sub_ < 4)
  | .egressFrameLate p _ => decide (p < 24)
  | .refill p => decide (p < 24)
  | .subportUp p sub_ => decide (p < 24) && decide (sub_ < 4)
  | .subportDown p sub_ => decide (p < 24) && decide (sub_ < 4)
  | .moduleInsertion p ident cmis age _ _ => decide (p < 24) && decide (ident < 256) && decide (cmis < 256) && decide (age < 256)
  | .moduleReadyTimeout p => decide (p < 24)
  | .moduleInterrupt p state age => decide (p < 24) && decide (state < 6) && decide (age < 256)
  | .modulePeriodicRead p read => decide (p < 24) && decide (read.state < 6) && decide (read.age < 256)
  | .peWatchdogExpiry p => decide (p < 24)
  | .peRestartComplete p => decide (p < 24)
  | .paramRequest q _ _ phy => decide (q < 64) && decide (phy < 65536)
  | .configRequest q _ _ phy _ => decide (q < 64) && decide (phy < 65536)
  | .startRequest q _ _ phy => decide (q < 64) && decide (phy < 65536)
  | .cellStart _ => true
  | .stopRequest q _ _ phy => decide (q < 64) && decide (phy < 65536)
  | .dlTtiRequest q _ _ phy _ => decide (q < 64) && decide (phy < 65536)
  | .ulTtiRequest q _ _ phy _ _ _ _ => decide (q < 64) && decide (phy < 65536)
  | .ulDciRequest q _ _ phy _ => decide (q < 64) && decide (phy < 65536)
  | .txDataRequest q _ _ phy _ => decide (q < 64) && decide (phy < 65536)
  | .modelLoadRequest q _ _ phy _ _ _ _ _ => decide (q < 64) && decide (phy < 65536)
  | .dpdTrainRequest q _ _ phy _ _ _ _ => decide (q < 64) && decide (phy < 65536)
  | .dpdTrainComplete _ _ _ => true
  | .dpdTrainTimeout _ _ => true
  | .slotStart mu => [0, 1, 3].contains mu
  | .contextHalt g => decide (g < 127)
  | .ceFallbackEnd _ => true
  | .indicationDiscard q => decide (q < 64)
  | .cableDetected w => decide (w < 16)
  | .cableIdentityReadComplete w record _ _ _ _ => decide (w < 16) && bytesOk record && (record.isEmpty || decide (record.length = 128))
  | .linkUp w peer _ lanes _ => decide (w < 16) && decide (peer < 65535) && [2, 4].contains lanes
  | .retrain w _ lanes => decide (w < 16) && [0, 2, 4].contains lanes
  | .flitCrcError w after => decide (w < 16) && decide (after < 512)
  | .nak w good credits => decide (w < 16) && decide (good < 1024) && decide (credits < 256)
  | .wr w h data _ => decide (w < 16) && h.fits && bytesOk data
  | .rd w h len _ data => decide (w < 16) && h.fits && decide (0 < len) && decide (len ≤ 4096) && bytesOk data
  | .rddata w h data => decide (w < 16) && h.fits && bytesOk data
  | .ack w h => decide (w < 16) && h.fits
  | .nack w h cause => decide (w < 16) && h.fits && decide (cause < 256)
  | .transactionTimeout _ => true
  | .ringTimeExchange w => decide (w < 16)
  | .time w kind n ts frac => decide (w < 16) && decide (kind < 3) && decide (n < 256) && decide (ts < 16777216) && decide (frac < 256)
  | .laneHourTick w l => decide (w < 16) && decide (l < 4)
  | .ledgerCopy => true
  | .heartbeatSend => true
  | .hb x score => decide (x < 2) && decide (score < 1024)
  | .heartbeatMissWindow x => decide (x < 2)
  | .suspect x => decide (x < 2)
  | .death x m => decide (x < 2) && m.fits
  | .probe w d => decide (w < 16) && decide (d < 65536)
  | .probeAck w d => decide (w < 16) && decide (d < 65536)
  | .witnessProbeTimeout _ => true
  | .dreply x m => decide (x < 2) && m.fits
  | .commit x m => decide (x < 2) && m.fits
  | .fenceNotice w => decide (w < 16)
  | .budget x m => decide (x < 2) && m.fits
  | .budgetTokenTimeout => true
  | .healthUpdate => true
  | .expulsionCandidate => true
  | .admitMessage x m => decide (x < 2) && m.fits
  | .claim w m => decide (w < 16) && m.fits
  | .claimRes w m => decide (w < 16) && m.fits
  | .eventRecordEmit => true
  | .attest => true
  | .fwWrite _ => true
  | .flashProgramComplete _ => true
  | .fwActivate => true
  | .activationStepComplete _ => true
  | .fwCommit => true
  | .fwRevert => true
  | .cfgWrite _ _ => true
  | .cfgCommit => true
  | .sensorSample u k temp => decide (u < 28) && decide (k < sensorCount u) && decide (temp < 1024)
  | .avsTimeout => true
  | .avsAnswer => true
  | .bypass => true
  | .idcode => true
  | .samplePreload _ => true
  | .extest => true
  | .extestPulse => true
  | .extestTrain => true
  | .illegalInstruction p i => decide (p < 208) && decide (i < 272)
  | .instructionFetchFault p i => decide (p < 208) && decide (i < 272)
  | .illegalCopyDescriptor p k e => decide (p < 208) && decide (k < 2) && decide (e < 2)
  | .warmResetEnd => true

end Sys2Proof
end

