-- ==== Sys2Proof/Tests/Slice0.lean ====
section
/-!
SUPPORT. Tests: ill-formed commands that the check refuses, words and states that meet the hypotheses of the statements, and a few steps.
-/
namespace Sys2Proof.Tests
open Sys2Proof Sys2Proof.Machine

set_option Elab.async false  -- the kernel evaluations of the tests run one after another

/-! ## States for instructions -/

/-- A word of a class and opcode with operand fields f. -/
def wd (cls op f : Nat) : Nat := cls * 2 ^ 60 + op * 2 ^ 54 + f

/-- Core slot 0, in a shared lease: a command with its code at 4096, running on issuer i (a thread, or plait i - 16), and the word w next. -/
def slot0 (w i : Nat) : Core :=
  { Core.zero with
    sp := Memory.write [] 4096 (leBytes 8 w)
    threads := if i < 16 then [(i, { Thread.idle with running := true, pc := 4096, ctx := .tenant 1, cmd := 1, s := [(1, 7), (2, 9), (3, 64)] })] else []
    plaits := if i < 16 then [] else
      [(i - 16, { Plait.idle with pc := 4096, ctx := .tenant 1, cmd := 1, nreg := 16, live := 0xFF, active := 0xF })]
    residents := [⟨1, .tenant 1, 0, 4096, 64, 0, 1, 5, none, 0, 0, 0, 0, false⟩]
    nextId := 3 }

def next (w i : Nat) : State := { State.reset with cores := [(0, slot0 w i)], regs := [(.coreCqPlan 0, 2#64 <<< 30)] }

/-- The issuer may issue the word as this row. -/
def ready (s : State) (p i cls op : Nat) (legal : State → Iss → Bool) : Bool :=
  match s.iss p i with
  | some x => !s.clocksStopped && s.fetchOk x && !Core.spBad (s.core p) x.pc 8 && decide (x.f 62 60 = cls) && decide (x.f 59 54 = op)
      && s.issReady x && legal s x
  | none => false

/-- `ready` says that the hypotheses of the instruction statements hold. -/
theorem ready_issues {s : State} {p i cls op : Nat} {legal : State → Iss → Bool} (h : ready s p i cls op legal = true) :
    ∃ x, s.iss p i = some x ∧ s.Issues p i cls op x ∧ legal s x = true := by
  unfold ready at h
  split at h
  · rename_i x hx
    simp only [Bool.and_eq_true, Bool.not_eq_true', decide_eq_true_eq] at h
    obtain ⟨⟨⟨⟨⟨⟨a, b⟩, c⟩, d⟩, e⟩, f⟩, g⟩ := h
    exact ⟨x, hx, ⟨a, hx, b, c, d, e, f⟩, g⟩
  · cases h

/-- A row: word, class, opcode, legality. -/
abbrev Row := Nat × Nat × Nat × (State → Iss → Bool)
def rowsReady (i : Nat) (l : List Row) : Bool := l.all fun y => ready (next y.1 i) 0 i y.2.1 y.2.2.1 y.2.2.2

/-- Three scalar operands rd 1, ra 2, rb 3. -/
def r3 : Nat := 1 * 2 ^ 49 + 2 * 2 ^ 44 + 3 * 2 ^ 39

theorem test_scalar_integer_rows : rowsReady 0
    [(wd 0 0x01 r3, 0, 0x01, legalR), (wd 0 0x02 r3, 0, 0x02, legalR), (wd 0 0x03 r3, 0, 0x03, legalR), (wd 0 0x04 r3, 0, 0x04, legalR),
     (wd 0 0x05 r3, 0, 0x05, legalR), (wd 0 0x06 r3, 0, 0x06, legalR), (wd 0 0x07 r3, 0, 0x07, legalR), (wd 0 0x08 r3, 0, 0x08, legalR),
     (wd 0 0x0A (2 ^ 49 + 5), 0, 0x0A, legalI), (wd 0 0x0B (2 ^ 49 + 5), 0, 0x0B, legalI0), (wd 0 0x0C (2 ^ 49 + 5), 0, 0x0C, legalI0),
     (wd 0 0x09 (2 ^ 49 + 7 * 256 + 8), 0, 0x09,
       fun s x => legalI s x && decide (x.f 7 6 = 0) && decide (x.f 31 14 = 0) && decide (x.f 5 0 + x.f 13 8 ≤ 63)),
     (wd 0 0x37 (2 ^ 49 + 4), 0, 0x37, fun s x => legalI0 s x && decide (x.f 2 0 ≤ 4) && decide (x.f 31 3 = 0))] = true := by decide

/-- rd = s0 discards the result (R133): the row still goes on. -/
theorem test_add_to_s0 : ready (next (wd 0 0x01 (2 * 2 ^ 44)) 0) 0 0 0 0x01 legalR = true := by decide

theorem test_branches : rowsReady 0
    [(wd 0 0x10 (2 * 2 ^ 44 + 16), 0, 0x10, legalB), (wd 0 0x11 (2 * 2 ^ 44 + 16), 0, 0x11, legalB),
     (wd 0 0x12 (2 * 2 ^ 44 + 16), 0, 0x12, legalB), (wd 0 0x13 (2 * 2 ^ 44 + 16), 0, 0x13, legalB),
     (wd 0 0x14 (2 * 2 ^ 44 + 16), 0, 0x14, legalB), (wd 0 0x15 (2 * 2 ^ 44 + 16), 0, 0x15, legalB),
     (wd 0 0x16 16, 0, 0x16, fun s x => legalB s x && decide (x.ra = 0) && decide (x.rb = 0)),
     (wd 0 0x17 (3 * 2 ^ 44), 0, 0x17, fun s x => legalR s x && decide (x.rd = 0) && decide (x.rb = 0))] = true := by decide

theorem test_fp_rows : rowsReady 0
    [(wd 0 0x20 r3, 0, 0x20, legalR), (wd 0 0x21 r3, 0, 0x21, legalR), (wd 0 0x22 r3, 0, 0x22, legalR),
     (wd 0 0x23 (r3 + 3 * 2 ^ 34), 0, 0x23, legalR4), (wd 0 0x24 (2 ^ 49 + 2 * 2 ^ 44 + 4), 0, 0x24, legalI),
     (wd 0 0x25 (2 ^ 49 + 2 * 2 ^ 44 + 4), 0, 0x25, legalI)] = true := by decide

theorem test_ld_st : rowsReady 0
    [(wd 0 0x18 (2 ^ 49 + 3 * 2 ^ 44 + 3 * 2 ^ 32), 0, 0x18, fun s x => ldForm x &&
        decide (s.readFault 0 x.k [(addrOf s x, sizeOfAccess x)] = none)),
     (wd 0 0x19 (2 ^ 49 + 3 * 2 ^ 44 + 2 * 2 ^ 32), 0, 0x19, fun s x => stForm x &&
        decide (s.writeFault 0 x.k [(addrOf s x, sizeOfAccess x)] = none))] = true := by decide

/-- A load in flight of thread 0, and of plait 0. -/
def loading (l : Load) (i : Nat) : State :=
  { next 0 i with cores := [(0, { slot0 0 i with
      threads := if i < 16 then [(i, { Thread.idle with running := true, pc := 4096, ctx := .tenant 1, cmd := 1, loads := [l] })] else []
      plaits := if i < 16 then [] else [(i - 16, { Plait.idle with pc := 4096, ctx := .tenant 1, cmd := 1, live := 1, active := 1, loads := [l] })] })] }

theorem test_load_in_flight :
    (((loading ⟨.scalar 4, 77, 0⟩ 0).core 0).thread 0).loads[0]? = some ⟨.scalar 4, 77, 0⟩ ∧
    (((loading ⟨.vector 4, 77, 1⟩ 16).core 0).plait 0).loads[0]? = some ⟨.vector 4, 77, 1⟩ ∧
    (((loading ⟨.vector 63, 77, 1⟩ 15).core 0).thread 15).loads[0]? = some ⟨.vector 63, 77, 1⟩ ∧
    (loading ⟨.scalar 4, 77, 0⟩ 0).clocksStopped = false := by decide

/-- 77 arrives in s4. -/
theorem test_load_arrives : ∃ t, exec (.loadDataReturn 0 0 0) (loading ⟨.scalar 4, 77, 0⟩ 0) = .next t ∧
    ((t.core 0).thread 0).reg 4 = 77 := ⟨_, rfl, by decide⟩

/-- Every thread of side 0 runs. -/
def busy (w : Nat) : State :=
  { next w 0 with cores := [(0, { slot0 w 0 with threads := (List.range 12).map fun i =>
      (i, { Thread.idle with running := true, pc := 4096, ctx := .tenant 1, cmd := 1 }) })] }

theorem test_fork : ready (next (wd 0 0x30 (4 * 2 ^ 49 + 2)) 0) 0 0 0 0x30 (fun s x => legalI0 s x && ((s.core 0).thread 0).region.isNone &&
      (List.range 12).find? (fun t => !((s.core 0).thread t).running) == some 1) = true ∧
    ready (busy (wd 0 0x30 (4 * 2 ^ 49 + 2))) 0 0 0 0x30 (fun s x => legalI0 s x && ((s.core 0).thread 0).region.isNone &&
      (List.range 12).find? (fun t => !((s.core 0).thread t).running) == none) = true := by decide

theorem test_halt_waite : rowsReady 0
    [(wd 0 0x31 0, 0, 0x31, fun s x => legalNone s x && ((s.core 0).thread 0).region.isNone),
     (wd 0 0x32 (16 * 256 + 1), 0, 0x32, fun s x => legalI0 s x && decide (x.rd = 0) && decide (x.f 7 2 = 0) && decide (x.f 31 13 = 0) &&
        decide (x.f 1 0 ≠ 3) && decide (x.f 12 8 ≤ 16))] = true := by decide

/-- Thread 0 with a region, a wait and a hold count. -/
def held (w : Nat) (r : Option Region) (a : Option Waite) (n : Nat) : State :=
  { next w 0 with cores := [(0, { slot0 w 0 with threads :=
      [(0, { Thread.idle with running := true, pc := 4096, ctx := .tenant 1, cmd := 1, region := r, wait := a, hold := n })] })] }

theorem test_waite_return : ((held 0 none (some ⟨0, 0⟩) 0).core 0).ownEntries 0 0 ≤ 0 ∧
    ((((held 0 none (some ⟨0, 0⟩) 0).core 0).thread 0).running && decide ((((held 0 none (some ⟨0, 0⟩) 0).core 0).thread 0).wait = some ⟨0, 0⟩))
      = true := by decide

theorem test_regions : ready (next (wd 0 0x33 0) 0) 0 0 0 0x33 (fun s x => legalNone s x && ((s.core 0).thread 0).region.isNone) = true ∧
    ready (held (wd 0 0x34 0) (some .npb) none 5) 0 0 0 0x34 (fun s x => legalNone s x &&
      decide (((s.core 0).thread 0).region = some .npb)) = true := by decide

/-- The state with the word w next, lock 0 in state st of owner o, and the tenant side at stop. -/
def lockAt (w i st o : Nat) (stop : Stop) : State :=
  let c := slot0 w i
  let l := CORE_CQ_LOCK.LAST.set (CORE_CQ_LOCK.OWNER.set (CORE_CQ_LOCK.STATE.set 0 st) o) 9
  { next w i with
    cores := [(0, { c with t := { c.t with stop := stop }, threads := c.threads.map fun y => (y.1, { y.2 with region := some (.lock 0) }) })]
    regs := [(.coreCqLock 0 0, l), (.coreCqPlan 0, 2#64 <<< 30)] }

/-- LKACQ of lock 0 by lease and as an NP lock, and by a plait; of a HELD and a BROKEN lock; LKREL by a thread, in a region wait, and by a
plait; words that break R178 and R179. Lock 0 lies in the range of the tenant side. -/
theorem test_locks : rowsReady 0
    [(wd 0 0x35 (4 * 2 ^ 49 + 3 * 256), 0, 0x35, lkacqForm), (wd 0 0x35 (4 * 2 ^ 49 + 128), 0, 0x35, lkacqForm),
     (wd 0 0x36 (4 * 2 ^ 49), 0, 0x36, lkrelForm), (wd 0 0x35 (4 * 2 ^ 49), 0, 0x35, fun s x => !lkacqForm s x && decide (s.owed x = [])),
     (wd 0 0x36 (4 * 2 ^ 49 + 63), 0, 0x36, fun s x => !lkrelForm s x && decide (s.owed x = []))] = true ∧
    rowsReady 16 [(wd 0 0x35 (4 * 2 ^ 49 + 3 * 256), 0, 0x35, lkacqForm), (wd 0 0x36 (4 * 2 ^ 49), 0, 0x36, lkrelForm)] = true ∧
    ready (lockAt (wd 0 0x35 (4 * 2 ^ 49 + 3 * 256)) 0 1 2 .run) 0 0 0 0x35 lkacqForm = true ∧
    ready (lockAt (wd 0 0x35 (4 * 2 ^ 49 + 3 * 256)) 0 2 0 .run) 0 0 0 0x35 lkacqForm = true ∧
    ready (lockAt (wd 0 0x36 (4 * 2 ^ 49)) 0 1 1 .regionWait) 0 0 0 0x36 lkrelForm = true := by decide

/-- Reserved opcodes and classes, a plait row on a thread, and an R word with a bit in an unused field. -/
theorem test_illegal_words :
    opcodeNamed 0 0x3F = false ∧ opcodeNamed 5 0 = false ∧ issuerMay true 2 0x30 = false ∧ issuerMay false 0 0x01 = false ∧
    ready (next (wd 0 0x3F 0) 0) 0 0 0 0x3F (fun _ _ => true) = true ∧ ready (next (wd 2 0x30 0) 0) 0 0 2 0x30 (fun _ _ => true) = true ∧
    ready (next (wd 0 0x01 1) 0) 0 0 0 0x01 (fun s x => !legalR s x) = true ∧
    ready (next (wd 0 0x02 1) 0) 0 0 0 0x02 (fun s x => !legalR s x) = true ∧
    ready (next (wd 0 0x03 1) 0) 0 0 0 0x03 (fun s x => !legalR s x) = true := by decide

/-- A fetch past the code region. -/
theorem test_fetch_outside : (match ({ next 0 0 with cores := [(0, { slot0 0 0 with threads :=
      [(0, { Thread.idle with running := true, ctx := .tenant 1, cmd := 1, pc := 4160 })] })] } : State) with
    | s => (s.iss 0 0).map fun x => s.fetchOk x) = some false := by decide

theorem test_ve_fault : State.reset.getF (.coreVeFault 0) CORE_VE_FAULT.VALID = 0 ∧
    ({ State.reset with regs := [(.coreVeFault 0, 1#64 <<< 31)] } : State).getF (.coreVeFault 0) CORE_VE_FAULT.VALID = 1 := by decide

/-! ## Vector rows -/

/-- Fields: D 4, A 8, B 12, mask 0. -/
def dab : Nat := 4 * 2 ^ 45 + 8 * 2 ^ 39 + 12 * 2 ^ 33
def da : Nat := 4 * 2 ^ 45 + 8 * 2 ^ 39
def vrow (op f : Nat) (u : VUse) : Row := (wd 2 op f, 2, op, u.legal)
def fm (n : Nat) : Nat := n * 2 ^ 23

theorem test_vector_rows : rowsReady 0
    [vrow 0x01 dab useDAB, vrow 0x02 dab useDAB, vrow 0x03 dab useDAB, vrow 0x04 (dab + fm 4) useDABF, vrow 0x05 (dab + fm 4) useDABF,
     vrow 0x06 (dab + fm 15) useDABF, vrow 0x07 (dab + 16 * 2 ^ 27 + fm 15) useVfma, vrow 0x08 (dab + fm 3) useVdot, vrow 0x09 dab useDAB,
     vrow 0x0A (dab + fm 4) useDABF, vrow 0x0B (dab + fm 4) useDABF, vrow 0x0C (dab + fm 4) useDABF, vrow 0x0D (dab + fm 13) useDABF,
     vrow 0x0E (dab + fm 7) useDABF, vrow 0x10 (dab + 2) useVsel, vrow 0x19 da useDA, vrow 0x1A da useDA, vrow 0x1B da useDA,
     vrow 0x1C da useDA, vrow 0x28 (4 * 2 ^ 45 + 2 * 2 ^ 18) useVbcst] = true := by decide

/-- VSID and the other rows on a plait. -/
theorem test_vector_rows_of_a_plait : rowsReady 16
    [vrow 0x27 (4 * 2 ^ 45 + 3) useVsid, vrow 0x01 dab useDAB, vrow 0x16 (4 * 2 ^ 45 + 8 * 2 ^ 39 + 13 * 2 ^ 33) useDAB] = true := by decide

theorem test_vector_rows_beside_lanes : rowsReady 0
    [(wd 2 0x0F (2 * 2 ^ 45 + 8 * 2 ^ 39 + 12 * 2 ^ 33 + fm 4 + 1), 2, 0x0F, vcmpLegal), vrow 0x11 (da + fm 3 + 4) useVcvt,
     vrow 0x12 (dab + fm 7) useVcmac, vrow 0x13 (dab + 5 * 2 ^ 13 + 1) useVbf4, vrow 0x14 (8 * 2 ^ 39 + 5 * 2 ^ 13 + 4) useVbex,
     vrow 0x15 (da + fm 7 + 2 * 2 ^ 18) useVmova, vrow 0x16 dab useDAB, vrow 0x17 (da + fm 4) useRed, vrow 0x18 (da + fm 4) useRed,
     vrow 0x1D (4 * 2 ^ 45) useVcni, vrow 0x1E (da + 62) useVcnu, vrow 0x1F (dab + 9) useVcno] = true := by decide

theorem test_vcvt_stochastic : ready (next (2 ^ 63 + wd 2 0x11 (da + fm 3 + 4 + 16)) 0) 0 0 2 0x11 useVcvt.legal = true := by decide

theorem test_vector_loads : rowsReady 0
    [(wd 2 0x20 (4 * 2 ^ 45 + 3 * 2 ^ 18 + 8), 2, 0x20, fun s x => useVld.legal s x &&
        decide (s.readFault 0 x.k ((lanesOn (s.onLanes x)).map fun l => (s.vAddr x l, 4)) = none)),
     (wd 2 0x22 (4 * 2 ^ 45 + 3 * 2 ^ 18 + 1 * 2 ^ 13 + fm 4), 2, 0x22, fun s x => useVlds.legal s x &&
        decide (s.readFault 0 x.k ((lanesOn (s.onLanes x)).map fun l => (s.stridedElt x (s.vfmt x) l).span (s.vfmt x)) = none)),
     (wd 2 0x24 (da + fm 4), 2, 0x24, fun s x => useVgth.legal s x &&
        decide (s.readFault 0 x.k ((lanesOn (s.onLanes x)).map fun l =>
          (eltOfLane (s.vfmt x) (laneOf ((s.bank x).reg x.v.a) l)).span (s.vfmt x)) = none))] = true := by decide +kernel

theorem test_vector_stores : rowsReady 0
    [(wd 2 0x21 (4 * 2 ^ 45 + 3 * 2 ^ 18 + 8), 2, 0x21, fun s x => useVld.legal s x &&
        decide (s.writeFault 0 x.k ((lanesOn (s.onLanes x)).map fun l => (s.vAddr x l, 4)) = none)),
     (wd 2 0x23 (4 * 2 ^ 45 + 3 * 2 ^ 18 + 1 * 2 ^ 13 + fm 4), 2, 0x23, fun s x => useVlds.legal s x && !(s.vfmt x).isBfp &&
        decide (s.writeFault 0 x.k ((lanesOn (s.onLanes x)).map fun l => (s.stridedElt x (s.vfmt x) l).span (s.vfmt x)) = none)),
     (wd 2 0x25 (da + fm 4), 2, 0x25, fun s x => useVsct.legal s x &&
        decide (s.writeFault 0 x.k ((lanesOn (s.onLanes x)).map fun l =>
          (eltOfLane (s.vfmt x) (laneOf ((s.bank x).reg x.v.a) l)).span (s.vfmt x)) = none))] = true := by decide +kernel

/-- A strided store of a BFP format needs the stride 1: SR names s4, which holds 1. -/
theorem test_bfp_store : ready ({ next 0 0 with cores := [(0, { slot0 (wd 2 0x23 (4 * 2 ^ 45 + 3 * 2 ^ 18 + 4 * 2 ^ 13 + fm 9)) 0 with
      threads := [(0, { Thread.idle with running := true, pc := 4096, ctx := .tenant 1, cmd := 1, s := [(3, 64), (4, 1)] })] })] }) 0 0 2 0x23
      (fun s x => useVlds.legal s x && (s.vfmt x).isBfp && decide ((s.sval x x.v.sr).toNat = 1)) = true := by decide

theorem test_vatom : ready (next (wd 2 0x26 (dab + 16 * 2 ^ 27 + 1)) 0) 0 0 2 0x26 (fun s x => useVatom.legal s x &&
      (let spans := (lanesOn (s.onLanes x)).map fun l => (laneOf ((s.bank x).reg x.v.a) l, 4)
       decide (s.readFault 0 x.k spans = none) && decide (s.writeFault 0 x.k spans = none))) = true := by decide +kernel

/-! ## Plaits -/

/-- Plait 0 with a stack of divergence, four lanes active of eight live. -/
def plaitAt (op : Nat) (st : List Recon) (arrived : Bool) : State :=
  { next (wd 2 op 0) 16 with cores := [(0, { slot0 (wd 2 op 0) 16 with plaits :=
      [(0, { Plait.idle with pc := 4096, ctx := .tenant 1, cmd := 1, nreg := 16, live := 0xFF, active := 0xF, stack := st, arrived := arrived }),
       (1, { Plait.idle with pc := 4096, ctx := .tenant 1, cmd := 1, nreg := 16, live := 0xFF, active := 0xF, arrived := arrived })] })] }

theorem test_plait_rows :
    ready (plaitAt 0x30 [] false) 0 16 2 0x30 (fun s x => useCtlK.legal s x && decide ((s.plaitOf x).stack.length < 32)) = true ∧
    ready (plaitAt 0x31 [.cond 0xFF 0xF] false) 0 16 2 0x31 (fun s x => useCtl.legal s x && topIsCond (s.plaitOf x)) = true ∧
    ready (plaitAt 0x32 [.cond 0xFF 0xF] false) 0 16 2 0x32 (fun s x => useCtl.legal s x && topIsCond (s.plaitOf x)) = true ∧
    ready (plaitAt 0x33 [] false) 0 16 2 0x33 (fun s x => useCtl.legal s x && decide ((s.plaitOf x).stack.length < 32)) = true ∧
    ready (plaitAt 0x34 [.loop 0xFF 0xFF 8] false) 0 16 2 0x34 (fun s x => useCtlK.legal s x && inLoop (s.plaitOf x).stack) = true ∧
    ready (plaitAt 0x35 [.cond 0xFF 0xF, .loop 0xFF 0xFF 8] false) 0 16 2 0x35
      (fun s x => useCtlK.legal s x && inLoop (s.plaitOf x).stack) = true ∧
    ready (plaitAt 0x36 [.loop 0xFF 0xFF 8] false) 0 16 2 0x36 (fun s x => useCtl.legal s x && topIsLoop (s.plaitOf x)) = true ∧
    ready (plaitAt 0x37 [] false) 0 16 2 0x37
      (fun s x => useCtl.legal s x && decide ((s.plaitOf x).live &&& ~~~(s.plaitOf x).active ≠ 0)) = true ∧
    ready (plaitAt 0x38 [] false) 0 16 2 0x38 useCtl.legal = true ∧
    ready ({ plaitAt 0x37 [.cond 0xF 0] false with cores := [(0, { slot0 (wd 2 0x37 0) 16 with plaits :=
        [(0, { Plait.idle with pc := 4096, ctx := .tenant 1, cmd := 1, nreg := 16, live := 0xF, active := 0xF, stack := [.cond 0xF 0] })] })] })
      0 16 2 0x37 (fun s x => useCtl.legal s x && decide ((s.plaitOf x).live &&& ~~~(s.plaitOf x).active = 0)) = true := by decide

theorem test_skein_barrier : (((plaitAt 0 [] true).core 0).plait 0).arrived = true ∧
    (∀ y ∈ ((plaitAt 0 [] true).core 0).plaits, y.2.cmd = (((plaitAt 0 [] true).core 0).plait 0).cmd →
      y.2.skein = (((plaitAt 0 [] true).core 0).plait 0).skein → y.2.arrived = true) := by decide

/-! ## Matrix rows -/

theorem test_matrix_rows : rowsReady 0
    [(wd 1 0x01 (3 * 2 ^ 47 + 7 * 2 ^ 43 + 3 * 2 ^ 8 + 3 * 2 ^ 3), 1, 0x01, fun s x => mmtLegal s x && decide (((s.core 0).side x.k).meQ.length < 16)),
     (wd 1 0x02 (3 * 2 ^ 47 + 3 * 2 ^ 41 + 3 * 2 ^ 36), 1, 0x02, mwlLegal),
     (wd 1 0x03 (3 * 2 ^ 28 + 3 * 2 ^ 16 + 3 * 2 ^ 11), 1, 0x03, mdrLegal)] = true := by decide

/-! ## Queues of the matrix engine and the copy engines -/

/-- Core slot 0 in a shared lease of instance 1, as f makes it. -/
def core0 (f : Core → Core) : State := { State.reset with cores := [(0, f (slot0 0 0))], regs := [(.coreCqPlan 0, 2#64 <<< 30)] }

def mmt1 : MmtOp :=
  { part := 0, af := .int8, planes := 8, m := 1, asrc := 0, astride := 64, arow := 0, acc := false, swap := false, c := 0 }
def mdr1 : MdrOp :=
  { row0 := 0, nrows := 1, cols := 0, df := .int8, dig := false, sh := 0, dst := 0, dstride := 64, sr := 0, shdst := 0, useShdst := false }
def mwl1 : MwlOp := { part := 0, wf := .int8, link := false, wsrc := 0, wstride := 64 }
def tile1 : Tile :=
  { id := 3, part := 0, side := 0, ctx := .tenant 1, cmd := 1, wf := .int8, src := 0, stride := 64, place := .active, loaded := true,
    cols := [], bad := 0 }
def entry (op : MeOp) (id : Nat) : MeEntry :=
  { id := id, thread := 0, ctx := .tenant 1, cmd := 1, op := op, phase := .running, tile := 3, next := 0 }
def meWith (e : MeEntry) : State := core0 fun c => { c with t := { c.t with meQ := [e] }, tiles := [tile1] }
def mmtFull : State :=
  { next (wd 1 0x01 (3 * 2 ^ 47 + 7 * 2 ^ 43 + 3 * 2 ^ 8 + 3 * 2 ^ 3)) 0 with cores :=
    [(0, { slot0 (wd 1 0x01 (3 * 2 ^ 47 + 7 * 2 ^ 43 + 3 * 2 ^ 8 + 3 * 2 ^ 3)) 0 with
      t := { Side.zero with meQ := (List.range 16).map fun i => entry (.mmt mmt1) (20 + i) } })] }

theorem test_me_queue_full : ready mmtFull 0 0 1 0x01 (fun s x => mmtLegal s x && decide (16 ≤ ((s.core 0).side x.k).meQ.length)) = true := by
  decide

theorem test_me_completions :
    (((meWith (entry (.mmt mmt1) 5)).core 0).running 0 5 = some (entry (.mmt mmt1) 5) ∧
      ((meWith (entry (.mmt mmt1) 5)).core 0).mmtDone 0 (entry (.mmt mmt1) 5) mmt1 = true) ∧
    (((meWith (entry (.mdr mdr1) 6)).core 0).running 0 6 = some (entry (.mdr mdr1) 6) ∧
      ((meWith (entry (.mdr mdr1) 6)).core 0).mdrDone 0 (entry (.mdr mdr1) 6) = true) ∧
    ((((meWith (entry (.mwl mwl1) 3)).core 0).side 0).meQ.filter (fun e => e.mwl?.isSome && e.phase == .running) = [entry (.mwl mwl1) 3] ∧
      ((meWith (entry (.mwl mwl1) 3)).core 0).tile? 3 = some tile1 ∧ ((meWith (entry (.mwl mwl1) 3)).core 0).reload = []) ∧
    (let s := core0 fun c => { c with tiles := [{ tile1 with place := .shadow, loaded := false }], reload := [3] }
     (s.core 0).reload ≠ [] ∧ (s.core 0).t.stop = .run ∧ (s.core 0).borrow = none ∧ (s.core 0).takeover = none) := by decide

/-- A vector of real integers on partition 0: nothing scaled, no bad segment. -/
theorem test_matrix_vector : mmt1.af.isScaled = false ∧ Fmt.int8.isScaled = false ∧ Fmt.int8.isComplex = false ∧
    0 < (partGeom mmt1.part).2.2.2 ∧
    ({ Side.zero with acc := [(0, accPoison)] } : Side).accAt 0 ((partGeom mmt1.part).2.2.1 + 0) = accPoison ∧ (Side.zero.accAt 0 ((partGeom mmt1.part).2.2.1 + 0)).natAbs < 2 ^ 47 := by decide

/-- A descriptor of 64 bytes from the own scratchpad to stack memory. -/
def lin1 : CopyDesc :=
  { op := 1, ord := false, notify := false, sspace := 0, dspace := 1, conv := false, idxw := 0, sf := 0, df := 0, shift := 0, saddr := 0,
    daddr := 0, len0 := 64, cnt1 := 0, cnt2 := 0, sstr1 := 0, sstr2 := 0, dstr1 := 0, dstr2 := 0, idxaddr := 0, nidx := 0, naddr := 0,
    nval := 0, dirty := false }
def ce1 (d : CopyDesc) (started : Bool) (row : Nat) (ps : List Piece) (ts : List Txn) : CeEntry :=
  { id := 9, thread := some 0, ctx := .tenant 1, cmd := 1, desc := d, peers := [], started := started, row := row, elem := 0, next := 0,
    pieces := ps, inflight := ts }
def ceWith (y : CeEntry) : State := core0 fun c => { c with t := { c.t with ce0 := ⟨[y], false⟩ } }

theorem test_descriptors_start :
    ([lin1, { lin1 with op := 2 }, { lin1 with op := 3 }, { lin1 with op := 4, nidx := 2 }, { lin1 with op := 5 },
      { lin1 with notify := true, naddr := 128, nval := 1 }].all fun d =>
        d.legal && (ceWith (ce1 d false 0 [] [])).ceRuns 0 0 0 &&
        decide (((ceWith (ce1 d false 0 [] [])).ceQueue 0 0 0).startable = some (ce1 d false 0 [] [])) &&
        (!d.notify || (ceWith (ce1 d false 0 [] [])).spOk 0 0 d.naddr 4) &&
        (ceWith (ce1 d false 0 [] [])).spOk 0 0 d.idxaddr (d.nidx * 2 * 2 ^ d.idxw)) = true ∧
    ({ lin1 with len0 := 0 }).legal = false ∧
    ((ceWith (ce1 { lin1 with op := 6 } false 0 [] [])).ceQueue 0 0 0).startable = some (ce1 { lin1 with op := 6 } false 0 [] []) := by decide

/-- CPQ at s3 = 64. -/
theorem test_cpq : ready (next (wd 3 0x01 (3 * 2 ^ 48)) 0) 0 0 3 0x01 (fun s x => x.vOk false && decide (x.f 47 0 = 0) &&
      decide ((s.sval x (x.f 52 48)).toNat % 64 = 0) && decide (s.readFault 0 x.k [((s.sval x (x.f 52 48)).toNat, 64)] = none) &&
      decide ((s.ceQueue 0 x.k (x.f 53 53)).entries.length < 16)) = true := by decide

def piece1 : Piece :=
  { no := 0, src := 0, slen := 64, dst := 0, dlen := 64, elems := 64, pos := 0, reads := [(0, 64)], got := [], out := none, writes := [] }
def piece2 : Piece := { piece1 with reads := [], got := [(0, List.replicate 64 0)], out := some (List.replicate 64 0), writes := [(0, 64)] }
def txn1 (write : Bool) (pl : Place) : Txn := { id := 4, write := write, place := pl, piece := 0, offset := 0, len := 64, data := [], path := [], went := false }

/-- The queue of lin1 with transaction 4 in flight, which has entered every point of its route. -/
def flight (write : Bool) (pl : Place) : State := ceWith (ce1 lin1 true 1 [piece2] [txn1 write pl])

theorem test_transactions :
    (let s := ceWith (ce1 lin1 true 1 [piece1] [])
     s.ceRuns 0 0 0 = true ∧ (s.ceQueue 0 0 0).flying < 8 ∧ (s.ceQueue 0 0 0).issuing = some (ce1 lin1 true 1 [piece1] []) ∧
      [piece1].find? (fun q => !q.reads.isEmpty) = some piece1 ∧ piece1.reads = [(0, 64)]) ∧
    (let s := ceWith (ce1 lin1 true 1 [piece2] [])
     s.ceRuns 0 0 0 = true ∧ (s.ceQueue 0 0 0).issuing = some (ce1 lin1 true 1 [piece2] []) ∧
      [piece2].find? (fun q => q.out.isNone || !q.writes.isEmpty) = some piece2 ∧ piece2.writes = [(0, 64)]) ∧
    ([true, false].all fun w => [Place.comp 64, .stack 64, .peer 0 64, .withy 9 64].all fun pl =>
      decide (((flight w pl).ceQueue 0 0 0).entries.find? (fun y => y.inflight.any fun u => u.id == 4) =
        some (ce1 lin1 true 1 [piece2] [txn1 w pl])) &&
      decide ((ce1 lin1 true 1 [piece2] [txn1 w pl]).inflight.find? (fun u => u.id == 4) = some (txn1 w pl)) &&
      decide ((txn1 w pl).path = [])) = true ∧
    (flight false (.comp 64)).engineLines 0 0 0 4 = true ∧ (flight false (.stack 64)).bankHeld 1 64 false = false ∧
    (flight true (.stack 64)).bankHeld 1 64 true = false ∧ ((flight false (.peer 0 64)).core 0).spBad 64 64 = false ∧
    (flight true (.withy 9 64)).withy.held.length < 512 ∧ (flight false (.withy 9 64)).wyHolds 0 0 0 4 = false := by decide

theorem test_copies_complete :
    (let s := ceWith (ce1 lin1 true 1 [] [])
     s.ceRuns 0 0 0 = true ∧ (s.ceQueue 0 0 0).entries = [ce1 lin1 true 1 [] []] ∧ (ce1 lin1 true 1 [] []).opened = true ∧
      (ce1 lin1 true 1 [] []).issued = true ∧ lin1.own = false) ∧
    (let y := ce1 { lin1 with dspace := 0, daddr := 4096 } true 1 [] []
     (ceWith y).ceRuns 0 0 0 = true ∧ ((ceWith y).ceQueue 0 0 0).entries = [y] ∧ y.desc.own = true) := by decide

theorem test_notify : (core0 id).writeFault 0 0 [(128, 4)] = none := by decide

/-! ## The Weave, the stacks, the link to the companion, the log and time -/

/-- A register with some fields set, the others at their reset values. -/
def word (r : Reg) (fs : List (Fld × Nat)) : Reg × BitVec 64 := (r, fs.foldl (fun w y => y.1.set w y.2) r.resetWord)
def withRegs (l : List (Reg × BitVec 64)) : State := { State.reset with regs := l }

def req1 : WvReq := { rank := 1, who := 5, flits := 4, slot := none, txn := 0, at_ := 0, since := 0, sent := 0 }
def weaveAt (x : WvPoint) (gtc : Nat) : State :=
  { State.reset with gtc := gtc, weave := { State.reset.weave with points := [(7, x)] } }
/-- Transaction 4 of the engine still has point 7 to enter. -/
def routed1 : Txn := { txn1 true (.stack 64) with path := [7] }

theorem test_weave :
    (let s := ceWith (ce1 lin1 true 1 [piece2] [routed1])
     7 ≤ 0x1C1 ∧ s.wvMay 7 1 1 1 0 4 = true) ∧
    (let s := weaveAt ⟨[], [], some req1, 0⟩ 0
     (s.wvPoint 7).grant = some req1 ∧ req1.rank = 1 ∧ 3 < req1.flits ∧ req1.who < 66) ∧
    (let s := weaveAt ⟨[], [req1], none, 0⟩ 0
     (s.wvPoint 7).grant = none ∧ s.wvWinner (s.wvPoint 7) = some req1) ∧
    (let s := weaveAt ⟨[], [], some req1, 0⟩ 100000
     WV_CFG.MAXHOLD.get s.weave.cfg ≤ s.wvSlots 7 req1) ∧
    State.reset.gtc % State.reset.wvWindow = 0 ∧ State.reset.weave.winAt ≠ some State.reset.gtc := by decide +kernel

/-- A line of stack 11 with no mark; a channel that can migrate; one in migration; a stack whose spare is in use. -/
theorem test_stack_lines : 11 * 2 ^ 37 < 12 * 2 ^ 37 ∧ State.reset.getF (.msStatus (stackOf (11 * 2 ^ 37))) MS_STATUS.STATE ≠ 2 ∧
    SMap.get false State.reset.stackSet.poison (11 * 2 ^ 37 / 64) = false ∧
    (let s := { State.reset with gtc := 3600000 }
     s.getF (.msCfg 11) MS_CFG.SCRUBEN = 1 ∧ s.getF (.msStatus 11) MS_STATUS.STATE ≠ 2 ∧
      SMap.get 0 s.stackSet.scrubAt (16 * 11 + 15) + 3600 * max 1 (s.getF (.msCfg 11) MS_CFG.SCRUBIV) ≤ s.gtc) ∧
    State.reset.stackSet.refreshing = [] ∧
    State.reset.getF (.msStatus 3) MS_STATUS.MIGRATING = 0 ∧ State.reset.getF (.msStatus 3) MS_STATUS.SPARED = 0x1F ∧
    State.reset.getF (.msStatus 3) MS_STATUS.STATE ≠ 2 ∧
    (let s := withRegs [word (.msStatus 3) [(MS_STATUS.SPARED, 2)]]
     s.getF (.msStatus 3) MS_STATUS.STATE ≠ 2 ∧ s.getF (.msStatus 3) MS_STATUS.SPARED ≠ 0x1F) := by decide

def stacksWith (f : StackState → StackState) (l : List (Reg × BitVec 64)) : State :=
  { State.reset with stackSet := f State.reset.stackSet, regs := l }

theorem test_stack_work :
    (let s := stacksWith (fun x => { x with refreshing := [(16 * 11 + 15) * 32 + 31] }) []
     (16 * 11 + 15) * 32 + 31 ∈ s.stackSet.refreshing) ∧
    (let s := stacksWith id [word (.msFrame 2 3) [(MS_FRAME.STATE, 1), (MS_FRAME.OWNER, 4)]]
     s.getF (.msFrame 2 3) MS_FRAME.STATE = 1 ∧ (s.inst (s.getF (.msFrame 2 3) MS_FRAME.OWNER)).work = none ∧ (2, 3) ∉ s.stackSet.releasing) ∧
    (let s := stacksWith (fun x => { x with releasing := [(2, 3)] }) [word (.msFrame 2 3) [(MS_FRAME.STATE, 1), (MS_FRAME.OWNER, 4)]]
     s.getF (.msFrame 2 3) MS_FRAME.STATE = 1 ∧ (2, 3) ∈ s.stackSet.releasing) ∧
    (let s := stacksWith (fun x => { x with migrating := [(3, some 5)] }) [word (.msStatus 3) [(MS_STATUS.MIGRATING, 1)]]
     SMap.get none s.stackSet.migrating 3 = some 5 ∧ s.getF (.msStatus 3) MS_STATUS.MIGRATING = 1) ∧
    SMap.get none (stacksWith (fun x => { x with rebuilding := [(3, some 5)] }) []).stackSet.rebuilding 3 = some 5 ∧
    (let s := stacksWith (fun x => { x with journal := { x.journal with rebuilding := true } }) []
     s.stackSet.journal.rebuilding = true ∧ s.stackSet.journal.mirror = some (11, 127)) := by decide

/-- A GATHER request of one row, with no words left to read short. -/
def seq1 (prog : Nat) : SeqReq :=
  { id := 1, ctx := .tenant 1, slot := 0, side := 0, prog := prog, notify := false, ord := false, new := false, fp := false, n := 1, a0 := 0,
    a1 := 0, a2 := 0, l0 := 64, l1 := 0, l2 := 0, l3 := 0, l4 := 0, dsp := 0, naddr := 0, nval := 0, running := false, applied := false, row := 0, out := [] }
def seqReqBytes : List Byte := leBytes 64 (1 + 2 ^ 32 + 64 * 2 ^ 256)

theorem test_sequencers :
    (let t : Txn := { txn1 true (.seq 2 0) with data := seqReqBytes }
     let s := ceWith (ce1 lin1 true 1 [piece2] [t])
     (s.ceQueue 0 0 0).entries.find? (fun y => y.inflight.any fun u => u.id == 4) = some (ce1 lin1 true 1 [piece2] [t]) ∧
      [t].find? (fun u => u.id == 4) = some t ∧ t.path = [] ∧ (s.seqQueue 2).length + (s.journalReqs 2).length < 256 ∧
      (let q := SeqReq.ofBytes t.data (s.stackSet.nextReq + 1) (.tenant 1) 0 0
       q.1 = seq1 1 ∧ s.seqRefusal q.1 q.2.1 q.2.2 = none)) ∧
    ([1, 2, 3, 4, 5].all fun g =>
      let q := { seq1 g with ctx := if g = 5 then .cg 1 else .tenant 1 }
      let s := stacksWith (fun x => { x with queues := [(2, [q])] }) []
      decide (s.seqTaken 2 1 = some q) && decide (s.getF (.msStatus 2) MS_STATUS.STATE ≠ 2) && !(SeqRun.units 1 (q, ⟨{ s with stackSet :=
        { s.stackSet with last := if q.running = true ∨ q.ctx.inst = 0 then s.stackSet.last else SMap.put 0 s.stackSet.last 2 q.ctx.inst } },
        [], [], none, false⟩)).2.short) = true ∧
    ([true, false].all fun n =>
      let q : SeqReq := { seq1 1 with running := true, applied := true, notify := n }
      let s : State := { core0 id with stackSet := { StackState.reset with queues := [(2, [q])] } }
      decide ((s.seqQueue 2).find? (fun z => z.id == q.id && z.applied) = some q) && decide (s.writeFault q.slot q.side [(q.naddr, 4)] = none)) = true := by
  decide +kernel

/-- The first record of the journal, not yet written. -/
def jrec1 : JRec :=
  { seq := 1, req := 1, kind := .commit, cause := 0, inst := 1, ring := 0, ridx := 0, gtc := 0, step := 0, body := [], written := false,
    durable := false, retired := false, reply := [] }

theorem test_journal : (let s := stacksWith (fun x => { x with journal := { x.journal with recs := [jrec1], next := 2 } }) []
    s.stackSet.journal.primary = some (0, 127) ∧ s.stackSet.journal.mirror = some (11, 127) ∧
      s.stackSet.journal.recs.find? (fun r => !r.written) = some jrec1 ∧ s.stackSet.journal.recs.head? = some jrec1 ∧
      s.stackSet.journal.lost = false ∧ s.nextSeq 0 = none ∧ s.seqBusy 0 < 16 ∧ s.baseLoading 0 = false ∧
      s.getF (.msStatus 0) MS_STATUS.STATE ≠ 2 ∧ s.getF (.msStatus 11) MS_STATUS.STATE ≠ 2) := by decide +kernel

/-- Both ports up; a read and a write of a line under way. -/
def linkUp : List (Reg × BitVec 64) :=
  [word (.cclPortStatus 0) [(CCL_PORT_STATUS.STATE, 2)], word (.cclPortStatus 1) [(CCL_PORT_STATUS.STATE, 2)]]
def cclWith (t : CclTxn) : State := { withRegs linkUp with ccl := { CclState.empty with out := [t] } }

theorem test_companion_link :
    (withRegs [word (.gctlPdstat 8) [(GCTL_PDSTAT.ON, 2 ^ 15 + 2 ^ 14)]]).domainOn 271 = true ∧
    (withRegs [word (.gctlPdstat 8) [(GCTL_PDSTAT.ON, 2 ^ 15 + 2 ^ 14)]]).getF (.cclPortStatus 1) CCL_PORT_STATUS.STATE ≠ 2 ∧
    (State.reset.cclLink 1).narrow = false ∧ (withRegs linkUp).getF (.cclPortStatus 1) CCL_PORT_STATUS.STATE = 2 ∧ (withRegs linkUp).cclUp = true ∧
    (cclWith ⟨.rds, 64, [], 1, .other⟩).ccl.out[0]? = some ⟨.rds, 64, [], 1, .other⟩ ∧
    State.reset.engineWaits ⟨.rds, 64, [], 1, .other⟩ = false ∧ (cclWith ⟨.wrl, 64, [], 0, .other⟩).ccl.out[0]? = some ⟨.wrl, 64, [], 0, .other⟩ ∧
    (let s := { State.reset with gtc := 3600000 }
     s.ccl.rereadAt + 3600000 ≤ s.gtc) ∧
    (let s := withRegs [word .gctlEtimer [(GCTL_ETIMER.EN, 1), (GCTL_ETIMER.PERIOD, 1)]]
     s.getF .gctlEtimer GCTL_ETIMER.EN = 1 ∧ s.time.timerAt ≤ s.gtc ∧ s.wlActive = false ∧ s.gtc < s.waling.healthAt + 360000000) := by decide

def ev1 : EvRec := ⟨0, 3, 1, 0x12, 5⟩
theorem test_log :
    (let s := { State.reset with gtc := 1024, log := { LogState.empty with held := [ev1] } }
     s.log.held = [ev1] ∧ ev1.gtc + 1024 ≤ s.gtc ∧ s.getF .gctlElogCtl GCTL_ELOG_CTL.EN = 0) ∧
    (State.reset.log.queued.filter fun q => q.source == 3).length < 16 ∧
    16 ≤ (({ State.reset with log := { LogState.empty with queued := List.replicate 16 ev1 } } : State).log.queued.filter fun (q : EvRec) => q.source == 3).length := by
  decide

/-- Time base 0 on 1PPS input 0, in a state; its counts of measurements. -/
def baseIn (st inside outside gtc : Nat) : State :=
  { withRegs [word (.timeTbCfg 0) [(TIME_TB_CFG.EN, 1), (TIME_TB_CFG.PSRC, 2), (TIME_TB_CFG.LOSS, 1)], word (.timeTbStatus 0) [(TIME_TB_STATUS.STATE, st)]] with
    gtc := gtc, time := { TimeState.reset with tbs := [(0, { TimeBase.zero with inside := inside, outside := outside })] } }

theorem test_time_bases :
    ((baseIn tbACQUIRE 16 0 0).psrc 0 ≠ 5 ∧ (baseIn tbACQUIRE 16 0 0).tbState 0 = tbACQUIRE ∧ 16 ≤ ((baseIn tbACQUIRE 16 0 0).tb 0).inside) ∧
    ((baseIn tbLOCKED 0 4 0).tbState 0 = tbLOCKED ∧ 4 ≤ ((baseIn tbLOCKED 0 4 0).tb 0).outside) ∧
    (let s := baseIn tbLOCKED 0 0 57600000
     s.psrc 0 ≠ 5 ∧ s.tbState 0 = tbLOCKED ∧ (s.tb 0).last + s.getF (.timeTbCfg 0) TIME_TB_CFG.LOSS * 57600000 ≤ s.gtc ∧ s.fsel 0 = none) ∧
    (let s := { baseIn tbLOCKED 0 0 57600000 with
        regs := [word (.timeTbCfg 0) [(TIME_TB_CFG.EN, 1), (TIME_TB_CFG.PSRC, 2), (TIME_TB_CFG.LOSS, 1), (TIME_TB_CFG.FSEL, 2)],
          word (.timeTbStatus 0) [(TIME_TB_STATUS.STATE, tbLOCKED)]]
        time := { TimeState.reset with tbs := [(0, TimeBase.zero)], freqs := [(0, some 40)] } }
     s.psrc 0 ≠ 5 ∧ s.tbState 0 = tbLOCKED ∧ (s.tb 0).last + s.getF (.timeTbCfg 0) TIME_TB_CFG.LOSS * 57600000 ≤ s.gtc ∧ s.fsel 0 = some 40) ∧
    (withRegs [word (.timeTbCfg 3) [(TIME_TB_CFG.EN, 1), (TIME_TB_CFG.PSRC, 5), (TIME_TB_CFG.FOLLOW, 2)]]).follows 3 2 = true ∧
    State.reset.psrc 2 ≠ 5 ∧ State.reset.psrc 3 ≠ 5 ∧ 1 ≠ State.reset.tbSel := by decide +kernel

/-- $GPZDA,120000.00,02,01,1970,00,00*69. -/
def nmea1 : List Nat :=
  [36, 71, 80, 90, 68, 65, 44, 49, 50, 48, 48, 48, 48, 46, 48, 48, 44, 48, 50, 44, 48, 49, 44, 49, 57, 55, 48, 44, 48, 48, 44, 48, 48, 42, 54, 57]

theorem test_time_inputs :
    (let s := withRegs [word .timeTod [(TIME_TOD.EN, 1), (TIME_TOD.FORM, 1)]]
     s.getF .timeTod TIME_TOD.EN = 1 ∧ s.todParse [0x20] = .inr 1) ∧
    (let s := withRegs [word .timeTod [(TIME_TOD.EN, 1)]]
     s.getF .timeTod TIME_TOD.EN = 1 ∧ s.todParse nmea1 = .inl (129600 + s.getF .timeTod TIME_TOD.UTCOFS, none)) ∧
    (let s := { baseIn tbLOCKED 0 0 3960000000 with time := { (baseIn tbLOCKED 0 0 0).time with pps := [(0, { PpsIn.idle with edge := some 0, values := [(0, 5)] })] } }
     (s.ppsIn 0).values ≠ [] ∧ (s.ppsIn 0).edge = some 0 ∧ (s.ppsIn 0).noted = false ∧ s.ppsUsers 0 ≠ [] ∧
      0 + 3240000000 ≤ s.gtc ∧ (s.ppsIn 0).edge.getD 0 + 3960000000 ≤ s.gtc) ∧
    (let s := withRegs [word .timeClk [(TIME_CLK.FSRC, 2)]]
     (∀ n, n < 4 → s.getF (.timeTbCfg n) TIME_TB_CFG.FSEL = 0) ∧ s.getF .timeClk TIME_CLK.FSRC = 2) ∧
    (let s := { State.reset with gtc := 360000, time := { TimeState.reset with ppsOut := some 0, trace := some 64 } }
     s.time.ppsOut = some 0 ∧ 0 + 360000 ≤ s.gtc ∧ s.time.trace = some 64 ∧ 64 ≤ s.gtc) ∧
    (let s := withRegs [word .timePpsout [(TIME_PPSOUT.EN, 1)]]
     s.getF .timePpsout TIME_PPSOUT.EN = 1 ∧ s.time.ppsOut = none ∧ -(s.cycle / 2) ≤ s.ppsNear ∧ s.ppsNear ≤ s.cycle / 2) ∧
    (let s := withRegs [word .mpBootstat [(MP_BOOTSTAT.STAGE, 5)], word (.timeTbStatus 0) [(TIME_TB_STATUS.STATE, tbLOCKED)]]
     s.beat.started = false ∧ s.getF .mpBootstat MP_BOOTSTAT.STAGE = 5 ∧ s.tbState s.tbSel = tbLOCKED) := by decide +kernel

/-! ## Boot, registers, ports -/

def set1 : FwSet := { good := true, setver := 3, fwrev := 1, comps := [⟨2, 1, 7⟩] }
def head1 : BootHeader := { good := true, seq := 5, active := 0, trial := false, tries := 0, setverA := 3, setverB := 0 }
def cfg1 : CfgImage := { CfgImage.none with good := true, cseq := 4 }
def flash1 : Flash := { Flash.empty with h0 := head1, slotA := set1, cfg0 := cfg1, idok := true, cntok := true }

/-- The device with its boot unit as f makes it, and some registers. -/
def bootWith (f : BootState → BootState) (l : List (Reg × BitVec 64)) (gtc : Nat) : State :=
  { withRegs l with boot := f { BootState.off with started := true }, gtc := gtc }
def stage (n : Nat) : Reg × BitVec 64 := word .mpBootstat [(MP_BOOTSTAT.STAGE, n)]

theorem test_cold_start : State.reset.boot.started = false ∧ flash1.header = some (0, head1) ∧ head1.active < 2 ∧
    flash1.valid (flash1.slot 0) = true ∧ head1.trial = false ∧ Flash.empty.header = none := by decide

theorem test_boot_stages :
    (let s := bootWith (fun b => { b with flash := flash1 }) [stage 1] 0
     s.boot.started = true ∧ s.boot.grizor = false ∧ s.boot.restart = none ∧ s.stage = 1 ∧ s.boot.flash.pickCfg = some (0, false)) ∧
    (let s := bootWith (fun b => { b with flash := { flash1 with cfg0 := CfgImage.none } }) [stage 1] 0
     s.stage = 1 ∧ s.boot.flash.pickCfg = none) ∧
    (let s := bootWith id [stage 7] 0
     s.boot.grizor = false ∧ s.boot.restart = none ∧ s.stage = 7) ∧
    (let s := bootWith (fun b => { b with grizor := true }) [stage 3] 0
     s.boot.grizor = true ∧ s.stage = 3) ∧
    (let s := bootWith (fun b => { b with grizor := true }) [stage 4] 0
     s.boot.grizor = true ∧ s.stage = 4 ∧ s.bootCleared = true) ∧
    (let s := bootWith id [stage 3] 162000000000
     s.scanMode = false ∧ s.boot.late = false ∧ s.stage < 6 ∧ 162000000000 ≤ s.gtc) ∧
    (let s := bootWith (fun b => { b with flash := flash1 }) (stage 8 :: word .mpRecovery [(MP_RECOVERY.VALID, 1)] :: linkUp) 36000000
     s.stage = 8 ∧ s.boot.polledAt + 36000000 ≤ s.gtc ∧ s.getF .mpRecovery MP_RECOVERY.VALID = 1 ∧ s.cclUp = true ∧
      s.boot.flash.valid set1 = true ∧ s.boot.flash.valid FwSet.none = false ∧
      s.boot.started = true ∧ s.boot.grizor = false) ∧
    (bootWith id [stage 8] 36000000).getF .mpRecovery MP_RECOVERY.VALID = 0 := by decide

theorem test_restarts :
    (let s := bootWith id [] 0
     s.boot.started = true ∧ s.scanMode = false ∧ s.boot.warm = false ∧ s.boot.warmAt = none) ∧
    GCTL_RESET.KEY.get (GCTL_RESET.WARM.set (GCTL_RESET.KEY.set 0 0x5752) 1) = 0x5752 ∧
    GCTL_RESET.WARM.get (GCTL_RESET.WARM.set (GCTL_RESET.KEY.set 0 0x5752) 1) = 1 ∧
    (GCTL_RESET.WARM.set (GCTL_RESET.KEY.set 0 0x5752) 1).toNat < 2 ^ 32 ∧ GCTL_RESET.KEY.get 1#64 ≠ 0x5752 ∧
    (bootWith (fun b => { b with warm := true }) [] 0).boot.warm = true ∧
    (let s := bootWith (fun b => { b with restart := some 0 }) [] 0
     s.boot.restart = some 0 ∧ s.boot.recover = false) ∧
    (let s := bootWith (fun b => { b with restart := some 1, recover := true }) [] 0
     s.boot.restart = some 1 ∧ s.boot.recover = true ∧ ∀ q ∈ s.stackSet.journal.recs, q.written = true → q.durable = true) ∧
    (let s := bootWith (fun b => { b with restart := some 2 }) [] 0
     s.boot.restart = some 2 ∧ s.boot.recover = false) ∧
    (let s := bootWith (fun b => { b with warmAt := some 3 }) [] 4
     s.boot.warm = false ∧ s.boot.warmAt ≠ none ∧ s.boot.warmAt = some 3 ∧ 3 ≤ s.gtc) ∧
    (let s := bootWith (fun b => { b with grizor := true }) [] 36000000
     s.boot.grizor = true ∧ s.boot.loadAt + 36000000 ≤ s.gtc) := by decide

/-- A value in range and one out of range, for registers with no other effect; a write misaligned, and one of 2 bytes. -/
theorem test_register_writes : Reg.timePlancfg ∈ quietRegs ∧
    Reg.timePlancfg.rangeOk (Reg.timePlancfg.merge false Reg.timePlancfg.resetWord Reg.timePlancfg.resetWord) = true ∧
    Reg.timePlancfg.rangeOk (Reg.timePlancfg.merge false Reg.timePlancfg.resetWord 0) = false ∧
    ¬ ((4 = 4 ∨ 4 = 8) ∧ 2 % 4 = 0) ∧ ¬ ((2 = 4 ∨ 2 = 8) ∧ 0 % 2 = 0) ∧ (⟨TIME_PLANCFG.LATCH, .rwl, 0x400⟩ : FieldRow) ∈ Reg.timePlancfg.fields := by
  decide

/-- Instance 1 is quiesced, with companion memory mapped at address 0. -/
def quiesced : State :=
  { withRegs [word (.iwState 1) [(IW_STATE.STATE, stQUIESCED)]] with
    insts := [(1, { Instance.absent with regions := [(0, some ⟨0, 2 ^ 20, .comp, 2 ^ 30, true, true⟩)] })] }

theorem test_control_registers :
    (withRegs [word (.iwTlbinv 64) [(IW_TLBINV.DONE, 0)]]).getF (.iwTlbinv 64) IW_TLBINV.DONE = 0 ∧
    (quiesced.instState 1 = stQUIESCED ∧ quiesced.ringEn 1 63 = false ∧ (2 ^ 31 + 4 * 2 ^ 11) / 2 ^ 31 = 1 ∧
      (2 ^ 31 + 4 * 2 ^ 11) / 2 ^ 11 % 32 = 4 ∧ quiesced.getF (ringRegs 1 63).status IW_RING_STATUS.STATE ≠ 3 ∧
      quiesced.ringPlace 1 (quiesced.getF (ringRegs 1 63).wline IW_RING_WLINE.ADDR * 64) false = some (.comp (2 ^ 30))) ∧
    (State.reset.ringEn 65 1 = false ∧ State.reset.ringPlace 65 (State.reset.getF (ringRegs 65 1).wline IW_RING_WLINE.ADDR * 64) false = some (.comp 0)) ∧
    (quiesced.getF (.imDlogCtl 1) IM_DLOG_CTL.EN = 0) ∧
    (withRegs [word (.cclMsic 2047) [(CCL_MSIC.PEND, 1)]]).getF (.cclMsic 2047) CCL_MSIC.PEND = 1 ∧
    (withRegs [word (.cclMsic 2047) [(CCL_MSIC.PEND, 1)]]).getF (.cclMsic 2047) CCL_MSIC.MASK = 1 ∧
    State.reset.getF (.cclMsic 2047) CCL_MSIC.PEND = 0 := by decide

/-- RL_QP_CTL of an enabling write with context 126, rings of 2^16 and 2^26 bytes; and with the reserved context 127. -/
def qpWord (ctx lin : Nat) : BitVec 64 :=
  RL_QP_CTL.LOUT.set (RL_QP_CTL.LIN.set (RL_QP_CTL.CTX.set (RL_QP_CTL.EN.set 0 1) ctx) lin) 16

theorem test_ports_and_pairs :
    (RL_QP_CTL.EN.get (qpWord 127 16) = 1 ∧ RL_QP_CTL.CTX.get (qpWord 127 16) = 127 ∧ State.reset.getF (.rlQpCtl 63) RL_QP_CTL.EN = 0) ∧
    (RL_QP_CTL.EN.get (qpWord 126 26) = 1 ∧ RL_QP_CTL.CTX.get (qpWord 126 26) ≠ 127 ∧ RL_QP_CTL.LIN.get (qpWord 126 26) = 26 ∧
      RL_QP_CTL.LOUT.get (qpWord 126 26) = 16 ∧ State.reset.getF (.rlQpStatus 63) RL_QP_STATUS.STATE ≤ 1 ∧ (qpWord 126 26).toNat < 2 ^ 32) ∧
    (State.reset.getF (.fhCfg 23) FH_CFG.EN = 0 ∧ (2 ^ 31 + 2 * 2 ^ 29) / 2 ^ 31 = 1 ∧ (2 ^ 31 + 2 * 2 ^ 29) / 2 ^ 29 % 4 ≠ 3) ∧
    State.reset.fhEn 23 = false ∧ (withRegs [word (.fhCfg 23) [(FH_CFG.EN, 1)]]).fhEn 23 = true ∧
    (({ State.reset with fh := [(23, { FhPort.reset with staging := some (1023, 5) })] } : State).fhp 23).staging = some (1023, 5) := by decide

/-! ## Stops, borrows, take-overs, the beat, commands -/

/-- Core slot 0 without commands, as f makes it, with an entry ROLE and OWNER in force, powered and mapped as logical core 0. -/
def slotRegs (role owner : Nat) : List (Reg × BitVec 64) :=
  [word (.coreCqPlan 0) [(CORE_CQ_PLAN.ROLE, role), (CORE_CQ_PLAN.OWNER, owner), (CORE_CQ_PLAN.BRW, 1), (CORE_CQ_PLAN.BCG, 127)],
    word (.gctlCmap 0) [(GCTL_CMAP.VALID, 1)], word (.gctlPdstat 0) [(GCTL_PDSTAT.ON, 1)]]
def bare (f : Core → Core) : State := { withRegs (slotRegs 2 1) with cores := [(0, f Core.zero)] }
def borrow1 (ph : BorrowPhase) : Borrow := { phase := ph, ctx := .cg 3, cmd := 0, at_ := 0, charged := 0 }
def take1 (ph : TakePhase) (slot restore : Option Nat) : TakeOver :=
  { phase := ph, from_ := 1, to_ := 2, role := 2, since := 0, spillAt := 0, slot := slot, restore := restore }

theorem test_side_stops :
    (let s := bare fun c => { c with t := { c.t with stop := .stopIssue }, threads := [(0, { Thread.idle with running := true, region := some .npb })] }
     (s.core 0).t.stop = .stopIssue ∧ ((s.core 0).threads.any fun x => threadSide x.1 == 0 && x.2.running && x.2.region.isSome) = true) ∧
    (let s := bare fun c => { c with t := { c.t with stop := .stopIssue } }
     (s.core 0).t.stop = .stopIssue ∧ (s.core 0).threads = []) ∧
    (let s := bare fun c => { c with t := { c.t with stop := .drain }, borrow := some (borrow1 .stopping) }
     (s.core 0).t.stop = .drain ∧ ((s.meStop 0 0 []).core 0).borrow = some (borrow1 .stopping)) := by decide

def kernel1 : KernelBody :=
  { code := 4096, codeLen := 64, entry := 0, pentry := 0, first := 0, count := 1, strands := 1, kp := 1, nreg := 8, localBytes := 0,
    sharedBytes := 0, args := [5, 6, 7, 8] }
/-- A command of ring 0 of instance n, its first, in a phase. -/
def cmdOf (n : Nat) (b : CmdBody) (ph : CmdPhase) : Cmd :=
  { inst := n, ring := 0, ridx := 0, phase := ph, order := 1, cores := [], left := [], todo := [], peers := [], fetched := 0, copied := 0,
    ovr := 0, rerun := 0, silent := false, flags := 0, result := 0, digests := [], folded := 0, status := 0, cause := 0, waddr := none, word := none, saddr := none, atTrel := none
    d := { stepb := false, irq := false, launch := false, dlog := false, amode := 0, dur := 0, tag := 0, step := 0, cg := if n = 0 then 3 else 0, body := b } }
/-- Instance 1 leases logical core 0 and has companion memory and stack memory mapped; its ring 0 has command c. -/
def withCmd (s : State) (c : Cmd) : State :=
  { s with
    cmds := [c]
    insts := [(1, { Instance.absent with
      lease := [0]
      regions := [(0, some ⟨0, 2 ^ 20, .comp, 2 ^ 30, true, true⟩), (1, some ⟨2 ^ 20, 2 ^ 20, .stack, 0, true, true⟩)] })] }
def resident1 (no k : Nat) : Resident := ⟨no, if k = 1 then .cg 3 else .tenant 1, k, 4096, 64, 0, 1, 5, none, 0, 0, 0, 0, false⟩

theorem test_borrows :
    (let c := cmdOf 0 (.kernel kernel1) .waiting
     let s := withCmd (bare id) c
     s.cmd 0 = some c ∧ (s.mapped c).inst = 0 ∧ (s.mapped c).isKernel = true ∧ s.head 0 0 = some (cmdOf 0 (.kernel kernel1) .waiting) ∧
       s.lcoreNo 0 ∈ (s.mapped c).todo ∧ s.isStake 0 = false ∧ s.duePast 0 (s.mapped c).ring = true ∧ (s.core 0).radioQ = []) ∧
    (let s := bare fun c => { c with borrow := some (borrow1 .switchBack) }
     (s.core 0).borrow = some (borrow1 .switchBack) ∧ (s.core 0).t.meQ = [] ∧ (s.core 0).takeover = none) ∧
    ((bare fun c => { c with borrow := some (borrow1 .bankSwitch) }).core 0).borrow = some (borrow1 .bankSwitch) ∧
    (let e := { entry (.mmt mmt1) 5 with phase := .stopped }
     let s := bare fun c => { c with borrow := some (borrow1 .switchBack), t := { c.t with meQ := [e] } }
     (s.core 0).borrow = some (borrow1 .switchBack) ∧ e ∈ (s.core 0).t.meQ ∧ e.op = .mmt mmt1 ∧ (s.core 0).takeover = none) ∧
    ((bare fun c => { c with borrow := some (borrow1 .dispatch) }).core 0).borrow = some (borrow1 .dispatch) ∧
    ((bare fun c => { c with borrow := some (borrow1 .reload) }).core 0).borrow = some (borrow1 .reload) ∧
    (let s := bare fun c => { c with extension := 2, residents := [resident1 0 1, resident1 1 0] }
     (s.core 0).extension = 2 ∧ (s.core 0).residents.filter (fun r => r.side == 1) = [resident1 0 1]) := by decide

def image1 : Image := { inst := 1, lcore := 0, role := 2, core := Core.zero, locks := List.replicate 48 0, arith := [0, 0, 0] }

theorem test_take_overs :
    (let s := bare fun c => { c with takeover := some (take1 .spill (some 3) none) }
     (s.core 0).takeover = some (take1 .spill (some 3) none) ∧ (s.core 0).borrow = none ∧ (s.core 0).throttled = false) ∧
    ((bare fun c => { c with takeover := some (take1 .zero none none) }).core 0).takeover = some (take1 .zero none none) ∧
    (let s := { (bare fun c => { c with takeover := some (take1 .restore none (some 3)) }) with images := [(3, some image1)] }
     (s.core 0).takeover = some (take1 .restore none (some 3)) ∧ SMap.get none s.images 3 = some image1 ∧ (s.core 0).borrow = none ∧
      (s.core 0).throttled = false ∧ s.saveBad 3 = false) ∧
    (let s := { (bare fun c => { c with takeover := some (take1 .restore none (some 0)) }) with
        images := [(0, some image1)]
        beat := { BeatState.stopped with saveFrames := [(0, 1)] }
        stackSet := { StackState.reset with poison := [(2 ^ 24, true)] } }
     (s.core 0).takeover = some (take1 .restore none (some 0)) ∧ SMap.get none s.images 0 = some image1 ∧ s.saveBad 0 = true) := by decide +kernel

/-- Grizor runs and the first boundary is due. -/
def beatAt (f : BeatState → BeatState) (l : List (Reg × BitVec 64)) : State :=
  { withRegs l with
    gtc := 56250
    boot := { BootState.off with started := true, grizor := true }
    beat := f { BeatState.stopped with started := true } }

theorem test_plans :
    (let s := beatAt id []
     let beats : List (SMap Nat) := (List.replicate s.periodBeats ([] : List (Nat × Nat))).map fun b => b.foldl (fun m x => SMap.put 0 m x.1 x.2) []
     s.boot.grizor = true ∧ s.beat.started = true ∧ s.nextPeriod < s.hyperBeats ∧ beats.length = s.periodBeats ∧
      (∀ m, beats.getLast? = some m → s.takesPlanned m = true) ∧ s.returnsPlanned beats = true ∧
      min 100 (WV_RBUDGET.PCT.get s.weave.rbudget) < 101) ∧
    (let s := beatAt id []
     s.beat.first = false ∧ s.beat.latchDone = false ∧ s.beat.boundary + s.beat.length ≤ s.gtc + s.getF .timePlancfg TIME_PLANCFG.LATCH ∧ s.planAt (s.beatNo 1) = none) ∧
    (beatAt (fun b => { b with plans := [⟨0, [[], []]⟩] }) []).planAt 1 = some [] ∧
    (beatAt (fun b => { b with plans := [⟨0, [[], [(0, 2 ^ 30)]]⟩] }) []).planAt 1 = some [(0, 2 ^ 30)] := by decide +kernel

theorem test_plan_conditions : (beatAt id []).planFault [] = none ∧ (beatAt id []).planFault [(0, 2 ^ 30)] = some 1 := by decide +kernel

/-- A lock held with NP 0 and a lease of 5. -/
def lockWord (lease : Nat) : Reg × BitVec 64 :=
  word (.coreCqLock 0 63) [(CORE_CQ_LOCK.STATE, 1), (CORE_CQ_LOCK.OWNER, 9), (CORE_CQ_LOCK.LEASE, lease)]

theorem test_boundaries :
    (let s := beatAt id []
     s.beat.boundary + s.beat.length ≤ s.gtc ∧ s.beat.first = false ∧ 0 < s.hyperBeats ∧ s.hyperBeats ≤ 2 ^ 21 ∧ s.beat.latched = none) ∧
    (beatAt (fun b => { b with first := true }) []).beat.first = true ∧
    (let s := withRegs [lockWord 5]
     s.getF (.coreCqLock 0 63) CORE_CQ_LOCK.STATE = 1 ∧ s.getF (.coreCqLock 0 63) CORE_CQ_LOCK.NP = 0 ∧ s.getF (.coreCqLock 0 63) CORE_CQ_LOCK.LEASE = 5) ∧
    (withRegs [lockWord 0]).getF (.coreCqLock 0 63) CORE_CQ_LOCK.LEASE = 0 ∧
    State.reset.getF (.coreCqLock 0 63) CORE_CQ_LOCK.STATE ≠ 1 := by decide

/-- Every logical core is mapped to its slot. -/
def mapped : State := withRegs ((List.range 192).map fun l => word (.gctlCmap l) [(GCTL_CMAP.VALID, 1), (GCTL_CMAP.SLOT, l)])

theorem test_cores_and_leases :
    (let s := { State.reset with insts := [(64, { Instance.absent with fixedLeft := some 0 })] }
     (s.inst 64).fixedLeft = some 0 ∧ (s.inst 64).lease = []) ∧
    (let s := { withRegs (slotRegs 3 1) with insts := [(1, { Instance.absent with fixedLeft := some 0, lease := [0] })] }
     (s.inst 1).fixedLeft = some 0 ∧ (s.inst 1).lease = [0] ∧ s.slotOf 0 = some 0 ∧ s.role 0 = 3 ∧ s.getF (.coreCqPlan 0) CORE_CQ_PLAN.OWNER = 1) ∧
    (State.reset.core 207).failed = false ∧ ((bare fun c => { c with waking := true }).core 0).waking = true ∧
    (let s := { withRegs [word (.gctlCmap 0) [(GCTL_CMAP.VALID, 1)], word (.gctlPdstat 0) [(GCTL_PDSTAT.ON, 1)]] with
        boot := { BootState.off with rows := [(0, 1), (0, 2), (0, 3), (0, 4)] } }
     s.powered 0 = true ∧ (s.core 0).waking = false ∧ (s.core 0).failed = false ∧ (s.core 0).takeover = none ∧ (s.core 0).borrow = none ∧
      (s.core 0).residents = [] ∧ s.role 0 = 0 ∧ s.getF (.coreCqPlan 0) CORE_CQ_PLAN.BRW = 0 ∧ (0, 259) ∉ s.boot.rows ∧
      4 ≤ (s.boot.rows.filter fun x => x.1 == 0).length ∧ (State.reset.boot.rows.filter fun x => x.1 == 0).length < 4) ∧
    (withRegs [word (.gctlPdstat 8) [(GCTL_PDSTAT.ON, 2 ^ 11)]]).domainOn 267 = true ∧
    (let s := { withRegs [word (.gctlCmap 0) [(GCTL_CMAP.VALID, 1)]] with cores := [(0, { Core.zero with failed := true })] }
     s.slotOf 0 = some 0 ∧ (s.core 0).failed = true ∧ s.entry 0 = 0 ∧ s.insts = [] ∧ s.cmds = [] ∧ (s.spareSlots 0).head? = some 1) ∧
    (let s := { withRegs [word (.gctlCmap 0) [(GCTL_CMAP.VALID, 1)]] with cores := (List.range 26).map fun p => (p, { Core.zero with failed := true }) }
     s.slotOf 0 = some 0 ∧ s.spareSlots 0 = []) ∧
    (let c := (withRegs [word (.gctlCmap 0) [(GCTL_CMAP.VALID, 1)]])
     let s := { c with cores := [(0, { Core.zero with failed := true })], insts := [(1, { Instance.absent with lease := [0, 1] })] }
     s.cmds = [] ∧ (s.inst 1).lease.any s.failedCores.contains = true ∧ SMap.find? s.insts 1 = some (s.inst 1) ∧
      (s.insts.filter fun x => x.1 == 1).length = 1 ∧ c.images = []) := by decide +kernel

theorem reg_mapped (l : Nat) (h : l < 192) :
    mapped.reg (.gctlCmap l) = (word (.gctlCmap l) [(GCTL_CMAP.VALID, 1), (GCTL_CMAP.SLOT, l)]).2 := by
  have key : ∀ xs : List Nat, l ∈ xs →
      regGet (xs.map fun i => word (.gctlCmap i) [(GCTL_CMAP.VALID, 1), (GCTL_CMAP.SLOT, i)]) (.gctlCmap l) =
        (word (.gctlCmap l) [(GCTL_CMAP.VALID, 1), (GCTL_CMAP.SLOT, l)]).2 := by
    intro xs
    induction xs with
    | nil => intro h; cases h
    | cons a xs ih =>
      intro h
      by_cases e : a = l
      · subst e; simp [regGet, word]
      · simp only [List.map_cons, regGet, word]
        rw [if_neg (by simp [e])]
        exact ih (by simpa [Ne.symm e] using h)
  exact key _ (List.mem_range.2 h)

theorem test_no_failed_core : mapped.failedCores = [] := by
  refine List.filter_eq_nil_iff.2 fun l hl => ?_
  have hl := List.mem_range.1 hl
  have : ∃ p, mapped.slotOf l = some p := by
    have h : GCTL_CMAP.VALID.get (mapped.reg (.gctlCmap l)) = 1 := by
      rw [reg_mapped l hl]
      exact (by decide +kernel : ∀ l, l < 192 → GCTL_CMAP.VALID.get (word (.gctlCmap l) [(GCTL_CMAP.VALID, 1), (GCTL_CMAP.SLOT, l)]).2 = 1) l hl
    exact ⟨_, if_pos ⟨hl, h⟩⟩
  obtain ⟨p, e⟩ := this
  rw [e]
  simp [mapped, withRegs, State.core, State.reset, SMap.get, Core.zero]

theorem test_no_failed_work : mapped.images = [] ∧ mapped.insts = [] := ⟨rfl, rfl⟩

/-- Ring 63 of instance 1, live, with prod descriptors ready. -/
def ringWith (f : Ring → Ring) : State :=
  { withRegs (linkUp ++ [word (.iwState 1) [(IW_STATE.STATE, stACTIVE)], word (.iwRingCtl 1 63) [(IW_RING_CTL.EN, 1), (IW_RING_CTL.L, 4)],
      word (.iwRingStatus 1 63) [(IW_RING_STATUS.STATE, 1)]]) with
    insts := (withCmd State.reset (cmdOf 1 (.kernel kernel1) .waiting)).insts
    rings := [(127, f Ring.empty)] }
/-- A KERNEL descriptor with a field of each kind in order, and one of KIND 0. -/
def descrBytes (kind : Nat) : List Byte :=
  leBytes 8 (kind + 2 ^ 24 + 100 * 2 ^ 32) ++ leBytes 24 0 ++ leBytes 4 4096 ++ leBytes 4 64 ++ leBytes 8 0 ++ leBytes 4 (2 ^ 16) ++ leBytes 76 0
def fetched1 (kind : Nat) : Fetched := ⟨0, some ((descrBytes kind).take 64), some ((descrBytes kind).drop 64), true, false, 0, 0, none⟩

/-- Ring 63 of I0 in stack memory, whose first word, PROD, is 3. -/
def ownRing : State :=
  { withRegs (linkUp ++ [word (.iwState 0) [(IW_STATE.STATE, stACTIVE)], word (.iwRingCtl 0 63) [(IW_RING_CTL.EN, 1), (IW_RING_CTL.L, 4)],
      word (.iwRingStatus 0 63) [(IW_RING_STATUS.STATE, 1)]]) with
    insts := [(0, { Instance.absent with stackSet := [0], frames := [[(0, 0)]], regions := [(0, some ⟨0, 2 ^ 20, .stack, 0, true, true⟩)] })]
    stackSet := { StackState.reset with mem := Memory.write [] 0 (leBytes 8 3), keys := [(0, some ⟨1, 2⟩)] } }

theorem test_descriptors :
    (let s := ringWith fun x => { x with prod := 3 }
     s.ringLive 1 63 = true ∧ s.cclUp = true ∧ (s.ring 1 63).enabling = false ∧ s.boot.warm = false ∧ s.boot.recover = false ∧
      s.cacheRoom 2 = true ∧ s.fetchCount 1 63 = 3 ∧ s.journalRoom = true ∧ s.getF (ringRegs 1 63).status IW_RING_STATUS.STATE ≠ 3 ∧
      s.ringPlace 1 (s.getF (ringRegs 1 63).cmdbase IW_RING_CMDBASE.ADDR * 64 + 128 * (15 % 2 ^ s.ringL 1 63)) false = some (.comp (2 ^ 30 + 1920)) ∧
      s.ringPlace 1 (s.getF (ringRegs 1 63).cmdbase IW_RING_CMDBASE.ADDR * 64 + 128 * (15 % 2 ^ s.ringL 1 63) + 64) false = some (.comp (2 ^ 30 + 1984))) ∧
    (let s := ringWith id
     s.ringLive 1 63 = true ∧ s.fetchCount 1 63 = 0) ∧
    (let s := ownRing
     let u := s.readOwnLine 0 63
     s.ringLive 0 63 = true ∧ s.cclUp = true ∧ (s.ring 0 63).enabling = false ∧ u.ringLive 0 63 = true ∧ u.fetchCount 0 63 = 3 ∧
      u.journalRoom = true) ∧
    (let s := ringWith fun x => { x with fetched := [fetched1 1] }
     (s.ring 1 63).fetched.find? (fun f => !f.checked) = some (fetched1 1) ∧ s.checkDescr 1 63 none (descrBytes 1) = 0 ∧
      s.checkDescr 1 63 none (descrBytes 0) = 1 ∧ s.checkDescr 1 63 none (descrBytes 6) = 1) ∧
    ([(0, leBytes 128 7), (1, leBytes 128 0x27)].all fun x =>
      let q : Fetched := ⟨0, some (x.2.take 64), some (x.2.drop 64), true, false, 0, 0, none⟩
      let s : State := { State.reset with rings := [(65 * 64 + x.1, { Ring.empty with fetched := [q] })] }
      decide ((s.ring 65 x.1).fetched.find? (fun f => !f.checked) = some q) &&
        (if x.1 = 0 then !mgmtMalformed x.2 else !devMalformed x.2)) = true := by decide +kernel

/-- A full journal. -/
theorem test_journal_full :
    let s := { ringWith (fun x => { x with prod := 3 }) with stackSet :=
      { StackState.reset with journal := { StackState.reset.journal with recs := List.replicate 4194304 jrec1 } } }
    s.journalRoom = false ∧ s.stackSet.journal.full = false := by
  constructor
  · simp only [State.journalRoom, List.length_replicate]; rfl
  · rfl

theorem test_journal_records :
    ([JKind.accept, .reject].all fun k =>
      let q : JRec := { jrec1 with kind := k, written := true, ring := 63, body := descrBytes 1 }
      let f : Fetched := { fetched1 1 with checked := true }
      let s : State := { (ringWith fun x => { x with fetched := [f] }) with
        stackSet := { StackState.reset with journal := { StackState.reset.journal with recs := [q] } } }
      decide (s.stackSet.journal.recs.find? (fun q => !q.durable) = some q) &&
        decide ((s.ring q.inst q.ring).fetched.find? (fun f => f.ridx == q.ridx && f.checked) = some f) &&
        decide (s.instState q.inst ≠ stFAULTED ∧ s.instState q.inst ≠ stRESETTING ∧ s.instState q.inst ≠ stREMOVING)) = true ∧
    (let q := { jrec1 with written := true }
     let s := { withCmd State.reset (cmdOf 1 (.kernel kernel1) .ended) with stackSet := { StackState.reset with journal := { StackState.reset.journal with recs := [q] } } }
     s.stackSet.journal.recs.find? (fun q => !q.durable) = some q ∧ s.cmd q.key.no = some (cmdOf 1 (.kernel kernel1) .ended)) ∧
    (let q := { jrec1 with retired := true }
     let s := stacksWith (fun x => { x with journal := { x.journal with recs := [q] } }) []
     s.stackSet.journal.recs = [q]) := by decide

def copy1 : CopyBody := ⟨2 ^ 20, 2, 0, 0⟩

theorem test_kernels_and_copies :
    (let c := cmdOf 1 (.kernel kernel1) .waiting
     let s := withCmd (bare id) c
     s.head 1 0 = some c ∧ (s.mapped c).isKernel = true ∧ (s.ring 1 0).due = none ∧ (s.mapped c).cores.length = (s.mapped c).size ∧
      s.starts (s.mapped c) = [(0, 0, 0)] ∧ (s.core 0).resident c.key.no = none) ∧
    ([CmdBody.kernel kernel1, .copy copy1].all fun b =>
      let c := cmdOf 1 b .waiting
      let s : State := { withCmd (bare id) c with rings := [(64, { Ring.empty with due := some 0 })] }
      decide (s.head 1 0 = some c) && decide ((s.ring 1 0).due = some 0) && ((s.mapped c).isKernel || (s.mapped c).isCopy) &&
        decide ((s.mapped c).phase = .waiting) && decide ((s.mapped c).cores.length = (s.mapped c).size) &&
        decide ((s.starts (s.mapped c)).length = (s.mapped c).size)) = true ∧
    (let c := cmdOf 1 (.copy copy1) .waiting
     let s := withCmd (bare id) c
     s.head 1 0 = some c ∧ (s.ring 1 0).due = none ∧ (s.mapped c).phase = .waiting ∧ (s.mapped c).d.body = .copy copy1 ∧
      (s.mapped c).cores.length = 1 ∧ s.starts (s.mapped c) = [(0, 0, 0)]) ∧
    (let c := { cmdOf 1 (.copy copy1) .running with cores := [0], left := [0] }
     let s := withCmd (bare fun q => { q with residents := [resident1 1 0] }) c
     s.head 1 0 = some c ∧ s.mapped c = c ∧ s.slotOf 0 = some 0 ∧ (s.core 0).resident c.key.no = some (resident1 1 0) ∧ s.ceRuns 0 0 0 = true ∧
      c.fetched < copy1.dcount ∧ (s.ceQueue 0 0 0).entries.length < 16) := by decide +kernel

def barrier1 (scope waddr : Nat) : BarrierBody := { scope := scope, waddr := waddr, wval := 0, sec := 0, ns := 0, subns := 0 }
def signal1 (a op : Nat) : SignalBody := ⟨op, a, 7, 0⟩
/-- Where the word at a of a waiting command lies, once it runs: 1 in companion memory, 2 in stack memory, 0 nowhere. -/
def wordAt (s : State) (c : Cmd) (a : Nat) : Nat :=
  match (((s.takeDue 1 0).modCmd c.key.no fun c => { c with phase := .running }).xlate 1 a 8 false []).1 with
  | .ok (.comp _) => 1
  | .ok (.stack _) => 2
  | .ok _ => 3
  | .held => 4
  | .fault _ _ _ => 0

theorem test_barriers :
    ([(0, 1), (64, 1), (2 ^ 20, 2), (2 ^ 30, 0)].all fun x =>
      let c := cmdOf 1 (.barrier (barrier1 0 x.1)) .waiting
      let s := withCmd (bare id) c
      decide (s.head 1 0 = some c) && s.duePast 1 0 && wordAt s c x.1 == x.2) = true ∧
    (let c := cmdOf 1 (.barrier (barrier1 0 64)) .waiting
     let s := withCmd (bare id) c
     let s : State := { s with
       insts := s.insts.map fun x => (x.1, { x.2 with root := IW_S1ROOT.EN.set 0 1 })
       regs := s.regs ++ [word (.cclPortStatus 0) [(CCL_PORT_STATUS.STATE, 0)]] }
     s.head 1 0 = some c ∧ s.duePast 1 0 = true ∧ wordAt s c 64 = 4) ∧
    ([0, 1].all fun k =>
      let d := cmdOf 1 (.barrier (barrier1 k 0)) .running
      decide ((withCmd (bare id) d).head 1 0 = some d) && (withCmd (bare id) d).barrierMet d (barrier1 k 0)) = true ∧
    (bare id).trel (barrier1 1 0) ≤ (bare id).tbValue 2 := by decide +kernel

theorem test_fences_and_signals :
    (let c := cmdOf 1 (.fence true true) .waiting
     let s := withCmd (bare id) c
     s.head 1 0 = some c ∧ s.duePast 1 0 = true ∧ s.fenceMet 1 0 true true = true ∧
      { s with ccl := { s.ccl with out := [⟨.wrl, 64, [], 0, .engine 1 0⟩] } }.fenceMet 1 0 true true = false) ∧
    (let c := cmdOf 1 (.fence true true) .running
     (withCmd (bare id) c).head 1 0 = some c ∧ (withCmd (bare id) c).fenceMet 1 0 true true = true) ∧
    ([(64, 1), (2 ^ 20, 2), (2 ^ 30, 0)].all fun x =>
      let c := cmdOf 1 (.signal (signal1 x.1 1)) .waiting
      let s := withCmd (bare id) c
      decide (s.head 1 0 = some c) && s.duePast 1 0 && !s.signalling 1 && wordAt s c x.1 == x.2 && decide (s.cmd c.key.no = some c) && !c.silent) = true ∧
    ([true, false].all fun ok =>
      let c := cmdOf 1 (.signal (signal1 (2 ^ 20) 1)) .waiting
      let s := withCmd (bare id) c
      let s : State := { s with stackSet := { s.stackSet with poison := if ok then [] else [((s.inst 1).place 0 / 64, true)] } }
      ((s.modCmd c.key.no fun c => { c with saddr := some 0 }).stackRead 1 0 8).1.isSome == ok) = true := by decide +kernel

/-! ## Management requests and instances -/

/-- A request with some bytes. -/
def reqOf (op n : Nat) (fs : List (Nat × Nat)) : Req :=
  ⟨0, (List.range 64).map fun i =>
    if i = 0 then BitVec.ofNat 8 op else if i = 1 then BitVec.ofNat 8 n else BitVec.ofNat 8 (((fs.find? fun x => x.1 == i).map Prod.snd).getD 0)⟩

/-- Grizor serves in stage 5 and has request q of instance 1, which is in a state; some logical cores are available and none of
them is a stake core. -/
def serving (st : Nat) (x : Instance) (q : Req) (cores : Nat := 2) : State :=
  { withRegs ([word .mpBootstat [(MP_BOOTSTAT.STAGE, 5)], word .timePlancfg [(TIME_PLANCFG.S8, 0)], word (.iwState 1) [(IW_STATE.STATE, st)]]
      ++ (List.range cores).map fun l => word (.gctlCmap l) [(GCTL_CMAP.VALID, 1), (GCTL_CMAP.SLOT, l)]) with
    boot := { BootState.off with started := true, grizor := true }
    insts := [(1, x)]
    mgmtQ := [q] }
def setw1 (prio : Nat) : Req := reqOf 4 1 [(16, prio), (19, 5)]

theorem test_serves : (serving stACTIVE .absent (setw1 7)).Serves 1 4 (setw1 7) := ⟨by decide, by decide, by decide, by decide, by decide⟩

def map1 : Req := reqOf 5 1 [(16, 63), (17, 2), (18, 3), (34, 1), (41, 16)]

theorem test_requests :
    ((serving stABSENT .absent (setw1 7)).allowed 1 [1, 2, 3, 4, 5, 6, 7] = false ∧ (serving stACTIVE .absent (setw1 7)).allowed 1 [1, 2, 3, 4, 5, 6, 7] = true ∧
      (setw1 7).f 16 1 = 7 ∧ 7 < (setw1 8).f 16 1 ∧ 1 ≤ (setw1 7).f 19 1 ∧ (serving stACTIVE .absent (setw1 8)).nextReq 1 4 = some (setw1 8)) ∧
    (mapCause 1 ((serving stQUIESCED .absent map1).dropReq map1) map1 = 0 ∧ mapCause 1 ((serving stACTIVE .absent map1).dropReq map1) map1 = 2 ∧
      (serving stQUIESCED .absent map1).nextReq 1 5 = some map1) ∧
    (let q := reqOf 6 1 [(16, 63)]
     (serving stQUIESCED .absent q).nextReq 1 6 = some q ∧ q.f 16 1 ≤ 63 ∧ (serving stQUIESCED .absent q).allowed 1 [stQUIESCED] = true ∧
      (serving stACTIVE .absent q).allowed 1 [stQUIESCED] = false) ∧
    ([7, 8, 9, 10].all fun op =>
      let q := reqOf op 1 []
      decide ((serving stACTIVE .absent q).nextReq 1 op = some q) && decide ((serving stQUIESCED .absent q).nextReq 1 op = some q)) = true ∧
    (let s := serving stQUIESCING { Instance.absent with work := some ⟨.quiesce, 0, 0⟩ } (reqOf 9 1 [])
     (s.inst 1).work = some ⟨.quiesce, 0, 0⟩ ∧ s.cmds = [] ∧ (∀ r, r < 64 → (s.ring 1 r).fetched = []) ∧
      s.allowed 1 [stACTIVE, stQUIESCING, stQUIESCED, stFAULTED] = true ∧ s.nextReq 1 9 = some (reqOf 9 1 []) ∧
      s.allowed 1 [0, 1, 2, 3, 4, 5, 6, 7] = true ∧ s.instState 1 ≠ stABSENT) ∧
    (let s := serving stABSENT .absent (reqOf 10 1 [])
     s.nextReq 1 10 = some (reqOf 10 1 []) ∧ s.allowed 1 [0, 1, 2, 3, 4, 5, 6, 7] = true ∧ s.instState 1 = stABSENT ∧
      s.allowed 1 [stACTIVE, stQUIESCING, stQUIESCED, stFAULTED] = false) ∧
    (let q := reqOf 6 1 [(16, 64)]
     (serving stQUIESCED .absent q).allowed 1 [stQUIESCED] = true ∧ 63 < q.f 16 1) ∧
    (let s := { serving stQUIESCED .absent (reqOf 10 1 []) with regs := [word .mpBootstat [(MP_BOOTSTAT.STAGE, 7)]] }
     s.nextReq 1 10 = some (reqOf 10 1 []) ∧ s.mpServes = true ∧ s.getF .mpBootstat MP_BOOTSTAT.STAGE = 7) := by decide

theorem test_work_ends :
    ([MgmtOp.reset, .remove].all fun o =>
      let s := serving stRESETTING { Instance.absent with work := some ⟨o, 0, 0⟩ } (reqOf 9 1 [])
      decide ((s.inst 1).work = some ⟨o, 0, 0⟩) && s.retired 1 && !{ s with cmds := [cmdOf 1 (.kernel kernel1) .ended] }.retired 1) = true := by
  decide

def create1 (cores : Nat) : Req := reqOf 1 1 [(16, 7), (17, 1), (18, cores), (19, 5), (20, 3), (24, 2)]
def leased : Instance := { Instance.absent with lease := [0], stackSet := [0, 1], quota := 2, frames := [[(0, 0)], [(1, 0)]] }

theorem test_create :
    (let s := serving stABSENT .absent (create1 2)
     s.nextReq 1 1 = some (create1 2) ∧ s.sameCreate 1 (create1 2) = false ∧
      ({ s with regs := ([word (.iwState 1) [(IW_STATE.STATE, stQUIESCED), (IW_STATE.PRIO, 7), (IW_STATE.MINCORES, 1), (IW_STATE.CORES, 2)],
          word (.wvWeight 1) [(WV_WEIGHT.WEIGHT, 5)], word (.iwMem 1) [(IW_MEM.STACKSET, 3), (IW_MEM.QGIB, 2)]] ++ s.regs) } : State).sameCreate 1 (create1 2)
        = true ∧ createCause 1 (s.dropReq (create1 2)) (create1 2) = 0 ∧
      s.coresChosen 1 ((create1 2).f 18 1) [0, 1] = true ∧
      s.framesChosen (stacksOf ((create1 2).f 20 2)) (perSlot (stacksOf ((create1 2).f 20 2)).length ((create1 2).f 24 2) ((create1 2).f 22 1 == 1)) [[0], [5]] = true) ∧
    createCause 1 ((serving stABSENT .absent (create1 0)).dropReq (create1 0)) (create1 0) = 3 ∧
    (let s := serving stCREATING { leased with work := some ⟨.create, 0, 0⟩, frames := [] } (create1 2)
     (s.inst 1).work = some ⟨.create, 0, 0⟩ ∧ s.framesReady 1 = true) := by decide +kernel

theorem test_resize :
    (let q := reqOf 2 1 [(18, 2), (24, 4)]
     let s := serving stQUIESCED leased q
     s.nextReq 1 2 = some q ∧ resizeCause 1 (s.dropReq q) q = 0 ∧ s.coresChosen 1 (q.f 18 1 - (s.inst 1).lease.length) [1] = true ∧
      s.framesChosen (s.inst 1).stackSet (perSlot (s.inst 1).stackSet.length (q.f 24 2) (s.inst 1).mirror -
        perSlot (s.inst 1).stackSet.length (s.inst 1).quota (s.inst 1).mirror) [[1], [1]] = true) ∧
    (let q := reqOf 2 1 [(18, 2), (24, 4)]
     resizeCause 1 ((serving stFAULTED leased q).dropReq q) q = 2) := by decide +kernel

theorem test_fixlease :
    (let q := reqOf 3 1 [(18, 2), (28, 9)]
     let s := serving stQUIESCED leased q
     s.nextReq 1 3 = some q ∧ s.fixAgain 1 q = false ∧
      ({ s with regs := word (.iwState 1) [(IW_STATE.STATE, stQUIESCED), (IW_STATE.CORES, 2), (IW_STATE.FIXED, 1)] :: s.regs, insts := [(1, { leased with lease := [0, 1], fixedTerm := 9 })] } : State).fixAgain 1 q = true ∧ fixCause 1 (s.dropReq q) q = 0 ∧ s.coresChosen 1 (q.f 18 1 - (s.inst 1).lease.length) [1] = true) ∧
    (let q := reqOf 3 1 [(18, 2), (28, 9)]
     fixCause 1 ((serving stACTIVE leased q).dropReq q) q = 2) := by decide +kernel

theorem test_retired : (let s := withCmd State.reset (cmdOf 1 (.kernel kernel1) .running)
    (s.retireAll 1 4 0).cmds ≠ [] ∧ ∀ c ∈ (s.retireAll 1 4 0).cmds, c.inst = 1) := by decide

/-! ## Fronthaul -/

/-- A U-plane frame without sections, for the broadcast address. -/
def rx1 : FhRx :=
  { sub := 3, fcs := true, len := 64, dst := 0xFFFFFFFFFFFF, etype := 0xAEFE, vid := 5, rev := 1, sized := true, mtype := 0, ebit := true,
    pcid := 9, seq := 0, frame := 0, subframe := 0, slot := 0, symbol := 0, sections := [], head := [], ptp := none, ssm := none }
/-- Port 23 in service with four sub-ports up, its port state as f makes it. -/
def fhWith (f : FhPort → FhPort) (l : List (Reg × BitVec 64)) : State :=
  { withRegs ([word (.fhCfg 23) [(FH_CFG.EN, 1), (FH_CFG.MODE, 2)], word (.fhStatus 23) [(⟨31, 28⟩, 15)]] ++ l) with fh := [(23, f FhPort.reset)] }
/-- Flow entry 7: direction, plane, compression. -/
def flowHi (dir plane : Nat) : Reg × BitVec 64 :=
  word (.fhFlowHi 23 7) [(FH_FLOW_HI.VALID, 1), (FH_FLOW_HI.DIR, dir), (FH_FLOW_HI.PLANE, plane), (FH_FLOW_HI.SUB, 3), (FH_FLOW_HI.VID, 5),
    (FH_FLOW_HI.EAXC, 9), (FH_FLOW_HI.COMP, 1), (FH_FLOW_HI.WIDTH, 9)]
def frame1 (cls : Nat) : FhFrame :=
  { id := 4, cls := cls, sub := 3, flow := 7, len := 64, earliest := 0, latest := 0, slot := 0, wire := [], tb := 0, idle := false, got := none, sent := none }

theorem test_ingress :
    (let s := fhWith id []
     s.fhUp 23 3 = true ∧ (s.fhp 23).stop = none ∧ s.fhDest 23 rx1 = true ∧ s.fhDest 23 { rx1 with dst := 1 } = false) ∧
    ((fhWith (fun x => { x with stop := some .reset }) []).fhp 23).stop = some .reset ∧
    (rx1.fcs = true ∧ 64 ≤ rx1.len ∧ rx1.len ≤ 9216 ∧ rx1.etype = 0xAEFE ∧ rx1.rev = 1 ∧ rx1.sized = true ∧ rx1.mtype = 0 ∧ rx1.ebit = true) ∧
    (let s := fhWith id [flowHi 0 0]
     let air := s.airTime rx1 (FH_FLOW_HI.SCS.get (s.reg (.fhFlowHi 23 7))) 0
     SMap.get 0 (s.fhp 23).rates 7 = 0 ∧ air + ((signed 32 (s.getF (.fhWin 23 3) FH_WIN.TA4MIN) : Int) : Rat) ≤ air ∧
      air ≤ air + ((signed 32 (s.getF (.fhWin 23 3) FH_WIN.TA4MAX) : Int) : Rat) ∧ SMap.get 0 (s.fhp 23).seqs 7 = 0 ∧
      s.fhSections 23 7 rx1 = some []) ∧
    (let s := fhWith (fun x => { x with rates := [(7, 1)] }) [flowHi 0 0]
     SMap.get 0 (s.fhp 23).rates 7 ≠ 0 ∧ SMap.get 0 (s.fhp 23).tokens 7 < (rx1.len + (s.fhp 23).ovh) * 256) := by decide +kernel

theorem test_flow_match : (fhWith id [flowHi 0 0]).fhMatch 23 rx1 = some 7 ∧ (fhWith id []).fhMatch 23 rx1 = none := by decide +kernel

theorem test_egress :
    (let s := fhWith id [flowHi 1 1]
     s.fhEn 23 = true ∧ (s.fhp 23).stop = none ∧ FH_FLOW_HI.DIR.get (s.reg (.fhFlowHi 23 7)) = 1 ∧
      FH_FLOW_HI.PLANE.get (s.reg (.fhFlowHi 23 7)) = 1 ∧ 64 ≤ s.getF (.fhMtu 23) FH_MTU.MTU) ∧
    (let s := fhWith id [flowHi 1 0]
     FH_FLOW_HI.PLANE.get (s.reg (.fhFlowHi 23 7)) ≠ 1 ∧ (List.replicate 24 (-32767 : Int)).length = 24 ∧
      prbCompress 9 (List.replicate 24 (-32767)) = (8, List.replicate 24 (-128))) ∧
    (let s := fhWith (fun x => { x with queue := [frame1 4] }) [flowHi 1 0]
     s.fhTurn 23 3 = some (frame1 4) ∧ s.fhEn 23 = true ∧ (s.fhp 23).stop = none ∧ SMap.get none (s.fhp 23).line 3 = none ∧ s.fhUp 23 3 = true ∧
      s.getF (.fhFlowHi 23 (frame1 4).flow) FH_FLOW_HI.VALID = 1) ∧
    (let s := fhWith (fun x => { x with queue := [frame1 1] }) []
     s.fhTurn 23 3 = some (frame1 1) ∧ s.fhUp 23 3 = true) ∧
    (let s := fhWith (fun x => { x with queue := [frame1 4] }) []
     s.fhTurn 23 3 = some (frame1 4) ∧ s.getF (.fhFlowHi 23 (frame1 4).flow) FH_FLOW_HI.VALID = 0) ∧
    SMap.get none ((fhWith (fun x => { x with line := [(3, some (frame1 4))] }) []).fhp 23).line 3 = some (frame1 4) ∧
    (let s := { (fhWith (fun x => { x with queue := [frame1 3] }) []) with gtc := 9, time := { TimeState.reset with d := 5 } }
     (s.fhp 23).queue.find? (fun f => f.id == 4) = some (frame1 3) ∧ ((frame1 3).latest : Rat) < s.tbr) ∧
    (let s := { (fhWith (fun x => { x with queue := [frame1 4] }) []) with
        gtc := 9, time := { TimeState.reset with d := 5 }, radio := { RadioState.reset with overrun := [(0, true)] } }
     (s.fhp 23).queue.find? (fun f => f.id == 4) = some (frame1 4) ∧ ((frame1 4).latest : Rat) < s.tbr ∧
      SMap.get false s.radio.overrun (s.getF (.fhFlowHi 23 (frame1 4).flow) FH_FLOW_HI.CGC) = true ∧
      (s.getF (.fhFlowHi 23 (frame1 4).flow) FH_FLOW_HI.CGC, (frame1 4).slot) ∉ s.radio.missed) ∧
    (let s := fhWith id [flowHi 0 0]
     s.gtc % refillCycles (s.fhp 23).period = 0 ∧ (s.fhp 23).refilled ≠ s.gtc + 1 ∧ s.getF (.fhFlowHi 23 7) FH_FLOW_HI.DIR ≠ 1) ∧
    (let s := { (fhWith id [word (.timeTbCfg 1) [(TIME_TB_CFG.PPORT, 23), (TIME_TB_CFG.PSRC, 1), (TIME_TB_CFG.EN, 1)], word (.timeTbStatus 1) [(TIME_TB_STATUS.STATE, tbACQUIRE)]]) with
        time := { TimeState.reset with ptp := [(1, { Ptp.idle with t2 := some 5 })] } }
     s.getF (.timeTbCfg 1) TIME_TB_CFG.PPORT = 23 ∧ s.psrc 1 = 1 ∧ s.tbState 1 ≠ tbOFF ∧ s.fhEn 23 = true ∧ (s.ptp 1).t2 = some 5) := by decide +kernel

theorem test_links_and_modules :
    (let s := withRegs [word (.fhCfg 23) [(FH_CFG.EN, 1), (FH_CFG.MODE, 2)]]
     s.fhEn 23 = true ∧ 3 < subPorts (s.getF (.fhCfg 23) FH_CFG.MODE) ∧ s.fhUp 23 3 = false) ∧
    ((fhWith id []).fhUp 23 3 = true ∧ (fhWith id []).fhEn 23 = true ∧ ((fhWith id []).fhp 23).stop = none) ∧
    (let s := { (fhWith (fun x => { x with inserted := some 0 }) [word (.fhStatus 23) [(FH_STATUS.MODPRS, 1)]]) with gtc := 216000000000 }
     (s.fhp 23).inserted = some 0 ∧ 0 + 216000000000 ≤ s.gtc) ∧
    (let s := { withRegs [word (.fhStatus 23) [(FH_STATUS.MODPRS, 1)]] with gtc := 36000000000, boot := { BootState.off with grizor := true } }
     s.getF (.fhStatus 23) FH_STATUS.MODPRS = 1 ∧ s.boot.grizor = true ∧ (s.fhp 23).readAt + 36000000000 ≤ s.gtc ∧ s.getF .mpLoad MP_LOAD.LEVEL = 0) ∧
    ([PeStop.reset, .watchdog, .update].all fun w => decide (((fhWith (fun x => { x with stop := some w }) []).fhp 23).stop = some w)) = true := by
  decide

/-! ## Radio service -/

def cellCfg1 : CellCfg :=
  { mu := 1, fdd := true, bw := 100, ant := 4, dl := 4, ul := 4, pool := 0, model := none, t1a := 0, ta4 := 0, flows := [], wins := [], shapers := [] }
def cell1 (ph : CellPhase) : Cell :=
  { ctx := 3, phase := ph, mu := 1, cost := 48, pool := 0, model := none, fallback := 0, flows := [], wins := [], shapers := [], start := none,
    stopping := false, accepted := [] }
/-- Queue pair 63 of context 3 has one record of a message of up to 48 bytes; cell 9 is c; the beat runs. -/
def pairWith (c : Option Cell) (f : RadioState → RadioState) (num : Nat) : State :=
  let s := serving stACTIVE .absent (setw1 7) 9
  { s with
    regs := s.regs ++ [word (.rlQpCtl 63) [(RL_QP_CTL.EN, 1), (RL_QP_CTL.CTX, 3), (RL_QP_CTL.LIN, 16), (RL_QP_CTL.LOUT, 16)],
      word (.timeBeat) [(TIME_BEAT.NUM, num)]]
    beat := { BeatState.stopped with started := true }
    radio := f { RadioState.reset with cells := [(9, c)], qps := [(63, { Qp.off with inProd := 64 })] } }

theorem test_inbound : (pairWith (some (cell1 .running)) id 0).Inbound 63 0 48 9 false ∧ (pairWith none id 0).Inbound 63 0 48 9 true :=
  ⟨⟨by decide, by decide, by decide, by decide, by decide, by decide, .inl ⟨cell1 .running, by decide, by decide⟩⟩,
   ⟨by decide, by decide, by decide, by decide, by decide, by decide, .inr (by decide)⟩⟩

theorem test_p5_queue :
    ((pairWith none id 0).radio.p5 = [] ∧ (pairWith none id 0).mpServes = true) ∧
    (let s := pairWith (some (cell1 .running)) id 0
     let s := { s with regs := word .mpLoad [(MP_LOAD.LEVEL, 3)] :: s.regs }
     s.mpServes = false ∧ s.qpLive 63 = true ∧ (s.qp 63).inCons < (s.qp 63).inProd ∧ s.cell 9 = some (cell1 .running)) := by decide

theorem test_configure : (let u := (pairWith none id 0).qpTake 63 48 false
      u.configRefusal 9 3 cellCfg1 = none ∧ u.cellCost cellCfg1 = some 48 ∧ u.configRefusal 9 3 { cellCfg1 with mu := 2 } = some [errCONFIG]) ∧
    (pairWith none id 0).mpServes = true := by decide +kernel

theorem test_cells :
    (let s := pairWith (some (cell1 .configured)) id 0
     s.mpServes = true ∧ s.beat.started = true ∧ s.cell 9 = some (cell1 .configured)) ∧
    (let s := pairWith (some { cell1 .configured with start := some 0 }) id 0
     s.cell 9 = some { cell1 .configured with start := some 0 }) ∧
    (let s := pairWith (some { cell1 .running with accepted := [⟨0, true, 0, 0, 0, 0⟩] }) id 0
     s.cell 9 = some { cell1 .running with accepted := [⟨0, true, 0, 0, 0, 0⟩] }) ∧
    (let s := pairWith none id 0
     s.qpLive 63 = true ∧ (s.qp 63).inCons < (s.qp 63).inProd ∧ s.cell 1024 = none) := by decide

/-- At 32 beats a slot, slot 2 is 57 beats ahead and in time, slot 1 is 25 beats ahead and late. -/
theorem test_slot_requests :
    (let s := pairWith (some (cell1 .running)) id 7
     s.slotBeats 1 = 32 ∧ s.beatsTo 1 2 = some 57 ∧ dlLead 32 < 57 ∧ 57 ≤ 64 * 32 ∧ s.beatsTo 1 1 = some 25 ∧ 25 < dlLead 32 ∧ 25 < ulLead 32 ∧
      2 < hyperSlots 1) := by decide

def job1 : DpdJob := { qp := 63, phy := 9, chain := 2, orders := [1, 1, 0, 2], len := 4096, at_ := 0 }

theorem test_radio_work :
    (let s := { pairWith none (fun r => { r with dpd := [job1], dpdCtx := some 3 }) 0 with gtc := 360000000 }
     s.radio.dpd.find? (fun j => j.phy == 9 && j.chain == 2) = some job1 ∧ s.radio.dpdCtx.isSome = true ∧ s.gtc ≤ job1.at_ + s.radio.dpdMax ∧
      job1.at_ + s.radio.dpdMax ≤ s.gtc) ∧
    (let s := pairWith (some (cell1 .running)) id 0
     ((0 : Nat) = 0 ∧ 0 < s.slotBeats 0 ∧ 0 < s.slotBeats 1 ∧ 0 < s.slotBeats 3 ∧ s.beat.first = false ∧
      s.getF .timeBeat TIME_BEAT.NUM % s.slotBeats 3 = 0 ∧ SMap.get 0 s.radio.slotMark 3 ≠ s.beat.boundary + 1) ∧ s.qpsOf (cell1 .running).ctx = [63]) ∧
    (let s := { pairWith none (fun r => { r with ctxs := [(3, { RCtx.up with recent := [1, 2, 3] })] }) 0 with gtc := 4 }
     (s.rctx 3).halted = false ∧ 3 ≤ ((s.rctx 3).recent.filter fun t => decide (s.gtc < t + 3600000000)).length) ∧
    (pairWith (some { cell1 .running with fallback := 1 }) id 0).cell 9 = some { cell1 .running with fallback := 1 } ∧
    (let s := { pairWith none (fun r => { r with qps := [(63, { Qp.off with held := [(0, ⟨1, 9, []⟩)] })] }) 0 with gtc := 14400000 }
     (s.qp 63).held = [(0, ⟨1, 9, []⟩)] ∧ 0 + 4 * (s.slotBeats (s.finest (s.getF (.rlQpCtl 63) RL_QP_CTL.CTX)) * s.beat.length) ≤ s.gtc) := by
  decide +kernel

/-! ## Withy and Waling -/

/-- Device 5 of a ring of 5, 6, 7: port 3 (side 0) toward 6, port 4 (side 1) toward 7, both in a state; the time is gtc. -/
def ring3 (st wl : Nat) (l : List (Reg × BitVec 64)) (g : WalingState → WalingState) (gtc : Nat) : State :=
  { withRegs (l ++ [word .wyDevid [(WY_DEVID.ID, 5)], word .wlCfg [(WL_CFG.EN, 1), (WL_CFG.PORTA, 3), (WL_CFG.PORTB, 4)],
      word .wlState [(WL_STATE.STATE, wl)],
      word (.wyStatus 3) [(WY_STATUS.STATE, st), (WY_STATUS.PEERID, 6), (WY_STATUS.WIDTH, 4)],
      word (.wyStatus 4) [(WY_STATUS.STATE, st), (WY_STATUS.PEERID, 7), (WY_STATUS.WIDTH, 4)],
      word (.wlMember 0) [(WL_MEMBER.ID, 5), (WL_MEMBER.STATE, 1)], word (.wlMember 1) [(WL_MEMBER.ID, 6), (WL_MEMBER.STATE, 1)],
      word (.wlMember 2) [(WL_MEMBER.ID, 7), (WL_MEMBER.STATE, 1)]]) with
    gtc := gtc, waling := g WalingState.reset }
def hdr1 (dst : Nat) : WyHdr := { dst := dst, src := 9, hops := 0, group := 77, tid := 1, addr := 2 ^ 47, ord := false, rank := false }
def held1 (write : Bool) (attempts : Nat) : WyTxn :=
  { tid := 1, dst := 9, group := 77, ord := false, rank := 0, write := write, addr := 0, len := 4, data := [], ctx := .tenant 1, cmd := 1, slot := 0,
    side := 0, eng := 0, txn := 4, attempts := attempts, at_ := 0 }

theorem test_ports :
    (ring3 wyDOWN wlOFF [] id 0).wyState 3 = wyDOWN ∧ (ring3 wyREFUSED wlOFF [] id 0).wyState 3 = wyREFUSED ∧
    (ring3 wyIDENTITY wlOFF [] id 0).wyState 3 = wyIDENTITY ∧ (ring3 wyTRAINING wlOFF [] id 0).wyState 3 = wyTRAINING ∧
    (let s := ring3 wyTRAINING wlOFF [word (.wyCfg 3) [(WY_CFG.MODE, 1)]] id 0
     s.getF (.wyCfg 3) WY_CFG.MODE = true.toNat ∧ s.getF (.wyCfg 3) WY_CFG.MODE ≠ false.toNat ∧ 6 ≠ s.devid ∧ s.devid = 5) ∧
    (ring3 wyUP wlOFF [] id 0).wyState 3 = wyUP ∧ 1 < 4 ∧
    (let s := { ring3 wyUP wlOFF [] id 0 with withy := { WithyState.reset with ports := [(3, { WyPort.zero with first := 100, seq := 1123 })] } }
     s.wyState 3 = wyUP ∧ (s.wyPort 3).first + 1023 ≤ (s.wyPort 3).seq) ∧ 3 < (ring3 wyUP wlOFF [] id 0).getF (.wyStatus 3) WY_STATUS.WIDTH ∧
    (let s := { ring3 wyUP wlOFF [] id 0 with boot := { BootState.off with grizor := true }, withy := { WithyState.reset with ports := [(3, { WyPort.zero with serial := some 12 })] } }
     s.boot.grizor = true ∧ s.getF .mpLoad MP_LOAD.LEVEL = 0 ∧ (s.wyPort 3).serial = some 12 ∧ ∀ w, w < 16 → (s.wyPort w).serial ≠ some 13) := by decide

theorem test_arrivals :
    (ring3 wyUP wlMEMBER [] id 0).Arrives 3 (hdr1 5) ∧ (ring3 wyFENCED wlMEMBER [] id 0).Arrives 3 (hdr1 6) :=
  ⟨⟨by decide, by decide, by decide, by decide⟩, ⟨by decide, by decide, by decide, by decide⟩⟩

/-- Group 77 is instance 1, whose lease position 0 is core slot 0. -/
def target1 : State :=
  { ring3 wyUP wlMEMBER ([word (.wyGroup 1) [(WY_GROUP.GROUP, 77)], word (.iwState 1) [(IW_STATE.STATE, stACTIVE)]] ++ slotRegs 3 1) id 0 with
    insts := [(1, leased)] }

/-- The port owns core slot 0 of its group's instance: a byte of it may be written, and no word of it is bad. -/
theorem test_remote_write : target1.groupInst 77 = some 1 ∧ (hdr1 5).addr / 2 ^ 47 = 1 ∧ target1.wyScratch 1 (hdr1 5).addr 4 = some (0, 0) ∧
    (target1.core 0).partialBad 0 4 = false := by decide +kernel

/-- An ORD transaction of the same sender follows one that waits. -/
theorem test_remote_order : (hdr1 5).tid < 2 ^ 32 ∧ (∀ q ∈ target1.withy.stalled, q.src = (hdr1 5).src → q.tid ≠ (hdr1 5).tid) ∧
    (({ hdr1 5 with ord := true, tid := 2 } : WyHdr).ord = true ∧ ({ hdr1 5 with ord := true, tid := 2 } : WyHdr).tid = ((hdr1 5).tid + 1) % 2 ^ 32) := by
  decide

theorem test_remote :
    (hdr1 5).addr % 4096 + 4 ≤ 4096 ∧ target1.groupInst 77 = some 1 ∧ target1.groupInst 78 = none ∧ (hdr1 5).addr / 2 ^ 47 = 1 ∧
    target1.wyScratch 1 (hdr1 5).addr 4 = some (0, 0) ∧
    ([true, false].all fun b => [3, 4].all fun n =>
      let s := { ring3 wyUP wlMEMBER [] id (3600 * 65536) with withy := { WithyState.reset with held := [held1 b n] } }
      decide (s.wyHeld 1 = some (held1 b n)) && decide (0 + 3600 * s.getF .wyRto WY_RTO.TIMEOUT ≤ s.gtc)) = true ∧
    (ring3 wyUP wlMEMBER [] id 0).wyHeld 1 = none := by decide +kernel

theorem test_ring_time :
    (let s := ring3 wyUP wlMEMBER [word (.timeTbStatus 2) [(TIME_TB_STATUS.STATE, tbLOCKED)], word (.timeTbCfg 2) [(TIME_TB_CFG.PSRC, 4), (TIME_TB_CFG.PPORT, 3), (TIME_TB_CFG.EN, 1)]] id 230400
     s.tbState 2 ≠ tbOFF ∧ s.ringPort 3 = true ∧ s.ringPort 4 = false ∧ (s.wyPort 4).exch + 230400 ≤ s.gtc ∧
      ({ s with withy := { s.withy with hops := some 31 } } : State).ringHops = some 32 ∧ ({ s with withy := { s.withy with sync := some (1, 2, 3) } } : State).withy.sync = some (1, 2, 3)) ∧
    (ring3 wyUP wlMEMBER [] id 0).ringHops = some 0 := by decide

def msg1 (origin subject result : Nat) : WlMsg :=
  { WlMsg.blank with origin := origin, subject := subject, result := result, group := 77, key := 5 }
def token1 (side : Nat) : WlToken := ⟨6, [], 7, side, 2⟩

theorem test_members :
    (let s := ring3 wyUP wlMEMBER [] id 28800
     s.wlActive = true ∧ s.waling.hbAt + 28800 ≤ s.gtc ∧ s.wlOn = true ∧ s.wyState (s.wlPort 0) = wyUP ∧ s.waling.probes = [] ∧
      (s.nbr 0).suspect = false ∧ s.members.find? (fun e => e.2.1 == s.nbrId 0) = some (1, 6, 1) ∧ s.memberState (s.nbrId 0) = 1 ∧
      (s.nbr 0).heard = false ∧ (s.nbr 0).winEnd ≤ s.gtc ∧
      (({ s with waling := { s.waling with nbrs := [(0, { WlNbr.idle with seen := true })] } } : State).nbr 0).seen = true) ∧
    (let s := ring3 wyUP wlMEMBER [] (fun g => { g with nbrs := [(0, { WlNbr.idle with seen := true, suspect := true, misses := 4 })] }) 0
     let s := { s with regs := word (.wlMember 1) [(WL_MEMBER.ID, 6), (WL_MEMBER.STATE, 2)] :: s.regs }
     s.wlOn = true ∧ s.wyState (s.wlPort 0) = wyUP ∧ s.waling.probes = [] ∧ (s.nbr 0).suspect = true ∧ (s.nbr 0).token = false ∧
      s.memberState (s.nbrId 0) = 2) ∧
    (let s := ring3 wyUP wlMEMBER [word .wlReprobe [(WL_REPROBE.BUSY, 1), (WL_REPROBE.ID, 6)], word (.wyRoute 6) [(WY_ROUTE.PRIV, 1), (WY_ROUTE.PRI, 3)]] (fun g => { g with reprobe := some 0 }) 0
     s.devid < 65536 ∧ s.wyState 3 = wyUP ∧ s.waling.probes = [] ∧ s.waling.reprobe = some 0 ∧ s.wyRoute (s.getF .wlReprobe WL_REPROBE.ID) = some 3 ∧
      s.wyRoute 6 = some 3 ∧ 6 ≠ s.devid ∧ s.wyRoute 9 = none ∧ 9 ≠ s.devid) ∧
    (let s := ring3 wyUP wlMEMBER [] (fun g => { g with nbrs := [(0, { WlNbr.idle with misses := 4 })] }) 0
     4 ≤ (s.nbr 0).misses ∧ (s.nbr 0).suspect = false ∧ s.memberState (s.nbrId 0) = 1) ∧
    (let s := ring3 wyUP wlMEMBER [] (fun g => { g with probes := [(token1 0, 0)] }) 57600
     s.waling.probes.find? (fun q => q.1.subject == 6) = some (token1 0, 0) ∧ 0 + 57600 ≤ s.gtc) := by decide +kernel

theorem test_hears : (ring3 wyUP wlMEMBER [] id 0).Hears 1 (msg1 7 6 1) ∧ (ring3 wyUP wlOFF [] id 0).Hears 0 (msg1 7 6 2) :=
  ⟨⟨by decide, by decide, by decide⟩, ⟨by decide, by decide, by decide⟩⟩

theorem test_tokens :
    (let s := ring3 wyUP wlMEMBER [] id 0
     s.wlActive = true ∧ inService (s.memberState 6) = true ∧ s.devid ∉ [6] ∧ (∀ t ∈ s.waling.tokens, t.subject = 6 → t.side = 1)) ∧
    (ring3 wyUP wlOFF [] id 0).wlActive = false ∧ (∃ t ∈ (ring3 wyUP wlMEMBER [] (fun g => { g with tokens := [token1 0] }) 0).waling.tokens, t.subject = 6 ∧ t.side ≠ 1) ∧
    (let s := ring3 wyUP wlMEMBER [] id 0
     s.applied (msg1 7 6 1) = false ∧ s.wlState ≠ wlFENCED ∧ s.devid < 65536 ∧ s.waling.reprobe = none) ∧
    (ring3 wyUP wlMEMBER [word (.wlMember 1) [(WL_MEMBER.ID, 6), (WL_MEMBER.STATE, 3)]] id 0).applied (msg1 7 6 1) = true := by decide +kernel

theorem test_health :
    (let s := ring3 wyUP wlMEMBER [] (fun g => { g with ce := 255, rt := 3 }) 360000000
     s.waling.healthAt + 360000000 ≤ s.gtc) ∧
    (let s := ring3 wyUP wlOFF [] (fun g => { g with ce := 255, rt := 3 }) 360000000
     s.waling.healthAt + 360000000 ≤ s.gtc ∧ s.wlActive = false) ∧
    (ring3 wyUP wlMEMBER [] (fun g => { g with candidate := true, highRun := 3 }) 0).waling.highRun = 3 ∧
    (ring3 wyUP wlMEMBER [word .wlHealth [(WL_HEALTH.LOWRUN, 3)]] id 0).getF .wlHealth WL_HEALTH.LOWRUN = 3 ∧
    (let s := ring3 wyUP wlMEMBER [] (fun g => { g with budgetAt := some 1, budgetFrom := 5 }) 2
     s.waling.budgetAt = some 1 ∧ s.gtc < 1 + 28800000 ∧ s.waling.budgetFrom < (msg1 6 0 0).origin) ∧
    ((ring3 wyUP wlMEMBER [] id 0).waling.budgetAt = none ∧ (ring3 wyUP wlMEMBER [] id 0).waling.candidate = false) ∧
    (ring3 wyUP wlMEMBER [] id 28800000).waling.budgetAt.getD 0 + 28800000 ≤ (ring3 wyUP wlMEMBER [] id 28800000).gtc ∧
    (ring3 wyUP wlMEMBER [word .wlReprobe [(WL_REPROBE.BUSY, 1)]] id 0).getF .wlReprobe WL_REPROBE.BUSY = 1 ∧
    (ring3 wyUP wlMEMBER [] id 0).getF .wlReprobe WL_REPROBE.BUSY ≠ 1 ∧
    (let s := ring3 wyUP wlMEMBER [] (fun g => { g with reprobe := some 0 }) 57600
     s.waling.reprobe = some 0 ∧ 0 + 57600 * 1 ≤ s.gtc) := by decide

theorem test_serving :
    (let s := withRegs [word (.wlMember 0) [(WL_MEMBER.ID, 5), (WL_MEMBER.STATE, 1)], word .wlCfg [(WL_CFG.EN, 1)], word .wlState [(WL_STATE.STATE, wlMEMBER)], word .wyDevid [(WY_DEVID.ID, 5)]]
     s.wlActive = true ∧ ∀ d ∈ s.serving, s.devid ≤ d) := by decide +kernel

/-- WL_CLAIM_CTL of a claim for instance 64. -/
def claimWord : Nat := (WL_CLAIM_CTL.INST.set (2 ^ 31 : BitVec 64) 64).toNat

theorem test_claims :
    (claimWord < 2 ^ 32 ∧ claimWord / 2 ^ 31 = 1 ∧ WL_CLAIM_CTL.INST.get (BitVec.ofNat 64 claimWord) = 64) ∧
    (let s := withRegs [word .wlClaimKey [(WL_CLAIM_KEY.UMPIRE, 6)]]
     s.getF .wlClaimCtl WL_CLAIM_CTL.BUSY = 0 ∧ s.fencedPeer (s.getF .wlClaimKey WL_CLAIM_KEY.UMPIRE) = false ∧ s.getF .wlClaimKey WL_CLAIM_KEY.UMPIRE ≠ s.devid) ∧
    (let s := withRegs [word .wlClaimKey [(WL_CLAIM_KEY.UMPIRE, 6)], word .wyDevid [(WY_DEVID.ID, 6)]]
     s.getF .wlClaimCtl WL_CLAIM_CTL.BUSY = 0 ∧ s.fencedPeer (s.getF .wlClaimKey WL_CLAIM_KEY.UMPIRE) = false ∧ s.getF .wlClaimKey WL_CLAIM_KEY.UMPIRE = s.devid) ∧
    (let s := ring3 wyUP wlMEMBER [word .wlClaimKey [(WL_CLAIM_KEY.UMPIRE, 8)], word (.wlMember 0) [(WL_MEMBER.ID, 8), (WL_MEMBER.STATE, 3)]] id 0
     s.fencedPeer (s.getF .wlClaimKey WL_CLAIM_KEY.UMPIRE) = true) ∧
    ((msg1 7 5 0).group ≠ 0 ∧ target1.getF (.wyGroup 1) WY_GROUP.GROUP = (msg1 7 5 0).group ∧ (msg1 7 5 0).result % 2 = 0 ∧
      target1.waling.claims.find? (fun c => c.tag == 77 && c.key == 5) = none ∧ wlFits (msg1 7 5 0) = true ∧ wlFits (msg1 5 6 7) = true) ∧
    ((ring3 wyUP wlMEMBER [] (fun g => { g with claims := [⟨77, 5, 6⟩] }) 0).waling.claims.find? fun c => c.tag == 77 && c.key == 5) = some ⟨77, 5, 6⟩ ∧
    (ring3 wyUP wlMEMBER [word .wlClaimCtl [(WL_CLAIM_CTL.BUSY, 1)]] id 0).getF .wlClaimCtl WL_CLAIM_CTL.BUSY = 1 := by decide +kernel

theorem test_admission :
    (let s := ring3 wyFENCED wlOFF [] id 0
     s.wlOn = true ∧ s.wlState = wlOFF ∧ s.getF .wlAdmit WL_ADMIT.PHASE = 0 ∧ s.wlActive = false) ∧
    (let s := ring3 wyFENCED wlFENCED [word .wlAdmit [(WL_ADMIT.PHASE, 5)]] id 0
     s.wlOn = true ∧ s.wlState = wlFENCED ∧ s.getF .wlAdmit WL_ADMIT.PHASE = 5) ∧
    ([1, 2, 3].all fun k => decide ((ring3 wyUP wlJOINING [word .wlAdmit [(WL_ADMIT.PHASE, k)]] id 0).getF .wlAdmit WL_ADMIT.PHASE = k)) = true ∧
    (msg1 7 5 3).result ≠ 0 ∧ (msg1 7 8 0).subject ≠ (ring3 wyUP wlMEMBER [] id 0).devid ∧ (msg1 7 8 0).origin ≠ (msg1 7 8 0).subject := by decide

/-! ## Device requests -/

/-- Grizor runs set1 from slot A, request q is at the head of the device ring, and the boot unit is as f makes it. -/
def deviceWith (q : Req) (f : BootState → BootState) (l : List (Reg × BitVec 64)) : State :=
  { bootWith (fun b => f { b with grizor := true, running := set1, flash := flash1, comps := [(2, 0, 1, 7)] }) l 0 with devQ := [q] }

/-- A device request is served with a port of the link up. -/
theorem test_dev_link : (deviceWith (reqOf 0x22 0 []) id linkUp).cclUp = true ∧
    (deviceWith (reqOf 0x22 0 []) id [word (.cclPortStatus 0) [(CCL_PORT_STATUS.STATE, 0)], word (.cclPortStatus 1) [(CCL_PORT_STATUS.STATE, 0)]]).cclUp = false ∧
    (deviceWith (reqOf 0x22 0 []) (fun b => { b with act := some ⟨6, 0, set1, 1, false, 0⟩ }) linkUp).boot.act ≠ none ∧
    (deviceWith (reqOf 0x22 0 []) (fun b => { b with act := some ⟨6, 0, set1, 1, false, 0⟩ }) linkUp).mpServes = true := by decide

theorem test_dev_serves : (deviceWith (reqOf 0x22 0 []) id []).DevServes 0x22 (reqOf 0x22 0 []) :=
  ⟨by decide, by decide, by decide, by decide, by decide, by decide⟩

theorem test_device_requests :
    ([0x21, 0x22, 0x23, 0x24, 0x25, 0x26, 0x27].all fun op => decide ((reqOf op 0 []).op = op)) = true ∧
    State.reset.getF .secStatus SEC_STATUS.IDOK = 0 ∧ (withRegs [word .secStatus [(SEC_STATUS.IDOK, 1)]]).getF .secStatus SEC_STATUS.IDOK ≠ 0 ∧
    (let s := deviceWith (reqOf 0x22 0 []) id []
     s.boot.running.setver ≤ set1.setver ∧ s.boot.flash.floor ≤ set1.setver ∧ s.activeSlot < 2 ∧ ({ set1 with setver := 2 } : FwSet).setver < s.boot.running.setver ∧
      FwSet.none.good = false ∧ s.boot.recovery = false ∧ s.boot.cfg.cseq < cfg1.cseq ∧ s.boot.flash.mincseq ≤ cfg1.cseq ∧ cfg1.good = true ∧
      s.getF .mpBootstat MP_BOOTSTAT.CFGCOPY = 0) ∧
    (let s := deviceWith (reqOf 0x22 0 []) (fun b => { b with work := some ⟨0x22, 0, 0⟩, staged := some set1 }) []
     s.boot.work = some ⟨0x22, 0, 0⟩ ∧ s.boot.staged = some set1 ∧ s.boot.flash.header = some (0, head1)) ∧
    (withRegs [word .mpBootstat [(MP_BOOTSTAT.TRIAL, 1), (MP_BOOTSTAT.CFGCOPY, 1)]]).getF .mpBootstat MP_BOOTSTAT.TRIAL ≠ 0 ∧
    (withRegs [word .mpBootstat [(MP_BOOTSTAT.TRIAL, 1), (MP_BOOTSTAT.CFGCOPY, 1)]]).getF .mpBootstat MP_BOOTSTAT.CFGCOPY ≠ 0 ∧
    (deviceWith (reqOf 0x27 0 []) (fun b => { b with cfg := cfg1 }) []).boot.cfg.good = true ∧
    (deviceWith (reqOf 0x24 0 []) (fun b => { b with recovery := true }) []).boot.recovery = true := by decide

/-- The inactive slot B holds a set of LEVEL lev and FWREV rev; component 2 of die 0 runs at LEVEL 1. -/
def slotB (lev rev : Nat) : FwSet := { set1 with setver := 4, fwrev := rev, comps := [⟨2, lev, 8⟩] }
def updating (q : Req) (set : FwSet) (l : List (Reg × BitVec 64)) : State := deviceWith q (fun b => { b with flash := { flash1 with slotB := set } }) l
def act1 (step inst : Nat) (revert : Bool) : Activation :=
  { step := step, inst := inst, set := slotB 2 1, slot := 1, revert := revert, at_ := 0 }

theorem test_activation_requests :
    (let s := updating (reqOf 0x23 0 []) (slotB 2 1) []
     s.boot.flash.slot (1 - s.activeSlot) = slotB 2 1 ∧ s.boot.flash.valid (slotB 2 1) = true ∧ s.boot.running.setver ≤ (slotB 2 1).setver ∧
      (∀ c ∈ (slotB 2 1).comps, ∀ x ∈ s.boot.comps, x.1 = c.type → c.level = x.2.2.1 ∨ c.level = x.2.2.1 + 1) ∧
      (slotB 2 1).fwrev = s.boot.running.fwrev ∧ (slotB 2 2).fwrev ≠ s.boot.running.fwrev ∧ (reqOf 0x23 0 []).f 16 1 = 0 ∧
      (∃ c ∈ (slotB 3 1).comps, ∃ x ∈ s.boot.comps, x.1 = c.type ∧ c.level ≠ x.2.2.1 ∧ c.level ≠ x.2.2.1 + 1) ∧
      s.boot.flash.valid FwSet.none = false ∧ ({ slotB 2 1 with setver := 2 } : FwSet).setver < s.boot.running.setver) ∧
    (let s := updating (reqOf 0x25 0 []) (slotB 0 1) [word .mpBootstat [(MP_BOOTSTAT.TRIAL, 1)]]
     s.getF .mpBootstat MP_BOOTSTAT.TRIAL = 1 ∧ (∀ c ∈ (slotB 0 1).comps, ∀ x ∈ s.boot.comps, x.1 = c.type → c.level ≤ x.2.2.1 + 1 ∧ x.2.2.1 ≤ c.level + 1)) ∧
    ((deviceWith (reqOf 0x25 0 []) id []).getF .mpBootstat MP_BOOTSTAT.TRIAL = 0 ∧ (deviceWith (reqOf 0x25 0 []) id []).getF .mpBootstat MP_BOOTSTAT.MIXED = 0) := by
  decide

theorem test_activation_steps :
    ([(6, 0, false), (6, 0, true), (4, 14, false), (1, 0, false)].all fun x =>
      let a := act1 x.1 x.2.1 x.2.2
      let s := deviceWith (reqOf 0x23 0 []) (fun b => { b with act := some a }) []
      decide (s.boot.act = some a) && s.stepReady a) = true ∧
    (let s := deviceWith (reqOf 0x23 0 []) (fun b => { b with act := some (act1 5 23 false) }) []
     s.stepReady (act1 5 23 false) = true) := by decide

/-! ## Sensors, the TAP, faults and the scratchpad -/

theorem test_sensors_and_tap :
    (let s := bootWith id [] 0
     s.boot.started = true ∧ SMap.get 0 s.power.trips (64 * 7 + 31) = 0 ∧ s.getF .gctlVcore GCTL_VCORE.AVSOK = 0 ∧ s.boundaryMode = false) ∧
    (let s := { bootWith id [] 0 with power := { PowerState.reset with trips := [(64 * 9 + 7, 1)] } }
     1 ≤ SMap.get 0 s.power.trips (64 * 9 + 7)) ∧
    (∀ j, j < 16 → SMap.get false State.reset.power.warm (64 * (16 + 11) + j) = false) ∧
    (withRegs [word .gctlVcore [(GCTL_VCORE.AVSOK, 1)]]).getF .gctlVcore GCTL_VCORE.AVSOK = 1 ∧
    (bootWith (fun b => { b with straps := [false, false, true, false] }) [] 0).boundaryMode = true ∧
    (bootWith id [] 0).power.avsFault = false ∧
    ({ bootWith id [] 0 with power := { PowerState.reset with avsFault := true } } : State).power.avsFault = true ∧
    340 < 419 ∧ 380 ≤ 419 ∧ (bootWith id [] 0).clocksStopped = false := by decide

theorem test_hold_timer :
    (let s := bare fun c => { c with threads := [(15, { Thread.idle with running := true, region := some .npb, hold := 2048, ctx := .cg 3 })] }
     ((s.core 0).thread 15).running = true ∧ ((s.core 0).thread 15).region.isSome = true ∧ 2048 ≤ ((s.core 0).thread 15).hold ∧
      s.getF (.coreCqNp 0) CORE_CQ_NP.FVALID = 0) ∧
    (withRegs [word (.coreCqNp 0) [(CORE_CQ_NP.FVALID, 1)]]).getF (.coreCqNp 0) CORE_CQ_NP.FVALID = 1 := by decide

theorem test_scratchpad :
    (let s := bare fun c => { c with spCheck := [(8, .single), (9, .double)] }
     s.getF (.coreSpEcc 0) CORE_SP_ECC.SCRUBEN = 1 ∧ SMap.get .good (s.core 0).spCheck 8 ≠ .double ∧ (9, .single) ∉ (s.core 0).spCheck ∧
      SMap.get .good (s.core 0).spCheck 9 = .double) ∧
    ((next 0 0).core 0).where_ 0 = some (4096, .tenant 1, 1) := by decide

/-! ## The whole device -/

theorem test_whole_device :
    State.reset.ClockInv ∧ (bootWith id [] 0).boot.started = true ∧ (bootWith id [] 0).scanMode = false ∧ State.reset.boot.started = false ∧
    (bootWith (fun b => { b with straps := [false, false, true, false] }) [] 0).scanMode = true ∧
    ({ State.reset with clocksStopped := true, power := { PowerState.reset with thermtrip := true } } : State).ClockInv := by
  unfold State.ClockInv
  decide

/-! ## Well-formed commands -/

/-- One ill-formed term for each check; none of them passes. -/
theorem test_ill_formed :
    ([.coldStart [true] none, .grizorStart 256, .selfTestComplete [208] [] [] true, .selfTestComplete [] [(0, 260)] [] true, .warmResetRequest (2 ^ 32),
      .mpLoadWindow 101, .tamper 16, .registerWrite 67108864 4 0, .timeSecRead 4, .tlbInvalidate 65, .ringEnable 66 0 0, .ringEnable 0 64 0,
      .queuePairEnable 64 0, .fhPortEnable 24 0, .flowStagingWrite 0 1024 0 true, .msiUnmask 2048 0, .radioSwitch 2, .appofsWrite (2 ^ 64),
      .reprobeTimeout 0, .beatBoundary 4096 true, .lockLeaseExpiry 0 64, .holdTimeout 0 16, .coreFailed 208, .spareSubstitution 192, .dieFail 8,
      .setw 256, .scratchpadScrub 0 196608 0, .add 0 272, .lin 0 2 0, .lin 0 0 2, .skbRelease 0 256, .weaveTransactionComplete 0 0 0 0 [256],
      .arbitrationRound 450, .weaveRequest 0 2 0 1 none 0, .weaveRequest 0 0 0 65 none 0, .weaveRequest 0 0 0 1 (some (208, 0)) 0, .stackRowAccessComplete 1 0, .stackScrub 12 0 0,
      .stackRefresh 0 16 0, .stackRefresh 0 0 32, .frameClearComplete 0 128, .cclPortUp 0 ⟨9, 0⟩, .cclPortUp 0 ⟨16, 2 ^ 51⟩, .snpinv 1, .lineDataReturn 0 [0], .ppsEdge 2 0,
      .frequencyWindow 25 0, .delayReqSend 2, .ingressFrame 0 { rx1 with sub := 4 } 0, .egressFrameStart 0 4, .moduleInterrupt 0 6 0,
      .paramRequest 0 0 0 65536, .slotStart 2, .contextHalt 127, .cableIdentityReadComplete 0 [0] 0 0 0 true, .linkUp 0 0 true 3 0, .flitCrcError 16 0, .flitCrcError 0 512, .nak 16 0 0, .nak 0 0 256, .gatherProgram ⟨12, 0, 0⟩ [] [],
      .ack 16 (hdr1 5), .ack 0 { hdr1 5 with dst := 65536 }, .rd 0 (hdr1 5) 4097 [] [], .time 0 3 0 0 0, .laneHourTick 0 4, .hb 2 0,
      .death 0 { msg1 1 2 0 with run := List.replicate 21 0 }, .sensorSample 10 0 0, .sensorSample 8 8 0, .sensorSample 0 0 1024,
      .illegalCopyDescriptor 0 0 2] : List Instr).all (fun i => !i.wellFormed) = true := by decide +kernel

theorem test_well_formed :
    ([.coldStart [true, false, false, true] none, .add 207 271, .registerWrite 67108863 4 0, .sensorSample 27 16 1023, .arbitrationRound 449,
      .death 1 (msg1 1 2 0), .rd 15 (hdr1 5) 4096 [] [255]] : List Instr).all (fun i => i.wellFormed) = true := by decide +kernel

/-! ## Steps -/

/-- The thread of `next` runs ADD: rd 1 takes s2 + s3 = 73, the pc goes on by 8. -/
theorem test_step_add :
    (match step { next (wd 0 0x01 r3) 0 with pending := [.add 0 0] } with
    | .next t => decide (((t.core 0).thread 0).reg 1 = 73) && decide (((t.core 0).thread 0).pc = 4104) && t.pending.isEmpty
    | _ => false) = true := by decide +kernel

/-- On an empty queue a cycle passes. -/
theorem test_step_idle : (match step (bootWith id [] 7) with | .next t => t.gtc == 8 | _ => false) = true := by decide +kernel

/-- A command whose event cannot occur changes nothing. -/
theorem test_step_without_effect : (match step { State.reset with pending := [.add 0 0] } with
    | .next t => decide (t = State.reset)
    | _ => false) = true := by decide +kernel

/-! ## Worked examples of the specification -/

/-- The block of 02, Worked BFP8 conversion: six inputs; the other 26 are 0. -/
def bfpIn (x0 : FVal) : List FVal := [x0, .fin (-161) 64, .fin 3 64, .fin (-1) 64, .fin 127 64, .fin (-1) 25]

theorem test_bfp8_example : bfpQuantise 8 (bfpIn (.fin 3 1)) = ⟨0x80, [96, -80, 2, 0, 64, -1], false⟩ := by decide +kernel

theorem test_bfp8_second_pass : (bfpQuantise 8 (bfpIn (.fin 399 100))).e = 129 := by decide +kernel

/-- 02: the automatic shift from ME accumulators into INT8. -/
theorem test_auto_shift : autoShift 127 [1000, -1020, 1020] 47 = 4 ∧
    [1000, -1020, 1020].map (fun v => shiftRound v 4) = [63, -64, 64] := by decide +kernel

/-- 05: the word of MMT 0 of the INT4 layer. -/
theorem test_mmt_word :
    let o := State.reset.mmtOf { p := 0, i := 0, k := 0, ctx := .tenant 1, cmd := 1, pc := 0, w := 0x10411BFE00200530 }
    o.part = 0 ∧ o.af = .int4 ∧ o.planes = 4 ∧ o.m = 512 ∧ o.arow = 0 ∧ o.acc = false ∧ o.swap = true ∧ o.c = 0 ∧
      bitsOf 0x10411BFE00200530 12 8 = 5 ∧ bitsOf 0x10411BFE00200530 7 3 = 6 ∧ bitsOf 0x10411BFE00200530 62 60 = 1 ∧
      bitsOf 0x10411BFE00200530 59 54 = 1 := by decide +kernel

/-- 06: rounds 2, 3 and 4 at the channel: I3, I5 and I9 with their credits and ages. -/
def channel5 (c3 c5 c9 : Int) (a3 a5 a9 : Nat) : WvPoint :=
  let q (n : Nat) : WvReq := { rank := 1, who := n, flits := 64, slot := none, txn := 0, at_ := 0, since := 0, sent := 0 }
  ⟨[(131, ⟨c3, a3, true⟩), (133, ⟨c5, a5, true⟩), (137, ⟨c9, a9, true⟩)], [q 3, q 5, q 9], none, 0⟩
def weaveExample : State :=
  { State.reset with weave := { State.reset.weave with cfg := WV_CFG.WINDOW.set (WV_CFG.AGESTEP.set 0 16) 512 } }
def winnerOf (x : WvPoint) : Option Nat := (weaveExample.wvWinner x).map (·.who)

theorem test_weave_rounds : winnerOf (channel5 102 83 83 0 1 1) = some 3 ∧ winnerOf (channel5 38 83 83 0 2 2) = some 5 ∧
    winnerOf (channel5 38 19 83 1 0 3) = some 9 ∧ refill 0 333 4 8 = 166 ∧ refill 0 333 2 8 = 83 ∧ refill (-26) 333 4 8 = 140 ∧
    weaveExample.wvFw 0x2C = 333 := by decide +kernel

/-- 07: placing one address of I7. -/
def i7 : Instance := { Instance.absent with stackSet := [2, 3, 8, 9], quota := 16, frames := [[(2, 40), (2, 41), (2, 42), (2, 43)]] }

theorem test_placement : i7.placeAt 0x24689ACC0 = (0, 2) ∧ i7.place 0x24689ACC0 = 0x4A91A26CC0 ∧ channelOf 0x4A91A26CC0 = 12 := by
  decide +kernel

/-- 12: a PRB compressed at w = 9. -/
theorem test_prb_example : prbCompress 9 [1022, -1020, 510, 4, -4] = (3, [128, -127, 64, 1, 0]) ∧
    [128, -127, 64, 1, 0].map (fun m => (prbValue 3 m).1) = [1024, -1016, 512, 8, 0] := by decide +kernel

/-- 18: the offsets of logical core 30's entry and of its core's plan word. -/
theorem test_offsets_example : Reg.offset (.gctlCmap 30) = 0x478 ∧ Reg.offset (.coreCqPlan 33) = 0x908510 := by decide +kernel

/-- 07: the line code; SM4 and SM3 by the examples of their standards. -/
theorem test_line_code :
    (let w := (List.range 65) ++ rsCheck (List.range 65)
     (List.range 6).all (fun i => rsSyndrome w i == 0) = true ∧ w.length = 71) ∧
    sm4 0x0123456789ABCDEFFEDCBA9876543210 0x0123456789ABCDEFFEDCBA9876543210 = 0x681EDF34D206965E86B3E94F536E4246 ∧
    blockOf (sm3 [0x61, 0x62, 0x63]) = 0x66C7F0F462EEEDD9D1F2D46BDC10E4E24167C4875CF2F7A2297DA02B8F4BA8E0 := by decide +kernel

/-- 12: the bytes of a PRB give its exponent and values back. -/
theorem test_prb_bytes : prbUnpack true 9 ((prbPack true 9 3 ([128, -127, 64, 1] ++ List.replicate 20 0)).map BitVec.toNat) =
    (3, [128, -127, 64, 1] ++ List.replicate 20 0) ∧ (prbPack true 9 3 (List.replicate 24 0)).length = 28 := by decide +kernel

/-- 03: rows 3 and 4 failed: rows below go on in place, later ones move two down. 17: land AB17. -/
theorem test_rows_and_lands : physRow 2 [3, 4, 257] = 2 ∧ physRow 3 [3, 4, 257] = 5 ∧ physRow 255 [3, 4, 257] = 258 ∧
    rowCode 1 = ['A', 'B'] ∧ rowCode 111 = ['F', 'N'] ∧ landAt 1 17 = .pair (.fhTx 1 1) true := by decide +kernel

end Sys2Proof.Tests
end

namespace Sys2Proof.Machine

/-! # What an instruction leaves: updates of one core slot -/

/-! ## Issue -/

/-- The loads that an issuer still owes are those before the fetch. -/
@[simp] theorem State.spCorrect_owed (s : State) (p a n : Nat) (x : Iss) : (s.spCorrect p a n).owed x = s.owed x := by
  simp [State.owed]

/-- An illegal word whose issuer owes no load is a context fault with CAUSE 3 (R182, R183). -/
theorem instr_illegal {p i cls op : Nat} {legal : State → Iss → Bool} {eff : State → Iss → State} {s : State} {x : Iss}
    (h : s.Issues p i cls op x) (l : legal s x = false) (o : s.owed x = []) :
    instr p i cls op legal eff s = .next (s.keep ((s.spCorrect p x.pc 8).veFault p 3 x.ctx (issuerOf i))) := by
  obtain ⟨hp, hi⟩ := State.iss_pi h.next
  rw [instr_issues h, l, if_neg Bool.false_ne_true, State.illegal, State.spCorrect_owed, o, hp, hi]
  rfl

/-- A thread issues on the side of its number (R24, R134). -/
theorem State.iss_side {s : State} {p i : Nat} {x : Iss} (h : s.iss p i = some x) (hi : i < 16) : x.k = threadSide i := by
  unfold State.iss at h
  dsimp only at h
  split at h
  · cases h
  · cases h; exact if_pos hi

theorem threadSide_lt (t : Nat) : threadSide t < 2 := by unfold threadSide; split <;> decide

/-! ## Updates of one core slot -/

/-- t differs from s at most in core slot p and in the registers rs. -/
structure State.Touches (s t : State) (p : Nat) (rs : List Reg) : Prop where
  rest : t = { s with regs := t.regs, cores := t.cores }
  cores : ∀ q, q ≠ p → t.core q = s.core q
  regs : ∀ r, r ∉ rs → t.reg r = s.reg r

namespace State.Touches

theorem refl (s : State) (p : Nat) (rs : List Reg) : s.Touches s p rs := ⟨rfl, fun _ _ => rfl, fun _ _ => rfl⟩

theorem trans {s t u : State} {p : Nat} {rs : List Reg} (h : s.Touches t p rs) (g : t.Touches u p rs) : s.Touches u p rs where
  rest := by rw [g.rest, h.rest]
  cores q hq := (g.cores q hq).trans (h.cores q hq)
  regs r hr := (g.regs r hr).trans (h.regs r hr)

theorem setCore (s : State) (p : Nat) (c : Core) (rs : List Reg) : s.Touches (s.setCore p c) p rs :=
  ⟨rfl, fun q hq => by rw [State.core_setCore, if_neg hq], fun _ _ => rfl⟩

theorem modCore (s : State) (p : Nat) (f : Core → Core) (rs : List Reg) : s.Touches (s.modCore p f) p rs := setCore ..

theorem setF (s : State) (p : Nat) {r : Reg} (f : Fld) (n : Nat) {rs : List Reg} (h : r ∈ rs) : s.Touches (s.setF r f n) p rs :=
  ⟨rfl, fun _ _ => rfl, fun _ hq => State.reg_setF_other s f n fun e => hq (e ▸ h)⟩

theorem setPc (s : State) (x : Iss) (pc : Nat) (rs : List Reg) : s.Touches (s.setPc x pc) x.p rs := by
  unfold State.setPc; split <;> exact modCore ..

theorem wrS (s : State) (x : Iss) (n : Nat) (v : Word) (rs : List Reg) : s.Touches (s.wrS x n v) x.p rs := by
  unfold State.wrS; split
  · exact modCore ..
  · exact refl ..

theorem lockStatus (s : State) (x : Iss) (v : Nat) (rs : List Reg) : s.Touches (s.lockStatus x v) x.p rs := by
  unfold State.lockStatus; split
  · exact (wrS ..).trans (setPc ..)
  · exact (modCore ..).trans (setPc ..)

theorem regionClosed (s : State) (p k : Nat) {rs : List Reg} (h : .coreCqPre p ∈ rs) : s.Touches (s.regionClosed p k) p rs := by
  unfold State.regionClosed; dsimp only; split
  · exact (setCore ..).trans (setF _ p _ _ h)
  · exact refl ..

/-- What an instruction updates after its fetch, seen from the state before the fetch (R186). -/
theorem coreFrame {s u : State} {p a : Nat} {rs : List Reg} (h : (s.spCorrect p a 8).Touches u p rs) :
    s.CoreFrame (s.keep u) p [(a, 8)] rs := by
  obtain ⟨frest, fcores, -, fregs⟩ := State.spCorrect_frame s p a 8
  refine ⟨?_, fun q hq => (h.cores q hq).trans (fcores q hq), fun r hr he => (h.regs r hr).trans (fregs r he), fun hc => ?_⟩
  · rw [h.rest, frest]; rfl
  · rw [State.spCorrect_clean s p a 8 (hc _ (List.mem_singleton.mpr rfl))] at h
    exact ⟨by rw [h.rest]; rfl, by rw [h.rest]; rfl, h.regs⟩

end State.Touches

/-- The core slot of an instruction after its fetch is the one before it but for the corrected words' marks. -/
theorem State.spCorrect_core (s : State) (p a n : Nat) :
    (s.spCorrect p a n).core p = { s.core p with spCheck := ((s.spCorrect p a n).core p).spCheck } :=
  (State.spCorrect_frame s p a n).2.2.1

end Sys2Proof.Machine

namespace Sys2Proof.Machine

/-! ## Lanes of a vector row -/

theorem VIn.lanes_reg (i : VIn) (d : Nat) (g : Nat → Nat × Flags) (l : Nat) (h : l < 64) :
    laneOf ((i.lanes d g).bank.reg d) l = if i.on.getLsbD l then (g l).1 % 2 ^ 32 else laneOf (i.bank.reg d) l := by
  simp only [VIn.lanes, VBank.reg_setReg, if_pos, laneOf_ofLanes _ l h]
  split
  · rfl
  · exact Nat.mod_eq_of_lt (laneOf_lt _ _)

theorem VIn.lanes_reg_other (i : VIn) {d r : Nat} (g : Nat → Nat × Flags) (h : r ≠ d) :
    (i.lanes d g).bank.reg r = i.bank.reg r := by
  simp only [VIn.lanes, VBank.reg_setReg, if_neg h]

/-! ## What a vector row on registers leaves in its issuer's bank -/

@[simp] theorem Core.side_setSide (c : Core) (k : Nat) (y : Side) : (c.setSide k y).side k = y := by
  unfold Core.side Core.setSide; split <;> rfl

theorem State.bank_congr {s t : State} {x : Iss} (hside : ((t.core x.p).side x.k).bank = ((s.core x.p).side x.k).bank)
    (hplait : ((t.core x.p).plait (x.i - 16)).bank = ((s.core x.p).plait (x.i - 16)).bank) : t.bank x = s.bank x := by
  unfold State.bank; simp only [hside, hplait]

@[simp] theorem State.bank_setBank (s : State) (x : Iss) (b : VBank) : (s.setBank x b).bank x = b := by
  unfold State.bank State.setBank State.modPlait
  split <;> simp

@[simp] theorem Core.side_setThread (c : Core) (n k : Nat) (t : Thread) : (c.setThread n t).side k = c.side k := rfl
@[simp] theorem Core.side_setPlait (c : Core) (n k : Nat) (q : Plait) : (c.setPlait n q).side k = c.side k := rfl

@[simp] theorem State.core_orFlags (s : State) (p k : Nat) (fl : Flags) (q : Nat) : (s.orFlags p k fl).core q = s.core q := by
  unfold State.orFlags; split <;> rfl

/-- Of a core, flags set by a command change the residents alone (R55, R56). -/
theorem State.core_flagCmd (s : State) (p k cmd : Nat) (fl : Flags) (q : Nat) :
    (s.flagCmd p k cmd fl).core q = { s.core q with residents := ((s.flagCmd p k cmd fl).core q).residents } := by
  unfold State.flagCmd
  split
  · rfl
  · by_cases hq : q = p
    · subst hq; simp
    · simp [hq]

@[simp] theorem State.bank_flagCmd (s : State) (x : Iss) (p k cmd : Nat) (fl : Flags) : (s.flagCmd p k cmd fl).bank x = s.bank x :=
  State.bank_congr (by rw [State.core_flagCmd]; rfl) (by rw [State.core_flagCmd]; rfl)

theorem State.bank_setPc (s : State) (x : Iss) (pc : Nat) : (s.setPc x pc).bank x = s.bank x := by
  unfold State.setPc State.modThread State.modPlait
  split <;> exact State.bank_congr (by simp) (by simp)

theorem State.bank_wrS (s : State) (x : Iss) (n : Nat) (v : Word) : (s.wrS x n v).bank x = s.bank x := by
  unfold State.wrS State.modThread
  split
  · exact State.bank_congr (by simp) (by simp)
  · rfl

theorem State.bank_vout (s : State) (x : Iss) (o : VOut) : (s.vout x o).bank x = o.bank := by
  unfold State.vout State.advance
  rw [State.bank_setPc]
  split <;> simp [State.bank_wrS]

@[simp] theorem State.spCorrect_onLanes (s : State) (p a n : Nat) (x : Iss) : (s.spCorrect p a n).onLanes x = s.onLanes x := by
  simp [State.onLanes]

/-- What a vector row leaves in its issuer's bank is what its function makes of the issuer's bank. -/
theorem vinstr_bank {p i op : Nat} {u : VUse} {f : VIn → VOut} {s : State} {x : Iss} (h : s.Issues p i 2 op x)
    (l : u.legal s x = true) :
    ∃ t v, vinstr p i op u f s = .next t ∧ t.bank x = (f v).bank ∧ v.bank = s.bank x ∧ v.on = s.onLanes x ∧ v.f = x.v :=
  ⟨_, (s.spCorrect p x.pc 8).vin x, instr_legal h l, State.bank_vout .., State.spCorrect_bank .., State.spCorrect_onLanes .., rfl⟩

theorem exec_vperm4 (p i : Nat) (s : State) : exec (.vperm4 p i) s = execVperm4 p i s := rfl

/-- Settles O9: VPERM4 writes its active lanes, each from the lane that the selector in B names. -/
theorem permuteTakesTheSelectedLane : Obligations.PermuteTakesTheSelectedLane := by
  intro s p i x h l
  obtain ⟨t, v, ht, hb, hbank, hon, hf⟩ := vinstr_bank (f := vPerm4) h l
  refine ⟨t, (exec_vperm4 ..).trans ht, fun n hn on => ?_, fun n hn off => ?_, fun r hr => ?_⟩
  · rw [hb, ← hf, vPerm4, VIn.lanes_reg _ _ _ _ hn, hon, if_pos on, ← hbank, Nat.mod_eq_of_lt (laneOf_lt _ _)]; rfl
  · rw [hb, ← hf, vPerm4, VIn.lanes_reg _ _ _ _ hn, hon, if_neg (by simp [off]), hbank]
  · rw [hb, vPerm4, VIn.lanes_reg_other _ _ (hf ▸ hr), hbank]

end Sys2Proof.Machine

namespace Sys2Proof.Machine

/-! # Regions and locks (R173 to R179) -/

/-! ## Fields -/

/-- Bit i of a word after a field is set: the field's bits are those of the value, the others stay. -/
theorem Fld.getLsbD_set (f : Fld) (w : BitVec 64) (n i : Nat) (h1 : f.lo ≤ f.hi) (hi : i < 64) :
    (f.set w n).getLsbD i = if f.lo ≤ i ∧ i ≤ f.hi then n.testBit (i - f.lo) else w.getLsbD i := by
  have hk : 2 ^ (f.hi + 1) = 2 ^ f.lo * 2 ^ (f.hi + 1 - f.lo) := by rw [← Nat.pow_add]; congr 1; omega
  have e : w.toNat / 2 ^ (f.hi + 1) * 2 ^ (f.hi + 1) + n % 2 ^ (f.hi + 1 - f.lo) * 2 ^ f.lo + w.toNat % 2 ^ f.lo
      = 2 ^ f.lo * (2 ^ (f.hi + 1 - f.lo) * (w.toNat / 2 ^ (f.hi + 1)) + n % 2 ^ (f.hi + 1 - f.lo)) + w.toNat % 2 ^ f.lo := by
    rw [hk, Nat.mul_add]; generalize w.toNat / (2 ^ f.lo * 2 ^ (f.hi + 1 - f.lo)) = q; ac_rfl
  simp only [Fld.set, BitVec.getLsbD_ofNat, e, hi, decide_true, Bool.true_and]
  rw [Nat.testBit_two_pow_mul_add _ (Nat.mod_lt _ (Nat.two_pow_pos _)),
    Nat.testBit_two_pow_mul_add _ (Nat.mod_lt _ (Nat.two_pow_pos _))]
  simp only [Nat.testBit_mod_two_pow, Nat.testBit_div_two_pow, BitVec.getLsbD]
  rcases Nat.lt_or_ge i f.lo with below | above
  · simp [below, Nat.not_le.mpr below]
  rcases Nat.lt_or_ge f.hi i with beyond | within
  · simp only [Nat.not_lt.mpr above, if_false, Nat.not_le.mpr beyond, and_false,
      if_neg (show ¬ i - f.lo < f.hi + 1 - f.lo by omega)]
    congr 1; omega
  · simp [above, within, Nat.not_lt.mpr above, show i - f.lo < f.hi + 1 - f.lo by omega]

/-- The later of two values of a field stays. -/
theorem Fld.set_set (f : Fld) (w : BitVec 64) (a b : Nat) (h1 : f.lo ≤ f.hi) : f.set (f.set w a) b = f.set w b := by
  apply BitVec.eq_of_getLsbD_eq
  intro i hi
  simp only [Fld.getLsbD_set f _ _ i h1 hi]
  split <;> rfl

/-! ## Threads and plaits of a core -/

@[simp] theorem State.core_modThread (s : State) (p n q : Nat) (f : Thread → Thread) :
    (s.modThread p n f).core q = if q = p then (s.core p).setThread n (f ((s.core p).thread n)) else s.core q :=
  State.core_modCore ..

@[simp] theorem State.core_modPlait (s : State) (p n q : Nat) (f : Plait → Plait) :
    (s.modPlait p n f).core q = if q = p then (s.core p).setPlait n (f ((s.core p).plait n)) else s.core q :=
  State.core_modCore ..

/-! An issuer goes on to its next word, and writes a scalar register, as its kind says. -/

theorem State.advance_thread {s : State} {x : Iss} (hi : x.i < 16) :
    s.advance x = s.modThread x.p x.i fun t => { t with pc := x.pc + 8 } := if_pos hi
theorem State.advance_plait {s : State} {x : Iss} (hi : ¬ x.i < 16) :
    s.advance x = s.modPlait x.p (x.i - 16) fun q => { q with pc := x.pc + 8 } := if_neg hi
theorem State.wrS_thread {s : State} {x : Iss} (hi : x.i < 16) (n : Nat) (v : Word) :
    s.wrS x n v = s.modThread x.p x.i fun t => t.setReg n v := if_pos hi

/-- A thread that an instruction updates goes on to the next word; the rest of its core stays. -/
theorem State.thread_advance (s : State) {x : Iss} (hi : x.i < 16) (f : Thread → Thread) :
    (s.core x.p).ThreadFrame ((((s.spCorrect x.p x.pc 8).modThread x.p x.i f).advance x).core x.p) x.i ∧
    ((((s.spCorrect x.p x.pc 8).modThread x.p x.i f).advance x).core x.p).thread x.i =
      { f ((s.core x.p).thread x.i) with pc := x.pc + 8 } := by
  rw [State.advance_thread hi]
  refine ⟨⟨?_, fun j hj => by simp [hj]⟩, by simp⟩
  simp only [State.core_modThread, if_pos]
  rw [State.spCorrect_core s x.p x.pc 8]
  rfl

/-! ## The end of a region wait (R175, R270) -/

/-- The side waits for its regions and none is open any more. -/
def Core.regionsDone (c : Core) (k : Nat) : Prop := (c.side k).stop = .regionWait ∧ c.regionOpen k = false

theorem State.regionClosed_done {s : State} {p k : Nat} (h : (s.core p).regionsDone k) :
    s.regionClosed p k =
      (s.setCore p ((s.core p).setSide k { (s.core p).side k with stop := .drain })).setF (.coreCqPre p) CORE_CQ_PRE.PHASE 3 :=
  if_pos h

theorem State.regionClosed_not_done {s : State} {p k : Nat} (h : ¬ (s.core p).regionsDone k) : s.regionClosed p k = s :=
  if_neg h

theorem Core.setSide_threads (c : Core) (k : Nat) (y : Side) : (c.setSide k y).threads = c.threads := by
  unfold Core.setSide; split <;> rfl
theorem Core.setSide_plaits (c : Core) (k : Nat) (y : Side) : (c.setSide k y).plaits = c.plaits := by
  unfold Core.setSide; split <;> rfl

theorem Core.side_setSide_other (c : Core) {k m : Nat} (y : Side) (hk : k < 2) (hm : m < 2) (h : m ≠ k) :
    (c.setSide k y).side m = c.side m := by
  unfold Core.side Core.setSide
  rcases Nat.eq_zero_or_pos k with rfl | h0
  · simp [h]
  · obtain rfl : m = 0 := by omega
    simp [Nat.ne_of_gt h0]

/-! The end of a region wait leaves threads, plaits and every register but CORE_CQ_PRE. -/

theorem State.regionClosed_threads (s : State) (p k : Nat) : ((s.regionClosed p k).core p).threads = (s.core p).threads := by
  by_cases h : (s.core p).regionsDone k
  · rw [State.regionClosed_done h, State.core_setF, State.core_setCore, if_pos rfl, Core.setSide_threads]
  · rw [State.regionClosed_not_done h]
theorem State.regionClosed_plaits (s : State) (p k : Nat) : ((s.regionClosed p k).core p).plaits = (s.core p).plaits := by
  by_cases h : (s.core p).regionsDone k
  · rw [State.regionClosed_done h, State.core_setF, State.core_setCore, if_pos rfl, Core.setSide_plaits]
  · rw [State.regionClosed_not_done h]

theorem State.regionClosed_reg (s : State) (p k : Nat) {r : Reg} (h : r ≠ .coreCqPre p) : (s.regionClosed p k).reg r = s.reg r :=
  (State.Touches.regionClosed s p k (List.mem_singleton.mpr rfl)).regs r (by simpa using h)

@[simp] theorem State.regionClosed_thread (s : State) (p k j : Nat) :
    ((s.regionClosed p k).core p).thread j = (s.core p).thread j := by
  unfold Core.thread; rw [State.regionClosed_threads]
@[simp] theorem State.regionClosed_plait (s : State) (p k j : Nat) :
    ((s.regionClosed p k).core p).plait j = (s.core p).plait j := by
  unfold Core.plait; rw [State.regionClosed_plaits]
@[simp] theorem State.regionClosed_regionOpen (s : State) (p k m : Nat) :
    ((s.regionClosed p k).core p).regionOpen m = (s.core p).regionOpen m := by
  unfold Core.regionOpen; rw [State.regionClosed_threads]

/-- Between s and t side k of ks drains: it waited for its regions in s, and none is left open in t (R175). -/
def State.drains (s t : State) (p : Nat) (ks : List Nat) (k : Nat) : Prop :=
  k ∈ ks ∧ ((s.core p).side k).stop = .regionWait ∧ (t.core p).regionOpen k = false

/-- With no side to look at, updates of threads and plaits alone drain none. -/
theorem State.drainsWhenClosed_nil {s t : State} {p : Nat}
    (hc : t.core p = { s.core p with threads := (t.core p).threads, plaits := (t.core p).plaits, spCheck := (t.core p).spCheck })
    (hr : t.reg (.coreCqPre p) = s.reg (.coreCqPre p)) : s.DrainsWhenClosed t p [] := by
  have hnone (k : Nat) : ¬ s.drains t p [] k := fun h => List.not_mem_nil h.1
  refine ⟨by rw [hc], fun k _ => ⟨fun h => absurd h (hnone k), fun _ => by rw [hc]; rfl⟩, fun h => ?_, fun _ => hr⟩
  exact h.elim (fun h => absurd h (hnone 0)) fun h => absurd h (hnone 1)

/-- A side whose wait is over in t is still what it was in s: had it been looked at, it would drain already. -/
theorem State.DrainsWhenClosed.side_of_done {s t : State} {p k : Nat} {ks : List Nat} (h : s.DrainsWhenClosed t p ks) (hk : k < 2)
    (hd : (t.core p).regionsDone k) : (t.core p).side k = (s.core p).side k := by
  obtain ⟨-, hside, -, -⟩ := h
  refine (hside k hk).2 fun g => ?_
  have hstop := hd.1
  rw [(hside k hk).1 g] at hstop
  cases hstop

/-- One more side to look at: it drains, or a side before it does. -/
theorem State.drains_append (s t : State) (p k m : Nat) (ks : List Nat) :
    s.drains t p (ks ++ [k]) m ↔ s.drains t p ks m ∨ m = k ∧ s.drains t p [k] m := by
  simp only [State.drains, List.mem_append, List.mem_singleton]
  constructor
  · rintro ⟨hm | hm, hw⟩
    · exact .inl ⟨hm, hw⟩
    · exact .inr ⟨hm, hm, hw⟩
  · rintro (⟨hm, hw⟩ | ⟨hm, -, hw⟩)
    · exact ⟨.inl hm, hw⟩
    · exact ⟨.inr hm, hw⟩

theorem State.drains_regionClosed (s t : State) (p k m : Nat) (ks : List Nat) :
    s.drains (t.regionClosed p k) p ks m ↔ s.drains t p ks m := by
  simp only [State.drains, State.regionClosed_regionOpen]

/-- A further side whose wait is not over stays, and so does everything else. -/
theorem State.DrainsWhenClosed.append_not_done {s t : State} {p k : Nat} {ks : List Nat} (h : s.DrainsWhenClosed t p ks) (hk : k < 2)
    (hd : ¬ (t.core p).regionsDone k) : s.DrainsWhenClosed t p (ks ++ [k]) := by
  obtain ⟨hrest, hside, hset, hkeep⟩ := h
  have same (m : Nat) : s.drains t p (ks ++ [k]) m ↔ s.drains t p ks m := by
    refine (State.drains_append ..).trans ⟨fun g => g.elim id ?_, .inl⟩
    rintro ⟨rfl, -, hw, ho⟩
    exact Classical.byContradiction fun hnot => hd ⟨by rw [(hside m hk).2 hnot]; exact hw, ho⟩
  exact ⟨hrest, fun m hm => ⟨fun g => (hside m hm).1 ((same m).mp g), fun g => (hside m hm).2 fun y => g ((same m).mpr y)⟩,
    fun g => hset (g.imp (same 0).mp (same 1).mp), fun g => hkeep fun y => g (y.imp (same 0).mpr (same 1).mpr)⟩

/-- A further side whose wait is over drains, and CORE_CQ_PRE shows it, as it does when two sides drain. -/
theorem State.DrainsWhenClosed.append_done {s t : State} {p k : Nat} {ks : List Nat} (h : s.DrainsWhenClosed t p ks) (hk : k < 2)
    (hd : (t.core p).regionsDone k) : s.DrainsWhenClosed (t.regionClosed p k) p (ks ++ [k]) := by
  have hsame := h.side_of_done hk hd
  obtain ⟨hrest, hside, hset, hkeep⟩ := h
  have hcore : (t.regionClosed p k).core p = (t.core p).setSide k { (t.core p).side k with stop := .drain } := by
    rw [State.regionClosed_done hd, State.core_setF, State.core_setCore, if_pos rfl]
  have hreg : (t.regionClosed p k).reg (.coreCqPre p) = CORE_CQ_PRE.PHASE.set (t.reg (.coreCqPre p)) 3 := by
    rw [State.regionClosed_done hd, State.reg_setF_self]; rfl
  have hiff (m : Nat) := (State.drains_regionClosed s t p k m (ks ++ [k])).trans (State.drains_append s t p k m ks)
  have hnow : s.drains (t.regionClosed p k) p (ks ++ [k]) k :=
    (hiff k).mpr (.inr ⟨rfl, List.mem_singleton.mpr rfl, hsame ▸ hd.1, hd.2⟩)
  have hany : s.drains (t.regionClosed p k) p (ks ++ [k]) 0 ∨ s.drains (t.regionClosed p k) p (ks ++ [k]) 1 := by
    rcases (by omega : k = 0 ∨ k = 1) with rfl | rfl
    · exact .inl hnow
    · exact .inr hnow
  refine ⟨?_, fun m hm => ?_, fun _ => ?_, fun g => absurd hany g⟩
  · rw [hcore, hrest]; unfold Core.setSide; split <;> rfl
  · by_cases e : m = k
    · subst e
      exact ⟨fun _ => by rw [hcore, Core.side_setSide, hsame], fun g => absurd hnow g⟩
    · have hother : ((t.regionClosed p k).core p).side m = (t.core p).side m := by
        rw [hcore, Core.side_setSide_other _ _ hk hm e]
      exact ⟨fun g => hother.trans ((hside m hm).1 (((hiff m).mp g).resolve_right fun y => e y.1)),
        fun g => hother.trans ((hside m hm).2 fun y => g ((hiff m).mpr (.inl y)))⟩
  · rw [hreg]
    by_cases g : s.drains t p ks 0 ∨ s.drains t p ks 1
    · rw [hset g, Fld.set_set _ _ _ _ (by decide)]
    · rw [hkeep g]

/-- Looking at one more side: it drains where its last open region has closed. -/
theorem State.DrainsWhenClosed.regionClosed {s t : State} {p k : Nat} {ks : List Nat} (h : s.DrainsWhenClosed t p ks) (hk : k < 2) :
    s.DrainsWhenClosed (t.regionClosed p k) p (ks ++ [k]) := by
  by_cases hd : (t.core p).regionsDone k
  · exact h.append_done hk hd
  · rw [State.regionClosed_not_done hd]
    exact h.append_not_done hk hd

/-- What a command leaves of the queue and the clock is no matter of the sides. -/
theorem State.DrainsWhenClosed.keep {s t : State} {p : Nat} {ks : List Nat} (h : s.DrainsWhenClosed t p ks) :
    s.DrainsWhenClosed (s.keep t) p ks := h

end Sys2Proof.Machine

namespace Sys2Proof.Machine

/-! ## Lock words and the regions that they open -/

/-- A lock word takes its state, NP, owner and lease; LAST and the bits that no field names stay (R177 to R179). -/
def State.setLock (s : State) (r : Reg) (state np owner lease : Nat) : State :=
  (((s.setF r CORE_CQ_LOCK.STATE state).setF r CORE_CQ_LOCK.NP np).setF r CORE_CQ_LOCK.OWNER owner).setF r CORE_CQ_LOCK.LEASE lease

theorem State.reg_setLock (s : State) (r : Reg) (state np owner lease : Nat) :
    (s.setLock r state np owner lease).reg r = CORE_CQ_LOCK.LEASE.set (CORE_CQ_LOCK.OWNER.set (CORE_CQ_LOCK.NP.set
      (CORE_CQ_LOCK.STATE.set (s.reg r) state) np) owner) lease := by
  simp only [State.setLock, State.reg_setF_self]

@[simp] theorem State.core_setLock (s : State) (r : Reg) (state np owner lease p : Nat) :
    (s.setLock r state np owner lease).core p = s.core p := rfl

theorem State.Touches.setLock (s : State) (p : Nat) {r : Reg} (state np owner lease : Nat) {rs : List Reg} (h : r ∈ rs) :
    s.Touches (s.setLock r state np owner lease) p rs :=
  (((State.Touches.setF s p _ _ h).trans (.setF _ p _ _ h)).trans (.setF _ p _ _ h)).trans (.setF _ p _ _ h)

/-- The region that an acquisition with NP = 1 opens for its thread (R173). -/
def State.openLockRegion (s : State) (x : Iss) : State :=
  if x.f 7 7 = 1 then s.modThread x.p x.i fun t => { t with region := some (.lock (x.f 6 0)), hold := 0 } else s

theorem State.openLockRegion_thread (s : State) (x : Iss) (j : Nat) :
    ((s.openLockRegion x).core x.p).thread j =
      if x.f 7 7 = 1 ∧ j = x.i then { (s.core x.p).thread j with region := some (.lock (x.f 6 0)), hold := 0 }
      else (s.core x.p).thread j := by
  unfold State.openLockRegion
  by_cases hnp : x.f 7 7 = 1
  · by_cases hj : j = x.i <;> simp [hnp, hj]
  · simp [hnp]

theorem State.Touches.openLockRegion (s : State) (x : Iss) (rs : List Reg) : s.Touches (s.openLockRegion x) x.p rs := by
  unfold State.openLockRegion; split
  · exact .modCore ..
  · exact .refl ..

/-- A release of lock n closes the regions that it opened, and leaves the other threads. -/
theorem Core.thread_closeLockRegion (c : Core) (n j : Nat) :
    (c.closeLockRegion n).thread j =
      if (c.thread j).region = some (.lock n) then { c.thread j with region := none, hold := 0 } else c.thread j := by
  unfold Core.thread Core.closeLockRegion
  dsimp only
  generalize c.threads = l
  induction l with
  | nil => rfl
  | cons y l ih =>
    obtain ⟨m, t⟩ := y
    rw [List.map_cons]
    by_cases hr : t.region = some (.lock n)
    · by_cases hm : m = j <;> simp [hr, hm, SMap.get, ih]
    · by_cases hm : m = j <;> simp [hr, hm, SMap.get, ih]

/-- The lock that a word names is taken by its context, and opens a region where NP is 1 (R173, R178). -/
def State.takeLock (s : State) (x : Iss) : State :=
  (s.setLock (.coreCqLock x.p (x.f 6 0)) 1 (x.f 7 7) x.ctx.code (x.f 15 8)).openLockRegion x

/-- The lock that a word names becomes FREE, and the region that it opened closes (R173, R179). -/
def State.releaseLock (s : State) (x : Iss) : State :=
  (s.setLock (.coreCqLock x.p (x.f 6 0)) 0 0 0 0).modCore x.p fun c => c.closeLockRegion (x.f 6 0)

theorem State.takeLock_reg (s : State) (x : Iss) :
    (s.takeLock x).reg (.coreCqLock x.p (x.f 6 0)) = CORE_CQ_LOCK.LEASE.set (CORE_CQ_LOCK.OWNER.set (CORE_CQ_LOCK.NP.set
      (CORE_CQ_LOCK.STATE.set (s.reg (.coreCqLock x.p (x.f 6 0))) 1) (x.f 7 7)) x.ctx.code) (x.f 15 8) :=
  ((State.Touches.openLockRegion _ x []).regs _ List.not_mem_nil).trans (State.reg_setLock ..)

theorem State.releaseLock_reg (s : State) (x : Iss) :
    (s.releaseLock x).reg (.coreCqLock x.p (x.f 6 0)) = CORE_CQ_LOCK.LEASE.set (CORE_CQ_LOCK.OWNER.set (CORE_CQ_LOCK.NP.set
      (CORE_CQ_LOCK.STATE.set (s.reg (.coreCqLock x.p (x.f 6 0))) 0) 0) 0) 0 := by
  unfold State.releaseLock
  rw [State.reg_modCore, State.reg_setLock]

theorem State.takeLock_thread (s : State) (x : Iss) (j : Nat) :
    ((s.takeLock x).core x.p).thread j =
      if x.f 7 7 = 1 ∧ j = x.i then { (s.core x.p).thread j with region := some (.lock (x.f 6 0)), hold := 0 }
      else (s.core x.p).thread j := State.openLockRegion_thread ..

theorem State.releaseLock_thread (s : State) (x : Iss) (j : Nat) :
    ((s.releaseLock x).core x.p).thread j =
      if ((s.core x.p).thread j).region = some (.lock (x.f 6 0)) then { (s.core x.p).thread j with region := none, hold := 0 }
      else (s.core x.p).thread j := by
  unfold State.releaseLock
  rw [State.core_modCore, if_pos rfl, Core.thread_closeLockRegion, State.core_setLock]

/-! ## Status of a lock operation -/

/-- A lock operation before its status: of core slot x.p, the threads' regions alone differ from s, and the registers rs. -/
structure State.LockStep (s m : State) (x : Iss) (rs : List Reg) : Prop where
  touches : (s.spCorrect x.p x.pc 8).Touches m x.p rs
  core : m.core x.p = { s.core x.p with threads := (m.core x.p).threads, spCheck := (m.core x.p).spCheck }
  thread : ∀ j, (m.core x.p).thread j =
    { (s.core x.p).thread j with region := ((m.core x.p).thread j).region, hold := ((m.core x.p).thread j).hold }

namespace State.LockStep

theorem fetched (s : State) (x : Iss) (rs : List Reg) : s.LockStep (s.spCorrect x.p x.pc 8) x rs :=
  ⟨.refl .., by rw [State.spCorrect_core s x.p x.pc 8], fun j => by rw [State.spCorrect_thread]⟩

theorem takeLock {s m : State} {x : Iss} {rs : List Reg} (h : s.LockStep m x rs) (hr : .coreCqLock x.p (x.f 6 0) ∈ rs) :
    s.LockStep (m.takeLock x) x rs := by
  refine ⟨h.touches.trans ((State.Touches.setLock _ _ _ _ _ _ hr).trans (.openLockRegion ..)), ?_, fun j => ?_⟩
  · unfold State.takeLock State.openLockRegion
    split
    · rw [State.core_modThread, if_pos rfl, State.core_setLock, h.core]; rfl
    · exact h.core
  · rw [State.takeLock_thread]
    split
    · rw [h.thread j]
    · exact h.thread j

theorem releaseLock {s m : State} {x : Iss} {rs : List Reg} (h : s.LockStep m x rs) (hr : .coreCqLock x.p (x.f 6 0) ∈ rs) :
    s.LockStep (m.releaseLock x) x rs := by
  refine ⟨h.touches.trans ((State.Touches.setLock _ _ _ _ _ _ hr).trans (.modCore ..)), ?_, fun j => ?_⟩
  · unfold State.releaseLock
    rw [State.core_modCore, if_pos rfl, State.core_setLock, h.core]; rfl
  · rw [State.releaseLock_thread]
    split
    · rw [h.thread j]
    · exact h.thread j

end State.LockStep

/-- The status of a lock operation changes threads and plaits of the issuer's core alone. -/
theorem State.lockStatus_core (s : State) (x : Iss) (v : Nat) :
    (s.lockStatus x v).core x.p =
      { s.core x.p with threads := ((s.lockStatus x v).core x.p).threads, plaits := ((s.lockStatus x v).core x.p).plaits } := by
  unfold State.lockStatus
  by_cases hi : x.i < 16
  · simp [hi, State.result, State.wrS_thread hi, State.advance_thread hi, Core.setThread]
  · simp [hi, State.advance_plait hi, Core.setPlait]

theorem State.lockStatus_thread (s : State) (x : Iss) (v j : Nat) :
    ((s.lockStatus x v).core x.p).thread j =
      if j = x.i ∧ x.i < 16 then { ((s.core x.p).thread j).setReg x.rd (BitVec.ofNat 64 v) with pc := x.pc + 8 }
      else (s.core x.p).thread j := by
  unfold State.lockStatus
  by_cases hi : x.i < 16
  · by_cases hj : j = x.i <;> simp [hi, hj, State.result, State.wrS_thread hi, State.advance_thread hi]
  · simp [hi, State.advance_plait hi]

theorem State.lockStatus_plait (s : State) (x : Iss) (v j : Nat) :
    ((s.lockStatus x v).core x.p).plait j =
      if j = x.i - 16 ∧ ¬ x.i < 16 then
        let q := (s.core x.p).plait j
        { q with pc := x.pc + 8, bank := q.bank.setReg x.rd (ofLanes fun l =>
          if q.active.getLsbD l then v % 2 ^ 32 else laneOf (q.bank.reg x.rd) l) }
      else (s.core x.p).plait j := by
  unfold State.lockStatus
  by_cases hi : x.i < 16
  · simp [hi, State.result, State.wrS_thread hi, State.advance_thread hi]
  · by_cases hj : j = x.i - 16 <;> simp [hi, hj, State.advance_plait hi]

/-- Of a thread, a write to a register changes the registers alone. -/
theorem Thread.setReg_rest (t : Thread) (n : Nat) (v : Word) : t.setReg n v = { t with s := (t.setReg n v).s } := by
  unfold Thread.setReg; split <;> rfl

theorem State.lockStatus_region (s : State) (x : Iss) (v j : Nat) :
    (((s.lockStatus x v).core x.p).thread j).region = ((s.core x.p).thread j).region := by
  rw [State.lockStatus_thread]
  split
  · rw [Thread.setReg_rest]
  · rfl

/-- The status of a lock operation reaches its issuer, which goes on (R133, R178). -/
theorem State.statusTo_lockStatus (s : State) (x : Iss) (v : Nat) (hv : v < 2 ^ 32) : s.StatusTo (s.lockStatus x v) x.p x v := by
  refine ⟨fun j n => ?_, fun j => ?_, fun j => ?_, fun j hj => ?_, fun hi => ?_⟩
  · rw [State.lockStatus_thread]
    by_cases hj : j = x.i ∧ x.i < 16
    · rw [if_pos hj]
      refine (Thread.reg_setReg ..).trans ?_
      by_cases hn : n = x.rd <;> simp [hj, hn]
    · rw [if_neg hj, if_neg fun g => hj ⟨g.1, g.2.1⟩]
  · rw [State.lockStatus_thread]; split <;> rfl
  · rw [State.lockStatus_thread]
    split
    · rw [Thread.setReg_rest]
    · rfl
  · rw [State.lockStatus_plait, if_neg (by omega)]
  · dsimp only
    rw [State.lockStatus_plait, if_pos ⟨rfl, by omega⟩]
    refine ⟨rfl, fun r hr => by simp [hr], fun l hl => ?_⟩
    simp only [VBank.reg_setReg, if_pos, laneOf_ofLanes _ l hl]
    split
    · rw [Nat.mod_mod, Nat.mod_eq_of_lt hv]
    · exact Nat.mod_eq_of_lt (laneOf_lt _ _)

/-- A status reaches its issuer from an earlier state and in a later one, where these differ in regions and in other parts of the core. -/
theorem State.StatusTo.congr {s s' t t' : State} {p : Nat} {x : Iss} {v : Nat} (h : s'.StatusTo t p x v)
    (hs : ∀ j, (s'.core p).thread j = { (s.core p).thread j with
      region := ((s'.core p).thread j).region, hold := ((s'.core p).thread j).hold })
    (hq : ∀ j, (s'.core p).plait j = (s.core p).plait j) (ht : ∀ j, (t'.core p).thread j = (t.core p).thread j)
    (hu : ∀ j, (t'.core p).plait j = (t.core p).plait j) : s.StatusTo t' p x v := by
  obtain ⟨hreg, hpc, hrest, hplaits, hplait⟩ := h
  have sreg (j n : Nat) : ((s'.core p).thread j).reg n = ((s.core p).thread j).reg n := by rw [hs j]; rfl
  refine ⟨fun j n => ?_, fun j => ?_, fun j => ?_, fun j hj => ?_, fun hi => ?_⟩
  · rw [ht, hreg, sreg]
  · rw [ht, hpc, hs j]
  · rw [ht, hrest, hs j]
  · rw [hu, hplaits j hj, hq]
  · dsimp only at hplait ⊢
    simp only [hu, ← hq]
    exact hplait hi

/-- A lock operation with its status: what it leaves of the core slot and what its issuer sees. -/
theorem State.LockStep.status {s m : State} {x : Iss} {rs : List Reg} (h : s.LockStep m x rs) {v : Nat} (hv : v < 2 ^ 32) :
    (s.spCorrect x.p x.pc 8).Touches (m.lockStatus x v) x.p rs ∧
    (m.lockStatus x v).core x.p = { s.core x.p with
      threads := ((m.lockStatus x v).core x.p).threads, plaits := ((m.lockStatus x v).core x.p).plaits,
      spCheck := ((m.lockStatus x v).core x.p).spCheck } ∧
    s.StatusTo (m.lockStatus x v) x.p x v := by
  refine ⟨h.touches.trans (.lockStatus ..), ?_, ?_⟩
  · rw [State.lockStatus_core, h.core]
  · exact (State.statusTo_lockStatus m x v hv).congr h.thread (fun j => by rw [h.core]; rfl) (fun _ => rfl) fun _ => rfl

end Sys2Proof.Machine

namespace Sys2Proof.Machine

/-! ## Rows of regions and locks -/

theorem exec_npb (p i : Nat) (s : State) : exec (.npb p i) s = execNpb p i s := rfl
theorem exec_npe (p i : Nat) (s : State) : exec (.npe p i) s = execNpe p i s := rfl
theorem exec_lkacq (p i : Nat) (s : State) : exec (.lkacq p i) s = execLkacq p i s := rfl
theorem exec_lkrel (p i : Nat) (s : State) : exec (.lkrel p i) s = execLkrel p i s := rfl

/-- A word whose operand fields are all 0 is legal for a thread alone (R166). -/
theorem legalNone_thread {s : State} {x : Iss} (h : legalNone s x = true) : x.i < 16 := by
  simp only [legalNone, Iss.isThread, Bool.and_eq_true, decide_eq_true_eq] at h
  obtain ⟨⟨hthread, -⟩, -⟩ := h
  exact hthread

/-! The correction of a fetched word touches no lock word and not CORE_CQ_PRE (R186). -/

theorem lock_not_ecc (p n : Nat) : Reg.coreCqLock p n ∉ eccRegs p := by simp [eccRegs]
theorem pre_not_ecc (p : Nat) : Reg.coreCqPre p ∉ eccRegs p := by simp [eccRegs]

theorem State.spCorrect_reg (s : State) (p a n : Nat) {r : Reg} (h : r ∉ eccRegs p) : (s.spCorrect p a n).reg r = s.reg r :=
  (State.spCorrect_frame s p a n).2.2.2 r h

/-- NPB opens a region (R173). -/
theorem npb_opens_region {s : State} {p i : Nat} {x : Iss} (h : s.Issues p i 0 0x33 x) (hl : legalNone s x = true)
    (hr : ((s.core p).thread i).region = none) :
    ∃ t, exec (.npb p i) s = .next t ∧ s.CoreFrame t p [(x.pc, 8)] [] ∧ (s.core p).ThreadFrame (t.core p) i ∧
      (t.core p).thread i = { (s.core p).thread i with pc := x.pc + 8, region := some .npb, hold := 0 } := by
  obtain ⟨rfl, rfl⟩ := State.iss_pi h.next
  obtain ⟨hframe, hthread⟩ := s.thread_advance (legalNone_thread hl) fun t => { t with region := some .npb, hold := 0 }
  exact ⟨_, (exec_npb ..).trans (instr_legal h (by simp [hl, hr])), ((State.Touches.modCore ..).trans (.setPc ..)).coreFrame,
    hframe, hthread⟩

/-- NPE closes the region that NPB opened, and a side that waited for it alone drains (R173, R175). -/
theorem npe_closes_region {s : State} {p i : Nat} {x : Iss} (h : s.Issues p i 0 0x34 x) (hl : legalNone s x = true)
    (hr : ((s.core p).thread i).region = some .npb) :
    ∃ t, exec (.npe p i) s = .next t ∧ s.CoreFrame t p [(x.pc, 8)] [.coreCqPre p] ∧
      (∀ j, j ≠ i → (t.core p).thread j = (s.core p).thread j) ∧
      (t.core p).thread i = { (s.core p).thread i with pc := x.pc + 8, region := none, hold := 0 } ∧ s.DrainsWhenClosed t p [x.k] := by
  obtain ⟨rfl, rfl⟩ := State.iss_pi h.next
  have hi : x.i < 16 := legalNone_thread hl
  obtain ⟨hframe, hthread⟩ := s.thread_advance hi fun t => { t with region := none, hold := 0 }
  have hup (rs : List Reg) : (s.spCorrect x.p x.pc 8).Touches
      (((s.spCorrect x.p x.pc 8).modThread x.p x.i fun t => { t with region := none, hold := 0 }).advance x) x.p rs :=
    (State.Touches.modCore ..).trans (.setPc ..)
  have hpre := ((hup []).regs (.coreCqPre x.p) List.not_mem_nil).trans (s.spCorrect_reg x.p x.pc 8 (pre_not_ecc x.p))
  refine ⟨_, (exec_npe ..).trans (instr_legal h (by simp [hl, hr])), State.Touches.coreFrame ?_, fun j hj => ?_, ?_, ?_⟩
  · exact (hup _).trans (.regionClosed _ _ _ (List.mem_singleton.mpr rfl))
  · exact (State.regionClosed_thread ..).trans (hframe.others j hj)
  · exact (State.regionClosed_thread ..).trans hthread
  · have hk : x.k < 2 := State.iss_side h.next hi ▸ threadSide_lt x.i
    exact ((State.drainsWhenClosed_nil (by rw [hframe.rest]) hpre).regionClosed hk).keep

/-- The status of an acquisition that takes a lock fits rd's low half: the last holder has eight bits. -/
theorem acquired_status_lt (w : BitVec 64) (broken : Prop) [Decidable broken] :
    (if broken then 2 + 256 * CORE_CQ_LOCK.LAST.get w else 0) < 2 ^ 32 := by
  have hlast : CORE_CQ_LOCK.LAST.get w < 2 ^ 8 := Fld.get_lt ..
  split <;> omega

/-- What a legal LKACQ answers (R178). -/
theorem lkacq_answers {s : State} {x : Iss} (h : s.Issues x.p x.i 0 0x35 x) (hl : lkacqForm s x = true) :
    let lock := Reg.coreCqLock x.p (x.f 6 0)
    let st := s.getF lock CORE_CQ_LOCK.STATE
    let r := s.spCorrect x.p x.pc 8
    exec (.lkacq x.p x.i) s = .next (s.keep (
      if st = 1 then r.lockStatus x 1
      else (r.takeLock x).lockStatus x (if st = 2 then 2 + 256 * s.getF lock CORE_CQ_LOCK.LAST else 0))) := by
  intro lock st r
  have hget (f : Fld) : r.getF lock f = s.getF lock f := State.spCorrect_getF _ _ _ _ _ _ (lock_not_ecc x.p (x.f 6 0))
  refine ((exec_lkacq ..).trans (instr_legal h hl)).trans ?_
  simp only [← hget, st]
  rfl

/-- LKACQ of a HELD lock changes nothing and reads 1; of any other it takes the lock, and opens a region where NP is 1 (R173, R178). -/
theorem lkacq_takes_lock {s : State} {p i : Nat} {x : Iss} (h : s.Issues p i 0 0x35 x) (hl : lkacqForm s x = true) :
    let lock := Reg.coreCqLock p (x.f 6 0)
    let st := s.getF lock CORE_CQ_LOCK.STATE
    ∃ t, exec (.lkacq p i) s = .next t ∧ s.CoreFrame t p [(x.pc, 8)] [lock] ∧
      t.core p = { s.core p with threads := (t.core p).threads, plaits := (t.core p).plaits, spCheck := (t.core p).spCheck } ∧
      (∀ j, j ≠ i → (t.core p).thread j = (s.core p).thread j) ∧
      s.StatusTo t p x (if st = 1 then 1 else if st = 2 then 2 + 256 * s.getF lock CORE_CQ_LOCK.LAST else 0) ∧
      (∀ j, ((t.core p).thread j).region =
        if st ≠ 1 ∧ x.f 7 7 = 1 ∧ j = i then some (.lock (x.f 6 0)) else ((s.core p).thread j).region) ∧
      t.reg lock = if st = 1 then s.reg lock else
        CORE_CQ_LOCK.LEASE.set (CORE_CQ_LOCK.OWNER.set (CORE_CQ_LOCK.NP.set (CORE_CQ_LOCK.STATE.set (s.reg lock) 1) (x.f 7 7)) x.ctx.code)
          (x.f 15 8) := by
  obtain ⟨rfl, rfl⟩ := State.iss_pi h.next
  intro lock st
  have hans := lkacq_answers h hl
  dsimp only at hans
  have hlock : (s.spCorrect x.p x.pc 8).reg lock = s.reg lock := s.spCorrect_reg x.p x.pc 8 (lock_not_ecc x.p (x.f 6 0))
  by_cases hheld : st = 1
  case pos =>
    obtain ⟨htouch, hcore, hstatus⟩ := (State.LockStep.fetched s x [lock]).status (v := 1) (by decide)
    rw [if_pos hheld] at hans
    refine ⟨_, hans, htouch.coreFrame, hcore, fun j hj => ?_, ?_, fun j => ?_, ?_⟩
    · exact (State.lockStatus_thread ..).trans ((if_neg fun g => hj g.1).trans (State.spCorrect_thread ..))
    · rw [if_pos hheld]; exact hstatus
    · rw [if_neg fun g => g.1 hheld]
      exact (State.lockStatus_region ..).trans (by rw [State.spCorrect_thread])
    · rw [if_pos hheld]
      exact ((State.Touches.lockStatus _ x 1 []).regs lock List.not_mem_nil).trans hlock
  case neg =>
    rw [if_neg hheld] at hans
    obtain ⟨htouch, hcore, hstatus⟩ :=
      ((State.LockStep.fetched s x [lock]).takeLock (List.mem_singleton.mpr rfl)).status (acquired_status_lt (s.reg lock) (st = 2))
    refine ⟨_, hans, htouch.coreFrame, hcore, fun j hj => ?_, ?_, fun j => ?_, ?_⟩
    · exact (State.lockStatus_thread ..).trans ((if_neg fun g => hj g.1).trans
        ((State.takeLock_thread ..).trans ((if_neg fun g => hj g.2).trans (State.spCorrect_thread ..))))
    · rw [if_neg hheld]; exact hstatus
    · refine (State.lockStatus_region ..).trans ?_
      by_cases hopen : x.f 7 7 = 1 ∧ j = x.i <;> simp [State.takeLock_thread, hheld, hopen]
    · rw [if_neg hheld, ← hlock, ← State.takeLock_reg]
      exact (State.Touches.lockStatus _ x _ []).regs lock List.not_mem_nil

/-- What a legal LKREL answers (R179). -/
theorem lkrel_answers {s : State} {x : Iss} (h : s.Issues x.p x.i 0 0x36 x) (hl : lkrelForm s x = true) :
    let lock := Reg.coreCqLock x.p (x.f 6 0)
    let r := s.spCorrect x.p x.pc 8
    exec (.lkrel x.p x.i) s = .next (s.keep (
      if s.getF lock CORE_CQ_LOCK.STATE = 1 ∧ s.getF lock CORE_CQ_LOCK.OWNER = x.ctx.code then
        (((r.releaseLock x).lockStatus x 0).regionClosed x.p 0).regionClosed x.p 1
      else r.lockStatus x 1)) := by
  intro lock r
  have hget (f : Fld) : r.getF lock f = s.getF lock f := State.spCorrect_getF _ _ _ _ _ _ (lock_not_ecc x.p (x.f 6 0))
  refine ((exec_lkrel ..).trans (instr_legal h hl)).trans ?_
  simp only [← hget]
  rfl

/-- LKREL frees a lock HELD by the issuing context and closes the region that the lock opened, by which sides drain that waited for it
alone; it leaves any other lock and reads 1 (R173, R175, R179). -/
theorem lkrel_frees_lock {s : State} {p i : Nat} {x : Iss} (h : s.Issues p i 0 0x36 x) (hl : lkrelForm s x = true) :
    let lock := Reg.coreCqLock p (x.f 6 0)
    let mine := s.getF lock CORE_CQ_LOCK.STATE = 1 ∧ s.getF lock CORE_CQ_LOCK.OWNER = x.ctx.code
    ∃ t, exec (.lkrel p i) s = .next t ∧ s.CoreFrame t p [(x.pc, 8)] [lock, .coreCqPre p] ∧
      s.StatusTo t p x (if mine then 0 else 1) ∧
      (∀ j, ((t.core p).thread j).region =
        if mine ∧ ((s.core p).thread j).region = some (.lock (x.f 6 0)) then none else ((s.core p).thread j).region) ∧
      (mine → s.DrainsWhenClosed t p [0, 1]) ∧
      (¬ mine → t.reg (.coreCqPre p) = s.reg (.coreCqPre p) ∧
        t.core p = { s.core p with threads := (t.core p).threads, plaits := (t.core p).plaits, spCheck := (t.core p).spCheck }) ∧
      t.reg lock = if mine then
        CORE_CQ_LOCK.LEASE.set (CORE_CQ_LOCK.OWNER.set (CORE_CQ_LOCK.NP.set (CORE_CQ_LOCK.STATE.set (s.reg lock) 0) 0) 0) 0
        else s.reg lock := by
  obtain ⟨rfl, rfl⟩ := State.iss_pi h.next
  intro lock mine
  have hans := lkrel_answers h hl
  dsimp only at hans
  have hlock : (s.spCorrect x.p x.pc 8).reg lock = s.reg lock := s.spCorrect_reg x.p x.pc 8 (lock_not_ecc x.p (x.f 6 0))
  have hpre : (s.spCorrect x.p x.pc 8).reg (.coreCqPre x.p) = s.reg (.coreCqPre x.p) :=
    s.spCorrect_reg x.p x.pc 8 (pre_not_ecc x.p)
  by_cases hmine : mine
  case pos =>
    have hstep (rs : List Reg) (hr : lock ∈ rs) := ((State.LockStep.fetched s x rs).releaseLock hr).status (v := 0) (by decide)
    obtain ⟨htouch, hcore, hstatus⟩ := hstep [lock] (List.mem_singleton.mpr rfl)
    rw [if_pos hmine] at hans
    refine ⟨_, hans, State.Touches.coreFrame ?_, ?_, fun j => ?_, fun _ => ?_, fun g => absurd hmine g, ?_⟩
    · have hin : Reg.coreCqPre x.p ∈ [lock, .coreCqPre x.p] := by simp
      exact ((hstep _ (by simp)).1.trans (.regionClosed _ _ _ hin)).trans (.regionClosed _ _ _ hin)
    · rw [if_pos hmine]
      exact hstatus.congr (fun _ => rfl) (fun _ => rfl)
        (fun _ => by rw [State.core_keep, State.regionClosed_thread, State.regionClosed_thread])
        (fun _ => by rw [State.core_keep, State.regionClosed_plait, State.regionClosed_plait])
    · rw [State.core_keep, State.regionClosed_thread, State.regionClosed_thread, State.lockStatus_region, State.releaseLock_thread,
        State.spCorrect_thread]
      by_cases hr : ((s.core x.p).thread j).region = some (.lock (x.f 6 0)) <;> simp [hmine, hr]
    · have hkept := (htouch.regs (.coreCqPre x.p) (by simp [lock])).trans hpre
      exact (((State.drainsWhenClosed_nil hcore hkept).regionClosed (by decide)).regionClosed (by decide)).keep
    · have hne : lock ≠ .coreCqPre x.p := nofun
      rw [if_pos hmine, ← hlock, ← State.releaseLock_reg, State.reg_keep, State.regionClosed_reg _ _ _ hne, State.regionClosed_reg _ _ _ hne]
      exact (State.Touches.lockStatus _ x 0 []).regs lock List.not_mem_nil
  case neg =>
    obtain ⟨htouch, hcore, hstatus⟩ := (State.LockStep.fetched s x []).status (v := 1) (by decide)
    rw [if_neg hmine] at hans
    refine ⟨_, hans, State.Touches.coreFrame ?_, ?_, fun j => ?_, fun g => absurd g hmine, fun _ => ⟨?_, hcore⟩, ?_⟩
    · exact (State.Touches.refl ..).trans (.lockStatus ..)
    · rw [if_neg hmine]; exact hstatus
    · rw [if_neg fun g => hmine g.1]
      exact (State.lockStatus_region ..).trans (by rw [State.spCorrect_thread])
    · exact (htouch.regs _ List.not_mem_nil).trans hpre
    · rw [if_neg hmine]
      exact (htouch.regs _ List.not_mem_nil).trans hlock

/-- Settles O6: one lemma for each row, and the illegal words by `instr_illegal`. -/
theorem regionsAndLocksFollowTheirRules : Obligations.RegionsAndLocksFollowTheirRules := by
  refine ⟨fun s p i x => npb_opens_region, fun s p i x => npe_closes_region, fun s p i x => lkacq_takes_lock,
    fun s p i x => lkrel_frees_lock, fun s p i x h hl ho => ?_, fun s p i x h hl ho => ?_⟩
  · exact (exec_lkacq ..).trans (instr_illegal h hl ho)
  · exact (exec_lkrel ..).trans (instr_illegal h hl ho)

end Sys2Proof.Machine

namespace Sys2Proof.Machine

/-! # The whole device: what every command answers -/

/-- Once every clock has stopped the outcome is the refusal (R538); else it is a next state with the count of cycles, the clocks and the
queue of s (R357, log 1). -/
structure State.Obeys (s : State) (o : Out) : Prop where
  stopped : s.clocksStopped = true → o = .refused .clocksStopped
  runs : s.clocksStopped = false → ∃ t, o = .next (s.keep t)

theorem State.obeys_when (s : State) (can : Bool) (t : State) : s.Obeys (s.when can t) := by
  rcases State.when_cases s can t with ⟨hs, e⟩ | ⟨hs, -, e⟩ | ⟨hs, -, e⟩ <;> rw [e]
  · exact ⟨fun _ => rfl, fun h => (nomatch hs.symm.trans h)⟩
  · exact ⟨fun h => (nomatch hs.symm.trans h), fun _ => ⟨t, rfl⟩⟩
  · exact ⟨fun h => (nomatch hs.symm.trans h), fun _ => ⟨s, rfl⟩⟩

theorem State.obeys_instr (s : State) (p i cls op : Nat) (legal : State → Iss → Bool) (eff : State → Iss → State) :
    s.Obeys (instr p i cls op legal eff s) := by
  unfold instr; split <;> exact State.obeys_when ..

theorem State.obeys_vinstr (s : State) (p i op : Nat) (u : VUse) (f : VIn → VOut) : s.Obeys (vinstr p i op u f s) :=
  State.obeys_instr ..

theorem State.obeys_mgmt (s : State) (n op : Nat) (operands : Bool) (cause : State → Req → Nat) (eff : State → Req → State) :
    s.Obeys (mgmt n op operands cause eff s) := by
  unfold mgmt; split <;> exact State.obeys_when ..

theorem State.obeys_ceStart (s : State) (op p k e : Nat) : s.Obeys (ceStart op p k e s) := by
  unfold ceStart; split <;> exact State.obeys_when ..

theorem State.obeys_seqProgram (s : State) (prog m id n : Nat) (words data : List Nat) : s.Obeys (seqProgram prog m id n words data s) := by
  unfold seqProgram; split <;> exact State.obeys_when ..

theorem State.obeys_dev (s : State) (op : Nat) (cause : State → Req → Nat) (eff : State → Req → State) :
    s.Obeys (dev op cause eff s) := by
  unfold dev; split <;> exact State.obeys_when ..

theorem State.obeys_devRead (s : State) (op : Nat) (cause : State → Req → Nat) (eff : State → Req → State) :
    s.Obeys (devRead op cause eff s) := by
  unfold devRead
  split
  · exact State.obeys_dev ..
  · exact State.obeys_when ..

/-- Every command answers as `obeys` says, but those that the rules name. -/
theorem exec_obeys (c : Instr) (s : State) (hcold : ∀ b, c ≠ .coldReset b) (hbypass : c ≠ .bypass) (hidcode : c ≠ .idcode)
    (hsensor : ∀ u k v, c ≠ .sensorSample u k v) (hwrite : ∀ off size v, c ≠ .registerWrite off size v) : s.Obeys (exec c s) := by
  cases c with
  | coldStart _ _ | grizorStart _ | selfTestComplete _ _ _ _ | configurationApply | bootLate | recoveryPoll _ | warmReset _
  | warmResetRequest _ | mpWatchdog | mpLoadWindow _ | tamper _ | timeSecRead _ | imAcctLatch _ | tlbInvalidate _
  | tlbInvalidateDone _ | ringEnable _ _ _ | digestLogEnable _ _ | queuePairEnable _ _ | fhPortEnable _ _
  | flowStagingWrite _ _ _ _ | flowEntryReplace _ _ _ _ | msiUnmask _ _ | radioSwitch _ | appofsWrite _ | reprobe _ | admission _
  | admissionPhaseComplete _ | claimSend _ | eventTimerTick | beatStart | beatBoundary _ _ | dlAbort _ | coreWakeComplete _
  | planPreparation _ _ _ _ | planLatch | lockLeaseExpiry _ _ | fixedLeaseEnd _ | holdTimeout _ _ | stopIssueComplete _
  | meDrainComplete _ _ | knownAnswerTestComplete _ _ | coreFailed _ | dieFail _ | descriptorFetch _ _ | journalSlotFreed
  | scratchpadScrub _ _ _ | weightPassComplete _ _ | waiteReturn _ _ | skbRelease _ _ | weaveRequest _ _ _ _ _ _ | windowStart
  | stackRowAccessComplete _ _ | stackRefresh _ _ _ | refreshComplete _ _ _ | stackScrub _ _ _ | frameClearComplete _ _
  | channelMigration _ _ _ | stackLost _ | journalRebuildComplete | cclPortUp _ _ | cclPortDown _ _ | cclRetry _ | snpinv _
  | watchedLineReread | timeBaseLock _ | timeBaseUnlock _ | holdover _ | ppsEdge _ _ | timeOfDayMessage _ | todMessageTimeout _
  | ppsMissing _ | frequencyWindow _ _ | delayReqSend _ | ppsOutPulse | ppsOutPulseEnd | beatTracePulseEnd | ingressFrame _ _ _
  | egressFrameQueue _ _ _ _ _ _ _ _ | egressFrameEnd _ _ | refill _ | subportUp _ _ | subportDown _ _
  | moduleInsertion _ _ _ _ _ _ | moduleReadyTimeout _ | moduleInterrupt _ _ _ | modulePeriodicRead _ _ | peWatchdogExpiry _
  | slotStart _ | contextHalt _ | ceFallbackEnd _ | indicationDiscard _ | cableDetected _ | cableIdentityReadComplete _ _ _ _ _ _
  | linkUp _ _ _ _ _ | retrain _ _ _ | flitCrcError _ _ | nak _ _ _ | time _ _ _ _ _ | laneHourTick _ _ | ledgerCopy
  | heartbeatSend | hb _ _ | heartbeatMissWindow _ | suspect _ | probe _ _ | probeAck _ _ | dreply _ _ | commit _ _
  | fenceNotice _ | budget _ _ | budgetTokenTimeout | healthUpdate | expulsionCandidate | admitMessage _ _ | claim _ _
  | claimRes _ _ | avsTimeout | avsAnswer | samplePreload _ | extest | extestPulse | extestTrain | warmResetEnd
  | paramRequest _ _ _ _ | configRequest _ _ _ _ _ | startRequest _ _ _ _ | stopRequest _ _ _ _
  | modelLoadRequest _ _ _ _ _ _ _ _ _ | dpdTrainRequest _ _ _ _ _ _ _ _ | dlTtiRequest _ _ _ _ _ | ulTtiRequest _ _ _ _ _ _ _ _
  | ulDciRequest _ _ _ _ _ | txDataRequest _ _ _ _ _ | wr _ _ _ _ | rd _ _ _ _ _ | rddata _ _ _ | ack _ _ | nack _ _ _
  | death _ _ => exact State.obeys_when ..
  | mmt _ _ | mwl _ _ | mdr _ _ | add _ _ | sub _ _ | mul _ _ | andS _ _ | orS _ _ | xorS _ _ | sll _ _ | sra _ _ | bfx _ _
  | addi _ _ | li _ _ | lih _ _ | beq _ _ | bne _ _ | blt _ _ | bge _ _ | bltu _ _ | bgeu _ _ | jmp _ _ | jr _ _ | ld _ _
  | st _ _ | fadd _ _ | fsub _ _ | fmul _ _ | ffma _ _ | fcvtif _ _ | fcvtfi _ _ | fork _ _ | halt _ _ | waite _ _ | npb _ _
  | npe _ _ | lkacq _ _ | lkrel _ _ | rdctr _ _ | vcmp _ _ | vld _ _ | vst _ _ | vlds _ _ | vsts _ _ | vgth _ _ | vsct _ _
  | vatom _ _ | ifP _ _ | elseP _ _ | endifP _ _ | loopP _ _ | brkP _ _ | contP _ _ | endloopP _ _ | exitP _ _ | skb _ _
  | cpq _ _ =>
    unfold exec
    exact State.obeys_instr ..
  | vadd _ _ | vsub _ _ | vshl _ _ | vadds _ _ | vsubs _ _ | vmul _ _ | vfma _ _ | vdot _ _ | vsra _ _ | vand _ _ | vor _ _
  | vxor _ _ | vmin _ _ | vmax _ _ | vsel _ _ | vcvt _ _ | vcmac _ _ | vbf4 _ _ | vbex _ _ | vmova _ _ | vperm4 _ _ | vred _ _
  | vscan _ _ | vrcp _ _ | vrsq _ _ | vexp2 _ _ | vlog2 _ _ | vcni _ _ | vcnu _ _ | vcno _ _ | vsid _ _ | vbcst _ _ =>
    unfold exec
    exact State.obeys_vinstr ..
  | create _ _ _ | resize _ _ _ | fixlease _ _ | setw _ | map _ | unmap _ | quiesce _ | resume _ | reset _ | remove _ =>
    unfold exec
    exact State.obeys_mgmt ..
  | lin _ _ _ | rect _ _ _ | box _ _ _ | gather _ _ _ | fill _ _ _ =>
    unfold exec
    exact State.obeys_ceStart ..
  | gatherProgram _ _ _ | scatter _ _ _ | kvwalk _ _ _ | scatadd _ _ _ | harq _ _ _ =>
    unfold exec
    exact State.obeys_seqProgram ..
  | attest | fwActivate | fwCommit | fwRevert | cfgCommit =>
    unfold exec
    exact State.obeys_dev ..
  | fwWrite _ | cfgWrite _ _ =>
    unfold exec
    exact State.obeys_devRead ..
  | coldReset b => exact absurd rfl (hcold b)
  | bypass => exact absurd rfl hbypass
  | idcode => exact absurd rfl hidcode
  | sensorSample u k v => exact absurd rfl (hsensor u k v)
  | registerWrite off size v => exact absurd rfl (hwrite off size v)
  | grizorRestart _ | reprobeTimeout _ | borrowRequest _ _ | bankSwitchComplete _ | radioDispatchComplete _
  | weightReloadComplete _ | spillComplete _ | zeroingComplete _ | restoreComplete _ | spareSubstitution _ | descriptorCheck _ _
  | journalRecordDurable _ | kernel _ _ | copy _ _ _ _ | barrier _ _ _ | barrierRelease _ _ | synchronisedStart _ _ | fence _ _
  | fenceComplete _ _ | signal _ _ _ | createComplete _ | quiesceComplete _ | scratchpadUncorrectableError _ _ _ _
  | mmtComplete _ _ _ | mdrComplete _ _ _ | transactionIssue _ _ _ _ _ | weaveTransactionComplete _ _ _ _ _
  | copyDescriptorComplete _ _ _ | arbitrationRound _ | holdCutoff _ _ | sequencerRequest _ _ _ _ | journalWrite
  | stackProgramComplete _ _ | migrationComplete _ | mirrorRebuildComplete _ | lineDataReturn _ _ | writeAcknowledge _
  | egressFrameStart _ _ | egressFrameLate _ _ | peRestartComplete _ | cellStart _ | dpdTrainComplete _ _ _ | dpdTrainTimeout _ _
  | transactionTimeout _ | ringTimeExchange _ | witnessProbeTimeout _ | eventRecordEmit | flashProgramComplete _
  | activationStepComplete _ | illegalInstruction _ _ | instructionFetchFault _ _ | illegalCopyDescriptor _ _ _
  | loadDataReturn _ _ _ | channelFail _ _ =>
    all_goals
      dsimp only [exec, execGrizorRestart, execReprobeTimeout, execBorrowRequest, execBankSwitchComplete, execRadioDispatchComplete,
        execWeightReloadComplete, execSpillComplete, execZeroingComplete, execRestoreComplete, execSpareSubstitution,
        execDescriptorCheck, execJournalRecordDurable, execKernel, execCopy, execBarrier, execBarrierRelease, execSynchronisedStart,
        execFence, execFenceComplete, execSignal, execCreateComplete, execQuiesceComplete, execScratchpadUncorrectableError,
        execMmtComplete, execMdrComplete, execTransactionIssue, execWeaveTransactionComplete, execCopyDescriptorComplete,
        execArbitrationRound, execHoldCutoff, execSequencerRequest, execJournalWrite, execStackProgramComplete,
        execMigrationComplete, execMirrorRebuildComplete, execLineDataReturn, execWriteAcknowledge, execEgressFrameStart,
        execEgressFrameLate, execPeRestartComplete, execCellStart, execDpdTrainComplete, execDpdTrainTimeout, execTransactionTimeout,
        execRingTimeExchange, execWitnessProbeTimeout, execEventRecordEmit, execFlashProgramComplete, execActivationStepComplete,
        execIllegalInstruction, execInstructionFetchFault, execIllegalCopyDescriptor, execLoadDataReturn, execChannelFail]
      repeat' split
      all_goals exact State.obeys_when ..
  | _ => -- the seal is the one command left: its name is a keyword of Lean
    exact State.obeys_when ..

/-- A register write inside the register space answers as every other command does (R551). -/
theorem execRegisterWrite_obeys (off size v : Nat) (s : State) (h : off < 2 ^ 26) : s.Obeys (execRegisterWrite off size v s) := by
  unfold execRegisterWrite
  split
  case isTrue hs => exact ⟨fun _ => rfl, fun hr => absurd (hs.symm.trans hr) (by decide)⟩
  case isFalse hs => rw [if_neg (by omega)]; exact State.obeys_when ..

/-- Outside the register space it faults, and changes nothing. -/
theorem execRegisterWrite_next {off size v : Nat} {s t : State} (h : execRegisterWrite off size v s = .next t) : off < 2 ^ 26 := by
  unfold execRegisterWrite at h
  split at h
  · cases h
  · split at h
    · cases h
    · omega

/-- A sensor sample answers as every other command does, but that it can stop the clocks (R538). -/
theorem execSensorSample_cases (u k temp : Nat) (s : State) :
    (s.clocksStopped = true ∧ execSensorSample u k temp s = .refused .clocksStopped) ∨
    (s.clocksStopped = false ∧ ∃ t b, execSensorSample u k temp s = .next { s.keep t with clocksStopped := b }) := by
  unfold execSensorSample
  dsimp only
  generalize hcan : (s.boot.started && _ && _) = can
  generalize (if 2 ≤ _ then State.trip _ _ else _) = t
  rcases State.when_cases s can t with ⟨hs, e⟩ | ⟨hs, -, e⟩ | ⟨hs, -, e⟩ <;> rw [e]
  · exact .inl ⟨hs, rfl⟩
  · exact .inr ⟨hs, t, _, rfl⟩
  · exact .inr ⟨hs, s, _, rfl⟩

/-- What a command other than a cold reset answers next: the count of cycles and the queue stay, and the clocks but for a thermal trip. -/
theorem exec_next {c : Instr} {s t : State} (hcold : ∀ b, c ≠ .coldReset b) (h : exec c s = .next t) :
    t.gtc = s.gtc ∧ t.pending = s.pending ∧ ((∀ u k v, c ≠ .sensorSample u k v) → t.clocksStopped = s.clocksStopped) := by
  have obeys (ho : s.Obeys (exec c s)) : t.gtc = s.gtc ∧ t.pending = s.pending ∧ t.clocksStopped = s.clocksStopped := by
    cases hs : s.clocksStopped
    · obtain ⟨u, hu⟩ := ho.runs hs
      cases hu.symm.trans h
      exact ⟨rfl, rfl, hs⟩
    · cases (ho.stopped hs).symm.trans h
  by_cases hsensor : ∃ u k v, c = .sensorSample u k v
  · obtain ⟨u, k, v, rfl⟩ := hsensor
    rcases execSensorSample_cases u k v s with ⟨-, e⟩ | ⟨-, r, b, e⟩ <;> cases e.symm.trans h
    exact ⟨rfl, rfl, fun g => absurd rfl (g u k v)⟩
  by_cases hwrite : ∃ off size v, c = .registerWrite off size v
  · obtain ⟨off, size, v, rfl⟩ := hwrite
    obtain ⟨hg, hp, hc⟩ := obeys (execRegisterWrite_obeys off size v s (execRegisterWrite_next h))
    exact ⟨hg, hp, fun _ => hc⟩
  by_cases hb : c = .bypass
  · subst hb; cases h; exact ⟨rfl, rfl, fun _ => rfl⟩
  by_cases hi : c = .idcode
  · subst hi; cases h; exact ⟨rfl, rfl, fun _ => rfl⟩
  · obtain ⟨hg, hp, hc⟩ := obeys (exec_obeys c s hcold hb hi (fun u k v e => hsensor ⟨u, k, v, e⟩) fun o z v e => hwrite ⟨o, z, v, e⟩)
    exact ⟨hg, hp, fun _ => hc⟩

/-- A command that answers next leaves the queue (R2: the block's interface), a cold reset too. -/
theorem exec_pending {c : Instr} {s t : State} (h : exec c s = .next t) : t.pending = s.pending := by
  by_cases hcold : ∃ b, c = .coldReset b
  · obtain ⟨b, rfl⟩ := hcold; cases h; rfl
  · exact (exec_next (fun b e => hcold ⟨b, e⟩) h).2.1

/-- Settles O55: a step takes the front of the queue by its definition. -/
theorem stepRunsTheFrontCommand : Obligations.StepRunsTheFrontCommand := fun _ _ _ => rfl

/-- Settles O58: from what every command answers. -/
theorem commandsKeepTheClockAndTheQueue : Obligations.CommandsKeepTheClockAndTheQueue := by
  refine ⟨fun c s t hcold h => exec_next hcold h, fun s t c rest hp h => ?_⟩
  have hstep : step s = exec c { s with pending := rest } := by unfold step; rw [hp]
  exact exec_pending (hstep.symm.trans h)

/-- Settles O59: from what every command answers, with the commands that no stop of the clocks refuses set apart. -/
theorem stoppedClocksRefuseCommands : Obligations.StoppedClocksRefuseCommands := by
  refine ⟨fun c s hs hcold hb hi => ?_, fun c s hs hspace => ?_⟩
  · by_cases hsensor : ∃ u k v, c = .sensorSample u k v
    · obtain ⟨u, k, v, rfl⟩ := hsensor
      rcases execSensorSample_cases u k v s with ⟨-, e⟩ | ⟨hr, -⟩
      · exact e
      · cases hs.symm.trans hr
    by_cases hwrite : ∃ off size v, c = .registerWrite off size v
    · obtain ⟨off, size, v, rfl⟩ := hwrite
      exact if_pos hs
    · exact (exec_obeys c s hcold hb hi (fun u k v e => hsensor ⟨u, k, v, e⟩) fun o z v e => hwrite ⟨o, z, v, e⟩).stopped hs
  · have next (ho : s.Obeys (exec c s)) : ∃ t, exec c s = .next t := (ho.runs hs).imp' s.keep fun _ h => h
    by_cases hcold : ∃ b, c = .coldReset b
    · obtain ⟨b, rfl⟩ := hcold; exact ⟨_, rfl⟩
    by_cases hsensor : ∃ u k v, c = .sensorSample u k v
    · obtain ⟨u, k, v, rfl⟩ := hsensor
      rcases execSensorSample_cases u k v s with ⟨hr, -⟩ | ⟨-, t, b, e⟩
      · cases hs.symm.trans hr
      · exact ⟨_, e⟩
    by_cases hwrite : ∃ off size v, c = .registerWrite off size v
    · obtain ⟨off, size, v, rfl⟩ := hwrite
      exact next (execRegisterWrite_obeys off size v s (hspace off size v rfl))
    by_cases hb : c = .bypass
    · subst hb; exact ⟨_, rfl⟩
    by_cases hi : c = .idcode
    · subst hi; exact ⟨_, rfl⟩
    · exact next (exec_obeys c s (fun b e => hcold ⟨b, e⟩) hb hi (fun u k v e => hsensor ⟨u, k, v, e⟩)
        fun o z v e => hwrite ⟨o, z, v, e⟩)

/-- A device that has not been started, with one sample of 420 or more counted for sensor 0 of die 0. -/
def oneTripCounted : State := { State.reset with power := { PowerState.reset with trips := [(0, 1)] } }

/-- Another such sample happens not, and yet the clocks stop. -/
theorem step_second_trip_unstarted :
    step { oneTripCounted with pending := [.sensorSample 0 0 420] } = .next { oneTripCounted with clocksStopped := true } := rfl

/-- Refutes O60: SENSOR_SAMPLE stops the clocks at its second sample of 420 or more even where the sample itself has no effect, as before the
cold start, and then no trip is shown. -/
theorem not_everyStepKeepsTheClockInvariant : ¬ Obligations.EveryStepKeepsTheClockInvariant := by
  intro h
  obtain ⟨-, hstop⟩ := h _ _ ⟨by decide, fun g => absurd g (by decide)⟩ step_second_trip_unstarted
  exact absurd (hstop rfl) (by decide)

/-- Settles O57: every register reads its reset word where none is listed, and every core slot is zero. -/
theorem resetLeavesTheStatedValues : Obligations.ResetLeavesTheStatedValues := by
  have hreg (r : Reg) : State.reset.reg r = r.resetWord := rfl
  have hfield (r : Reg) (f : Fld) : State.reset.getF r f = f.get r.resetWord := rfl
  have hlimit (p : Nat) : (Reg.coreCqNplimit p).resetWord = 0x800#64 := rfl
  have hecc (p : Nat) : (Reg.coreSpEcc p).resetWord = CORE_SP_ECC.SCRUBEN.set 0 1 := rfl
  have hamode (p : Nat) : (Reg.coreAmode p 0).resetWord = CORE_AMODE.ASHIFT_EN.set 0 1 := rfl
  have hmsic (v : Nat) : (Reg.cclMsic v).resetWord = CCL_MSIC.MASK.set 0 1 := rfl
  refine ⟨rfl, rfl, rfl, rfl, fun _ => rfl, hreg, fun p => ?_, ?_⟩
  · simp only [hfield, hlimit, hecc, hamode]; decide
  simp only [hfield, hmsic]
  refine ⟨rfl, rfl, rfl, rfl, rfl, rfl, rfl, rfl, rfl, rfl, ⟨by decide, nofun⟩, rfl, fun _ => by decide⟩

end Sys2Proof.Machine

namespace Sys2Proof.Machine

/-! # Scalar rows (R133 to R137, R160, R167) -/

/-! ## Forms: only threads issue scalar words -/

theorem legalR_thread {s : State} {x : Iss} (h : legalR s x = true) : x.i < 16 := by
  simp only [legalR, Iss.isThread, Bool.and_eq_true, decide_eq_true_eq] at h; exact h.1.1
theorem legalR4_thread {s : State} {x : Iss} (h : legalR4 s x = true) : x.i < 16 := by
  simp only [legalR4, Iss.isThread, Bool.and_eq_true, decide_eq_true_eq] at h; exact h.1.1
theorem legalI_thread {s : State} {x : Iss} (h : legalI s x = true) : x.i < 16 := by
  simp only [legalI, Iss.isThread, Bool.and_eq_true, decide_eq_true_eq] at h; exact h.1.1
theorem legalI0_thread {s : State} {x : Iss} (h : legalI0 s x = true) : x.i < 16 :=
  legalI_thread (Bool.and_eq_true_iff.mp h).1
theorem legalB_thread {s : State} {x : Iss} (h : legalB s x = true) : x.i < 16 := by
  simp only [legalB, Iss.isThread, Bool.and_eq_true, decide_eq_true_eq] at h; exact h.1.1.1

/-! ## A row that writes rd -/

/-- A condition may be replaced by an equivalent one (the model's files do not import Mathlib's `if_congr`). -/
theorem ite_of_iff {α : Type} {P Q : Prop} [Decidable P] [Decidable Q] (h : P ↔ Q) (a b : α) :
    (if P then a else b) = if Q then a else b :=
  ite_congr (propext h) (fun _ => rfl) fun _ => rfl

@[simp] theorem State.spCorrect_a (s : State) (p a n : Nat) (x : Iss) : (s.spCorrect p a n).a x = s.a x := State.spCorrect_sval ..
@[simp] theorem State.spCorrect_b (s : State) (p a n : Nat) (x : Iss) : (s.spCorrect p a n).b x = s.b x := State.spCorrect_sval ..

/-- A row whose effect is a value for rd writes that value, computed before the fetch or after it alike. -/
theorem writesRd_of {row : Nat → Nat → Instr} {op : Nat} {legal : State → Iss → Bool} {val v : State → Iss → Word}
    (hexec : ∀ p i s, exec (row p i) s = instr p i 0 op legal (fun s x => s.result x (v s x)) s)
    (hthread : ∀ s x, legal s x = true → x.i < 16) (hval : ∀ s x, v (s.spCorrect x.p x.pc 8) x = val s x) :
    writesRd row op legal val := by
  intro s p i x h hl
  obtain ⟨rfl, rfl⟩ := State.iss_pi h.next
  have hi := hthread s x hl
  obtain ⟨hframe, hme⟩ := s.thread_advance hi fun t => t.setReg x.rd (val s x)
  refine ⟨_, (hexec ..).trans (instr_legal h hl), ((State.Touches.wrS ..).trans (.setPc ..)).coreFrame, ?_⟩
  rw [State.core_keep, hval, State.result, State.wrS_thread hi, hme]
  exact ⟨hframe, fun n => (Thread.reg_setReg ..).trans (ite_of_iff (by constructor <;> rintro ⟨rfl, hn⟩ <;> exact ⟨rfl, hn⟩) ..),
    by rw [Thread.setReg_rest]⟩

theorem shiftRound_eq (v : Int) (n : Nat) : shiftRound v n = if n = 0 then v else (v + 2 ^ (n - 1)) / 2 ^ n := by
  unfold shiftRound; split
  · rfl
  · push_cast; rfl

/-- The bits of a field of BFX: 5:0 names the lowest, 13:8 one less than their number (R167). -/
theorem bitsOf_from (n lo len : Nat) : bitsOf n (lo + len) lo = n / 2 ^ lo % 2 ^ (len + 1) := by
  unfold bitsOf; congr 2; omega

theorem exec_add (p i : Nat) (s : State) : exec (.add p i) s = execAdd p i s := rfl
theorem exec_sub (p i : Nat) (s : State) : exec (.sub p i) s = execSub p i s := rfl
theorem exec_mul (p i : Nat) (s : State) : exec (.mul p i) s = execMul p i s := rfl
theorem exec_andS (p i : Nat) (s : State) : exec (.andS p i) s = execAndS p i s := rfl
theorem exec_orS (p i : Nat) (s : State) : exec (.orS p i) s = execOrS p i s := rfl
theorem exec_xorS (p i : Nat) (s : State) : exec (.xorS p i) s = execXorS p i s := rfl
theorem exec_sll (p i : Nat) (s : State) : exec (.sll p i) s = execSll p i s := rfl
theorem exec_sra (p i : Nat) (s : State) : exec (.sra p i) s = execSra p i s := rfl
theorem exec_addi (p i : Nat) (s : State) : exec (.addi p i) s = execAddi p i s := rfl
theorem exec_li (p i : Nat) (s : State) : exec (.li p i) s = execLi p i s := rfl
theorem exec_lih (p i : Nat) (s : State) : exec (.lih p i) s = execLih p i s := rfl
theorem exec_bfx (p i : Nat) (s : State) : exec (.bfx p i) s = execBfx p i s := rfl
theorem exec_rdctr (p i : Nat) (s : State) : exec (.rdctr p i) s = execRdctr p i s := rfl

/-- Settles O1: every row is a value for rd, and reads its operands as they stood before the fetch. -/
theorem scalarIntegerRowsWriteRd : Obligations.ScalarIntegerRowsWriteRd := by
  refine ⟨writesRd_of exec_add (fun _ _ => legalR_thread) fun s x => ?_,
    writesRd_of exec_sub (fun _ _ => legalR_thread) fun s x => ?_,
    writesRd_of exec_mul (fun _ _ => legalR_thread) fun s x => ?_,
    writesRd_of exec_andS (fun _ _ => legalR_thread) fun s x => ?_,
    writesRd_of exec_orS (fun _ _ => legalR_thread) fun s x => ?_,
    writesRd_of exec_xorS (fun _ _ => legalR_thread) fun s x => ?_,
    writesRd_of exec_sll (fun _ _ => legalR_thread) fun s x => ?_,
    writesRd_of exec_sra (fun _ _ => legalR_thread) fun s x => ?_,
    writesRd_of exec_addi (fun _ _ => legalI_thread) fun s x => ?_,
    writesRd_of exec_li (fun _ _ => legalI0_thread) fun s x => ?_,
    writesRd_of exec_lih (fun _ _ => legalI0_thread) fun s x => ?_,
    writesRd_of exec_bfx (fun s x h => ?_) fun s x => ?_,
    writesRd_of exec_rdctr (fun s x h => ?_) fun s x => ?_⟩
  case refine_8 => simp only [State.spCorrect_a, State.spCorrect_b, shiftRound_eq]; rfl
  case refine_12 => simp only [Bool.and_eq_true] at h; exact legalI_thread h.1.1.1
  case refine_13 => simp only [State.spCorrect_a, bitsOf_from]; rfl
  case refine_14 => simp only [Bool.and_eq_true] at h; exact legalI0_thread h.1.1
  case refine_15 => simp only [State.spCorrect_gtc, State.spCorrect_resident, State.spCorrect_lcoreNo] <;> rfl
  case refine_10 => rfl
  all_goals simp only [State.spCorrect_a, State.spCorrect_b, State.spCorrect_sval]; rfl

/-! ## A row that moves the pc -/

/-- A row whose effect is a new pc sets it and leaves the rest of the machine. -/
theorem movesPc_of {row : Nat → Nat → Instr} {op : Nat} {legal : State → Iss → Bool} {target v : State → Iss → Nat}
    (hexec : ∀ p i s, exec (row p i) s = instr p i 0 op legal (fun s x => s.setPc x (v s x)) s)
    (hthread : ∀ s x, legal s x = true → x.i < 16) (htarget : ∀ s x, v (s.spCorrect x.p x.pc 8) x = target s x) :
    movesPc row op legal target := by
  intro s p i x h hl
  obtain ⟨rfl, rfl⟩ := State.iss_pi h.next
  refine ⟨_, (hexec ..).trans (instr_legal h hl), (State.Touches.setPc ..).coreFrame, ?_⟩
  rw [State.core_keep, htarget, State.setPc, if_pos (hthread s x hl)]
  refine ⟨⟨?_, fun j hj => by simp [hj]⟩, by simp⟩
  rw [State.core_modThread, if_pos rfl, State.spCorrect_core s x.p x.pc 8]; rfl

/-- A branch goes to the word that its offset names where it is taken, and to the next word where not (R167). -/
theorem State.branch_eq (s : State) (x : Iss) (taken : Bool) :
    s.branch x taken = s.setPc x (if taken then branchTo x else x.pc + 8) := by
  unfold State.branch; cases taken <;> rfl

theorem exec_branch {row : Nat → Nat → Instr} {op : Nat} {taken : State → Iss → Bool}
    (h : ∀ p i s, exec (row p i) s = instr p i 0 op legalB (fun s x => s.branch x (taken s x)) s) (p i : Nat) (s : State) :
    exec (row p i) s = instr p i 0 op legalB (fun s x => s.setPc x (if taken s x then branchTo x else x.pc + 8)) s := by
  simp only [h, State.branch_eq]

theorem exec_beq (p i : Nat) (s : State) : exec (.beq p i) s = execBeq p i s := rfl
theorem exec_bne (p i : Nat) (s : State) : exec (.bne p i) s = execBne p i s := rfl
theorem exec_blt (p i : Nat) (s : State) : exec (.blt p i) s = execBlt p i s := rfl
theorem exec_bge (p i : Nat) (s : State) : exec (.bge p i) s = execBge p i s := rfl
theorem exec_bltu (p i : Nat) (s : State) : exec (.bltu p i) s = execBltu p i s := rfl
theorem exec_bgeu (p i : Nat) (s : State) : exec (.bgeu p i) s = execBgeu p i s := rfl
theorem exec_jmp (p i : Nat) (s : State) : exec (.jmp p i) s = execJmp p i s := rfl
theorem exec_jr (p i : Nat) (s : State) : exec (.jr p i) s = execJr p i s := rfl

/-- Settles O2: each branch is a new pc, and reads its operands as they stood before the fetch. -/
theorem branchesSetThePcAlone : Obligations.BranchesSetThePcAlone := by
  refine ⟨movesPc_of (exec_branch exec_beq) (fun _ _ => legalB_thread) fun s x => ?_,
    movesPc_of (exec_branch exec_bne) (fun _ _ => legalB_thread) fun s x => ?_,
    movesPc_of (exec_branch exec_blt) (fun _ _ => legalB_thread) fun s x => ?_,
    movesPc_of (exec_branch exec_bge) (fun _ _ => legalB_thread) fun s x => ?_,
    movesPc_of (exec_branch exec_bltu) (fun _ _ => legalB_thread) fun s x => ?_,
    movesPc_of (exec_branch exec_bgeu) (fun _ _ => legalB_thread) fun s x => ?_,
    movesPc_of exec_jmp (fun s x h => ?_) fun s x => rfl,
    movesPc_of exec_jr (fun s x h => ?_) fun s x => ?_⟩
  case refine_7 => simp only [Bool.and_eq_true] at h; exact legalB_thread h.1.1
  case refine_8 => simp only [Bool.and_eq_true] at h; exact legalR_thread h.1.1
  case refine_9 => rw [State.spCorrect_a]; rfl
  case refine_2 => simp only [State.spCorrect_a, State.spCorrect_b, bne_iff_ne, ne_eq, ite_not]; rfl
  case refine_4 =>
    simp only [State.spCorrect_a, State.spCorrect_b, decide_eq_true_eq, ← Int.not_lt, ite_not]; rfl
  case refine_6 =>
    simp only [State.spCorrect_a, State.spCorrect_b, decide_eq_true_eq, ← Nat.not_lt, ite_not]; rfl
  all_goals simp only [State.spCorrect_a, State.spCorrect_b, decide_eq_true_eq, beq_iff_eq]; rfl

end Sys2Proof.Machine

namespace Sys2Proof.Machine

/-! # Floating-point rows (R41, R48, R55, R56, R167) -/

/-! ## Flags of a side and of a command -/

theorem State.Touches.flagCmd (s : State) (p k cmd : Nat) (fl : Flags) {rs : List Reg} (h : .coreAflags p k ∈ rs) :
    s.Touches (s.flagCmd p k cmd fl) p rs := by
  unfold State.flagCmd State.orFlags
  split
  · exact .refl ..
  · exact (State.Touches.setF s p _ _ h).trans (.modCore ..)

theorem flags_or_zero (r : Resident) (cmd : Nat) : (if r.cmd = cmd then { r with flags := r.flags ||| (0 : Flags) } else r) = r := by
  simp

/-- The flags of an instruction reach the register of its side and its command (R55, R56). -/
theorem State.flagged_flagCmd (s : State) (p k cmd : Nat) (fl : Flags) : s.Flagged (s.flagCmd p k cmd fl) p k cmd fl := by
  by_cases h : fl = 0
  · subst h
    have hs : s.flagCmd p k cmd 0 = s := if_pos rfl
    exact ⟨by rw [hs, if_pos rfl], by simp only [hs, flags_or_zero, List.map_id']⟩
  · have hs : s.flagCmd p k cmd fl = (s.orFlags p k fl).modCore p fun c =>
        { c with residents := c.residents.map fun r => if r.cmd = cmd then { r with flags := r.flags ||| fl } else r } := if_neg h
    constructor
    · rw [hs, if_neg h, State.reg_modCore, State.orFlags, if_neg h, State.orF, State.reg_setF_self]
    · rw [hs, State.core_modCore, if_pos rfl, State.core_orFlags]

/-- Flags set after a fetch are those set before it; what follows may change anything but the register and the residents. -/
theorem State.Flagged.congr {s s' t t' : State} {p k cmd : Nat} {fl : Flags} (h : s'.Flagged t p k cmd fl)
    (hreg : s'.reg (.coreAflags p k) = s.reg (.coreAflags p k)) (hres : (s'.core p).residents = (s.core p).residents)
    (hreg' : t'.reg (.coreAflags p k) = t.reg (.coreAflags p k)) (hres' : (t'.core p).residents = (t.core p).residents) :
    s.Flagged t' p k cmd fl := by
  have hget : s'.getF (.coreAflags p k) ⟨4, 0⟩ = s.getF (.coreAflags p k) ⟨4, 0⟩ := congrArg _ hreg
  exact ⟨by rw [hreg', h.reg, hreg, hget], by rw [hres', h.residents, hres]⟩

theorem aflags_not_ecc (p k : Nat) : Reg.coreAflags p k ∉ eccRegs p := by simp [eccRegs]

theorem State.spCorrect_residents (s : State) (p a n : Nat) : ((s.spCorrect p a n).core p).residents = (s.core p).residents := by
  rw [State.spCorrect_core]

/-- Flags set after the fetch of an instruction, seen from before it. -/
theorem State.Flagged.fetched {s t : State} {p k cmd a : Nat} {fl : Flags} (h : (s.spCorrect p a 8).Flagged t p k cmd fl) :
    s.Flagged t p k cmd fl :=
  h.congr (s.spCorrect_reg p a 8 (aflags_not_ecc p k)) (s.spCorrect_residents p a 8) rfl rfl

/-! ## What a floating-point row leaves -/

/-- Of its core a flagged result changes threads and residents. -/
theorem State.result_thread {s : State} {x : Iss} (hi : x.i < 16) (v : Word) :
    s.result x v = (s.modThread x.p x.i fun t => t.setReg x.rd v).modThread x.p x.i fun t => { t with pc := x.pc + 8 } := by
  rw [State.result, State.wrS_thread hi, State.advance_thread hi]

/-- A row whose effect is flags and a value for rd that the rule admits (R41, R55, R167). -/
theorem writesFp_of {row : Nat → Nat → Instr} {op : Nat} {legal : State → Iss → Bool} {ok : State → Iss → Word → Prop}
    {fl g : State → Iss → Flags} {v : State → Iss → Word}
    (hexec : ∀ p i s, exec (row p i) s = instr p i 0 op legal (fun s x => (s.flagCmd x.p x.k x.cmd (g s x)).result x (v s x)) s)
    (hthread : ∀ s x, legal s x = true → x.i < 16) (hflags : ∀ s x, g (s.spCorrect x.p x.pc 8) x = fl s x)
    (hok : ∀ s x, ok s x (v (s.spCorrect x.p x.pc 8) x)) : writesFp row op legal ok fl := by
  intro s p i x h hl
  obtain ⟨rfl, rfl⟩ := State.iss_pi h.next
  have hi := hthread s x hl
  refine ⟨_, (hexec ..).trans (instr_legal h hl), ?_⟩
  rw [hflags, State.result_thread hi]
  generalize hv : v (s.spCorrect x.p x.pc 8) x = w
  have hres := State.core_flagCmd (s.spCorrect x.p x.pc 8) x.p x.k x.cmd (fl s x) x.p
  have hth (j : Nat) : (((s.spCorrect x.p x.pc 8).flagCmd x.p x.k x.cmd (fl s x)).core x.p).thread j = (s.core x.p).thread j := by
    rw [hres]; exact State.spCorrect_thread ..
  refine ⟨(((State.Touches.flagCmd _ _ _ _ _ (List.mem_singleton.mpr rfl)).trans (.modCore ..)).trans (.modCore ..)).coreFrame,
    ?_, fun j hj => ?_, ?_, fun n hn => ?_, fun hr => ?_, ?_⟩
  · simp only [State.core_keep, State.core_modThread, if_pos]
    rw [hres, State.spCorrect_core s x.p x.pc 8]; rfl
  · simp [hj, hth]
  · exact ((State.flagged_flagCmd _ x.p x.k x.cmd (fl s x)).fetched).congr rfl rfl rfl (by simp [Core.setThread])
  · simp only [State.core_keep, State.core_modThread, if_pos, Core.thread_setThread, hth]
    refine (Thread.reg_setReg ..).trans (if_neg ?_)
    rintro ⟨rfl, h0⟩
    exact hn.elim (fun g => g rfl) h0
  · simp only [State.core_keep, State.core_modThread, if_pos, Core.thread_setThread, hth]
    have hw : (((s.core x.p).thread x.i).setReg x.rd w).reg x.rd = w := (Thread.reg_setReg ..).trans (if_pos ⟨rfl, hr⟩)
    exact (congrArg (ok s x) (hw.trans hv.symm)).mpr (hok s x)
  · simp only [State.core_keep, State.core_modThread, if_pos, Core.thread_setThread, hth]
    rw [Thread.setReg_rest]

/-- The low half of an FP32 result is its bits, whatever its high half is (log 3). -/
theorem lowHalf_fp (hi r : Nat) : (BitVec.ofNat 64 (hi * 2 ^ 32 + r % 2 ^ 32)).toNat % 2 ^ 32 = r % 2 ^ 32 := by
  rw [BitVec.toNat_ofNat]; omega

/-- A row with an FP32 result. -/
theorem writesFp32_of {row : Nat → Nat → Instr} {op : Nat} {legal : State → Iss → Bool} {r q : State → Iss → Nat × Flags}
    (hexec : ∀ p i s, exec (row p i) s = instr p i 0 op legal (fun s x => s.fpResult x (q s x)) s)
    (hthread : ∀ s x, legal s x = true → x.i < 16) (hres : ∀ s x, q (s.spCorrect x.p x.pc 8) x = r s x) :
    writesFp row op legal (lowHalf r) fun s x => (r s x).2 :=
  writesFp_of (g := fun s x => (q s x).2)
    (v := fun s x => BitVec.ofNat 64
      ((Config.fpHigh (BitVec.ofNat 64 x.w) [s.a x, s.b x, s.sval x x.rc]).toNat * 2 ^ 32 + (q s x).1 % 2 ^ 32))
    hexec hthread (fun s x => by rw [hres]) fun s x => by rw [hres]; exact lowHalf_fp ..

theorem exec_fadd (p i : Nat) (s : State) : exec (.fadd p i) s = execFadd p i s := rfl
theorem exec_fsub (p i : Nat) (s : State) : exec (.fsub p i) s = execFsub p i s := rfl
theorem exec_fmul (p i : Nat) (s : State) : exec (.fmul p i) s = execFmul p i s := rfl
theorem exec_ffma (p i : Nat) (s : State) : exec (.ffma p i) s = execFfma p i s := rfl
theorem exec_fcvtif (p i : Nat) (s : State) : exec (.fcvtif p i) s = execFcvtif p i s := rfl
theorem exec_fcvtfi (p i : Nat) (s : State) : exec (.fcvtfi p i) s = execFcvtfi p i s := rfl

/-- Settles O3: every row is flags and a value for rd; the operands are those before the fetch. -/
theorem scalarFpRowsWriteResultAndFlags : Obligations.ScalarFpRowsWriteResultAndFlags := by
  refine ⟨writesFp32_of exec_fadd (fun _ _ => legalR_thread) fun s x => ?_,
    writesFp32_of exec_fsub (fun _ _ => legalR_thread) fun s x => ?_,
    writesFp32_of exec_fmul (fun _ _ => legalR_thread) fun s x => ?_,
    writesFp32_of exec_ffma (fun _ _ => legalR4_thread) fun s x => ?_,
    writesFp32_of exec_fcvtif (fun _ _ => legalI_thread) fun s x => ?_,
    writesFp_of exec_fcvtfi (fun _ _ => legalI_thread) (fun s x => ?_) fun s x => ?_⟩
  all_goals simp only [State.spCorrect_a, State.spCorrect_b, State.spCorrect_sval, State.spCorrect_amode]; rfl

end Sys2Proof.Machine

namespace Sys2Proof.Machine

/-! # Scratchpad accesses of an issuer (R121 to R123, R137, R186) -/

/-! ## The correction of several ranges -/

/-- Correcting ranges changes check marks of the core, the ECC registers, the log and the health inputs alone (R186). -/
theorem State.correctSpans_frame (s : State) (p : Nat) (spans : List (Nat × Nat)) :
    let t := s.correctSpans p spans
    t = { s with regs := t.regs, cores := t.cores, log := t.log, waling := t.waling } ∧
    (∀ q, q ≠ p → t.core q = s.core q) ∧ t.core p = { s.core p with spCheck := (t.core p).spCheck } ∧
    (∀ r, r ∉ eccRegs p → t.reg r = s.reg r) := by
  induction spans generalizing s with
  | nil => exact ⟨rfl, fun _ _ => rfl, rfl, fun _ _ => rfl⟩
  | cons z spans ih =>
    obtain ⟨hrest, hcores, hcore, hregs⟩ := State.spCorrect_frame s p z.1 z.2
    obtain ⟨grest, gcores, gcore, gregs⟩ := ih (s.spCorrect p z.1 z.2)
    have e : s.correctSpans p (z :: spans) = (s.spCorrect p z.1 z.2).correctSpans p spans := rfl
    rw [e]
    exact ⟨by rw [grest, hrest], fun q hq => (gcores q hq).trans (hcores q hq), by rw [gcore, hcore],
      fun r hr => (gregs r hr).trans (hregs r hr)⟩

/-- With no single-bit error under the ranges nothing changes. -/
theorem State.correctSpans_clean (s : State) (p : Nat) (spans : List (Nat × Nat))
    (h : ∀ z ∈ spans, Core.spSingles (s.core p) z.1 z.2 = []) : s.correctSpans p spans = s := by
  induction spans with
  | nil => rfl
  | cons z spans ih =>
    change (s.spCorrect p z.1 z.2).correctSpans p spans = s
    rw [State.spCorrect_clean s p z.1 z.2 (h z List.mem_cons_self)]
    exact ih fun y hy => h y (List.mem_cons_of_mem z hy)

/-- What an instruction updates after its corrections, seen from the state before its fetch (R186). -/
theorem State.Touches.coreFrame_spans {s u : State} {p : Nat} {spans : List (Nat × Nat)} {rs : List Reg}
    (h : (s.correctSpans p spans).Touches u p rs) : s.CoreFrame (s.keep u) p spans rs := by
  obtain ⟨frest, fcores, -, fregs⟩ := State.correctSpans_frame s p spans
  refine ⟨?_, fun q hq => (h.cores q hq).trans (fcores q hq), fun r hr he => (h.regs r hr).trans (fregs r he), fun hc => ?_⟩
  · rw [h.rest, frest]; rfl
  · rw [State.correctSpans_clean s p spans hc] at h
    exact ⟨by rw [h.rest]; rfl, by rw [h.rest]; rfl, h.regs⟩

theorem State.correctSpans_core (s : State) (p : Nat) (spans : List (Nat × Nat)) :
    (s.correctSpans p spans).core p = { s.core p with spCheck := ((s.correctSpans p spans).core p).spCheck } :=
  (State.correctSpans_frame s p spans).2.2.1

@[simp] theorem State.correctSpans_thread (s : State) (p : Nat) (spans : List (Nat × Nat)) (j : Nat) :
    ((s.correctSpans p spans).core p).thread j = (s.core p).thread j := by rw [State.correctSpans_core]; rfl

/-! ## Faults of an access that may go ahead -/

theorem SMap.erase_subset {α : Type} (m : SMap α) (k : Nat) : ∀ y ∈ SMap.erase m k, y ∈ m := by
  induction m with
  | nil => exact fun y h => h
  | cons z m ih =>
    intro y h
    unfold SMap.erase at h
    split at h
    · exact List.mem_cons_of_mem z (ih y h)
    · rcases List.mem_cons.mp h with rfl | g
      · exact List.mem_cons_self
      · exact List.mem_cons_of_mem z (ih y g)

/-- A correction marks no further word (R186). -/
theorem State.spCorrect_marks (s : State) (p a n : Nat) : ∀ y ∈ ((s.spCorrect p a n).core p).spCheck, y ∈ (s.core p).spCheck := by
  unfold State.spCorrect
  generalize Core.spSingles (s.core p) a n = ws
  induction ws generalizing s with
  | nil => exact fun y h => h
  | cons w ws ih =>
    intro y hy
    have hmid := ih _ y hy
    simp only [State.core_event, State.core_setF, State.core_health, State.core_satF, State.core_modCore, if_pos] at hmid
    exact SMap.erase_subset _ w y hmid

/-- Words that are whole before a correction are whole after it. -/
theorem any_false_of_subset {α : Type} {l m : List α} {f : α → Bool} (h : ∀ y ∈ l, y ∈ m) (hm : m.any f = false) : l.any f = false := by
  rw [List.any_eq_false] at hm ⊢
  exact fun y hy => hm y (h y hy)

theorem State.spCorrect_inRange (s : State) (p a n k b m : Nat) : (s.spCorrect p a n).inRange p k b m = s.inRange p k b m := by
  unfold State.inRange State.spRange State.isStake State.role
  rw [State.spCorrect_getF s p a n _ _ (show Reg.coreCqPlan p ∉ eccRegs p by simp [eccRegs])]

theorem State.readFault_none_iff (s : State) (p k : Nat) (spans : List (Nat × Nat)) :
    s.readFault p k spans = none ↔
      (∀ z ∈ spans, s.inRange p k z.1 z.2 = true) ∧ ∀ z ∈ spans, (s.core p).spBad z.1 z.2 = false := by
  unfold State.readFault
  by_cases hr : spans.all (fun z => s.inRange p k z.1 z.2) = true
  · rw [if_pos hr]
    have hr' := List.all_eq_true.mp hr
    cases hb : spans.any fun z => (s.core p).spBad z.1 z.2
    · simp only [Bool.false_eq_true, if_false, true_iff]
      exact ⟨hr', fun z hz => by simpa using List.any_eq_false.mp hb z hz⟩
    · obtain ⟨z, hz, hbad⟩ := List.any_eq_true.mp hb
      refine ⟨fun g => by simp at g, fun g => ?_⟩
      rw [g.2 z hz] at hbad; cases hbad
  · rw [if_neg hr]
    exact ⟨fun g => (nomatch g), fun g => absurd (List.all_eq_true.mpr g.1) hr⟩

/-- A read that may go ahead before the fetch may after it. -/
theorem State.readFault_fetched {s : State} {p k a n : Nat} {spans : List (Nat × Nat)} (h : s.readFault p k spans = none) :
    (s.spCorrect p a n).readFault p k spans = none := by
  rw [State.readFault_none_iff] at h ⊢
  exact ⟨fun z hz => (State.spCorrect_inRange ..).trans (h.1 z hz),
    fun z hz => any_false_of_subset (State.spCorrect_marks s p a n) (h.2 z hz)⟩

theorem State.writeFault_none_iff (s : State) (p k : Nat) (spans : List (Nat × Nat)) :
    s.writeFault p k spans = none ↔ (∀ z ∈ spans, s.inRange p k z.1 z.2 = true) ∧
      (∀ z ∈ spans, (s.core p).guarded k z.1 z.2 = false) ∧ ∀ z ∈ spans, (s.core p).partialBad z.1 z.2 = false := by
  unfold State.writeFault
  by_cases hr : spans.all (fun z => s.inRange p k z.1 z.2) = true
  · rw [if_pos hr]
    have hr' := List.all_eq_true.mp hr
    cases hg : spans.any fun z => (s.core p).guarded k z.1 z.2
    · have hg' : ∀ z ∈ spans, (s.core p).guarded k z.1 z.2 = false := fun z hz => by simpa using List.any_eq_false.mp hg z hz
      cases hb : spans.any fun z => (s.core p).partialBad z.1 z.2
      · simp only [Bool.false_eq_true, if_false, true_iff]
        exact ⟨hr', hg', fun z hz => by simpa using List.any_eq_false.mp hb z hz⟩
      · obtain ⟨z, hz, hbad⟩ := List.any_eq_true.mp hb
        refine ⟨fun g => by simp at g, fun g => ?_⟩
        rw [g.2.2 z hz] at hbad; cases hbad
    · obtain ⟨z, hz, hbad⟩ := List.any_eq_true.mp hg
      refine ⟨fun g => by simp at g, fun g => ?_⟩
      rw [g.2.1 z hz] at hbad; cases hbad
  · rw [if_neg hr]
    exact ⟨fun g => (nomatch g), fun g => absurd (List.all_eq_true.mpr g.1) hr⟩

theorem State.spCorrect_guarded (s : State) (p a n k b m : Nat) :
    ((s.spCorrect p a n).core p).guarded k b m = (s.core p).guarded k b m := by
  rw [State.spCorrect_core]; rfl

/-- A write that may go ahead before the fetch may after it. -/
theorem State.writeFault_fetched {s : State} {p k a n : Nat} {spans : List (Nat × Nat)} (h : s.writeFault p k spans = none) :
    (s.spCorrect p a n).writeFault p k spans = none := by
  rw [State.writeFault_none_iff] at h ⊢
  exact ⟨fun z hz => (State.spCorrect_inRange ..).trans (h.1 z hz), fun z hz => (State.spCorrect_guarded ..).trans (h.2.1 z hz),
    fun z hz => any_false_of_subset (State.spCorrect_marks s p a n) (h.2.2 z hz)⟩

/-! ## LD and ST -/

theorem exec_ld (p i : Nat) (s : State) : exec (.ld p i) s = execLd p i s := rfl
theorem exec_st (p i : Nat) (s : State) : exec (.st p i) s = execSt p i s := rfl

theorem ldForm_thread {x : Iss} (h : ldForm x = true) : x.i < 16 := by
  simp only [ldForm, Iss.isThread, Bool.and_eq_true, decide_eq_true_eq] at h; exact h.1.1
theorem stForm_thread {x : Iss} (h : stForm x = true) : x.i < 16 := by
  simp only [stForm, Iss.isThread, Bool.and_eq_true, decide_eq_true_eq] at h; exact h.1.1

/-- What a legal LD that may read answers: the load is under way with the bytes that it read (R121, R137). -/
theorem ld_answers {s : State} {x : Iss} (h : s.Issues x.p x.i 0 0x18 x) (hl : ldForm x = true)
    (hr : s.readFault x.p x.k [(addrOf s x, sizeOfAccess x)] = none) :
    let raw := (s.core x.p).sp.readLE (addrOf s x) (sizeOfAccess x)
    let v := if x.f 34 34 = 1 then unsignedOf 64 (signed (8 * sizeOfAccess x) raw) else raw
    exec (.ld x.p x.i) s = .next (s.keep
      (((s.correctSpans x.p [(x.pc, 8), (addrOf s x, sizeOfAccess x)]).addLoad x ⟨.scalar x.rd, v, 0⟩).advance x)) := by
  refine ((exec_ld ..).trans (instr_legal h hl)).trans ?_
  have haddr : (s.spCorrect x.p x.pc 8).effAddr x = addrOf s x := by rw [State.effAddr, State.spCorrect_a]; rfl
  have hfault : (s.spCorrect x.p x.pc 8).readFault x.p x.k [(addrOf s x, x.size)] = none := State.readFault_fetched hr
  simp only [haddr, hfault, State.spCorrect_sp]
  rfl

theorem State.Touches.addLoad (s : State) (x : Iss) (l : Load) (rs : List Reg) : s.Touches (s.addLoad x l) x.p rs := by
  unfold State.addLoad; split <;> exact .modCore ..

/-- LD reads its bytes at issue (R121, R123, R137). -/
theorem ld_reads {s : State} {p i : Nat} {x : Iss} (h : s.Issues p i 0 0x18 x) (hl : ldForm x = true)
    (hr : s.readFault p x.k [(addrOf s x, sizeOfAccess x)] = none) :
    ∃ t, exec (.ld p i) s = .next t ∧ s.CoreFrame t p [(x.pc, 8), (addrOf s x, sizeOfAccess x)] [] ∧
      (s.core p).ThreadFrame (t.core p) i ∧
      (t.core p).thread i = { (s.core p).thread i with
        pc := x.pc + 8
        loads := ((s.core p).thread i).loads ++ [⟨.scalar x.rd,
          let raw := (s.core p).sp.readLE (addrOf s x) (sizeOfAccess x)
          if x.f 34 34 = 1 then unsignedOf 64 (signed (8 * sizeOfAccess x) raw) else raw, 0⟩] } := by
  obtain ⟨rfl, rfl⟩ := State.iss_pi h.next
  have hi := ldForm_thread hl
  refine ⟨_, ld_answers h hl hr, ((State.Touches.addLoad ..).trans (.setPc ..)).coreFrame_spans, ⟨?_, fun j hj => ?_⟩, ?_⟩
  · simp only [State.core_keep, State.advance_thread hi, State.addLoad, if_pos hi, State.core_modThread, if_pos]
    rw [State.correctSpans_core]; rfl
  · simp [State.advance_thread hi, State.addLoad, hi, hj]
  · simp [State.advance_thread hi, State.addLoad, hi]

/-- What a legal ST that may write answers: the bytes stand in the scratchpad (R123, R137). -/
theorem st_answers {s : State} {x : Iss} (h : s.Issues x.p x.i 0 0x19 x) (hl : stForm x = true)
    (hw : s.writeFault x.p x.k [(addrOf s x, sizeOfAccess x)] = none) :
    exec (.st x.p x.i) s = .next (s.keep
      (((s.spCorrect x.p x.pc 8).modCore x.p fun c =>
        c.spWrite (addrOf s x) (leBytes (sizeOfAccess x) (s.sval x x.rd).toNat)).advance x)) := by
  refine ((exec_st ..).trans (instr_legal h hl)).trans ?_
  have haddr : (s.spCorrect x.p x.pc 8).effAddr x = addrOf s x := by rw [State.effAddr, State.spCorrect_a]; rfl
  have hfault : (s.spCorrect x.p x.pc 8).writeFault x.p x.k [(addrOf s x, x.size)] = none := State.writeFault_fetched hw
  simp only [haddr, hfault, State.spCorrect_sval]
  rfl

/-- ST writes the low bytes of rd and no other byte (R123, R137). -/
theorem st_writes {s : State} {p i : Nat} {x : Iss} (h : s.Issues p i 0 0x19 x) (hl : stForm x = true)
    (hw : s.writeFault p x.k [(addrOf s x, sizeOfAccess x)] = none) :
    ∃ t, exec (.st p i) s = .next t ∧ s.CoreFrame t p [(x.pc, 8)] [] ∧
      t.core p = { s.core p with sp := (t.core p).sp, threads := (t.core p).threads, spCheck := (t.core p).spCheck } ∧
      (∀ j, j ≠ i → (t.core p).thread j = (s.core p).thread j) ∧
      (t.core p).thread i = { (s.core p).thread i with pc := x.pc + 8 } ∧
      (∀ a, (a < addrOf s x ∨ addrOf s x + sizeOfAccess x ≤ a) → t.spByte p a = s.spByte p a) ∧
      (t.core p).sp.readLE (addrOf s x) (sizeOfAccess x) = (s.sval x x.rd).toNat % 256 ^ sizeOfAccess x := by
  obtain ⟨rfl, rfl⟩ := State.iss_pi h.next
  have hi := stForm_thread hl
  have hthread (c : Core) (a j : Nat) (bs : List Byte) : (c.spWrite a bs).thread j = c.thread j := rfl
  have hsp (c : Core) (a : Nat) (bs : List Byte) : (c.spWrite a bs).sp = c.sp.write a bs := rfl
  have hset (c : Core) (j : Nat) (y : Thread) : (c.setThread j y).sp = c.sp := rfl
  refine ⟨_, st_answers h hl hw, ((State.Touches.modCore ..).trans (.setPc ..)).coreFrame, ?_, fun j hj => ?_, ?_, fun a ha => ?_, ?_⟩
  · simp only [State.core_keep, State.advance_thread hi, State.core_modThread, State.core_modCore, if_pos]
    rw [State.spCorrect_core]; rfl
  · simp [State.advance_thread hi, hj, hthread]
  · simp [State.advance_thread hi, hthread]
  · simp only [State.spByte, State.core_keep, State.advance_thread hi, State.core_modThread, State.core_modCore, if_pos, hset, hsp,
      State.spCorrect_sp]
    exact Memory.byte_write_outside _ _ _ _ (by rwa [leBytes_length])
  · simp only [State.core_keep, State.advance_thread hi, State.core_modThread, State.core_modCore, if_pos, hset, hsp, State.spCorrect_sp]
    exact Memory.readLE_writeLE ..

/-! ## The data of a load returns (R121, R122) -/

theorem exec_loadDataReturn (p i n : Nat) (s : State) : exec (.loadDataReturn p i n) s = execLoadDataReturn p i n s := rfl

/-- A scalar load writes its register. -/
theorem loadDataReturn_scalar {s : State} {p i n : Nat} {l : Load} {rd : Nat} (hs : s.clocksStopped = false) (hp : p < 208) (hi : i < 16)
    (hn : ((s.core p).thread i).loads[n]? = some l) (hd : l.dest = .scalar rd) :
    exec (.loadDataReturn p i n) s = .next (s.keep (s.setCore p ((s.core p).setThread i
      ({ (s.core p).thread i with loads := ((s.core p).thread i).loads.eraseIdx n }.setReg rd (BitVec.ofNat 64 l.data))))) := by
  rw [exec_loadDataReturn, execLoadDataReturn, if_pos hi]
  simp only [hn, hd]
  exact State.when_of hs (decide_eq_true hp)

/-- The lanes that a vector load writes into a bank. -/
def VBank.loaded (b : VBank) (d : Nat) (l : Load) : VBank :=
  b.setReg d (ofLanes fun j => if l.lanes.getLsbD j then laneOf (BitVec.ofNat 2048 l.data) j else laneOf (b.reg d) j)

/-- A vector load of a thread writes the bank of its side. -/
theorem loadDataReturn_side {s : State} {p i n : Nat} {l : Load} {d : Nat} (hs : s.clocksStopped = false) (hp : p < 208) (hi : i < 16)
    (hn : ((s.core p).thread i).loads[n]? = some l) (hd : l.dest = .vector d) :
    exec (.loadDataReturn p i n) s = .next (s.keep (s.setCore p
      (((s.core p).setThread i { (s.core p).thread i with loads := ((s.core p).thread i).loads.eraseIdx n }).setSide (threadSide i)
        { (s.core p).side (threadSide i) with bank := ((s.core p).side (threadSide i)).bank.loaded d l }))) := by
  rw [exec_loadDataReturn, execLoadDataReturn, if_pos hi]
  simp only [hn, hd]
  exact State.when_of hs (decide_eq_true hp)

/-- A vector load of a plait writes its own bank. -/
theorem loadDataReturn_plait {s : State} {p i n : Nat} {l : Load} {d : Nat} (hs : s.clocksStopped = false) (hp : p < 208) (hi : 16 ≤ i)
    (hn : ((s.core p).plait (i - 16)).loads[n]? = some l) (hd : l.dest = .vector d) :
    exec (.loadDataReturn p i n) s = .next (s.keep (s.setCore p ((s.core p).setPlait (i - 16)
      { (s.core p).plait (i - 16) with
        loads := ((s.core p).plait (i - 16)).loads.eraseIdx n
        bank := ((s.core p).plait (i - 16)).bank.loaded d l }))) := by
  rw [exec_loadDataReturn, execLoadDataReturn, if_neg (Nat.not_lt.mpr hi)]
  simp only [hn, hd]
  exact State.when_of hs (decide_eq_true hp)

theorem Core.thread_setSide (c : Core) (k j : Nat) (y : Side) : (c.setSide k y).thread j = c.thread j := by
  unfold Core.thread; rw [Core.setSide_threads]

/-- Settles O4: LD and ST by what they answer, and the three ways in which a load returns. -/
theorem scalarLoadsReadAndStoresWrite : Obligations.ScalarLoadsReadAndStoresWrite := by
  refine ⟨⟨fun s p i x h hl hr => ld_reads h hl hr, fun s p i x h hl hw => st_writes h hl hw⟩,
    fun s p i n l rd hs hp hi hn hd => ⟨_, loadDataReturn_scalar hs hp hi hn hd, rfl, fun q hq => by simp [hq], ?_, fun j hj => by simp [hj], ?_⟩,
    fun s p i n l d hs hp hi hn hd => ⟨_, loadDataReturn_side hs hp hi hn hd, rfl, fun q hq => by simp [hq], fun j => ?_, fun k hk => ?_,
      fun k r hk hkr => ?_, ?_⟩,
    fun s p i n l d hs hp hi hn hd => ⟨_, loadDataReturn_plait hs hp hi hn hd, rfl, fun q hq => by simp [hq], ?_, fun j hj => by simp [hj],
      fun r hr => ?_, ?_, ?_⟩⟩
  case refine_1 => simp [Core.setThread]
  case refine_2 =>
    simp only [State.core_keep, State.core_setCore, if_pos, Core.thread_setThread]
    refine ⟨?_, by simp, fun m => Thread.reg_setReg ..⟩
    rw [Thread.setReg_rest]
  case refine_3 =>
    simp only [State.core_keep, State.core_setCore, if_pos, Core.thread_setSide, Core.thread_setThread]
  case refine_4 =>
    simp only [State.core_keep, State.core_setCore, if_pos]
    by_cases e : k = threadSide i
    · subst e; rw [Core.side_setSide]
    · rw [Core.side_setSide_other _ _ (threadSide_lt i) hk e]; rfl
  case refine_5 =>
    simp only [State.core_keep, State.core_setCore, if_pos]
    by_cases e : k = threadSide i
    · subst e; rw [Core.side_setSide, VBank.loaded, VBank.reg_setReg, if_neg (hkr.resolve_left fun g => g rfl)]
    · rw [Core.side_setSide_other _ _ (threadSide_lt i) hk e]; rfl
  case refine_6 => simp [VBank.loaded]
  case refine_7 => simp [Core.setPlait]
  case refine_8 => simp [VBank.loaded, hr]
  case refine_9 => simp
  case refine_10 => simp [VBank.loaded]

end Sys2Proof.Machine

namespace Sys2Proof.Machine

/-! # Threads (R134, R136) -/

theorem exec_fork (p i : Nat) (s : State) : exec (.fork p i) s = execFork p i s := rfl
theorem exec_halt (p i : Nat) (s : State) : exec (.halt p i) s = execHalt p i s := rfl
theorem exec_waite (p i : Nat) (s : State) : exec (.waite p i) s = execWaite p i s := rfl
theorem exec_waiteReturn (p t : Nat) (s : State) : exec (.waiteReturn p t) s = execWaiteReturn p t s := rfl

/-- A thread that issues is running. -/
theorem State.iss_running {s : State} {p i : Nat} {x : Iss} (h : s.iss p i = some x) (hi : i < 16) : ((s.core p).thread i).running = true := by
  unfold State.iss at h
  dsimp only at h
  split at h
  · cases h
  · rename_i hw
    unfold Core.where_ at hw
    rw [if_pos hi] at hw
    dsimp only at hw
    split at hw
    · assumption
    · cases hw

theorem groupOf_eq (i : Nat) : groupOf i = if i < 12 then List.range 12 else [12, 13, 14, 15] := rfl

/-- The thread that a FORK starts: it takes the forker's registers, rd included, its context and its command (R134). -/
def State.forked (s : State) (x : Iss) (n : Nat) : Thread :=
  let me := ((s.core x.p).thread x.i).setReg x.rd (BitVec.ofNat 64 n)
  { Thread.idle with
    running := true, pc := branchTo x, s := me.s, ctx := me.ctx, cmd := me.cmd, loads := ((s.core x.p).thread n).leftover }

/-- What a legal FORK answers where thread n is the lowest free one. -/
theorem fork_answers {s : State} {x : Iss} {n : Nat} (h : s.Issues x.p x.i 0 0x30 x) (hl : legalI0 s x = true)
    (hr : ((s.core x.p).thread x.i).region = none)
    (hn : (groupOf x.i).find? (fun t => !((s.core x.p).thread t).running) = some n) :
    exec (.fork x.p x.i) s = .next (s.keep (((s.spCorrect x.p x.pc 8).modCore x.p fun c =>
      (c.setThread x.i ((c.thread x.i).setReg x.rd (BitVec.ofNat 64 n))).setThread n (s.forked x n)).advance x)) := by
  refine ((exec_fork ..).trans (instr_legal h (by simp [hl, hr]))).trans ?_
  simp only [State.modCore, State.spCorrect_thread, hn]
  rfl

/-- FORK starts the lowest free thread with the forker's registers (R134). -/
theorem fork_starts_thread {s : State} {p i n : Nat} {x : Iss} (h : s.Issues p i 0 0x30 x) (hl : legalI0 s x = true)
    (hr : ((s.core p).thread i).region = none)
    (hn : (groupOf i).find? (fun t => !((s.core p).thread t).running) = some n) :
    ∃ t, exec (.fork p i) s = .next t ∧ s.CoreFrame t p [(x.pc, 8)] [] ∧
      (∀ j, j ≠ i → j ≠ n → (t.core p).thread j = (s.core p).thread j) ∧
      (∀ m, ((t.core p).thread i).reg m = if m = x.rd ∧ m ≠ 0 then BitVec.ofNat 64 n else ((s.core p).thread i).reg m) ∧
      ((t.core p).thread i).pc = x.pc + 8 ∧ ((t.core p).thread n).running = true ∧ ((t.core p).thread n).pc = branchTo x ∧
      ((t.core p).thread n).ctx = ((s.core p).thread i).ctx ∧ ((t.core p).thread n).cmd = ((s.core p).thread i).cmd ∧
      (∀ m, ((t.core p).thread n).reg m = ((t.core p).thread i).reg m) := by
  obtain ⟨rfl, rfl⟩ := State.iss_pi h.next
  have hi := legalI0_thread hl
  have hfree : ((s.core x.p).thread n).running = false := by simpa using List.find?_some hn
  have hne : n ≠ x.i := fun e => by rw [e, State.iss_running h.next hi] at hfree; cases hfree
  refine ⟨_, fork_answers h hl hr hn, ((State.Touches.modCore ..).trans (.setPc ..)).coreFrame, ?_⟩
  rw [State.core_keep, State.advance_thread hi]
  simp only [State.core_modThread, State.core_modCore, if_pos, Core.thread_setThread, State.spCorrect_thread, if_neg hne, if_neg hne.symm]
  refine ⟨fun j hji hjn => by simp [hji, hjn], fun m => ?_, trivial, rfl, rfl, ?_, ?_, fun m => rfl⟩
  case refine_2 => rw [State.forked, Thread.setReg_rest]
  case refine_3 => rw [State.forked, Thread.setReg_rest]
  exact (Thread.reg_setReg ..).trans (ite_of_iff (by constructor <;> rintro ⟨rfl, hm⟩ <;> exact ⟨rfl, hm⟩) ..)

/-- FORK with no free thread writes -1 (R134). -/
theorem fork_without_free_thread {s : State} {p i : Nat} {x : Iss} (h : s.Issues p i 0 0x30 x) (hl : legalI0 s x = true)
    (hr : ((s.core p).thread i).region = none) (hn : (groupOf i).find? (fun t => !((s.core p).thread t).running) = none) :
    ∃ t, exec (.fork p i) s = .next t ∧ s.CoreFrame t p [(x.pc, 8)] [] ∧ (s.core p).ThreadFrame (t.core p) i ∧
      (∀ m, ((t.core p).thread i).reg m = if m = x.rd ∧ m ≠ 0 then BitVec.ofInt 64 (-1) else ((s.core p).thread i).reg m) := by
  obtain ⟨rfl, rfl⟩ := State.iss_pi h.next
  have hi := legalI0_thread hl
  have hans : exec (.fork x.p x.i) s = .next (s.keep ((s.spCorrect x.p x.pc 8).result x (BitVec.ofInt 64 (-1)))) := by
    refine ((exec_fork ..).trans (instr_legal h (by simp [hl, hr]))).trans ?_
    simp only [State.spCorrect_thread, hn]
  obtain ⟨hframe, hme⟩ := s.thread_advance hi fun t => t.setReg x.rd (BitVec.ofInt 64 (-1))
  refine ⟨_, hans, ((State.Touches.wrS ..).trans (.setPc ..)).coreFrame, ?_⟩
  rw [State.core_keep, State.result, State.wrS_thread hi, hme]
  exact ⟨hframe, fun n => (Thread.reg_setReg ..).trans (ite_of_iff (by constructor <;> rintro ⟨rfl, hn⟩ <;> exact ⟨rfl, hn⟩) ..)⟩

/-- WAITE holds its thread (R136). -/
theorem waite_holds {s : State} {p i : Nat} {x : Iss} (h : s.Issues p i 0 0x32 x) (hl : legalI0 s x = true) (hrd : x.rd = 0)
    (h7 : x.f 7 2 = 0) (h31 : x.f 31 13 = 0) (hq : x.f 1 0 ≠ 3) (hn : x.f 12 8 ≤ 16) :
    ∃ t, exec (.waite p i) s = .next t ∧ s.CoreFrame t p [(x.pc, 8)] [] ∧ (s.core p).ThreadFrame (t.core p) i ∧
      (t.core p).thread i = { (s.core p).thread i with pc := x.pc + 8, wait := some ⟨x.f 1 0, x.f 12 8⟩ } := by
  obtain ⟨rfl, rfl⟩ := State.iss_pi h.next
  obtain ⟨hframe, hme⟩ := s.thread_advance (legalI0_thread hl) fun t => { t with wait := some ⟨x.f 1 0, x.f 12 8⟩ }
  exact ⟨_, (exec_waite ..).trans (instr_legal h (by simp [hl, hrd, h7, h31, hq, hn])),
    ((State.Touches.modCore ..).trans (.setPc ..)).coreFrame, hframe, hme⟩

/-- A waiting thread with few enough entries goes on (R136). -/
theorem waiteReturn_ends_wait {s : State} {p i : Nat} {w : Waite} (hs : s.clocksStopped = false) (hp : p < 208) (hi : i < 16)
    (hr : ((s.core p).thread i).running = true) (hw : ((s.core p).thread i).wait = some w) (hn : (s.core p).ownEntries i w.q ≤ w.n) :
    exec (.waiteReturn p i) s = .next (s.keep (s.modThread p i fun x => { x with wait := none })) :=
  (exec_waiteReturn ..).trans (State.when_of hs (by simp [hp, hi, hr, hw, hn]))

/-- Settles O5: FORK by the free threads of its group, HALT as its row says, and WAITE with its return. -/
theorem threadsForkHaltAndWait : Obligations.ThreadsForkHaltAndWait := by
  refine ⟨fun s p i n x h hl hr hn => fork_starts_thread h hl hr hn, fun s p i x h hl hr hn => fork_without_free_thread h hl hr hn,
    fun s p i x h hl hr => ?_, fun s p i x h hl h0 h7 h31 hq hn => waite_holds h hl h0 h7 h31 hq hn,
    fun s p i w hs hp hi hr hw hn => ⟨_, waiteReturn_ends_wait hs hp hi hr hw hn, rfl, fun q hq => by simp [hq], ?_,
      fun j hj => by simp [hj], by simp⟩⟩
  · obtain ⟨rfl, rfl⟩ := State.iss_pi h.next
    exact (exec_halt ..).trans (instr_legal h (by simp [hl, hr]))
  · simp [Core.setThread]

/-! # Illegal words and what a fault of the VE or SU records (R150, R151, R160, R182, R183) -/

theorem exec_illegalInstruction (p i : Nat) (s : State) : exec (.illegalInstruction p i) s = execIllegalInstruction p i s := rfl
theorem exec_instructionFetchFault (p i : Nat) (s : State) :
    exec (.instructionFetchFault p i) s = execInstructionFetchFault p i s := rfl

/-- An illegal word faults once its issuer owes no load, and waits till then (R183). -/
theorem State.illegal_fetched (s : State) {x : Iss} :
    (s.spCorrect x.p x.pc 8).illegal x = if s.owed x = [] then (s.spCorrect x.p x.pc 8).veFault x.p 3 x.ctx (issuerOf x.i)
      else s.spCorrect x.p x.pc 8 := by
  simp only [State.illegal, State.spCorrect_owed, List.isEmpty_iff]

/-- A word of a reserved class or opcode, or one that its issuer may not issue. -/
theorem illegalInstruction_answers {s : State} {p i : Nat} {x : Iss} (h : s.Issues p i (x.f 62 60) (x.f 59 54) x) (hp : p < 208)
    (hbad : opcodeNamed (x.f 62 60) (x.f 59 54) = false ∨ issuerMay (decide (i < 16)) (x.f 62 60) (x.f 59 54) = false) :
    exec (.illegalInstruction p i) s = .next (s.keep ((s.spCorrect p x.pc 8).illegal x)) := by
  obtain ⟨rfl, rfl⟩ := State.iss_pi h.next
  rw [exec_illegalInstruction, execIllegalInstruction, h.next]
  refine (State.when_of h.clocks ?_).trans (by rw [if_pos h.ready])
  simp only [hp, h.fetch, h.whole, Iss.isThread, decide_true, Bool.not_false, Bool.true_and, Bool.or_eq_true, Bool.not_eq_true']
  exact hbad

/-- A word of another form than its row allows. -/
theorem instr_illegal_form {p i cls op : Nat} {legal : State → Iss → Bool} {eff : State → Iss → State} {s : State} {x : Iss}
    (h : s.Issues p i cls op x) (l : legal s x = false) :
    instr p i cls op legal eff s = .next (s.keep ((s.spCorrect p x.pc 8).illegal x)) := by
  rw [instr_issues h, l, if_neg Bool.false_ne_true]

theorem instructionFetchFault_answers {s : State} {p i : Nat} {x : Iss} (hs : s.clocksStopped = false) (h : s.iss p i = some x)
    (hf : s.fetchOk x = false) :
    exec (.instructionFetchFault p i) s = .next (s.keep (s.veFault p 1 x.ctx (issuerOf i))) := by
  rw [exec_instructionFetchFault, execInstructionFetchFault, h]
  exact State.when_of hs (by simp [hf])

/-- The word of CORE_VE_FAULT after a fault of thread n (R150, R151). -/
def veFaultWord (w : BitVec 64) (cause code n : Nat) : BitVec 64 :=
  if CORE_VE_FAULT.VALID.get w = 1 then CORE_VE_FAULT.OVR.set w 1
  else CORE_VE_FAULT.ID.set (CORE_VE_FAULT.SRC.set (CORE_VE_FAULT.CTX.set (CORE_VE_FAULT.CAUSE.set
    (CORE_VE_FAULT.VALID.set w 1) cause) code) 0) n

theorem State.recordVe_reg (s : State) (p cause n : Nat) (ctx : Ctx) :
    (s.recordVe p cause ctx (.thread n)).reg (.coreVeFault p) = veFaultWord (s.reg (.coreVeFault p)) cause ctx.code n := by
  unfold State.recordVe veFaultWord
  rw [State.reg_event _ _ _ _ _ _ _ (by nofun)]
  by_cases h : s.getF (.coreVeFault p) CORE_VE_FAULT.VALID = 1
  · have h' : CORE_VE_FAULT.VALID.get (s.reg (.coreVeFault p)) = 1 := h
    rw [if_pos h, if_pos h', State.reg_setF_self]
  · have h' : ¬ CORE_VE_FAULT.VALID.get (s.reg (.coreVeFault p)) = 1 := h
    rw [if_neg h, if_neg h']
    simp only [State.reg_setF_self]

theorem State.recordVe_reg_other (s : State) (p cause n : Nat) (ctx : Ctx) {q : Reg} (hq : q ≠ .coreVeFault p) (hl : q ≠ .gctlElogLost) :
    (s.recordVe p cause ctx (.thread n)).reg q = s.reg q := by
  unfold State.recordVe
  rw [State.reg_event _ _ _ _ _ _ _ hl]
  dsimp only
  split
  · exact State.reg_setF_other _ _ _ hq
  · simp only [State.reg_setF_other _ _ _ hq]

theorem Ctx.code_lt (c : Ctx) : c.code < 256 := by
  cases c <;> simp only [Ctx.code] <;> omega

/-- A first fault is recorded whole, and OVR stays (R150). -/
theorem veFaultWord_first {w : BitVec 64} {cause code n : Nat} (hw : CORE_VE_FAULT.VALID.get w = 0) (hc : cause < 16) (hcode : code < 256)
    (hn : n < 16) :
    let v := veFaultWord w cause code n
    CORE_VE_FAULT.VALID.get v = 1 ∧ CORE_VE_FAULT.CAUSE.get v = cause ∧ CORE_VE_FAULT.CTX.get v = code ∧ CORE_VE_FAULT.SRC.get v = 0 ∧
      CORE_VE_FAULT.ID.get v = n ∧ CORE_VE_FAULT.OVR.get v = CORE_VE_FAULT.OVR.get w := by
  simp only [veFaultWord, hw, Nat.zero_ne_one, if_false]
  simp (disch := decide) only [Fld.get_set_other, Fld.get_set]
  exact ⟨rfl, Nat.mod_eq_of_lt hc, Nat.mod_eq_of_lt hcode, rfl, Nat.mod_eq_of_lt (Nat.lt_of_lt_of_le hn (by decide)), trivial⟩

/-- A further fault sets OVR alone (R150). -/
theorem veFaultWord_further {w : BitVec 64} (cause code n : Nat) (hw : CORE_VE_FAULT.VALID.get w = 1) :
    let v := veFaultWord w cause code n
    CORE_VE_FAULT.OVR.get v = 1 ∧ CORE_VE_FAULT.VALID.get v = 1 ∧ CORE_VE_FAULT.CAUSE.get v = CORE_VE_FAULT.CAUSE.get w ∧
      CORE_VE_FAULT.CTX.get v = CORE_VE_FAULT.CTX.get w := by
  simp only [veFaultWord, hw, if_true]
  simp (disch := decide) only [Fld.get_set_other, Fld.get_set, hw]
  decide

theorem exec_integer_illegal {s : State} {p i op : Nat} {x : Iss} {v : State → Iss → Word} (h : s.Issues p i 0 op x)
    (hl : legalR s x = false) :
    instr p i 0 op legalR (fun s x => s.result x (v s x)) s = .next (s.keep (if s.owed x = [] then
      (s.spCorrect p x.pc 8).veFault p 3 x.ctx (issuerOf i) else s.spCorrect p x.pc 8)) := by
  obtain ⟨rfl, rfl⟩ := State.iss_pi h.next
  rw [instr_illegal_form h hl, State.illegal_fetched]

/-- Settles O7: illegal words by what they answer, and the fault register field by field. -/
theorem illegalWordsFaultAndAreRecorded : Obligations.IllegalWordsFaultAndAreRecorded := by
  refine ⟨⟨fun s p i x h hp hbad => ?_, fun s p i x hl => ⟨fun h => ?_, fun h => ?_, fun h => ?_⟩,
    fun s p i x hs h hf => instructionFetchFault_answers hs h hf⟩, fun s p cause n ctx hc hn => ?_⟩
  · obtain ⟨rfl, rfl⟩ := State.iss_pi h.next
    rw [illegalInstruction_answers h hp hbad, State.illegal_fetched]
  · exact (exec_add ..).trans (exec_integer_illegal h hl)
  · exact (exec_sub ..).trans (exec_integer_illegal h hl)
  · exact (exec_mul ..).trans (exec_integer_illegal h hl)
  · have hword := s.recordVe_reg p cause n ctx
    simp only [State.getF, hword]
    exact ⟨fun h => veFaultWord_first h hc ctx.code_lt hn, fun h => veFaultWord_further _ _ _ h,
      fun q hq hl => s.recordVe_reg_other p cause n ctx hq hl⟩

end Sys2Proof.Machine

namespace Sys2Proof.Machine

/-! # What only the log and its count of lost records show -/

/-- t is s with records queued: the log's waiting records and the count of lost ones may differ, nothing else. -/
structure State.Logged (s t : State) : Prop where
  rest : t = { s with regs := t.regs, log := t.log }
  regs : ∀ r, r ≠ .gctlElogLost → t.reg r = s.reg r
  seq : t.log.nextSeq = s.log.nextSeq
  ring : t.log.ring = s.log.ring

theorem State.Logged.refl (s : State) : s.Logged s := ⟨rfl, fun _ _ => rfl, rfl, rfl⟩

theorem State.logged_event (s : State) (src sev cls l n d : Nat) : s.Logged (s.event src sev cls l n d) := by
  refine ⟨(s.event_frame ..).1, (s.event_frame ..).2, ?_, ?_⟩ <;> unfold State.event State.emitRec <;> split <;> rfl

theorem State.logged_note (s : State) (src sev cls d : Nat) : s.Logged (s.note src sev cls d) := s.logged_event ..

theorem State.Logged.trans {s t u : State} (h : s.Logged t) (g : t.Logged u) : s.Logged u :=
  ⟨g.rest.trans (by rw [h.rest]), fun r hr => (g.regs r hr).trans (h.regs r hr), g.seq.trans h.seq, g.ring.trans h.ring⟩

/-- A record that is queued on a condition. -/
theorem State.logged_if (s t : State) (c : Prop) [Decidable c] (h : s.Logged t) : s.Logged (if c then t else s) := by
  split
  · exact h
  · exact .refl s

theorem State.Logged.core {s t : State} (h : s.Logged t) (p : Nat) : t.core p = s.core p := State.core_congr (by rw [h.rest]) p

theorem State.Logged.getF {s t : State} (h : s.Logged t) {r : Reg} (f : Fld) (hr : r ≠ .gctlElogLost) : t.getF r f = s.getF r f := by
  unfold State.getF; rw [h.regs r hr]

/-! # The TAP (R547) -/

/-- Settles O52: each TAP instruction is its own row of the model, in and outside boundary-scan mode. -/
theorem tapReachesNoDeviceState : Obligations.TapReachesNoDeviceState := by
  refine ⟨fun s => ⟨rfl, rfl⟩, fun s bits hs hb => ⟨?_, ?_, ?_, ?_⟩, fun s bits hs hb => ⟨?_, ?_, ?_, ?_⟩⟩
  · exact (State.when_true s _ hs).trans (by rw [if_pos hb]; rfl)
  · exact (State.when_true s _ hs).trans (by rw [State.drive, if_pos hb]; rfl)
  · exact (State.when_true s _ hs).trans (by rw [State.drive, if_pos hb]; rfl)
  · exact (State.when_true s _ hs).trans (by rw [State.drive, if_pos hb]; rfl)
  all_goals
    refine (State.when_true s _ hs).trans ?_
    simp [State.drive, hb, State.keep_self]

/-! # Sensors and the regulator (R232, R531, R533, R534, R538) -/

theorem exec_sensorSample (u k temp : Nat) (s : State) : exec (.sensorSample u k temp) s = execSensorSample u k temp s := rfl
theorem exec_avsTimeout (s : State) : exec .avsTimeout s = execAvsTimeout s := rfl
theorem exec_avsAnswer (s : State) : exec .avsAnswer s = execAvsAnswer s := rfl

/-- A key that reads true stands in the table. -/
theorem SMap.any_of_get {m : SMap Bool} {k : Nat} (h : SMap.get false m k = true) : (m.any fun x => x.2) = true := by
  induction m with
  | nil => cases h
  | cons x m ih =>
    rw [SMap.get] at h
    rw [List.any_cons, Bool.or_eq_true]
    split at h
    · exact .inl h
    · exact .inr (ih h)

/-- A critical sensor asserts the alert (R538). -/
theorem State.alertNow_of_crit {s : State} {k : Nat} (h : SMap.get false s.power.crit k = true) : s.alertNow.power.thermalert = true := by
  simp only [State.alertNow, SMap.any_of_get h, Bool.true_or]

theorem State.Logged.power {s t : State} (h : s.Logged t) : t.power = s.power := by rw [h.rest]

/-- The count of samples in a row at 105 degrees of one sensor, after a sample (R538). -/
def State.tripCount (s : State) (u k temp : Nat) : Nat := if 420 ≤ temp then SMap.get 0 s.power.trips (64 * u + k) + 1 else 0

/-- s with the count of hot samples taken down. -/
def State.counted (s : State) (u k temp : Nat) : State :=
  { s with power := { s.power with trips := SMap.put 0 s.power.trips (64 * u + k) (s.tripCount u k temp) } }

/-- The number of the sensors of one unit. -/
def sensorsOf (u : Nat) : Nat := if u < 8 then 32 else if u < 10 then 8 else if 16 ≤ u ∧ u < 28 then 17 else 0

/-- What the sample of one sensor does before any trip. -/
def State.sampled (s : State) (u k temp : Nat) : State :=
  if u < 10 then (s.counted u k temp).junction u k temp
  else if k < 16 then (s.counted u k temp).dramSample (u - 16) k temp else (s.counted u k temp).baseSample (u - 16) temp

/-- The die that a sample speaks of. -/
def sampleDie (u : Nat) : Nat := if u < 10 then u else stackDie (u - 16)

/-- A sample that does not trip leaves the clocks running. -/
theorem sensorSample_cold {s : State} {u k temp : Nat} (hs : s.clocksStopped = false) (hb : s.boot.started = true) (hk : k < sensorsOf u)
    (ht : temp < 1024) (hn : s.tripCount u k temp < 2) : exec (.sensorSample u k temp) s = .next (s.keep (s.sampled u k temp)) := by
  have hw : (s.when (s.boot.started && decide (k < sensorsOf u) && decide (temp < 1024))
      (if 2 ≤ s.tripCount u k temp then (s.sampled u k temp).trip (sampleDie u) else s.sampled u k temp)) =
      .next (s.keep (s.sampled u k temp)) := by
    rw [State.when_of hs (by simp [hb, hk, ht]), if_neg (Nat.not_le.2 hn)]
  refine (exec_sensorSample ..).trans ((congrArg (fun o : Out => match o with
    | .next t => Host.Outcome.next { t with clocksStopped := decide (2 ≤ s.tripCount u k temp) }
    | o => o) hw).trans ?_)
  simp only [decide_eq_false (Nat.not_le.2 hn), ← hs]
  rfl

/-- The second hot sample in a row trips (R538). -/
theorem sensorSample_trips {s : State} {u k temp : Nat} (hs : s.clocksStopped = false) (hb : s.boot.started = true) (hk : k < sensorsOf u)
    (ht : temp < 1024) (hn : 2 ≤ s.tripCount u k temp) :
    exec (.sensorSample u k temp) s =
      .next { s.keep ((s.sampled u k temp).trip (sampleDie u)) with clocksStopped := true } := by
  have hw : (s.when (s.boot.started && decide (k < sensorsOf u) && decide (temp < 1024))
      (if 2 ≤ s.tripCount u k temp then (s.sampled u k temp).trip (sampleDie u) else s.sampled u k temp)) =
      .next (s.keep ((s.sampled u k temp).trip (sampleDie u))) := by
    rw [State.when_of hs (by simp [hb, hk, ht]), if_pos hn]
  refine (exec_sensorSample ..).trans ((congrArg (fun o : Out => match o with
    | .next t => Host.Outcome.next { t with clocksStopped := decide (2 ≤ s.tripCount u k temp) }
    | o => o) hw).trans ?_)
  simp only [decide_eq_true hn]

/-- The sensors of a die as a junction sample leaves them. -/
def State.junctionPower (s : State) (d k temp : Nat) : PowerState :=
  { s.power with
    top := SMap.put 0 s.power.top d (max temp (SMap.get 0 s.power.top d))
    warm := SMap.put false s.power.warm (64 * d + k) (decide (4 * s.getF .gctlThermcfg GCTL_THERMCFG.WARN ≤ temp))
    crit := SMap.put false s.power.crit (64 * d + k) (decide (380 ≤ temp)) }

/-- A junction sample updates its sensors, may queue records, and sets the alert (R533, R534). -/
theorem State.junction_logged (s : State) (d k temp : Nat) :
    ∃ t, ({ s with power := s.junctionPower d k temp } : State).Logged t ∧ s.junction d k temp = t.alertNow := by
  unfold State.junction
  refine ⟨_, ?_, rfl⟩
  exact (State.logged_if _ _ _ (State.logged_note ..)).trans (State.logged_if _ _ _ (State.logged_note ..))

/-- A DRAM sample of the base die's sensors likewise. -/
theorem State.baseSample_logged (s : State) (m temp : Nat) :
    ({ s with power := { s.power with crit := SMap.put false s.power.crit (64 * (16 + m) + 16) (decide (380 ≤ temp)) } } : State).alertNow.Logged
      (s.baseSample m temp) := by
  unfold State.baseSample
  exact State.logged_if _ _ _ (State.logged_note ..)

theorem State.sampled_junction (s : State) {u : Nat} (k temp : Nat) (hu : u < 10) :
    s.sampled u k temp = (s.counted u k temp).junction u k temp := if_pos hu

theorem sensorsOf_junction {u : Nat} (hu : u < 10) : sensorsOf u = if u < 8 then 32 else 8 := by
  unfold sensorsOf; rw [if_pos hu]

/-- What a junction sample leaves (R533, R534). -/
theorem State.junction_sampled (s : State) {u : Nat} (k temp : Nat) (hu : u < 10) :
    ∃ t, s.sampled u k temp = t ∧ t = { s with power := t.power, log := t.log, regs := t.regs } ∧ (∀ r, r ≠ .gctlElogLost → t.reg r = s.reg r) ∧
      SMap.get 0 t.power.top u = max temp (SMap.get 0 s.power.top u) ∧
      SMap.get 0 t.power.trips (64 * u + k) = s.tripCount u k temp ∧ (380 ≤ temp → t.power.thermalert = true) ∧
      t.log.nextSeq = s.log.nextSeq ∧ t.log.ring = s.log.ring := by
  rw [State.sampled_junction s k temp hu]
  obtain ⟨t, ht, e⟩ := (s.counted u k temp).junction_logged u k temp
  have hp : t.alertNow.power = { (s.counted u k temp).junctionPower u k temp with thermalert := t.alertNow.power.thermalert } := by
    rw [State.alertNow, ht.power]
  refine ⟨_, e, ?_, ht.regs, ?_, ?_, fun hc => State.alertNow_of_crit (k := 64 * u + k) ?_, ht.seq, ht.ring⟩
  · rw [ht.rest]; rfl
  · rw [hp]; exact SMap.get_put_self ..
  · rw [hp]; exact SMap.get_put_self ..
  · rw [ht.power]; exact (SMap.get_put_self ..).trans (decide_eq_true hc)

/-- Some DRAM sensor of stack m is marked in the table. -/
def anyDram (l : SMap Bool) (m : Nat) : Bool := (List.range 16).any fun j => SMap.get false l (64 * (16 + m) + j)

/-- The sensors as a DRAM sample leaves them. -/
def State.dramPower (s : State) (m k temp : Nat) : PowerState :=
  { s.power with
    warm := SMap.put false s.power.warm (64 * (16 + m) + k) (decide (340 < temp))
    crit := SMap.put false s.power.crit (64 * (16 + m) + k) (decide (380 < temp)) }

/-- HOT and STACKHOT as a DRAM sample leaves them. -/
def State.dramFlags (s : State) (m k temp : Nat) : State :=
  let p := s.dramPower m k temp
  let die := (dieStacks (stackDie m)).any fun m => anyDram p.crit m
  { { s with power := p }.setF (.msStatus m) MS_STATUS.HOT (anyDram p.warm m).toNat with
    power := { p with dram := SMap.put false s.power.dram (stackDie m) die } }.setF (.gctlDietemp (stackDie m)) GCTL_DIETEMP.STACKHOT die.toNat

theorem State.dramSample_logged (s : State) (m k temp : Nat) : (s.dramFlags m k temp).alertNow.Logged (s.dramSample m k temp) := by
  unfold State.dramSample
  exact State.logged_if _ _ _ (State.logged_note ..)

theorem anyDram_of {l : SMap Bool} {m k : Nat} (hk : k < 16) (h : SMap.get false l (64 * (16 + m) + k) = true) : anyDram l m = true :=
  List.any_eq_true.2 ⟨k, List.mem_range.2 hk, h⟩

theorem mem_dieStacks {m : Nat} (hm : m < 12) : m ∈ dieStacks (stackDie m) := by
  have h : ∀ m ∈ List.range 12, m ∈ dieStacks (stackDie m) := by decide
  exact h m (List.mem_range.2 hm)

/-- HOT shows whether a DRAM sensor of the stack is above 85 degrees (R533). -/
theorem State.dramSample_hot (s : State) (m k temp : Nat) :
    (s.dramSample m k temp).getF (.msStatus m) MS_STATUS.HOT =
      (anyDram (SMap.put false s.power.warm (64 * (16 + m) + k) (decide (340 < temp))) m).toNat := by
  rw [(s.dramSample_logged m k temp).getF _ Reg.noConfusion]
  refine (State.getF_setF_other_reg _ _ _ _ Reg.noConfusion).trans ((State.getF_setF_self _ _ _ _ (by decide) (by decide)).trans ?_)
  exact Nat.mod_eq_of_lt (Bool.toNat_lt _)

/-- STACKHOT shows whether a DRAM sensor of a stack of the die is above 95 degrees (R534). -/
theorem State.dramSample_stackhot (s : State) {m k temp : Nat} (hm : m < 12) (hk : k < 16) (ht : 380 < temp) :
    (s.dramSample m k temp).getF (.gctlDietemp (stackDie m)) GCTL_DIETEMP.STACKHOT = 1 ∧ (s.dramSample m k temp).power.thermalert = true := by
  have hput : SMap.get false (SMap.put false s.power.crit (64 * (16 + m) + k) (decide (380 < temp))) (64 * (16 + m) + k) = true :=
    (SMap.get_put_self ..).trans (decide_eq_true ht)
  have hlog := s.dramSample_logged m k temp
  constructor
  · rw [hlog.getF _ Reg.noConfusion]
    have hdie : ((dieStacks (stackDie m)).any fun j => anyDram (s.dramPower m k temp).crit j) = true :=
      List.any_eq_true.2 ⟨m, mem_dieStacks hm, anyDram_of hk hput⟩
    refine (State.getF_setF_self _ _ _ _ (by decide) (by decide)).trans ?_
    rw [hdie]
    rfl
  · rw [hlog.power]
    exact State.alertNow_of_crit (k := 64 * (16 + m) + k) hput

theorem State.dramSample_regs (s : State) (m k temp : Nat) {r : Reg} (h1 : r ≠ .msStatus m) (h2 : r ≠ .gctlDietemp (stackDie m))
    (h3 : r ≠ .gctlElogLost) : (s.dramSample m k temp).reg r = s.reg r :=
  ((s.dramSample_logged m k temp).regs r h3).trans ((State.reg_setF_other _ _ _ h2).trans (State.reg_setF_other _ _ _ h1))

theorem State.tripCount_cold (s : State) {u k temp : Nat} (h : temp < 420) : s.tripCount u k temp = 0 := if_neg (Nat.not_le.2 h)
theorem State.tripCount_hot (s : State) {u k temp : Nat} (h : 420 ≤ temp) :
    s.tripCount u k temp = SMap.get 0 s.power.trips (64 * u + k) + 1 := if_pos h

theorem State.sampled_dram (s : State) (m : Nat) {k temp : Nat} (hk : k < 16) :
    s.sampled (16 + m) k temp = (s.counted (16 + m) k temp).dramSample m k temp := by
  unfold State.sampled; rw [if_neg (by omega), if_pos hk, Nat.add_sub_cancel_left]

theorem State.sampled_base (s : State) (m temp : Nat) :
    s.sampled (16 + m) 16 temp = (s.counted (16 + m) 16 temp).baseSample m temp := by
  unfold State.sampled; rw [if_neg (by omega), if_neg (by decide), Nat.add_sub_cancel_left]

theorem sensorsOf_stack {m : Nat} (hm : m < 12) : sensorsOf (16 + m) = 17 := by
  unfold sensorsOf; rw [if_neg (by omega), if_neg (by omega), if_pos (by omega)]

/-- What the second hot sample in a row leaves (R538). -/
theorem State.trip_leaves (s : State) (d : Nat) :
    (s.trip d).log.nextSeq = s.log.nextSeq + 1 ∧ ∃ e : EvOut, SMap.get none (s.trip d).log.ring (s.log.nextSeq % 16384) = some e ∧
      e.ev.cls = 0xB3 ∧ e.ev.gtc = s.gtc ∧ e.seq = s.log.nextSeq := by
  simp only [State.trip]
  refine ⟨trivial, _, SMap.get_put_self .., ?_⟩
  exact ⟨rfl, rfl, rfl⟩

/-- Settles O51: the samples by what their unit's function leaves, and the regulator's two events. -/
theorem sensorsAndRegulatorFollowTheirRules : Obligations.SensorsAndRegulatorFollowTheirRules := by
  refine ⟨fun s u k temp hs hb hu hk ht => ?_, fun s u k temp hs hb hu hk hlo hhi => ⟨fun h0 => ?_, fun h1 => ?_⟩,
    fun s m k temp hs hb hm hk ht => ?_, fun s m temp hs hb hm ht => ?_, fun s hs hb => ⟨?_, fun hf => ?_, fun hf => ?_⟩⟩
  · have hn := s.tripCount_cold (u := u) (k := k) ht
    obtain ⟨t, e, hrest, hregs, htop, htrips, halert, -⟩ := s.junction_sampled k temp hu
    refine ⟨_, sensorSample_cold hs hb (sensorsOf_junction hu ▸ hk) (by omega) (by omega), hs, ?_⟩
    rw [e]
    exact ⟨htop, htrips.trans hn, halert, by rw [hrest]; rfl, hregs⟩
  · have hn := s.tripCount_hot (u := u) (k := k) hlo
    obtain ⟨t, e, hrest, -, -, htrips, -⟩ := s.junction_sampled k temp hu
    refine ⟨_, sensorSample_cold hs hb (sensorsOf_junction hu ▸ hk) hhi (by omega), hs, ?_⟩
    rw [e]
    exact ⟨htrips.trans (by omega), by rw [hrest]; rfl⟩
  · have hn := s.tripCount_hot (u := u) (k := k) hlo
    obtain ⟨t, e, hrest, -, -, -, -, hseq, -⟩ := s.junction_sampled k temp hu
    obtain ⟨h1, h2⟩ := t.trip_leaves (sampleDie u)
    rw [hseq, show t.gtc = s.gtc by rw [hrest]] at h2
    rw [hseq] at h1
    refine ⟨_, sensorSample_trips hs hb (sensorsOf_junction hu ▸ hk) hhi (by omega), rfl, ?_⟩
    rw [e]
    exact ⟨rfl, (show t.cores = s.cores by rw [hrest]), rfl, h1, h2⟩
  · have hlog := (s.counted (16 + m) k temp).dramSample_logged m k temp
    refine ⟨_, sensorSample_cold hs hb ((sensorsOf_stack hm).symm ▸ by omega) (by omega) (by rw [s.tripCount_cold ht]; decide), hs, ?_⟩
    rw [s.sampled_dram m hk]
    refine ⟨fun hhot => ?_, fun hcool hall => ?_, fun hvery => State.dramSample_stackhot _ hm hk hvery, ?_,
      fun r => State.dramSample_regs (s.counted (16 + m) k temp) m k temp⟩
    · refine (State.dramSample_hot ..).trans ?_
      rw [anyDram_of hk ((SMap.get_put_self ..).trans (decide_eq_true hhot))]
      rfl
    · refine (State.dramSample_hot ..).trans ?_
      rw [decide_eq_false (by omega), anyDram, List.any_eq_false.2]
      · rfl
      · intro j hj
        rw [List.mem_range] at hj
        rw [SMap.get_put]
        split
        · decide
        · next hne => exact Bool.not_eq_true _ ▸ hall j hj fun e => hne (by rw [e])
    · rw [State.keep_cores, hlog.rest]
      rfl
  · have hlog := (s.counted (16 + m) 16 temp).baseSample_logged m temp
    refine ⟨_, sensorSample_cold hs hb ((sensorsOf_stack hm).symm ▸ by omega) (by omega) (by rw [s.tripCount_cold ht]; decide), ?_⟩
    rw [s.sampled_base m]
    refine ⟨by rw [hlog.rest]; rfl, hlog.regs, fun hc => ?_, fun hc => ?_⟩
    · rw [State.keep_power, hlog.power]
      exact State.alertNow_of_crit (k := 64 * (16 + m) + 16) ((SMap.get_put_self ..).trans (decide_eq_true hc))
    · have hquiet : ¬ (380 ≤ temp ∧ SMap.get false s.power.crit (64 * (16 + m) + 16) = false) := by
        rintro ⟨h1, h2⟩
        rcases hc with hc | hc
        · omega
        · rw [hc] at h2; cases h2
      have e : (s.counted (16 + m) 16 temp).baseSample m temp = _ := if_neg hquiet
      rw [State.keep_log, e]
      rfl
  · have hlog := State.logged_note ({ s with power := { s.power with avsFault := true } }.setF .gctlVcore GCTL_VCORE.AVSOK 0) srcBeat 1 0xB5 1
    refine ⟨_, (exec_avsTimeout s).trans (State.when_of hs hb), ?_, ?_, hlog.power, by rw [hlog.rest]; rfl,
      fun r h1 h2 => (hlog.regs r h2).trans (State.reg_setF_other _ _ _ h1)⟩
    · exact (hlog.getF _ Reg.noConfusion).trans (State.getF_setF_self _ _ _ _ (by decide) (by decide))
    · exact (hlog.getF _ Reg.noConfusion).trans (State.getF_setF_other _ _ _ _ _ (by decide) (by decide) (by decide) (by decide))
  · have hlog := State.logged_note ({ s with power := { s.power with avsFault := false } }.setF .gctlVcore GCTL_VCORE.AVSOK 1) srcBeat 1 0xB5 0
    refine ⟨_, (exec_avsAnswer s).trans ((State.when_of hs hb).trans (congrArg (fun u => Host.Outcome.next (s.keep u)) (if_pos hf))),
      ?_, hlog.power, by rw [hlog.rest]; rfl,
      fun r h1 h2 => (hlog.regs r h2).trans (State.reg_setF_other _ _ _ h1)⟩
    exact (hlog.getF _ Reg.noConfusion).trans (State.getF_setF_self _ _ _ _ (by decide) (by decide))
  · refine ⟨_, (exec_avsAnswer s).trans ((State.when_of hs hb).trans (congrArg (fun u => Host.Outcome.next (s.keep u)) (if_neg (by simp [hf])))), ?_, ?_,
      fun r h1 => State.reg_setF_other _ _ _ h1⟩
    · exact State.getF_setF_self _ _ _ _ (by decide) (by decide)
    · rw [show ({ s.power with avsFault := false } : PowerState) = s.power by rw [← hf]]
      rfl

end Sys2Proof.Machine

namespace Sys2Proof.Machine

/-! # The check bits of the scratchpad (R186, R187) -/

theorem exec_scratchpadScrub (p n bad : Nat) (s : State) : exec (.scratchpadScrub p n bad) s = execScratchpadScrub p n bad s := rfl
theorem exec_scratchpadUncorrectableError (p n kind i : Nat) (s : State) :
    exec (.scratchpadUncorrectableError p n kind i) s = execScratchpadUncorrectableError p n kind i s := rfl

/-- A value other than the default that reads at k stands in the table under k. -/
theorem SMap.mem_of_get {α : Type} {d : α} {m : SMap α} {k : Nat} (h : SMap.get d m k ≠ d) : (k, SMap.get d m k) ∈ m := by
  induction m with
  | nil => exact absurd rfl h
  | cons x m ih =>
    rw [SMap.get] at h ⊢
    split at h
    · next e => rw [if_pos e, ← e]; exact List.mem_cons_self
    · next e => rw [if_neg e]; exact List.mem_cons_of_mem _ (ih h)

theorem SMap.mem_insert {α : Type} {m : SMap α} {k : Nat} {a : α} {y : Nat × α} (h : y ∈ SMap.insert m k a) : y = (k, a) ∨ y ∈ m := by
  induction m with
  | nil => exact .inl (List.mem_singleton.1 h)
  | cons x m ih =>
    rw [SMap.insert] at h
    split at h
    · exact List.mem_cons.1 h
    · split at h
      · rcases List.mem_cons.1 h with h | h
        · exact .inl h
        · exact .inr (List.mem_cons_of_mem _ h)
      · rcases List.mem_cons.1 h with h | h
        · exact .inr (h ▸ List.mem_cons_self)
        · exact (ih h).imp_right (List.mem_cons_of_mem _)

/-- The entries of a table after a write: the one written, or old ones. -/
theorem SMap.mem_put {α : Type} [DecidableEq α] {d : α} {m : SMap α} {k : Nat} {a : α} {y : Nat × α} (h : y ∈ SMap.put d m k a) :
    y = (k, a) ∨ y ∈ m := by
  unfold SMap.put at h
  split at h
  · exact .inr (SMap.erase_subset m k y h)
  · exact SMap.mem_insert h

/-- Words that the scrubber finds wrong take their mark, unless they have one. -/
def markWrong (m : SMap Check) (w : Nat) : SMap Check := if SMap.get Check.good m w = .good then SMap.put .good m w .single else m

theorem get_markWrong_other {m : SMap Check} {w v : Nat} (h : v ≠ w) : SMap.get .good (markWrong m w) v = SMap.get .good m v := by
  unfold markWrong
  split
  · exact SMap.get_put_other _ _ _ h
  · rfl

/-- Marking words does not move an uncorrectable word. -/
theorem markWrong_double (ws : List Nat) (m : SMap Check) (v : Nat) (h : SMap.get .good m v = .double) :
    SMap.get .good (ws.foldl markWrong m) v = .double ∧ ((v, .single) ∉ m → (v, .single) ∉ ws.foldl markWrong m) := by
  induction ws generalizing m with
  | nil => exact ⟨h, id⟩
  | cons w ws ih =>
    have hv : SMap.get .good (markWrong m w) v = .double := by
      by_cases hw : v = w
      · subst hw; rwa [markWrong, if_neg (by rw [h]; decide)]
      · rwa [get_markWrong_other hw]
    obtain ⟨h1, h2⟩ := ih _ hv
    refine ⟨h1, fun hn => h2 fun hm => ?_⟩
    unfold markWrong at hm
    split at hm
    · next hg =>
      rcases SMap.mem_put hm with e | e
      · cases e; rw [h] at hg; cases hg
      · exact hn e
    · exact hn hm

theorem markWrong_outside (ws : List Nat) (m : SMap Check) (v : Nat) (h : v ∉ ws) :
    SMap.get .good (ws.foldl markWrong m) v = SMap.get .good m v := by
  induction ws generalizing m with
  | nil => rfl
  | cons w ws ih =>
    rw [List.mem_cons, not_or] at h
    exact (ih _ h.2).trans (get_markWrong_other h.1)

theorem markWrong_keeps_not_double (ws : List Nat) (m : SMap Check) (v : Nat) (h : SMap.get .good m v ≠ .double) :
    SMap.get .good (ws.foldl markWrong m) v ≠ .double := by
  induction ws generalizing m with
  | nil => exact h
  | cons w ws ih =>
    apply ih
    by_cases hw : v = w
    · subst hw
      unfold markWrong
      split
      · rw [SMap.get_put_self]; decide
      · exact h
    · rwa [get_markWrong_other hw]

theorem mem_lineWords {n bad w : Nat} (h : w ∈ lineWords n bad) : 8 * n ≤ w ∧ w < 8 * n + 8 := by
  obtain ⟨j, hj, rfl⟩ := List.mem_map.1 h
  have := List.mem_range.1 (List.mem_filter.1 hj).1
  omega

/-- What correcting leaves of the marks: those of the corrected words are gone, the others stay. -/
theorem State.spCorrect_spCheck (s : State) (p a n : Nat) :
    ((s.spCorrect p a n).core p).spCheck = (Core.spSingles (s.core p) a n).foldl SMap.erase (s.core p).spCheck := by
  unfold State.spCorrect
  generalize Core.spSingles (s.core p) a n = ws
  induction ws generalizing s with
  | nil => rfl
  | cons w ws ih =>
    rw [List.foldl_cons, List.foldl_cons, ih]
    congr 1
    rw [State.core_event]
    simp only [State.core_setF, State.core_health, State.core_satF, State.core_modCore, if_pos]

theorem get_eraseAll (ws : List Nat) (m : SMap Check) (v : Nat) :
    SMap.get .good (ws.foldl SMap.erase m) v = if v ∈ ws then .good else SMap.get .good m v := by
  induction ws generalizing m with
  | nil => rw [if_neg List.not_mem_nil]; rfl
  | cons w ws ih =>
    rw [List.foldl_cons, ih]
    by_cases hv : v = w
    · subst hv
      rw [SMap.get_erase_self, if_pos List.mem_cons_self, ite_self]
    · rw [SMap.get_erase_other _ _ hv]
      simp [hv]

theorem mem_spSingles {c : Core} {a n v : Nat} :
    v ∈ Core.spSingles c a n ↔ (v, .single) ∈ c.spCheck ∧ 8 * v < a + n ∧ a < 8 * v + 8 := by
  simp only [Core.spSingles, List.mem_map, List.mem_filter, Bool.and_eq_true, decide_eq_true_eq]
  constructor
  · rintro ⟨⟨w, c⟩, ⟨hm, ⟨rfl, h1⟩, h2⟩, rfl⟩
    exact ⟨hm, h1, h2⟩
  · rintro ⟨hm, h1, h2⟩
    exact ⟨_, ⟨hm, ⟨rfl, h1⟩, h2⟩, rfl⟩

/-- The state whose marks the scrubber of line n then corrects. -/
def State.scrubMarked (s : State) (p n bad : Nat) : State :=
  s.modCore p fun c => { c with spCheck := (lineWords n bad).foldl markWrong c.spCheck }

theorem scratchpadScrub_answers {s : State} {p n bad : Nat} (hs : s.clocksStopped = false) (hp : p < 208) (hn : n < 196608)
    (he : s.getF (.coreSpEcc p) CORE_SP_ECC.SCRUBEN = 1) :
    exec (.scratchpadScrub p n bad) s = .next (s.keep ((s.scrubMarked p n bad).spCorrect p (64 * n) 64)) :=
  (exec_scratchpadScrub ..).trans (State.when_of hs (by simp [hp, hn, he]))

theorem State.scrubMarked_core (s : State) (p n bad : Nat) :
    (s.scrubMarked p n bad).core p = { s.core p with spCheck := (lineWords n bad).foldl markWrong (s.core p).spCheck } := by
  rw [State.scrubMarked, State.core_modCore, if_pos rfl]

/-- What the scrub of line n leaves at word w (R186). -/
theorem State.scrub_get (s : State) (p n bad w : Nat) :
    let m := (lineWords n bad).foldl markWrong (s.core p).spCheck
    SMap.get .good (((s.scrubMarked p n bad).spCorrect p (64 * n) 64).core p).spCheck w =
      if (w, .single) ∈ m ∧ 8 * n ≤ w ∧ w < 8 * n + 8 then .good else SMap.get .good m w := by
  rw [State.spCorrect_spCheck, get_eraseAll, State.scrubMarked_core]
  refine ite_of_iff (mem_spSingles.trans (and_congr_right fun _ => ?_)) _ _
  omega

/-- An uncorrectable word is recorded with its address (R187). -/
theorem State.spUncorrectable_records (s : State) (p n : Nat) (h : SMap.get .good (s.core p).spCheck n = .double) :
    ∃ t : State, ((((s.satF (.coreSpEcc p) CORE_SP_ECC.UNCORR 1).setF (.coreSpEaddr p) CORE_SP_EADDR.VALID 1).setF (.coreSpEaddr p)
        CORE_SP_EADDR.UNC 1).setF (.coreSpEaddr p) CORE_SP_EADDR.ADDR (8 * n)).Logged t ∧ s.spUncorrectable p (8 * n) 8 = t := by
  have hm : (n, Check.double) ∈ (s.core p).spCheck := h ▸ SMap.mem_of_get (by rw [h]; decide)
  unfold State.spUncorrectable
  split
  · next hnone =>
    have := List.find?_eq_none.1 hnone _ hm
    simp only [decide_true, Bool.true_and, Bool.and_eq_true, decide_eq_true_eq, not_and] at this
    omega
  · next x hx =>
    have hr := List.find?_some hx
    simp only [Bool.and_eq_true, decide_eq_true_eq] at hr
    have hxn : x.1 = n := by omega
    rw [hxn]
    exact ⟨_, State.logged_event .., rfl⟩

/-- s with word n of core p marked uncorrectable. -/
def State.marked (s : State) (p n : Nat) : State := s.modCore p fun c => { c with spCheck := SMap.put .good c.spCheck n .double }

theorem State.marked_core (s : State) (p n : Nat) :
    (s.marked p n).core p = { s.core p with spCheck := SMap.put .good (s.core p).spCheck n .double } := by
  rw [State.marked, State.core_modCore, if_pos rfl]

/-- What a new uncorrectable word leaves before any reader faults (R187). -/
theorem State.marked_recorded (s : State) (p : Nat) {n : Nat} (hn : n < 1572864) :
    ∃ t : State, (s.marked p n).spUncorrectable p (8 * n) 8 = t ∧ SMap.get .good (t.core p).spCheck n = .double ∧
      t.getF (.coreSpEcc p) CORE_SP_ECC.UNCORR = min (s.getF (.coreSpEcc p) CORE_SP_ECC.UNCORR + 1) 255 ∧
      t.getF (.coreSpEaddr p) CORE_SP_EADDR.VALID = 1 ∧ t.getF (.coreSpEaddr p) CORE_SP_EADDR.UNC = 1 ∧
      t.getF (.coreSpEaddr p) CORE_SP_EADDR.ADDR = 8 * n ∧ (∀ q, t.core q = (s.marked p n).core q) ∧
      ∀ r, r ∉ eccRegs p → t.reg r = s.reg r := by
  have hmark : SMap.get .good ((s.marked p n).core p).spCheck n = .double := by simp only [State.marked_core, SMap.get_put_self]
  obtain ⟨t, hlog, e⟩ := (s.marked p n).spUncorrectable_records p n hmark
  have hcore : ∀ q, t.core q = (s.marked p n).core q := fun q => hlog.core q
  refine ⟨t, e, by rw [hcore]; exact hmark, ?_, ?_, ?_, ?_, hcore, fun r hr => ?_⟩
  · rw [hlog.getF _ Reg.noConfusion]
    refine (State.getF_setF_other_reg _ _ _ _ Reg.noConfusion).trans ((State.getF_setF_other_reg _ _ _ _ Reg.noConfusion).trans
      ((State.getF_setF_other_reg _ _ _ _ Reg.noConfusion).trans ((State.getF_setF_self _ _ _ _ (by decide) (by decide)).trans ?_)))
    exact Nat.mod_eq_of_lt (Nat.lt_of_le_of_lt (Nat.min_le_right ..) (by decide))
  · rw [hlog.getF _ Reg.noConfusion]
    refine (State.getF_setF_other _ _ _ _ _ (by decide) (by decide) (by decide) (by decide)).trans
      ((State.getF_setF_other _ _ _ _ _ (by decide) (by decide) (by decide) (by decide)).trans ?_)
    exact State.getF_setF_self _ _ _ _ (by decide) (by decide)
  · rw [hlog.getF _ Reg.noConfusion]
    refine (State.getF_setF_other _ _ _ _ _ (by decide) (by decide) (by decide) (by decide)).trans ?_
    exact State.getF_setF_self _ _ _ _ (by decide) (by decide)
  · rw [hlog.getF _ Reg.noConfusion]
    refine (State.getF_setF_self _ _ _ _ (by decide) (by decide)).trans (Nat.mod_eq_of_lt ?_)
    exact Nat.lt_of_lt_of_le (by omega : 8 * n < 2 ^ 24) (by decide)
  · simp only [eccRegs, List.mem_cons, List.not_mem_nil, or_false, not_or] at hr
    obtain ⟨h1, h2, h3⟩ := hr
    exact (hlog.regs r h3).trans ((State.reg_setF_other _ _ _ h2).trans ((State.reg_setF_other _ _ _ h2).trans
      ((State.reg_setF_other _ _ _ h2).trans (State.reg_setF_other _ _ _ h1))))

/-- Settles O54: the scrub by the marks it leaves at each word, the uncorrectable word by what is recorded. -/
theorem scratchpadErrorsAreCorrectedOrRecorded : Obligations.ScratchpadErrorsAreCorrectedOrRecorded := by
  refine ⟨fun s p n bad hs hp hn he => ?_, fun s p n i hs hp hn => ?_, fun s p n i hs hp hn pc ctx cmd hw => ?_⟩
  · have hcore := State.spCorrect_core (s.scrubMarked p n bad) p (64 * n) 64
    refine ⟨_, scratchpadScrub_answers hs hp hn he, fun q hq => ?_, ?_, fun w h1 h2 hw => ?_, fun w hsingle hw => ?_, fun w hw => ?_,
      fun r hr => State.spCorrect_reg _ _ _ _ hr⟩
    · rw [State.core_keep, ((s.scrubMarked p n bad).spCorrect_frame p (64 * n) 64).2.1 q hq, State.scrubMarked, State.core_modCore, if_neg hq]
    · rw [State.core_keep, ((s.scrubMarked p n bad).spCorrect_frame p (64 * n) 64).2.2.1, State.scrubMarked_core]
    · have hnd := markWrong_keeps_not_double (lineWords n bad) _ w hw
      refine (s.scrub_get p n bad w).trans ?_
      split
      · rfl
      · next hno =>
        cases hg : SMap.get .good ((lineWords n bad).foldl markWrong (s.core p).spCheck) w with
        | good => rfl
        | single => exact absurd ⟨hg ▸ SMap.mem_of_get (by rw [hg]; decide), h1, h2⟩ hno
        | double => exact absurd hg hnd
    · obtain ⟨h1, h2⟩ := markWrong_double (lineWords n bad) _ w hw
      exact (s.scrub_get p n bad w).trans ((if_neg fun h => h2 hsingle h.1).trans h1)
    · refine (s.scrub_get p n bad w).trans ((if_neg (by omega)).trans (markWrong_outside _ _ _ fun hm => ?_))
      have := mem_lineWords hm
      omega
  · obtain ⟨t, e, hmark, h1, h2, h3, h4, hcore, hregs⟩ := s.marked_recorded p hn
    have hans : exec (.scratchpadUncorrectableError p n 0 i) s = .next (s.keep ((s.marked p n).spUncorrectable p (8 * n) 8)) :=
      (exec_scratchpadUncorrectableError ..).trans (State.when_of hs (by simp [hp, hn]))
    rw [e] at hans
    refine ⟨_, hans, hmark, h1, h2, h3, h4, ?_, fun q hq => ?_, hregs⟩
    · rw [State.core_keep, hcore, State.marked_core]
    · rw [State.core_keep, hcore, State.marked, State.core_modCore, if_neg hq]
  · obtain ⟨t, e, hmark, -, -, -, h4, hcore, -⟩ := s.marked_recorded p hn
    refine ⟨t, (exec_scratchpadUncorrectableError ..).trans ?_, hmark, h4⟩
    have hreader : ((s.marked p n).spUncorrectable p (8 * n) 8).eccReader p 1 i = some (t.veFault p 2 ctx (issuerOf i)) := by
      rw [e, State.eccReader]
      have hwhere : (t.core p).where_ i = some (pc, ctx, cmd) := by rw [hcore, State.marked_core]; exact hw
      rw [hwhere]
      rfl
    unfold execScratchpadUncorrectableError
    change (match State.eccReader ((s.marked p n).spUncorrectable p (8 * n) 8) p 1 i with
      | some t => s.when (decide (p < 208) && decide (n < 1572864)) t
      | none => s.when false s) = _
    rw [hreader]
    exact State.when_of hs (by simp [hp, hn])

/-! # Event records (R294, R377, R492, R493) -/

theorem exec_eventRecordEmit (s : State) : exec .eventRecordEmit s = execEventRecordEmit s := rfl

/-- With the log switched off nothing is sent (R492). -/
theorem State.logFlush_off {s : State} (h : s.getF .gctlElogCtl GCTL_ELOG_CTL.EN = 0) : s.logFlush = s :=
  if_neg fun hon => absurd hon.1 (by rw [h]; decide)

/-- The log once record e has been numbered (R492). -/
def LogState.numbered (l : LogState) (e : EvOut) (rest : List EvRec) : LogState :=
  { l with held := rest, nextSeq := l.nextSeq + 1, ring := SMap.put none l.ring (l.nextSeq % 16384) (some e), compNext := l.nextSeq + 1 }

theorem eventRecordEmit_answers {s : State} {e : EvRec} {rest : List EvRec} (hs : s.clocksStopped = false) (hheld : s.log.held = e :: rest)
    (hage : e.gtc + 1024 ≤ s.gtc) (hoff : s.getF .gctlElogCtl GCTL_ELOG_CTL.EN = 0) :
    exec .eventRecordEmit s = .next { s with log := s.log.numbered ⟨e, s.log.nextSeq, s.getF .wyDevid WY_DEVID.ID⟩ rest } := by
  rw [exec_eventRecordEmit]
  unfold execEventRecordEmit
  rw [hheld]
  dsimp only
  have hoff' : (s.getF .gctlElogCtl GCTL_ELOG_CTL.EN == 0) = true := by rw [hoff]; rfl
  rw [State.when_of hs (by simp [hage]), State.logFlush_off (by exact hoff)]
  simp only [hoff', if_pos]
  rfl

theorem evPayload_eq {beat lcore inst detail : Nat} (hl : lcore < 256) (hi : inst < 128) (hd : detail < 2 ^ 28) :
    evPayload beat lcore inst detail = beat % 2 ^ 21 * 2 ^ 43 + lcore * 2 ^ 35 + inst * 2 ^ 28 + detail := by
  rw [evPayload, Nat.mod_eq_of_lt hl, Nat.mod_eq_of_lt hi, Nat.mod_eq_of_lt hd]

/-- A source with 16 undelivered records loses the next one and counts it (R493). -/
theorem State.event_lost (s : State) (src sev cls l n d : Nat) (h : 16 ≤ (s.log.queued.filter fun q => q.source == src).length) :
    (s.event src sev cls l n d).log.queued = s.log.queued ∧ (s.event src sev cls l n d).getF .gctlElogLost GCTL_ELOG_LOST.COUNT =
      min (s.getF .gctlElogLost GCTL_ELOG_LOST.COUNT + 1) GCTL_ELOG_LOST.COUNT.top := by
  unfold State.event State.emitRec
  rw [if_neg (Nat.not_lt.2 h)]
  refine ⟨rfl, (State.getF_setF_self _ _ _ _ (by decide) (by decide)).trans (Nat.mod_eq_of_lt ?_)⟩
  exact Nat.lt_of_le_of_lt (Nat.min_le_right ..) (by decide)

/-- Settles O22: the log unit numbers the oldest held record, and a raised record waits or is lost. -/
theorem eventRecordsWaitAndAreNumbered : Obligations.EventRecordsWaitAndAreNumbered := by
  refine ⟨fun s e rest hs hheld hage hoff => ?_, fun s src sev cls l n d hl hn hd => ⟨⟨fun hroom => ⟨?_, ?_⟩, fun hfull => ?_⟩, ?_⟩⟩
  · refine ⟨_, eventRecordEmit_answers hs hheld hage hoff, rfl, rfl, rfl, rfl, rfl, ?_, fun k hk => ?_⟩
    · simp only [LogState.numbered, SMap.get_put_self]
    · simp only [LogState.numbered, SMap.get_put_other _ _ _ hk]
  · rw [State.event_queued s src sev cls l n d hroom, evPayload_eq hl hn hd]
  · unfold State.event State.emitRec
    rw [if_pos hroom]
  · exact s.event_lost src sev cls l n d hfull
  · exact (s.event_frame src sev cls l n d).1

/-! # Inputs and outputs of the time units (R361, R369 to R376) -/

theorem exec_ppsEdge (i frac : Nat) (s : State) : exec (.ppsEdge i frac) s = execPpsEdge i frac s := rfl
theorem exec_timeOfDayMessage (cs : List Nat) (s : State) : exec (.timeOfDayMessage cs) s = execTimeOfDayMessage cs s := rfl
theorem exec_todMessageTimeout (i : Nat) (s : State) : exec (.todMessageTimeout i) s = execTodMessageTimeout i s := rfl
theorem exec_ppsMissing (i : Nat) (s : State) : exec (.ppsMissing i) s = execPpsMissing i s := rfl
theorem exec_frequencyWindow (src : Nat) (ppb : Int) (s : State) : exec (.frequencyWindow src ppb) s = execFrequencyWindow src ppb s := rfl
theorem exec_ppsOutPulseEnd (s : State) : exec .ppsOutPulseEnd s = execPpsOutPulseEnd s := rfl
theorem exec_beatTracePulseEnd (s : State) : exec .beatTracePulseEnd s = execBeatTracePulseEnd s := rfl
theorem exec_ppsOutPulse (s : State) : exec .ppsOutPulse s = execPpsOutPulse s := rfl
theorem exec_timeSecRead (n : Nat) (s : State) : exec (.timeSecRead n) s = execTimeSecRead n s := rfl
theorem exec_appofsWrite (v : Nat) (s : State) : exec (.appofsWrite v) s = execAppofsWrite v s := rfl

@[simp] theorem State.ppsIn_setPps (s : State) (i j : Nat) (x : PpsIn) : (s.setPps i x).ppsIn j = if j = i then x else s.ppsIn j :=
  SMap.get_put ..

/-- What a change of rates and states of the time bases leaves alone: the cores and the measured frequencies. -/
def State.besideBases (s : State) : SMap Core × SMap (Option Rat) := (s.cores, s.time.freqs)

@[simp] theorem State.besideBases_setF (s : State) (r : Reg) (f : Fld) (x : Nat) : (s.setF r f x).besideBases = s.besideBases := rfl
@[simp] theorem State.besideBases_setTb (s : State) (n : Nat) (x : TimeBase) : (s.setTb n x).besideBases = s.besideBases := rfl
@[simp] theorem State.besideBases_showRate (s : State) (n : Nat) : (s.showRate n).besideBases = s.besideBases := rfl
@[simp] theorem State.besideBases_setRate (s : State) (n : Nat) (y : Rat) : (s.setRate n y).besideBases = s.besideBases := rfl

@[simp] theorem State.besideBases_tbNote (s : State) (n old new : Nat) : (s.tbNote n old new).besideBases = s.besideBases := by
  unfold State.besideBases State.tbNote; rw [(State.event_frame ..).1]

theorem State.besideBases_ite (c : Prop) [Decidable c] (s t : State) :
    (if c then s else t).besideBases = if c then s.besideBases else t.besideBases := apply_ite ..

@[simp] theorem State.besideBases_setTbState (s : State) (n new : Nat) : (s.setTbState n new).besideBases = s.besideBases := by
  simp only [State.setTbState, State.besideBases_ite, State.besideBases_tbNote, State.besideBases_setF, ite_self]

@[simp] theorem State.besideBases_clockSource (s : State) : s.clockSource.besideBases = s.besideBases := by
  unfold State.clockSource; split <;> rfl

/-- What a measured frequency does to base n (R374). -/
def State.freqUpdate (src : Nat) (ppb : Int) (ok : Bool) (s : State) (n : Nat) : State :=
  let named := (match s.getF (.timeTbCfg n) TIME_TB_CFG.FSEL with
    | 1 => src == 1 + s.getF (.timeTbCfg n) TIME_TB_CFG.FPORT
    | 2 => src == 0
    | _ => false)
  if !named then s
  else
    let s := s.setF (.timeTbStatus n) TIME_TB_STATUS.FVALID ok.toNat
    let st := s.tbState n
    if s.psrc n = 5 then s
    else if st = tbFREE then s.showRate n
    else if st = tbHOLDOVERF ∧ ok = false then (s.setTbState n tbHOLDOVER)
    else if st = tbHOLDOVER ∧ ok = true then (s.setTbState n tbHOLDOVERF).setRate n ((ppb : Rat) + (s.tb n).integ)
    else if st = tbHOLDOVERF then s.setRate n ((ppb : Rat) + (s.tb n).integ)
    else s

theorem State.besideBases_freqUpdate (src : Nat) (ppb : Int) (ok : Bool) (s : State) (n : Nat) :
    (State.freqUpdate src ppb ok s n).besideBases = s.besideBases := by
  simp only [State.freqUpdate, State.besideBases_ite, State.besideBases_setF, State.besideBases_setTbState, State.besideBases_setRate,
    State.besideBases_showRate, ite_self]

/-- A base that names no frequency source is not touched. -/
theorem State.freqUpdate_unnamed {src : Nat} {ppb : Int} {ok : Bool} {s : State} {n : Nat}
    (h : s.getF (.timeTbCfg n) TIME_TB_CFG.FSEL = 0) : State.freqUpdate src ppb ok s n = s := by
  unfold State.freqUpdate; rw [h]; rfl

/-- A frequency within 100 ppm is valid (R374). -/
def freqOk (ppb : Int) : Bool := decide (-100000 ≤ ppb) && decide (ppb ≤ 100000)

/-- s with the measured frequency of a source taken down. -/
def State.freqTaken (s : State) (src : Nat) (ppb : Int) (ok : Bool) : State :=
  { s with time := { s.time with freqs := SMap.put none s.time.freqs src (if ok then some (ppb : Rat) else none) } }

theorem execFrequencyWindow_eq (src : Nat) (ppb : Int) (s : State) :
    execFrequencyWindow src ppb s = s.when (decide (src < 25)) (([0, 1, 2, 3].foldl
      (State.freqUpdate src ppb (freqOk ppb)) (s.freqTaken src ppb (freqOk ppb))).clockSource) := by
  unfold execFrequencyWindow freqOk
  generalize (decide (-100000 ≤ ppb) && decide (ppb ≤ 100000)) = ok
  unfold State.freqTaken State.freqUpdate
  rfl

/-- A PPS edge is latched with the values of its bases (R369). -/
theorem ppsEdge_latches {s : State} {i frac : Nat} (hs : s.clocksStopped = false) (hi : i < 2) (hf : frac < 256) :
    ∃ t, exec (.ppsEdge i frac) s = .next t ∧ t = { s with time := t.time } ∧ (t.ppsIn i).edge = some s.gtc ∧
      (t.ppsIn i).values.map Prod.fst = s.ppsUsers i ∧ (∀ j, j ≠ i → t.ppsIn j = s.ppsIn j) := by
  refine ⟨_, (exec_ppsEdge ..).trans (State.when_of hs (by simp [hi, hf])), rfl, ?_⟩
  have hin : ∀ j, (s.keep (s.setPps i ⟨some s.gtc, (s.ppsUsers i).map fun n => (n, s.edgeTime n frac), false⟩)).ppsIn j = _ :=
    fun j => s.ppsIn_setPps i j _
  refine ⟨by rw [hin, if_pos rfl], ?_, fun j hj => by rw [hin, if_neg hj]⟩
  rw [hin, if_pos rfl]
  simp [Function.comp_def]

/-- A time-of-day message that does not parse is recorded (R371). -/
theorem timeOfDayMessage_unparsed {s : State} {cs : List Nat} {bit : Nat} (hs : s.clocksStopped = false)
    (he : s.getF .timeTod TIME_TOD.EN = 1) (hc : ∀ c ∈ cs, c < 256) (hp : s.todParse cs = .inr bit) :
    exec (.timeOfDayMessage cs) s = .next (s.keep (s.todError bit)) := by
  refine (exec_timeOfDayMessage ..).trans ((State.when_of hs (by simpa [he] using hc)).trans ?_)
  rw [hp]

/-- One that does labels the edges of both inputs (R370). -/
theorem timeOfDayMessage_labels {s : State} {cs : List Nat} {sec : Nat} {ofs : Option Nat} (hs : s.clocksStopped = false)
    (he : s.getF .timeTod TIME_TOD.EN = 1) (hc : ∀ c ∈ cs, c < 256) (hp : s.todParse cs = .inl (sec, ofs)) :
    exec (.timeOfDayMessage cs) s = .next (s.keep (((match ofs with
      | some o => s.setF .timeTod TIME_TOD.UTCOFS o
      | none => s).labelPps sec 0).labelPps sec 1)) := by
  refine (exec_timeOfDayMessage ..).trans ((State.when_of hs (by simpa [he] using hc)).trans ?_)
  rw [hp]
  rfl

/-- A PPS input is read from the time state alone. -/
theorem State.Logged.ppsIn {s t : State} (h : s.Logged t) (i : Nat) : t.ppsIn i = s.ppsIn i := by
  unfold State.ppsIn; rw [h.rest]

/-- A label that does not come drops the values of its edge (R371). -/
theorem todMessageTimeout_drops {s : State} {i e : Nat} (hs : s.clocksStopped = false) (hi : i < 2) (hv : (s.ppsIn i).values ≠ [])
    (he : (s.ppsIn i).edge = some e) (hg : e + 3240000000 ≤ s.gtc) :
    ∃ t, exec (.todMessageTimeout i) s = .next t ∧ (t.ppsIn i).values = [] ∧ t.cores = s.cores ∧ t.fh = s.fh := by
  have hlog : (s.setPps i { s.ppsIn i with values := [] }).Logged ((s.setPps i { s.ppsIn i with values := [] }).todError 0) :=
    State.logged_event ..
  have hin := hlog.ppsIn i
  rw [State.ppsIn_setPps, if_pos rfl] at hin
  refine ⟨_, (exec_todMessageTimeout ..).trans (State.when_of hs (by simp [hi, hv, he, hg])), ?_,
    by rw [State.keep_cores, hlog.rest]; rfl, by rw [State.keep_fh, hlog.rest]; rfl⟩
  exact congrArg PpsIn.values hin

/-- A missing edge is noted once (R369). -/
theorem ppsMissing_notes {s : State} {i : Nat} (hs : s.clocksStopped = false) (hi : i < 2) (hn : (s.ppsIn i).noted = false)
    (hu : s.ppsUsers i ≠ []) (hg : (s.ppsIn i).edge.getD 0 + 3960000000 ≤ s.gtc) :
    ∃ t, exec (.ppsMissing i) s = .next t ∧ (t.ppsIn i).noted = true ∧ (t.ppsIn i).edge = (s.ppsIn i).edge := by
  have hlog := State.logged_event (s.setPps i { s.ppsIn i with noted := true }) (srcTb (((s.ppsUsers i).head?).getD 0)) 1 0x55 0xFF 0x7F i
  have hin := hlog.ppsIn i
  rw [State.ppsIn_setPps, if_pos rfl] at hin
  refine ⟨_, (exec_ppsMissing ..).trans (State.when_of hs (by simp [hi, hn, hu, hg])), ?_, ?_⟩
  · exact (congrArg PpsIn.noted hin).trans rfl
  · exact (congrArg PpsIn.edge hin).trans rfl

/-- A measured frequency is taken down, as none where it is more than 100 ppm off (R374). -/
theorem frequencyWindow_takes {s : State} {src : Nat} (ppb : Int) (hs : s.clocksStopped = false) (h : src < 25) :
    ∃ t, exec (.frequencyWindow src ppb) s = .next t ∧
      SMap.get none t.time.freqs src = (if freqOk ppb then some (ppb : Rat) else none) ∧ t.cores = s.cores ∧
      ((∀ n, n < 4 → s.getF (.timeTbCfg n) TIME_TB_CFG.FSEL = 0) → t.regs = s.regs) := by
  refine ⟨_, (exec_frequencyWindow ..).trans ((execFrequencyWindow_eq ..).trans (State.when_of hs (by simp [h]))), ?_⟩
  generalize freqOk ppb = ok
  have hbeside : (([0, 1, 2, 3].foldl (State.freqUpdate src ppb ok) (s.freqTaken src ppb ok)).clockSource).besideBases =
      (s.freqTaken src ppb ok).besideBases := by
    simp only [State.besideBases_clockSource, List.foldl_cons, List.foldl_nil, State.besideBases_freqUpdate]
  refine ⟨?_, congrArg Prod.fst hbeside, fun hnone => ?_⟩
  · refine (congrArg (fun x => SMap.get none x.2 src) hbeside).trans ?_
    exact SMap.get_put_self none s.time.freqs src _
  · have hun : ∀ n, n < 4 → State.freqUpdate src ppb ok (s.freqTaken src ppb ok) n = s.freqTaken src ppb ok :=
      fun n hn => State.freqUpdate_unnamed (hnone n hn)
    simp only [List.foldl_cons, List.foldl_nil, hun 0 (by decide), hun 1 (by decide), hun 2 (by decide), hun 3 (by decide)]
    unfold State.clockSource
    split <;> rfl

/-- The output pulse starts at the cycle nearest its second (R373). -/
theorem ppsOutPulse_starts {s : State} (hs : s.clocksStopped = false) (he : s.getF .timePpsout TIME_PPSOUT.EN = 1)
    (ho : s.time.ppsOut = none) (h1 : -(s.cycle / 2) ≤ s.ppsNear) (h2 : s.ppsNear ≤ s.cycle / 2) :
    ∃ t, exec .ppsOutPulse s = .next t ∧ t.time.ppsOut = some s.gtc ∧ t.regs = s.regs := by
  refine ⟨_, (exec_ppsOutPulse s).trans (State.when_of hs ?_), rfl, rfl⟩
  rw [ho, he]
  exact Bool.and_eq_true_iff.2 ⟨Bool.and_eq_true_iff.2 ⟨Bool.and_eq_true_iff.2 ⟨rfl, decide_eq_true h1⟩, decide_eq_true h2⟩, rfl⟩

/-- A read of the seconds latches the nanoseconds (R361). -/
theorem timeSecRead_latches {s : State} {n : Nat} (hs : s.clocksStopped = false) (hn : n < 4) :
    ∃ t, exec (.timeSecRead n) s = .next t ∧
      t.getF (.timeTbSec n) TIME_TB_SEC.SEC = (s.tbValue n * 65536).floor.toNat / (65536 * 1000000000) % 2 ^ 48 ∧
      t.getF (.timeTbNs n) TIME_TB_NS.NS = (s.tbValue n * 65536).floor.toNat / 65536 % 1000000000 % 2 ^ 32 ∧ t.time = s.time ∧
      (∀ r, r ≠ .timeTbSec n → r ≠ .timeTbNs n → t.reg r = s.reg r) := by
  refine ⟨_, (exec_timeSecRead ..).trans (State.when_of hs (by simp [hn])), ?_, ?_, rfl, fun r h1 h2 => ?_⟩
  · rw [State.getF_keep, State.getF_setF_other_reg _ _ _ _ Reg.noConfusion, State.getF_setF_other_reg _ _ _ _ Reg.noConfusion,
      State.getF_setF_self _ _ _ _ (by decide) (by decide)]
    rfl
  · rw [State.getF_keep, State.getF_setF_other _ _ _ _ _ (by decide) (by decide) (by decide) (by decide),
      State.getF_setF_self _ _ _ _ (by decide) (by decide)]
    rfl
  · rw [State.reg_keep, State.reg_setF_other _ _ _ h2, State.reg_setF_other _ _ _ h2, State.reg_setF_other _ _ _ h1]

/-- APPOFS takes the value written (R361). -/
theorem appofsWrite_takes {s : State} {v : Nat} (hs : s.clocksStopped = false) (hv : v < 2 ^ 64) :
    ∃ t, exec (.appofsWrite v) s = .next t ∧ t.reg .timeAppofs = BitVec.ofNat 64 v ∧
      (∀ r, r ≠ .timeAppofs → r ≠ .gctlElogLost → t.reg r = s.reg r) := by
  refine ⟨_, (exec_appofsWrite ..).trans (State.when_of hs (decide_eq_true hv)), ?_, fun r h1 h2 => ?_⟩
  · rw [State.reg_keep, State.reg_event _ _ _ _ _ _ _ Reg.noConfusion, State.reg_setReg_self]
  · rw [State.reg_keep, State.reg_event _ _ _ _ _ _ _ h2, State.reg_setReg_other _ _ h1]

/-- Settles O23: each input and output by what its command answers. -/
theorem timeInputsAndOutputsTakeEffect : Obligations.TimeInputsAndOutputsTakeEffect := by
  refine ⟨fun s i frac hs hi hf => ppsEdge_latches hs hi hf, fun s cs bit hs he hc hp => ?_,
    fun s cs sec ofs hs he hc hp => timeOfDayMessage_labels hs he hc hp, fun s i e hs hi hv he hg => todMessageTimeout_drops hs hi hv he hg,
    fun s i hs hi hn hu hg => ppsMissing_notes hs hi hn hu hg, fun s src ppb hs h => ?_, fun s r hs hr hg => ?_, fun s e hs he hg => ?_,
    fun s hs he ho h1 h2 => ppsOutPulse_starts hs he ho h1 h2, fun s n hs hn => timeSecRead_latches hs hn,
    fun s v hs hv => appofsWrite_takes hs hv⟩
  · have hlog : s.Logged (s.todError bit) := s.logged_event ..
    have htime : (s.todError bit).time = s.time := by rw [hlog.rest]
    exact ⟨_, timeOfDayMessage_unparsed hs he hc hp, htime, hlog.getF _ Reg.noConfusion⟩
  · obtain ⟨t, hans, hfreq, hrest⟩ := frequencyWindow_takes ppb hs h
    exact ⟨t, hans, hfreq.trans (ite_of_iff (by simp [freqOk]) ..), hrest⟩
  · exact ⟨_, (exec_ppsOutPulseEnd s).trans (State.when_of hs (by simp [hr, hg])), rfl⟩
  · exact ⟨_, (exec_beatTracePulseEnd s).trans (State.when_of hs (by simp [he, hg])), rfl⟩

end Sys2Proof.Machine

namespace Sys2Proof.Machine

/-! # Vector rows on registers (R114, R118, R142, R567 to R573) -/

theorem exec_vadd (p i : Nat) (s : State) : exec (.vadd p i) s = execVadd p i s := rfl
theorem exec_vsub (p i : Nat) (s : State) : exec (.vsub p i) s = execVsub p i s := rfl
theorem exec_vshl (p i : Nat) (s : State) : exec (.vshl p i) s = execVshl p i s := rfl
theorem exec_vadds (p i : Nat) (s : State) : exec (.vadds p i) s = execVadds p i s := rfl
theorem exec_vsubs (p i : Nat) (s : State) : exec (.vsubs p i) s = execVsubs p i s := rfl
theorem exec_vmul (p i : Nat) (s : State) : exec (.vmul p i) s = execVmul p i s := rfl
theorem exec_vfma (p i : Nat) (s : State) : exec (.vfma p i) s = execVfma p i s := rfl
theorem exec_vdot (p i : Nat) (s : State) : exec (.vdot p i) s = execVdot p i s := rfl
theorem exec_vsra (p i : Nat) (s : State) : exec (.vsra p i) s = execVsra p i s := rfl
theorem exec_vand (p i : Nat) (s : State) : exec (.vand p i) s = execVand p i s := rfl
theorem exec_vor (p i : Nat) (s : State) : exec (.vor p i) s = execVor p i s := rfl
theorem exec_vxor (p i : Nat) (s : State) : exec (.vxor p i) s = execVxor p i s := rfl
theorem exec_vmin (p i : Nat) (s : State) : exec (.vmin p i) s = execVmin p i s := rfl
theorem exec_vmax (p i : Nat) (s : State) : exec (.vmax p i) s = execVmax p i s := rfl
theorem exec_vsel (p i : Nat) (s : State) : exec (.vsel p i) s = execVsel p i s := rfl
theorem exec_vrcp (p i : Nat) (s : State) : exec (.vrcp p i) s = execVrcp p i s := rfl
theorem exec_vrsq (p i : Nat) (s : State) : exec (.vrsq p i) s = execVrsq p i s := rfl
theorem exec_vexp2 (p i : Nat) (s : State) : exec (.vexp2 p i) s = execVexp2 p i s := rfl
theorem exec_vlog2 (p i : Nat) (s : State) : exec (.vlog2 p i) s = execVlog2 p i s := rfl
theorem exec_vsid (p i : Nat) (s : State) : exec (.vsid p i) s = execVsid p i s := rfl
theorem exec_vbcst (p i : Nat) (s : State) : exec (.vbcst p i) s = execVbcst p i s := rfl
theorem exec_vcvt (p i : Nat) (s : State) : exec (.vcvt p i) s = execVcvt p i s := rfl
theorem exec_vcmac (p i : Nat) (s : State) : exec (.vcmac p i) s = execVcmac p i s := rfl
theorem exec_vbf4 (p i : Nat) (s : State) : exec (.vbf4 p i) s = execVbf4 p i s := rfl
theorem exec_vbex (p i : Nat) (s : State) : exec (.vbex p i) s = execVbex p i s := rfl
theorem exec_vmova (p i : Nat) (s : State) : exec (.vmova p i) s = execVmova p i s := rfl
theorem exec_vred (p i : Nat) (s : State) : exec (.vred p i) s = execVred p i s := rfl
theorem exec_vscan (p i : Nat) (s : State) : exec (.vscan p i) s = execVscan p i s := rfl
theorem exec_vcni (p i : Nat) (s : State) : exec (.vcni p i) s = execVcni p i s := rfl
theorem exec_vcnu (p i : Nat) (s : State) : exec (.vcnu p i) s = execVcnu p i s := rfl
theorem exec_vcno (p i : Nat) (s : State) : exec (.vcno p i) s = execVcno p i s := rfl
theorem exec_vcmp (p i : Nat) (s : State) : exec (.vcmp p i) s = execVcmp p i s := rfl

/-! ## What a vector row leaves of its core -/

namespace Core.VecFrame

theorem refl (c : Core) (x : Iss) : c.VecFrame c x := ⟨rfl, by split <;> rfl, by split <;> rfl, fun _ _ => rfl, fun _ _ => rfl⟩

theorem trans {c d e : Core} {x : Iss} (h : c.VecFrame d x) (g : d.VecFrame e x) : c.VecFrame e x where
  rest := by rw [g.rest, h.rest]
  side0 := by
    rw [g.side0, h.side0]
    split <;> rfl
  side1 := by
    rw [g.side1, h.side1]
    split <;> rfl
  threads j hj := (g.threads j hj).trans (h.threads j hj)
  plaits n hn := (g.plaits n hn).trans (h.plaits n hn)

/-- A core whose sides, threads and plaits stay. -/
theorem of_rest {c d : Core} (x : Iss) (h : d = { c with residents := d.residents, spCheck := d.spCheck }) : c.VecFrame d x := by
  have ht : d.t = c.t := by rw [h]
  have hr : d.r = c.r := by rw [h]
  have hth : d.threads = c.threads := by rw [h]
  have hp : d.plaits = c.plaits := by rw [h]
  refine ⟨by rw [h], ?_, ?_, fun j _ => by unfold Core.thread; rw [hth], fun n _ => by unfold Core.plait; rw [hp]⟩
  · rw [ht]; split <;> rfl
  · rw [hr]; split <;> rfl

theorem setThread (c : Core) (x : Iss) (t : Thread) : c.VecFrame (c.setThread x.i t) x := by
  refine ⟨rfl, by split <;> rfl, by split <;> rfl, fun j hj => ?_, fun n hn => rfl⟩
  rw [Core.thread_setThread, if_neg hj]

theorem setPlait (c : Core) {x : Iss} (q : Plait) (hi : ¬ x.i < 16) : c.VecFrame (c.setPlait (x.i - 16) q) x := by
  refine ⟨rfl, by split <;> rfl, by split <;> rfl, fun j _ => rfl, fun n hn => ?_⟩
  rw [Core.plait_setPlait, if_neg (by omega)]

theorem setBank (c : Core) {x : Iss} (b : VBank) (hi : x.i < 16) : c.VecFrame (c.setSide x.k { c.side x.k with bank := b }) x := by
  by_cases hk : x.k = 0
  · rw [Core.setSide, if_pos hk]
    refine ⟨rfl, ?_, ?_, fun j _ => rfl, fun n _ => rfl⟩
    · rw [if_pos ⟨hi, hk⟩, Core.side, if_pos hk]
    · rw [if_neg fun h => h.2 hk]
  · rw [Core.setSide, if_neg hk]
    refine ⟨rfl, ?_, ?_, fun j _ => rfl, fun n _ => rfl⟩
    · rw [if_neg fun h => hk h.2]
    · rw [if_pos ⟨hi, hk⟩, Core.side, if_neg hk]

end Core.VecFrame

theorem State.vecFrame_setPc (s : State) (x : Iss) (pc : Nat) : (s.core x.p).VecFrame ((s.setPc x pc).core x.p) x := by
  unfold State.setPc
  split
  · rw [State.core_modThread, if_pos rfl]; exact .setThread ..
  · next hi => rw [State.core_modPlait, if_pos rfl]; exact .setPlait _ _ hi

theorem State.vecFrame_wrS (s : State) (x : Iss) (n : Nat) (v : Word) : (s.core x.p).VecFrame ((s.wrS x n v).core x.p) x := by
  unfold State.wrS
  split
  · rw [State.core_modThread, if_pos rfl]; exact .setThread ..
  · exact .refl ..

theorem State.vecFrame_setBank (s : State) (x : Iss) (b : VBank) : (s.core x.p).VecFrame ((s.setBank x b).core x.p) x := by
  unfold State.setBank
  split
  · next hi => rw [State.core_modCore, if_pos rfl]; exact .setBank _ _ hi
  · next hi => rw [State.core_modPlait, if_pos rfl]; exact .setPlait _ _ hi

theorem State.vecFrame_flagCmd (s : State) (x : Iss) (p k cmd : Nat) (fl : Flags) :
    (s.core x.p).VecFrame ((s.flagCmd p k cmd fl).core x.p) x :=
  .of_rest x (by rw [State.core_flagCmd])

/-- The scalar register of a vector row's output, where it has one. -/
def State.writeSr (s : State) (x : Iss) (o : VOut) : State :=
  match o.sr with
  | some v => s.wrS x x.v.sr v
  | none => s

theorem State.vout_eq (s : State) (x : Iss) (o : VOut) :
    s.vout x o = (((({ s with free := o.free } : State).setBank x o.bank).flagCmd x.p x.k x.cmd o.flags).writeSr x o).advance x := rfl

theorem State.vecFrame_writeSr (s : State) (x : Iss) (o : VOut) : (s.core x.p).VecFrame ((s.writeSr x o).core x.p) x := by
  unfold State.writeSr
  split
  · exact s.vecFrame_wrS ..
  · exact .refl ..

/-- What a vector row's output leaves of its issuer's core. -/
theorem State.vecFrame_vout (s : State) (x : Iss) (o : VOut) : (s.core x.p).VecFrame ((s.vout x o).core x.p) x := by
  rw [State.vout_eq]
  exact (State.vecFrame_setBank ({ s with free := o.free }) x o.bank).trans
    ((State.vecFrame_flagCmd ..).trans ((State.vecFrame_writeSr ..).trans (State.vecFrame_setPc ..)))

theorem State.Touches.setBank (s : State) (x : Iss) (b : VBank) (rs : List Reg) : s.Touches (s.setBank x b) x.p rs := by
  unfold State.setBank; split <;> exact modCore ..

theorem State.Touches.writeSr (s : State) (x : Iss) (o : VOut) (rs : List Reg) : s.Touches (s.writeSr x o) x.p rs := by
  unfold State.writeSr
  split
  · exact .wrS ..
  · exact .refl ..

theorem State.Touches.vout (s : State) (x : Iss) (o : VOut) :
    ({ s with free := o.free } : State).Touches (s.vout x o) x.p [.coreAflags x.p x.k] := by
  rw [State.vout_eq]
  exact (State.Touches.setBank ..).trans ((State.Touches.flagCmd _ _ _ _ _ List.mem_cons_self).trans ((State.Touches.writeSr ..).trans (.setPc ..)))

/-- What a vector instruction updates after its fetch, seen from the state before the fetch (R186). -/
theorem State.Touches.coreFrame_free {s u : State} {p a : Nat} {rs : List Reg} {fr : Nat}
    (h : ({ s.spCorrect p a 8 with free := fr } : State).Touches u p rs) : s.CoreFrame (s.keep u) p [(a, 8)] rs := by
  obtain ⟨frest, fcores, -, fregs⟩ := State.spCorrect_frame s p a 8
  refine ⟨?_, fun q hq => (h.cores q hq).trans (fcores q hq), fun r hr he => (h.regs r hr).trans (fregs r he), fun hc => ?_⟩
  · rw [h.rest, frest]; rfl
  · rw [State.spCorrect_clean s p a 8 (hc _ (List.mem_singleton.mpr rfl))] at h
    exact ⟨by rw [h.rest]; rfl, by rw [h.rest]; rfl, h.regs⟩

/-! ## What its issuer reads, and its own pc and registers -/

@[simp] theorem State.spCorrect_strandId (s : State) (p a n : Nat) (x : Iss) : (s.spCorrect p a n).strandId x = s.strandId x := by
  funext field lane
  simp only [State.strandId, State.spCorrect_plait, State.spCorrect_resident]

theorem State.spCorrect_free (s : State) (p a n : Nat) : (s.spCorrect p a n).free = s.free := by
  rw [(State.spCorrect_frame s p a n).1]

@[simp] theorem State.spCorrect_vin (s : State) (p a n : Nat) (x : Iss) : (s.spCorrect p a n).vin x = s.vin x := by
  simp only [State.vin, State.spCorrect_bank, State.spCorrect_onLanes, State.spCorrect_amode, State.spCorrect_sval, State.spCorrect_strandId,
    State.spCorrect_free]

theorem State.thread_setBank (s : State) {x : Iss} (hi : x.i < 16) (b : VBank) (n : Nat) :
    ((s.setBank x b).core x.p).thread n = (s.core x.p).thread n := by
  rw [State.setBank, if_pos hi, State.core_modCore, if_pos rfl, Core.thread_setSide]

theorem State.thread_flagCmd (s : State) (p k cmd : Nat) (fl : Flags) (q n : Nat) :
    ((s.flagCmd p k cmd fl).core q).thread n = (s.core q).thread n := by
  rw [State.core_flagCmd]; rfl

/-- The issuing thread of a vector row goes on, its SR written where the row has one. -/
theorem State.thread_vout (s : State) {x : Iss} (hi : x.i < 16) (o : VOut) :
    ((s.vout x o).core x.p).thread x.i = { (match o.sr with
      | some v => ((s.core x.p).thread x.i).setReg x.v.sr v
      | none => (s.core x.p).thread x.i) with pc := x.pc + 8 } := by
  have hsr : ∀ u : State, (u.core x.p).thread x.i = (s.core x.p).thread x.i → ((u.writeSr x o).core x.p).thread x.i = (match o.sr with
      | some v => ((s.core x.p).thread x.i).setReg x.v.sr v
      | none => (s.core x.p).thread x.i) := by
    intro u hu
    unfold State.writeSr
    cases o.sr with
    | none => exact hu
    | some v => simp only [State.wrS_thread hi, State.core_modThread, if_pos, Core.thread_setThread, hu]
  rw [State.vout_eq, State.advance_thread hi, State.core_modThread, if_pos rfl, Core.thread_setThread, if_pos rfl, hsr]
  rw [State.thread_flagCmd, State.thread_setBank _ hi]
  rfl

theorem State.plait_vout_pc (s : State) {x : Iss} (hi : ¬ x.i < 16) (o : VOut) : (((s.vout x o).core x.p).plait (x.i - 16)).pc = x.pc + 8 := by
  rw [State.vout_eq, State.advance_plait hi, State.core_modPlait, if_pos rfl, Core.plait_setPlait, if_pos rfl]

theorem State.residents_setPc (s : State) (x : Iss) (pc p : Nat) : ((s.setPc x pc).core p).residents = (s.core p).residents := by
  unfold State.setPc
  split
  · rw [State.core_modThread]; split
    · next h => rw [h]; rfl
    · rfl
  · rw [State.core_modPlait]; split
    · next h => rw [h]; rfl
    · rfl

theorem State.residents_writeSr (s : State) (x : Iss) (o : VOut) (p : Nat) : ((s.writeSr x o).core p).residents = (s.core p).residents := by
  unfold State.writeSr State.wrS
  split
  · split
    · rw [State.core_modThread]; split
      · next h => rw [h]; rfl
      · rfl
    · rfl
  · rfl

theorem State.residents_setBank (s : State) (x : Iss) (b : VBank) (p : Nat) : ((s.setBank x b).core p).residents = (s.core p).residents := by
  unfold State.setBank
  split
  · rw [State.core_modCore]; split
    · next h => rw [h]; unfold Core.setSide; split <;> rfl
    · rfl
  · rw [State.core_modPlait]; split
    · next h => rw [h]; rfl
    · rfl

/-- A vector row sets the flags of its output (R55, R56). -/
theorem State.flagged_vout (s : State) (x : Iss) (o : VOut) : s.Flagged (s.vout x o) x.p x.k x.cmd o.flags := by
  rw [State.vout_eq]
  refine (State.flagged_flagCmd (({ s with free := o.free } : State).setBank x o.bank) x.p x.k x.cmd o.flags).congr ?_
    (State.residents_setBank ..) ?_ ?_
  · exact (State.Touches.setBank ({ s with free := o.free }) x o.bank []).regs _ List.not_mem_nil
  · exact (((State.Touches.writeSr _ x o []).trans (.setPc ..)).regs _ List.not_mem_nil)
  · exact (State.residents_setPc ..).trans (State.residents_writeSr ..)

theorem State.free_vout (s : State) (x : Iss) (o : VOut) : (s.vout x o).free = o.free := by
  rw [(State.Touches.vout s x o).rest]

/-! ## The rows -/

/-- A row whose effect is the output that f makes of what its issuer reads. -/
theorem vectorRow_of {row : Nat → Nat → Instr} {op : Nat} {legal : State → Iss → Bool} {f : VIn → VOut}
    (hexec : ∀ p i s, exec (row p i) s = instr p i 2 op legal (fun s x => s.vout x (f (s.vin x))) s) : vectorRow row op legal f := by
  intro s p i x h hl
  obtain ⟨rfl, rfl⟩ := State.iss_pi h.next
  refine ⟨_, (hexec ..).trans (instr_legal h hl), ?_⟩
  rw [State.spCorrect_vin]
  generalize f (s.vin x) = o
  refine ⟨(State.Touches.vout ..).coreFrame_free, ?_, State.bank_vout .., State.free_vout .., ?_, fun hi => ?_,
    fun hi => State.plait_vout_pc _ (by omega) o⟩
  · refine Core.VecFrame.trans (.of_rest x ?_) (State.vecFrame_vout (s.spCorrect x.p x.pc 8) x o)
    rw [State.spCorrect_core]
  · exact ((State.flagged_vout ..).fetched).congr rfl rfl rfl rfl
  · rw [State.core_keep, State.thread_vout _ hi, State.spCorrect_thread]
    refine ⟨rfl, fun m => ?_⟩
    cases o.sr with
    | none => exact (ite_self _).symm
    | some v => exact (Thread.reg_setReg ..).trans (ite_of_iff (by constructor <;> rintro ⟨rfl, hn⟩ <;> exact ⟨rfl, hn⟩) ..)

/-- Settles O8: every row on lanes is its function on what its issuer reads. -/
theorem vectorRowsWriteActiveLanes : Obligations.VectorRowsWriteActiveLanes :=
  ⟨vectorRow_of exec_vadd, vectorRow_of exec_vsub, vectorRow_of exec_vshl, vectorRow_of exec_vadds, vectorRow_of exec_vsubs,
    vectorRow_of exec_vmul, vectorRow_of exec_vfma, vectorRow_of exec_vdot, vectorRow_of exec_vsra, vectorRow_of exec_vand,
    vectorRow_of exec_vor, vectorRow_of exec_vxor, vectorRow_of exec_vmin, vectorRow_of exec_vmax, vectorRow_of exec_vsel,
    vectorRow_of exec_vrcp, vectorRow_of exec_vrsq, vectorRow_of exec_vexp2, vectorRow_of exec_vlog2, vectorRow_of exec_vsid,
    vectorRow_of exec_vbcst⟩

/-- Settles O10: the other rows on registers likewise, and the lanes that a row on lanes keeps. -/
theorem vectorRowsKeepOtherLanesAndState : Obligations.VectorRowsKeepOtherLanesAndState := by
  refine ⟨⟨vectorRow_of exec_vcmp, vectorRow_of exec_vcvt, vectorRow_of exec_vcmac, vectorRow_of exec_vbf4, vectorRow_of exec_vbex,
    vectorRow_of exec_vmova, vectorRow_of exec_vperm4, vectorRow_of exec_vred, vectorRow_of exec_vscan, vectorRow_of exec_vcni,
    vectorRow_of exec_vcnu, vectorRow_of exec_vcno⟩, fun i d g => ⟨fun l => i.lanes_reg d g l, fun r => i.lanes_reg_other g,
    fun k => VBank.mask_setReg .., fun n => VBank.vacc_setReg .., fun h => ?_⟩⟩
  exact (congrArg (fun on => laneFlags on fun l => (g l).2) h).trans (laneFlags_none _)

end Sys2Proof.Machine

namespace Sys2Proof.Machine

/-! # Vector memory rows (R123 to R125, R170, R570) -/

theorem exec_vld (p i : Nat) (s : State) : exec (.vld p i) s = execVld p i s := rfl
theorem exec_vst (p i : Nat) (s : State) : exec (.vst p i) s = execVst p i s := rfl
theorem exec_vlds (p i : Nat) (s : State) : exec (.vlds p i) s = execVlds p i s := rfl
theorem exec_vsts (p i : Nat) (s : State) : exec (.vsts p i) s = execVsts p i s := rfl
theorem exec_vgth (p i : Nat) (s : State) : exec (.vgth p i) s = execVgth p i s := rfl
theorem exec_vsct (p i : Nat) (s : State) : exec (.vsct p i) s = execVsct p i s := rfl
theorem exec_vatom (p i : Nat) (s : State) : exec (.vatom p i) s = execVatom p i s := rfl

/-! ## What an issuer addresses does not depend on corrections -/

@[simp] theorem State.spCorrect_vAddr (s : State) (p a n : Nat) (x : Iss) (l : Nat) : (s.spCorrect p a n).vAddr x l = s.vAddr x l := by
  simp only [State.vAddr, State.spCorrect_sval]

@[simp] theorem State.spCorrect_vfmt (s : State) (p a n : Nat) (x : Iss) : (s.spCorrect p a n).vfmt x = s.vfmt x := rfl

@[simp] theorem State.spCorrect_stridedElt (s : State) (p a n : Nat) (x : Iss) (f : Fmt) (l : Nat) :
    (s.spCorrect p a n).stridedElt x f l = s.stridedElt x f l := by
  simp only [State.stridedElt, State.spCorrect_sval]

/-! ## The issuer after a load is under way -/

/-- The issuer's own state but its pc and its loads. -/
theorem State.bank_advance (s : State) (x : Iss) : (s.advance x).bank x = s.bank x := State.bank_setPc ..

theorem State.bank_addLoad (s : State) (x : Iss) (l : Load) : (s.addLoad x l).bank x = s.bank x := by
  unfold State.addLoad State.modThread State.modPlait
  split <;> exact State.bank_congr (by simp) (by simp)

theorem State.bank_of_core {s t : State} {x : Iss} (h : t.core x.p = { s.core x.p with
    sp := (t.core x.p).sp, spCheck := (t.core x.p).spCheck, residents := (t.core x.p).residents }) : t.bank x = s.bank x :=
  State.bank_congr (by rw [h]; rfl) (by rw [h]; rfl)

theorem pcOf_advance (s : State) (x : Iss) : pcOf (s.advance x) x = x.pc + 8 := by
  unfold pcOf
  split
  · next hi => rw [State.advance_thread hi, State.core_modThread, if_pos rfl, Core.thread_setThread, if_pos rfl]
  · next hi => rw [State.advance_plait hi, State.core_modPlait, if_pos rfl, Core.plait_setPlait, if_pos rfl]

theorem loadsOf_advance (s : State) (x : Iss) : loadsOf (s.advance x) x = loadsOf s x := by
  unfold loadsOf
  split
  · next hi => rw [State.advance_thread hi, State.core_modThread, if_pos rfl, Core.thread_setThread, if_pos rfl]
  · next hi => rw [State.advance_plait hi, State.core_modPlait, if_pos rfl, Core.plait_setPlait, if_pos rfl]

theorem loadsOf_addLoad (s : State) (x : Iss) (l : Load) : loadsOf (s.addLoad x l) x = loadsOf s x ++ [l] := by
  unfold loadsOf State.addLoad
  split
  · rw [State.core_modThread, if_pos rfl, Core.thread_setThread, if_pos rfl]
  · rw [State.core_modPlait, if_pos rfl, Core.plait_setPlait, if_pos rfl]

/-- The loads of an issuer are read from its thread or plait alone. -/
theorem loadsOf_of_core {s t : State} {x : Iss} (h : t.core x.p = { s.core x.p with
    sp := (t.core x.p).sp, spCheck := (t.core x.p).spCheck, residents := (t.core x.p).residents }) : loadsOf t x = loadsOf s x := by
  unfold loadsOf Core.thread Core.plait; rw [h]

/-- Of a scratchpad, going on and adding a load change nothing. -/
theorem State.sp_advance (s : State) (x : Iss) : ((s.advance x).core x.p).sp = (s.core x.p).sp := by
  unfold State.advance State.setPc
  split
  · rw [State.core_modThread, if_pos rfl]; rfl
  · rw [State.core_modPlait, if_pos rfl]; rfl

theorem State.sp_addLoad (s : State) (x : Iss) (l : Load) : ((s.addLoad x l).core x.p).sp = (s.core x.p).sp := by
  unfold State.addLoad
  split
  · rw [State.core_modThread, if_pos rfl]; rfl
  · rw [State.core_modPlait, if_pos rfl]; rfl

theorem State.sp_flagCmd (s : State) (p k cmd : Nat) (fl : Flags) (q : Nat) : ((s.flagCmd p k cmd fl).core q).sp = (s.core q).sp := by
  rw [State.core_flagCmd]

/-! ## Loads -/

/-- The lanes that a vector load brings. -/
def loadData (on : BitVec 64) (v : Nat → Nat) : Nat := packNat 32 ((List.range 64).map fun l => if on.getLsbD l then v l else 0)

theorem laneOf_loadData (on : BitVec 64) (v : Nat → Nat) {n : Nat} (hn : n < 64) :
    laneOf (BitVec.ofNat 2048 (loadData on v)) n = if on.getLsbD n then v n % 2 ^ 32 else 0 := by
  refine (laneOf_ofLanes (fun l => if on.getLsbD l then v l else 0) n hn).trans ?_
  split <;> rfl

/-- A core whose corrected ranges and flags are the only changes. -/
theorem State.correctSpans_flagCmd_core (s : State) (p k cmd : Nat) (spans : List (Nat × Nat)) (fl : Flags) :
    let t := (s.correctSpans p spans).flagCmd p k cmd fl
    t.core p = { s.core p with sp := (t.core p).sp, spCheck := (t.core p).spCheck, residents := (t.core p).residents } ∧
    (t.core p).sp = (s.core p).sp := by
  dsimp only
  have hflag := State.core_flagCmd (s.correctSpans p spans) p k cmd fl p
  constructor
  · rw [hflag, State.correctSpans_core]
  · rw [hflag, State.correctSpans_core]

/-- A row whose effect is a load of the active lanes (R123, R170). -/
theorem vectorLoad_of {row : Nat → Nat → Instr} {op : Nat} {legal : State → Iss → Bool} {span : State → Iss → Nat → Nat × Nat}
    {v : State → Iss → Nat → Nat × Flags} {val : State → Iss → Nat → Nat}
    (hexec : ∀ p i s, exec (row p i) s =
      instr p i 2 op legal (fun s x => s.vload x ((lanesOn (s.onLanes x)).map (span s x)) (v s x)) s)
    (hspan : ∀ s x, span (s.spCorrect x.p x.pc 8) x = span s x) (hval : ∀ s x l, (v (s.spCorrect x.p x.pc 8) x l).1 = val s x l) :
    vectorLoad row op legal span val := by
  intro s p i x h hl hr
  obtain ⟨rfl, rfl⟩ := State.iss_pi h.next
  have hfault := State.readFault_fetched (a := x.pc) (n := 8) hr
  obtain ⟨hcore, hsp⟩ := s.correctSpans_flagCmd_core x.p x.k x.cmd ((x.pc, 8) :: (lanesOn (s.onLanes x)).map (span s x))
    (laneFlags (s.onLanes x) fun l => (v (s.spCorrect x.p x.pc 8) x l).2)
  generalize hu : (s.correctSpans x.p ((x.pc, 8) :: (lanesOn (s.onLanes x)).map (span s x))).flagCmd x.p x.k x.cmd
    (laneFlags (s.onLanes x) fun l => (v (s.spCorrect x.p x.pc 8) x l).2) = u at hcore hsp
  have hans : exec (row x.p x.i) s =
      .next (s.keep ((u.addLoad x ⟨.vector x.v.d, loadData (s.onLanes x) (val s x), s.onLanes x⟩).advance x)) := by
    refine ((hexec ..).trans (instr_legal h hl)).trans ?_
    simp only [State.spCorrect_onLanes, hspan, State.vload, hfault, hval, ← hu]
    rfl
  refine ⟨_, ⟨.vector x.v.d, loadData (s.onLanes x) (val s x), s.onLanes x⟩, hans, ?_, fun a => ?_, ?_, pcOf_advance .., ?_, rfl, rfl,
    fun n hn => laneOf_loadData (s.onLanes x) (val s x) hn⟩
  · rw [← hu]
    exact ((State.Touches.flagCmd _ _ _ _ _ List.mem_cons_self).trans ((State.Touches.addLoad ..).trans (.setPc ..))).coreFrame_spans
  · rw [State.spByte, State.spByte, State.core_keep, State.sp_advance, State.sp_addLoad, hsp]
  · exact (State.bank_advance ..).trans ((State.bank_addLoad ..).trans (State.bank_of_core hcore))
  · exact (loadsOf_advance ..).trans ((loadsOf_addLoad ..).trans (by rw [loadsOf_of_core hcore]))

/-! ## Stores -/

/-- Writes one after the other, each of bytes that may depend on those before (R124). -/
def spWrites (ls : List Nat) (addr : Nat → Nat) (bytes : Memory → Nat → List Byte) (c : Core) : Core :=
  ls.foldl (fun c l => c.spWrite (addr l) (bytes c.sp l)) c

theorem spWrites_sp (ls : List Nat) (addr : Nat → Nat) (bytes : Memory → Nat → List Byte) (c : Core) :
    (spWrites ls addr bytes c).sp = ls.foldl (fun m l => m.write (addr l) (bytes m l)) c.sp := by
  unfold spWrites
  induction ls generalizing c with
  | nil => rfl
  | cons l ls ih => rw [List.foldl_cons, List.foldl_cons, ih]; rfl

theorem spWrites_core (ls : List Nat) (addr : Nat → Nat) (bytes : Memory → Nat → List Byte) (c : Core) :
    spWrites ls addr bytes c =
      { c with sp := (spWrites ls addr bytes c).sp, spCheck := (spWrites ls addr bytes c).spCheck } := by
  unfold spWrites
  induction ls generalizing c with
  | nil => rfl
  | cons l ls ih => rw [List.foldl_cons, ih]; rfl

/-- Bytes outside every range that is written stay. -/
theorem writes_outside {addr : Nat → Nat} {bytes : Memory → Nat → List Byte} {len : Nat → Nat} (hlen : ∀ m l, (bytes m l).length ≤ len l)
    (ls : List Nat) (m : Memory) (a : Nat) (ha : ∀ l ∈ ls, a < addr l ∨ addr l + len l ≤ a) :
    (ls.foldl (fun m l => m.write (addr l) (bytes m l)) m).byte a = m.byte a := by
  induction ls generalizing m with
  | nil => rfl
  | cons l ls ih =>
    rw [List.foldl_cons, ih _ fun k hk => ha k (List.mem_cons_of_mem _ hk)]
    have := hlen m l
    exact Memory.byte_write_outside _ _ _ _ ((ha l List.mem_cons_self).imp_right fun h => by omega)

/-- A row whose effect is writes of the active lanes in ascending order (R123, R124). -/
theorem vectorStore_of {row : Nat → Nat → Instr} {op : Nat} {legal : State → Iss → Bool} {span : State → Iss → Nat → Nat × Nat}
    {bytes : State → Iss → Memory → Nat → List Byte} {fl : State → Iss → Flags} {write : State → Iss → Core → Core}
    (hans : ∀ s x, s.Issues x.p x.i 2 op x → legal s x = true → exec (row x.p x.i) s = .next (s.keep ((s.spCorrect x.p x.pc 8).vstore x
      ((lanesOn (s.onLanes x)).map (span s x)) (fl s x) (write s x))))
    (hwrite : ∀ s x, write s x = spWrites (lanesOn (s.onLanes x)) (fun l => (span s x l).1) (bytes s x))
    (hlen : ∀ s x m l, (bytes s x m l).length ≤ (span s x l).2) :
    vectorStore row op legal (fun s x => (lanesOn (s.onLanes x)).map (span s x)) write := by
  intro s p i x h hl hw
  obtain ⟨rfl, rfl⟩ := State.iss_pi h.next
  have hfault := State.writeFault_fetched (a := x.pc) (n := 8) hw
  have hcore := spWrites_core (lanesOn (s.onLanes x)) (fun l => (span s x l).1) (bytes s x) ((s.spCorrect x.p x.pc 8).core x.p)
  have hbytes : (write s x ((s.spCorrect x.p x.pc 8).core x.p)).sp = (write s x (s.core x.p)).sp := by
    rw [hwrite, spWrites_sp, spWrites_sp, State.spCorrect_sp]
  rw [← hwrite] at hcore
  generalize hu : ((s.spCorrect x.p x.pc 8).modCore x.p (write s x)).flagCmd x.p x.k x.cmd (fl s x) = u
  have hucore : u.core x.p = { s.core x.p with sp := (u.core x.p).sp, spCheck := (u.core x.p).spCheck, residents := (u.core x.p).residents } := by
    rw [← hu, State.core_flagCmd, State.core_modCore, if_pos rfl, hcore, State.spCorrect_core]
  have husp : (u.core x.p).sp = (write s x (s.core x.p)).sp := by
    rw [← hu, State.sp_flagCmd, State.core_modCore, if_pos rfl, hbytes]
  have hnext : exec (row x.p x.i) s = .next (s.keep (u.advance x)) := by
    refine (hans s x h hl).trans ?_
    rw [State.vstore, hfault, ← hu]
  refine ⟨_, hnext, ?_, ?_, pcOf_advance .., ?_, fun a ha => ?_⟩
  · rw [← hu]
    exact ((State.Touches.modCore ..).trans ((State.Touches.flagCmd _ _ _ _ _ List.mem_cons_self).trans (.setPc ..))).coreFrame
  · exact (State.bank_advance ..).trans (State.bank_of_core hucore)
  · exact (State.sp_advance ..).trans husp
  · rw [State.spByte, State.spByte, State.core_keep, State.sp_advance, husp, hwrite, spWrites_sp]
    exact writes_outside (hlen s x) _ _ _ fun l hl => ha _ (List.mem_map_of_mem hl)

/-- The bytes that one element's store writes. -/
def elemBytes (f : Fmt) (e : Elt) (v : Nat) (m : Memory) : List Byte :=
  if f.bits < 8 then
    let old := (m.byte e.addr).toNat
    [BitVec.ofNat 8 (old - old / 2 ^ e.sub % 2 ^ f.bits * 2 ^ e.sub + v % 2 ^ f.bits * 2 ^ e.sub)]
  else leBytes (f.bits / 8) v

theorem storeElem_eq (f : Fmt) (c : Core) (e : Elt) (v : Nat) : storeElem f c e v = c.spWrite e.addr (elemBytes f e v c.sp) := by
  unfold storeElem elemBytes
  split <;> rfl

theorem Elt.span_addr (f : Fmt) (e : Elt) : (e.span f).1 = e.addr := by
  unfold Elt.span; split <;> rfl

theorem elemBytes_length (f : Fmt) (e : Elt) (v : Nat) (m : Memory) : (elemBytes f e v m).length ≤ (e.span f).2 := by
  have hlen : (elemBytes f e v m).length = if f.bits < 8 then 1 else f.bits / 8 := by
    unfold elemBytes
    split
    · rfl
    · exact leBytes_length ..
  have hspan : (e.span f).2 = if f.isBfp then f.recordBytes else (f.bits + 7) / 8 := by
    unfold Elt.span; split <;> rfl
  rw [hlen, hspan]
  cases f <;> decide

theorem storeElems_eq (f : Fmt) (ls : List Nat) (elt : Nat → Elt) (v : Nat → Nat) (c : Core) :
    ls.foldl (fun c l => storeElem f c (elt l) (v l)) c =
      spWrites ls (fun l => ((elt l).span f).1) (fun m l => elemBytes f (elt l) (v l) m) c := by
  simp only [spWrites, Elt.span_addr, storeElem_eq]

/-- What a store of elements answers (R124, R170). -/
theorem State.storeElts_fetched (s : State) (x : Iss) (elt : Nat → Elt) :
    (s.spCorrect x.p x.pc 8).storeElts x (s.vfmt x) elt =
      (s.spCorrect x.p x.pc 8).vstore x ((lanesOn (s.onLanes x)).map fun l => (elt l).span (s.vfmt x))
        (laneFlags (s.onLanes x) fun l => (narrow (s.amode x.p x.k) (s.vfmt x) ((s.bank x).reg x.v.d) l).2)
        fun c => (lanesOn (s.onLanes x)).foldl (fun c l => storeElem (s.vfmt x) c (elt l)
          (narrow (s.amode x.p x.k) (s.vfmt x) ((s.bank x).reg x.v.d) l).1) c := by
  simp only [State.storeElts, State.spCorrect_onLanes, State.spCorrect_bank, State.spCorrect_amode]

theorem vsts_nonBfp_answers {s : State} {x : Iss} (h : s.Issues x.p x.i 2 0x23 x)
    (hl : (useVlds.legal s x && !(s.vfmt x).isBfp) = true) :
    exec (.vsts x.p x.i) s = .next (s.keep ((s.spCorrect x.p x.pc 8).storeElts x (s.vfmt x) fun l => s.stridedElt x (s.vfmt x) l)) := by
  obtain ⟨hlegal, hbfp⟩ := Bool.and_eq_true_iff.1 hl
  refine ((exec_vsts ..).trans (instr_legal h (by rw [hlegal, hbfp]; rfl))).trans ?_
  have hb : (s.vfmt x).isBfp = false := by simpa using hbfp
  simp only [State.spCorrect_vfmt, hb, State.spCorrect_stridedElt, Bool.false_eq_true, if_false]

/-- Settles O11: the loads and stores by their lanes' ranges and bytes, and VSTS of block formats by its row. -/
theorem vectorMemoryRowsUseTheActiveLanes : Obligations.VectorMemoryRowsUseTheActiveLanes := by
  refine ⟨⟨vectorLoad_of exec_vld (fun s x => ?_) fun s x l => ?_, vectorLoad_of exec_vlds (fun s x => ?_) fun s x l => ?_,
    vectorLoad_of exec_vgth (fun s x => ?_) fun s x l => ?_⟩,
    vectorStore_of (fl := fun _ _ => 0) (bytes := fun s x _ l => leBytes 4 (laneOf ((s.bank x).reg x.v.d) l)) (fun s x h hl => ?_)
      (fun s x => rfl) (fun s x m l => Nat.le_of_eq (leBytes_length ..)),
    vectorStore_of (fun s x h hl => (vsts_nonBfp_answers h hl).trans (by rw [State.storeElts_fetched])) (fun s x => funext fun c => storeElems_eq ..)
      (fun s x m l => elemBytes_length ..),
    vectorStore_of (fl := fun s x => laneFlags (s.onLanes x) fun l => (narrow (s.amode x.p x.k) (s.vfmt x) ((s.bank x).reg x.v.d) l).2)
      (fun s x h hl => ((exec_vsct ..).trans (instr_legal h hl)).trans ?_) (fun s x => funext fun c => storeElems_eq ..)
      (fun s x m l => elemBytes_length ..),
    fun s p i x h hl hb hone => ?_⟩
  · funext l; rw [State.spCorrect_vAddr]
  · rw [State.spCorrect_vAddr, State.spCorrect_sp]
  · funext l; rw [State.spCorrect_stridedElt, State.spCorrect_vfmt]
  · rw [State.spCorrect_stridedElt, State.spCorrect_vfmt, State.spCorrect_sp]
  · funext l; rw [State.spCorrect_bank, State.spCorrect_vfmt]
  · rw [State.spCorrect_bank, State.spCorrect_vfmt, State.spCorrect_sp]
  · refine ((exec_vst ..).trans (instr_legal h hl)).trans ?_
    simp only [State.spCorrect_vAddr, State.spCorrect_onLanes, State.spCorrect_bank]
  · rw [State.spCorrect_vfmt, State.spCorrect_bank, State.storeElts_fetched]
  · obtain ⟨rfl, rfl⟩ := State.iss_pi h.next
    refine ((exec_vsts ..).trans (instr_legal h (by rw [hl, hone]; simp))).trans ?_
    simp only [State.spCorrect_vfmt, hb, if_true]

/-! ## Atomics -/

/-- An atomic run writes the scratchpad and its marks alone, one word a lane, and reads nothing else of the core (R125). -/
theorem atomRun_core (am : AMode) (op : Nat) (ra rb rc : BitVec 2048) (ls : List Nat) (c d : Core) (olds : SMap Nat) (fl : Flags)
    (h : d.sp = c.sp) :
    let r := atomRun am op ra rb rc ls (c, olds, fl)
    let r' := atomRun am op ra rb rc ls (d, olds, fl)
    r'.1.sp = r.1.sp ∧ r'.2 = r.2 ∧
      ∀ a, (∀ l ∈ ls, a < laneOf ra l ∨ laneOf ra l + 4 ≤ a) → r.1.sp.byte a = c.sp.byte a := by
  induction ls generalizing c d olds fl with
  | nil => exact ⟨h, rfl, fun _ _ => rfl⟩
  | cons l ls ih =>
    unfold atomRun
    dsimp only
    rw [h]
    split
    · obtain ⟨h1, h2, h3⟩ := ih c d (SMap.insert olds l (c.sp.readLE (laneOf ra l) 4))
        (fl ||| (atomNew am op (c.sp.readLE (laneOf ra l) 4) (laneOf rb l) (laneOf rc l)).2) h
      exact ⟨h1, h2, fun a ha => h3 a fun k hk => ha k (List.mem_cons_of_mem _ hk)⟩
    · generalize atomNew am op (c.sp.readLE (laneOf ra l) 4) (laneOf rb l) (laneOf rc l) = n
      obtain ⟨h1, h2, h3⟩ := ih (c.spWrite (laneOf ra l) (leBytes 4 n.1)) (d.spWrite (laneOf ra l) (leBytes 4 n.1))
        (SMap.insert olds l (c.sp.readLE (laneOf ra l) 4)) (fl ||| n.2) (congrArg (fun m => Memory.write m _ _) h)
      refine ⟨h1, h2, fun a ha => (h3 a fun k hk => ha k (List.mem_cons_of_mem _ hk)).trans ?_⟩
      exact Memory.byte_write_outside _ _ _ _ (by rw [leBytes_length]; exact ha l List.mem_cons_self)

/-- Settles O12: the words by the run over the lanes, the old values by the load that the row leaves. -/
theorem atomicsRunInLaneOrder : Obligations.AtomicsRunInLaneOrder := by
  intro s p i x h hl spans run hr hw
  obtain ⟨rfl, rfl⟩ := State.iss_pi h.next
  have hrf := State.readFault_fetched (a := x.pc) (n := 8) hr
  have hwf := State.writeFault_fetched (a := x.pc) (n := 8) hw
  obtain ⟨hsp, hrun, hout⟩ := atomRun_core (s.amode x.p x.k) (x.v.imm % 16) ((s.bank x).reg x.v.a) ((s.bank x).reg x.v.b)
    ((s.bank x).reg x.v.c) (lanesOn (s.onLanes x)) (s.core x.p) ((s.spCorrect x.p x.pc 8).core x.p) [] 0 (State.spCorrect_sp ..)
  have hans : exec (.vatom x.p x.i) s = .next (s.keep ((((((s.correctSpans x.p ((x.pc, 8) :: spans)).modCore x.p fun c =>
      { c with sp := run.1.sp }).flagCmd x.p x.k x.cmd run.2.2).addLoad x
        ⟨.vector x.v.d, packNat 32 ((List.range 64).map fun l => SMap.get 0 run.2.1 l), s.onLanes x⟩).advance x))) := by
    refine ((exec_vatom ..).trans (instr_legal h hl)).trans ?_
    simp only [State.spCorrect_bank, State.spCorrect_onLanes, State.spCorrect_amode]
    rw [hrf]
    dsimp only
    rw [hwf, hsp, hrun]
    rfl
  generalize hu : ((s.correctSpans x.p ((x.pc, 8) :: spans)).modCore x.p fun c => { c with sp := run.1.sp }).flagCmd x.p x.k x.cmd run.2.2 =
    u at hans
  have hucore : u.core x.p = { s.core x.p with sp := (u.core x.p).sp, spCheck := (u.core x.p).spCheck, residents := (u.core x.p).residents } := by
    rw [← hu, State.core_flagCmd, State.core_modCore, if_pos rfl, State.correctSpans_core]
  have husp : (u.core x.p).sp = run.1.sp := by
    rw [← hu, State.sp_flagCmd, State.core_modCore, if_pos rfl]
  have hother : ∀ q, q ≠ x.p → u.core q = s.core q := by
    intro q hq
    rw [← hu]
    exact (((State.Touches.modCore _ x.p _ [.coreAflags x.p x.k]).trans (.flagCmd _ _ _ _ _ List.mem_cons_self)).cores q hq).trans
      ((s.correctSpans_frame x.p ((x.pc, 8) :: spans)).2.1 q hq)
  refine ⟨_, ⟨.vector x.v.d, packNat 32 ((List.range 64).map fun l => SMap.get 0 run.2.1 l), s.onLanes x⟩, hans, ?_, fun a ha => ?_,
    fun q hq => ?_, ?_, pcOf_advance .., ?_, rfl, rfl, fun n hn => ?_⟩
  · exact (State.sp_advance ..).trans ((State.sp_addLoad ..).trans husp)
  · rw [State.spByte, State.spByte, State.core_keep, State.sp_advance, State.sp_addLoad, husp]
    exact hout a fun l hl => ha _ (List.mem_map_of_mem hl)
  · exact ((((State.Touches.addLoad u x _ []).trans (.setPc ..)).cores q hq)).trans (hother q hq)
  · exact (State.bank_advance ..).trans ((State.bank_addLoad ..).trans (State.bank_of_core hucore))
  · exact (loadsOf_advance ..).trans ((loadsOf_addLoad ..).trans (by rw [loadsOf_of_core hucore]))
  · exact laneOf_ofLanes (fun l => SMap.get 0 run.2.1 l) n hn

end Sys2Proof.Machine

namespace Sys2Proof.Machine

/-! # Plaits: divergence and barriers (R144 to R146) -/

theorem exec_ifP (p i : Nat) (s : State) : exec (.ifP p i) s = execIfP p i s := rfl
theorem exec_elseP (p i : Nat) (s : State) : exec (.elseP p i) s = execElseP p i s := rfl
theorem exec_endifP (p i : Nat) (s : State) : exec (.endifP p i) s = execEndifP p i s := rfl
theorem exec_loopP (p i : Nat) (s : State) : exec (.loopP p i) s = execLoopP p i s := rfl
theorem exec_brkP (p i : Nat) (s : State) : exec (.brkP p i) s = execBrkP p i s := rfl
theorem exec_contP (p i : Nat) (s : State) : exec (.contP p i) s = execContP p i s := rfl
theorem exec_endloopP (p i : Nat) (s : State) : exec (.endloopP p i) s = execEndloopP p i s := rfl
theorem exec_exitP (p i : Nat) (s : State) : exec (.exitP p i) s = execExitP p i s := rfl
theorem exec_skb (p i : Nat) (s : State) : exec (.skb p i) s = execSkb p i s := rfl
theorem exec_skbRelease (p n : Nat) (s : State) : exec (.skbRelease p n) s = execSkbRelease p n s := rfl

@[simp] theorem State.spCorrect_plaitOf (s : State) (p a n : Nat) (x : Iss) : (s.spCorrect p a n).plaitOf x = s.plaitOf x :=
  State.spCorrect_plait ..

@[simp] theorem State.spCorrect_kOf (s : State) (p a n : Nat) (x : Iss) : (s.spCorrect p a n).kOf x = s.kOf x := by
  simp only [State.kOf, State.spCorrect_plaitOf]

/-- Only a plait issues a word that is for plaits alone. -/
theorem VUse.legal_plait {u : VUse} {s : State} {x : Iss} (hu : u.plaitOnly = true) (h : u.legal s x = true) : ¬ x.i < 16 := by
  simp only [VUse.legal, hu, Iss.isThread, Bool.and_eq_true, Bool.not_true, Bool.false_or] at h
  obtain ⟨⟨⟨⟨-, hplait⟩, -⟩, -⟩, -⟩ := h
  simpa using hplait

/-- A row that leaves its plait as q, at pc. -/
theorem plaitRow_of_answers {row : Nat → Nat → Instr} {op : Nat} {legal : State → Iss → Bool} {g : Iss → Plait → Plait}
    (hplait : ∀ s x, legal s x = true → ¬ x.i < 16) (hans : ∀ s x, s.Issues x.p x.i 2 op x → legal s x = true → ∃ q pc,
      exec (row x.p x.i) s = .next (s.keep (((s.spCorrect x.p x.pc 8).setPlaitOf x q).setPc x pc)) ∧ { q with pc := pc } = g x (s.plaitOf x)) :
    plaitRow row op legal g := by
  intro s p i x h hl
  obtain ⟨rfl, rfl⟩ := State.iss_pi h.next
  have hi := hplait s x hl
  obtain ⟨q, pc, he, hq⟩ := hans s x h hl
  refine ⟨_, he, ((State.Touches.modCore ..).trans (.setPc ..)).coreFrame, ?_, fun n hn => ?_, ?_⟩ <;>
    rw [State.core_keep, State.setPc, if_neg hi, State.core_modPlait, if_pos rfl, State.setPlaitOf, State.core_modPlait, if_pos rfl]
  · rw [State.spCorrect_core]; rfl
  · rw [Core.plait_setPlait, if_neg hn, Core.plait_setPlait, if_neg hn, State.spCorrect_plait]
  · rw [Core.plait_setPlait, if_pos rfl, Core.plait_setPlait, if_pos rfl]
    exact hq

theorem plaitRow_of {row : Nat → Nat → Instr} {op : Nat} {legal : State → Iss → Bool} {eff : State → Iss → State} {g : Iss → Plait → Plait}
    (hexec : ∀ p i s, exec (row p i) s = instr p i 2 op legal eff s) (hplait : ∀ s x, legal s x = true → ¬ x.i < 16)
    (heff : ∀ s x, legal s x = true → ∃ q pc, eff (s.spCorrect x.p x.pc 8) x = ((s.spCorrect x.p x.pc 8).setPlaitOf x q).setPc x pc ∧
      { q with pc := pc } = g x (s.plaitOf x)) : plaitRow row op legal g :=
  plaitRow_of_answers hplait fun s x h hl => by
    obtain ⟨q, pc, he, hq⟩ := heff s x hl
    exact ⟨q, pc, by rw [hexec, instr_legal h hl, he], hq⟩

/-- EXIT with lanes that stay live takes its lanes off (R145). -/
theorem exitP_some {s : State} {x : Iss} (h : s.Issues x.p x.i 2 0x37 x) (hl : useCtl.legal s x = true)
    (hlive : (s.plaitOf x).live &&& ~~~(s.plaitOf x).active ≠ 0) :
    exec (.exitP x.p x.i) s = .next (s.keep ((((s.spCorrect x.p x.pc 8).setPlaitOf x
      { s.plaitOf x with
        live := (s.plaitOf x).live &&& ~~~(s.plaitOf x).active
        stack := exitLanes (s.plaitOf x).active (s.plaitOf x).stack
        active := 0 }).setPc x (x.pc + 8)))) := by
  refine ((exec_exitP ..).trans (instr_legal h hl)).trans ?_
  simp only [State.spCorrect_plaitOf, if_neg hlive]
  rfl

/-- EXIT of the last live lanes ends the plait (R145). -/
theorem exitP_last {s : State} {x : Iss} (h : s.Issues x.p x.i 2 0x37 x) (hl : useCtl.legal s x = true)
    (hlast : (s.plaitOf x).live &&& ~~~(s.plaitOf x).active = 0) :
    exec (.exitP x.p x.i) s = .next (s.keep ((((s.spCorrect x.p x.pc 8).setPlaitOf x
      { s.plaitOf x with live := 0, stack := exitLanes (s.plaitOf x).active (s.plaitOf x).stack, active := 0 }).advance x).plaitEnd x.p
        (x.i - 16))) := by
  refine ((exec_exitP ..).trans (instr_legal h hl)).trans ?_
  simp only [State.spCorrect_plaitOf, hlast, if_true]

/-! ## The skein barrier -/

/-- A plait read after every plait of a table has been updated. -/
theorem SMap.get_map {α : Type} (d : α) (f : α → α) (hd : f d = d) (m : SMap α) (k : Nat) :
    SMap.get d (m.map fun y => (y.1, f y.2)) k = f (SMap.get d m k) := by
  induction m with
  | nil => exact hd.symm
  | cons y m ih =>
    rw [List.map_cons, SMap.get, SMap.get, ih]
    split <;> rfl

/-- Plait y as the release of the skein of q leaves it. -/
def Plait.freed (q y : Plait) : Plait := if y.cmd = q.cmd ∧ y.skein = q.skein then { y with arrived := false } else y

theorem Plait.freed_idle (q : Plait) : q.freed .idle = .idle := by
  unfold Plait.freed; split <;> rfl

theorem Core.plait_releaseSkein (c : Core) (n m : Nat) : (c.releaseSkein n).plait m = (c.plait n).freed (c.plait m) := by
  refine Eq.trans (congrArg (fun l => SMap.get Plait.idle l m) (List.map_congr_left fun y _ => ?_))
    (SMap.get_map Plait.idle (c.plait n).freed (Plait.freed_idle _) c.plaits m)
  dsimp only
  unfold Plait.freed
  split <;> rfl

/-- Settles O13: the rows by the plait that they leave, the barrier by what it frees. -/
theorem plaitsBranchAndMeetAtBarriers : Obligations.PlaitsBranchAndMeetAtBarriers := by
  have hK : ∀ {s x} {b : Bool}, (useCtlK.legal s x && b) = true → ¬ x.i < 16 := fun h => VUse.legal_plait rfl (Bool.and_eq_true_iff.1 h).1
  have hC : ∀ {s x} {b : Bool}, (useCtl.legal s x && b) = true → ¬ x.i < 16 := fun h => VUse.legal_plait rfl (Bool.and_eq_true_iff.1 h).1
  refine ⟨⟨plaitRow_of exec_ifP (fun s x => hK) fun s x hl => ?_, plaitRow_of exec_elseP (fun s x => hC) fun s x hl => ?_,
    plaitRow_of exec_endifP (fun s x => hC) fun s x hl => ?_, plaitRow_of exec_loopP (fun s x => hC) fun s x hl => ?_,
    plaitRow_of exec_brkP (fun s x => hK) fun s x hl => ?_, plaitRow_of exec_contP (fun s x => hK) fun s x hl => ?_,
    plaitRow_of exec_endloopP (fun s x => hC) fun s x hl => ?_, plaitRow_of_answers (fun s x => hC) fun s x h hl => ?_,
    plaitRow_of exec_skb (fun s x => VUse.legal_plait rfl) fun s x hl => ?_,
    fun s p i x h hl hi hlast => ?_⟩, fun s p n hs hp hn ha hall => ?_⟩
  · exact ⟨_, _, rfl, by simp only [State.spCorrect_plaitOf, State.spCorrect_kOf]; rfl⟩
  · have htop : topIsCond (s.plaitOf x) = true := (Bool.and_eq_true_iff.1 hl).2
    cases hst : (s.plaitOf x).stack with
    | nil => simp [topIsCond, hst] at htop
    | cons r rest =>
      cases r with
      | cond saved taken => exact ⟨_, _, by simp only [State.spCorrect_plaitOf, hst]; rfl, rfl⟩
      | loop _ _ _ => simp [topIsCond, hst] at htop
  · have htop : topIsCond (s.plaitOf x) = true := (Bool.and_eq_true_iff.1 hl).2
    cases hst : (s.plaitOf x).stack with
    | nil => simp [topIsCond, hst] at htop
    | cons r rest =>
      cases r with
      | cond saved taken => exact ⟨_, _, by simp only [State.spCorrect_plaitOf, hst]; rfl, rfl⟩
      | loop _ _ _ => simp [topIsCond, hst] at htop
  · exact ⟨_, _, rfl, by simp only [State.spCorrect_plaitOf]⟩
  · exact ⟨_, _, rfl, by simp only [State.spCorrect_plaitOf, State.spCorrect_kOf]; rfl⟩
  · exact ⟨_, _, rfl, by simp only [State.spCorrect_plaitOf, State.spCorrect_kOf]; rfl⟩
  · have htop : topIsLoop (s.plaitOf x) = true := (Bool.and_eq_true_iff.1 hl).2
    cases hst : (s.plaitOf x).stack with
    | nil => simp [topIsLoop, hst] at htop
    | cons r rest =>
      cases r with
      | cond _ _ => simp [topIsLoop, hst] at htop
      | loop saved more body =>
        by_cases hmore : more = 0
        · exact ⟨_, _, by simp only [State.spCorrect_plaitOf, hst, if_pos hmore]; rfl, (if_pos hmore).symm⟩
        · exact ⟨_, _, by simp only [State.spCorrect_plaitOf, hst, if_neg hmore]; rfl, (if_neg hmore).symm⟩
  · obtain ⟨hlegal, hlive⟩ := Bool.and_eq_true_iff.1 hl
    exact ⟨_, _, exitP_some h hlegal (of_decide_eq_true hlive), rfl⟩
  · exact ⟨_, _, rfl, by simp only [State.spCorrect_plaitOf]⟩
  · obtain ⟨rfl, rfl⟩ := State.iss_pi h.next
    exact exitP_last h hl hlast
  · have hcan : (decide (p < 208) && decide (n < 256) && (s.core p).skeinArrived n) = true := by
      simp only [hp, hn, Core.skeinArrived, ha, decide_true, Bool.true_and, List.all_eq_true, Bool.or_eq_true, bne_iff_ne]
      intro y hy
      by_cases h1 : y.2.cmd = ((s.core p).plait n).cmd <;> by_cases h2 : y.2.skein = ((s.core p).plait n).skein <;>
        simp only [h1, h2, ne_eq, not_true, not_false_eq_true, true_or, or_true, false_or]
      exact hall y hy h1 h2
    have hcore : ∀ q, (s.modCore p fun c => c.releaseSkein n).core q = if q = p then (s.core p).releaseSkein n else s.core q :=
      fun q => State.core_modCore ..
    refine ⟨_, (exec_skbRelease ..).trans (State.when_of hs hcan), rfl, fun q hq => by rw [State.core_keep, hcore, if_neg hq], ?_, ?_,
      fun m hm h1 h2 => ?_, fun m hne => ?_⟩ <;> rw [State.core_keep, hcore, if_pos rfl]
    · rfl
    · rw [Core.plait_releaseSkein, Plait.freed, if_pos ⟨rfl, rfl⟩]
    · rw [Core.plait_releaseSkein, Plait.freed, if_pos ⟨h1, h2⟩]
    · rw [Core.plait_releaseSkein, Plait.freed, if_neg]
      rintro ⟨h1, h2⟩
      exact hne.elim (fun h => h h1) fun h => h h2

/-! # Matrix rows (R51, R61, R63, R77, R82, R90 to R101, R135) -/

theorem exec_mmt (p i : Nat) (s : State) : exec (.mmt p i) s = execMmt p i s := rfl
theorem exec_mwl (p i : Nat) (s : State) : exec (.mwl p i) s = execMwl p i s := rfl
theorem exec_mdr (p i : Nat) (s : State) : exec (.mdr p i) s = execMdr p i s := rfl
theorem exec_mmtComplete (p k id : Nat) (s : State) : exec (.mmtComplete p k id) s = execMmtComplete p k id s := rfl
theorem exec_mdrComplete (p k id : Nat) (s : State) : exec (.mdrComplete p k id) s = execMdrComplete p k id s := rfl
theorem exec_weightPassComplete (p k : Nat) (s : State) : exec (.weightPassComplete p k) s = execWeightPassComplete p k s := rfl

/-! ## The queue of a side (R135) -/

@[simp] theorem State.spCorrect_mmtOf (s : State) (p a n : Nat) (x : Iss) : (s.spCorrect p a n).mmtOf x = s.mmtOf x := by
  simp only [State.mmtOf, State.spCorrect_sval]
@[simp] theorem State.spCorrect_mwlOf (s : State) (p a n : Nat) (x : Iss) : (s.spCorrect p a n).mwlOf x = s.mwlOf x := by
  simp only [State.mwlOf, State.spCorrect_sval]
@[simp] theorem State.spCorrect_mdrOf (s : State) (p a n : Nat) (x : Iss) : (s.spCorrect p a n).mdrOf x = s.mdrOf x := by
  simp only [State.mdrOf, State.spCorrect_sval]

theorem State.spCorrect_nextId (s : State) (p a n : Nat) : ((s.spCorrect p a n).core p).nextId = (s.core p).nextId := by
  rw [State.spCorrect_core]

theorem mmtLegal_thread {s : State} {x : Iss} (h : mmtLegal s x = true) : x.i < 16 := by
  simp only [mmtLegal, Iss.isThread, Bool.and_eq_true, decide_eq_true_eq, and_assoc] at h
  exact h.1
theorem mwlLegal_thread {s : State} {x : Iss} (h : mwlLegal s x = true) : x.i < 16 := by
  simp only [mwlLegal, Iss.isThread, Bool.and_eq_true, decide_eq_true_eq, and_assoc] at h
  exact h.1
theorem mdrLegal_thread {s : State} {x : Iss} (h : mdrLegal s x = true) : x.i < 16 := by
  simp only [mdrLegal, Iss.isThread, Bool.and_eq_true, decide_eq_true_eq, and_assoc] at h
  exact h.1

/-- The entry that a dispatch adds to the queue. -/
def meEntryOf (c : Core) (x : Iss) (op : MeOp) : MeEntry :=
  { id := c.nextId + 1, thread := x.i, ctx := x.ctx, cmd := x.cmd, op := op, phase := .waiting, tile := 0, next := 0 }

/-- Core c with an entry added. -/
def Core.queued (c : Core) (x : Iss) (op : MeOp) : Core :=
  { c.setSide x.k { c.side x.k with meQ := (c.side x.k).meQ ++ [meEntryOf c x op] } with nextId := c.nextId + 1 }

theorem State.meDispatch_room {s : State} {x : Iss} (op : MeOp) (h : ((s.core x.p).side x.k).meQ.length < 16) :
    s.meDispatch x op = ((s.setCore x.p ((s.core x.p).queued x op)).advance x).meKick x.p x.k :=
  if_neg (Nat.not_le.2 h)

theorem State.meDispatch_full {s : State} {x : Iss} (op : MeOp) (h : 16 ≤ ((s.core x.p).side x.k).meQ.length) : s.meDispatch x op = s :=
  if_pos h

theorem Core.side_of_nextId (c : Core) (n k : Nat) : ({ c with nextId := n } : Core).side k = c.side k := rfl

theorem Core.side_queued (c : Core) (x : Iss) (op : MeOp) :
    (c.queued x op).side x.k = { c.side x.k with meQ := (c.side x.k).meQ ++ [meEntryOf c x op] } :=
  (Core.side_of_nextId ..).trans (Core.side_setSide ..)

/-- What keeps the clock and the queue is the same with them put back. -/
theorem State.Touches.coreFrame_unkept {s u : State} {p a : Nat} {rs : List Reg} (h : (s.spCorrect p a 8).Touches u p rs) :
    s.CoreFrame u p [(a, 8)] rs := by
  have hkeep : s.keep u = u := by
    rw [h.rest, (s.spCorrect_frame p a 8).1]; rfl
  exact hkeep ▸ h.coreFrame

/-- A row of the matrix engine enters the queue of its side, while it has room. -/
theorem entersMeQueue_of {row : Nat → Nat → Instr} {op : Nat} {legal : State → Iss → Bool} {make : State → Iss → MeOp}
    (hexec : ∀ p i s, exec (row p i) s = instr p i 1 op legal (fun s x => s.meDispatch x (make s x)) s)
    (hthread : ∀ s x, legal s x = true → x.i < 16) (hmake : ∀ s x, make (s.spCorrect x.p x.pc 8) x = make s x) :
    entersMeQueue row op legal make := by
  intro s p i x h hl hroom
  obtain ⟨rfl, rfl⟩ := State.iss_pi h.next
  have hi := hthread s x hl
  have hside : ((s.spCorrect x.p x.pc 8).core x.p).side x.k = (s.core x.p).side x.k := State.spCorrect_side ..
  have hans := (hexec x.p x.i s).trans (instr_legal h hl)
  rw [hmake, State.meDispatch_room _ (by rwa [hside])] at hans
  have hcore : ((((s.spCorrect x.p x.pc 8).setCore x.p (((s.spCorrect x.p x.pc 8).core x.p).queued x (make s x))).advance x).core x.p) =
      (((s.spCorrect x.p x.pc 8).core x.p).queued x (make s x)).setThread x.i { (s.core x.p).thread x.i with pc := x.pc + 8 } := by
    rw [State.advance_thread hi, State.core_modThread, if_pos rfl, State.core_setCore, if_pos rfl]
    have ht : (((s.spCorrect x.p x.pc 8).core x.p).queued x (make s x)).thread x.i = (s.core x.p).thread x.i :=
      (Core.thread_setSide ..).trans (State.spCorrect_thread ..)
    rw [ht]
  refine ⟨_, meEntryOf ((s.spCorrect x.p x.pc 8).core x.p) x (make s x), hans, ?_, ?_, rfl, rfl, rfl, rfl, rfl, ?_, ?_, ?_, fun j hj => ?_, ?_⟩
  · exact State.Touches.coreFrame_unkept ((State.Touches.setCore ..).trans (.setPc ..))
  · rw [hcore, Core.side_setThread, Core.side_queued, hside]
  · exact congrArg (· + 1) (State.spCorrect_nextId ..)
  · rw [hcore]
    refine Eq.trans ?_ (State.spCorrect_sp s x.p x.pc 8 x.p)
    unfold Core.queued Core.setSide
    split <;> rfl
  · rw [hcore, Core.side_setThread, Core.side_queued, hside]
  · rw [hcore, Core.thread_setThread, if_neg hj]
    exact (Core.thread_setSide ..).trans (State.spCorrect_thread ..)
  · rw [hcore, Core.thread_setThread, if_pos rfl]

/-! ## Completion (R77, R82, R92, R97, R101) -/

theorem mmtComplete_answers {s : State} {p k : Nat} {e : MeEntry} {o : MmtOp} (hs : s.clocksStopped = false) (hp : p < 208) (hk : k < 2)
    (ho : e.op = .mmt o) (hr : (s.core p).running k e.id = some e) (hd : (s.core p).mmtDone k e o = true) :
    exec (.mmtComplete p k e.id) s = .next (s.keep (((s.runMmt p k e o o.m).meKickBoth p k).endCheck p e.cmd)) := by
  have hop : e.mmt? = some o := by rw [MeEntry.mmt?, ho]
  rw [exec_mmtComplete, execMmtComplete, hr]
  dsimp only
  rw [hop]
  exact State.when_of hs (by simp [hp, hk, hd])

theorem mdrComplete_answers {s : State} {p k : Nat} {e : MeEntry} {o : MdrOp} (hs : s.clocksStopped = false) (hp : p < 208) (hk : k < 2)
    (ho : e.op = .mdr o) (hr : (s.core p).running k e.id = some e) (hd : (s.core p).mdrDone k e = true) :
    exec (.mdrComplete p k e.id) s = .next (s.keep (((s.runMdr p k e o o.nrows).meKick p k).endCheck p e.cmd)) := by
  have hop : e.mdr? = some o := by rw [MeEntry.mdr?, ho]
  rw [exec_mdrComplete, execMdrComplete, hr]
  dsimp only
  rw [hop]
  exact State.when_of hs (by simp [hp, hk, hd])

theorem weightPassComplete_first {s : State} {p k : Nat} {e : MeEntry} {t : Tile} (hs : s.clocksStopped = false) (hp : p < 208) (hk : k < 2)
    (hq : ((s.core p).side k).meQ.filter (fun e => e.mwl?.isSome && e.phase == .running) = [e]) (ht : (s.core p).tile? e.id = some t)
    (hr : (s.core p).reload = []) :
    exec (.weightPassComplete p k) s =
      .next (s.keep (((((s.loadTile p k t).modCore p fun c => c.dropMe k e.id)).meKickBoth p k).endCheck p e.cmd)) := by
  rw [exec_weightPassComplete, execWeightPassComplete]
  simp only [hq, hr, List.isEmpty_cons, List.isEmpty_nil, Bool.not_true, Bool.and_false, Bool.false_and, Bool.false_eq_true, if_false,
    List.foldl_cons, List.foldl_nil, ht, Bool.not_false, Bool.true_or, Bool.and_true]
  exact State.when_of hs (by simp [hp, hk])

theorem weightPassComplete_second {s : State} {p : Nat} (hs : s.clocksStopped = false) (hp : p < 208) (hr : (s.core p).reload ≠ [])
    (hstop : (s.core p).t.stop = .run) (hb : (s.core p).borrow = none) (ht : (s.core p).takeover = none) :
    exec (.weightPassComplete p 0) s = .next (s.keep ((s.reloadShadow p).meKickBoth p 0)) := by
  rw [exec_weightPassComplete, execWeightPassComplete]
  simp only [hstop, hb, ht, decide_true, Option.isNone_none, Bool.and_true, BEq.rfl, Bool.not_false, Bool.or_true, if_true, List.isEmpty_eq_false_iff.2 hr]
  exact State.when_of hs (by simp [hp])

/-! ## Accumulator tables -/

theorem SMap.get_of_not_mem {α : Type} {d : α} {m : SMap α} {k : Nat} (h : ∀ y ∈ m, y.1 ≠ k) : SMap.get d m k = d :=
  Classical.byContradiction fun hne => h _ (SMap.mem_of_get hne) rfl

theorem SMap.get_filter {α : Type} (d : α) (f : Nat → Bool) (m : SMap α) {k : Nat} (h : f k = true) :
    SMap.get d (m.filter fun y => f y.1) k = SMap.get d m k := by
  induction m with
  | nil => rfl
  | cons y m ih =>
    by_cases hy : f y.1 = true
    · rw [List.filter_cons_of_pos (p := fun z : Nat × α => f z.1) hy, SMap.get, SMap.get, ih]
    · rw [List.filter_cons_of_neg (p := fun z : Nat × α => f z.1) hy, SMap.get, if_neg fun e : y.1 = k => hy (e ▸ h), ih]

/-- A merge reads as the table that holds the key. -/
theorem SMap.get_mergeMap {α : Type} (d : α) (k n : Nat) (x y : SMap α) (hn : x.length + y.length ≤ n) :
    ((∀ b ∈ y, b.1 ≠ k) → SMap.get d (mergeMap n x y) k = SMap.get d x k) ∧
    ((∀ a ∈ x, a.1 ≠ k) → SMap.get d (mergeMap n x y) k = SMap.get d y k) := by
  induction n generalizing x y with
  | zero =>
    have hx : x = [] := List.length_eq_zero_iff.1 (by omega)
    have hy : y = [] := List.length_eq_zero_iff.1 (by omega)
    subst hx hy
    exact ⟨fun _ => rfl, fun _ => rfl⟩
  | succ n ih =>
    match x, y with
    | [], y => exact ⟨fun h => SMap.get_of_not_mem h, fun _ => rfl⟩
    | a :: x, [] => exact ⟨fun _ => rfl, fun h => SMap.get_of_not_mem h⟩
    | (j, a) :: x, (i, b) :: y =>
      simp only [List.length_cons] at hn
      unfold mergeMap
      split
      · obtain ⟨h1, h2⟩ := ih x ((i, b) :: y) (by simp only [List.length_cons]; omega)
        refine ⟨fun h => ?_, fun h => ?_⟩
        · rw [SMap.get, h1 h]; rfl
        · rw [SMap.get, if_neg (h _ List.mem_cons_self), h2 fun z hz => h z (List.mem_cons_of_mem _ hz)]
      · obtain ⟨h1, h2⟩ := ih ((j, a) :: x) y (by simp only [List.length_cons]; omega)
        refine ⟨fun h => ?_, fun h => ?_⟩
        · rw [SMap.get, if_neg (h _ List.mem_cons_self), h1 fun z hz => h z (List.mem_cons_of_mem _ hz)]
        · rw [SMap.get, h2 h]; rfl

/-- The cells of one row as a table. -/
def rowCells (base : Nat) (v : Nat → Int) (j : Nat) : Option (Nat × Int) := if v j = 0 then none else some (base + j, v j)

theorem mem_rowCells {base : Nat} {v : Nat → Int} {a n : Nat} {y : Nat × Int} (h : y ∈ (List.range' a n).filterMap (rowCells base v)) :
    ∃ j, a ≤ j ∧ j < a + n ∧ y.1 = base + j := by
  obtain ⟨j, hj, hy⟩ := List.mem_filterMap.1 h
  rw [List.mem_range'_1] at hj
  unfold rowCells at hy
  split at hy
  · cases hy
  · cases hy; exact ⟨j, hj.1, hj.2, rfl⟩

theorem get_rowCells (base : Nat) (v : Nat → Int) (a n j : Nat) (h1 : a ≤ j) (h2 : j < a + n) :
    SMap.get 0 ((List.range' a n).filterMap (rowCells base v)) (base + j) = v j := by
  induction n generalizing a with
  | zero => omega
  | succ n ih =>
    rw [List.range'_succ]
    by_cases hja : j = a
    · subst hja
      have hrest : SMap.get 0 ((List.range' (j + 1) n).filterMap (rowCells base v)) (base + j) = 0 :=
        SMap.get_of_not_mem fun y hy e => by
          obtain ⟨i, hi, -, hb⟩ := mem_rowCells hy
          omega
      by_cases hv : v j = 0
      · rw [List.filterMap_cons_none (f := rowCells base v) (if_pos hv), hrest, hv]
      · rw [List.filterMap_cons_some (f := rowCells base v) (if_neg hv), SMap.get, if_pos rfl]
    · have htail := ih (a + 1) (by omega) (by omega)
      by_cases hv : v a = 0
      · rw [List.filterMap_cons_none (f := rowCells base v) (if_pos hv), htail]
      · rw [List.filterMap_cons_some (f := rowCells base v) (if_neg hv), SMap.get, if_neg (by omega), htail]

/-- Setting cells of one row: those read as set, the others as before. -/
theorem get_accSet_row (acc : SMap Int) (row col0 cols : Nat) (f : Nat → Nat → Int) (hcols : col0 + cols ≤ 256) {r c : Nat} (hc : c < 256) :
    SMap.get 0 (accSet acc row 1 col0 cols f) (r * 256 + c) =
      if r = row ∧ col0 ≤ c ∧ c < col0 + cols then f row c else SMap.get 0 acc (r * 256 + c) := by
  have hnew : ((List.range 1).flatMap fun i => (List.range cols).filterMap fun j =>
      let v := f (row + i) (col0 + j)
      if v = 0 then none else some ((row + i) * 256 + (col0 + j), v)) =
      (List.range' 0 cols).filterMap (rowCells (row * 256 + col0) fun j => f row (col0 + j)) := by
    rw [List.range_eq_range', show (List.range 1) = [0] from rfl, List.flatMap_cons, List.flatMap_nil, List.append_nil]
    refine congrArg (List.filterMap · _) (funext fun j => ?_)
    simp only [rowCells, Nat.add_zero, Nat.add_assoc]
  unfold accSet
  dsimp only at hnew ⊢
  rw [hnew]
  by_cases hin : r = row ∧ col0 ≤ c ∧ c < col0 + cols
  · obtain ⟨rfl, h1, h2⟩ := hin
    rw [if_pos ⟨rfl, h1, h2⟩]
    obtain ⟨j, rfl⟩ := Nat.exists_eq_add_of_le h1
    rw [(SMap.get_mergeMap 0 _ _ _ _ (Nat.le_succ _)).2, ← Nat.add_assoc, get_rowCells _ _ _ _ _ (Nat.zero_le j) (by omega)]
    intro y hy e
    have hq := (List.mem_filter.1 hy).2
    rw [e, show (r * 256 + (col0 + j)) / 256 = r by omega, show (r * 256 + (col0 + j)) % 256 = col0 + j by omega] at hq
    simp [h1, h2] at hq
  · rw [if_neg hin, (SMap.get_mergeMap 0 _ _ _ _ (Nat.le_succ _)).1]
    · refine SMap.get_filter 0 (fun k => !(decide (row ≤ k / 256) && decide (k / 256 < row + 1) && decide (col0 ≤ k % 256) &&
        decide (k % 256 < col0 + cols))) acc ?_
      rw [show (r * 256 + c) / 256 = r by omega, show (r * 256 + c) % 256 = c by omega]
      simp only [Bool.not_eq_true', Bool.and_eq_false_iff, decide_eq_false_iff_not]
      omega
    · intro y hy e
      obtain ⟨j, -, hj, hb⟩ := mem_rowCells hy
      omega

/-! ## One activation vector (R51, R61, R63, R90) -/

theorem satSym_self {v : Int} (h : v.natAbs < 2 ^ 47) : (satSym 48 v).1 = v := by
  unfold satSym satTo symLim
  rw [if_neg (by simp only [Nat.reduceSub]; omega), if_neg (by simp only [Nat.reduceSub]; omega)]

theorem satSym_lt (v : Int) : (satSym 48 v).1.natAbs < 2 ^ 47 := by
  unfold satSym satTo symLim
  simp only [Nat.reduceSub]
  split
  · omega
  · split
    · omega
    · omega

/-- A sum of products with one side zero. -/
theorem dotReal_zero {w a : List (Int × Int)}
    (h : (w.all (fun v => decide (v = (0, 0))) || a.all (fun v => decide (v = (0, 0)))) = true) : dotReal w a = 0 := by
  have hz : ∀ y ∈ w.zip a, y.1.1 * y.2.1 = 0 := by
    intro y hy
    obtain ⟨h1, h2⟩ := List.of_mem_zip (show (y.1, y.2) ∈ w.zip a from hy)
    rcases Bool.or_eq_true_iff.1 h with h | h
    · rw [of_decide_eq_true (List.all_eq_true.1 h _ h1)]; exact Int.zero_mul _
    · rw [of_decide_eq_true (List.all_eq_true.1 h _ h2)]; exact Int.mul_zero _
  unfold dotReal
  generalize w.zip a = l at hz
  induction l with
  | nil => rfl
  | cons y l ih => rw [List.foldl_cons, hz y List.mem_cons_self]; exact ih fun z hz' => hz z (List.mem_cons_of_mem _ hz')

/-- Real segments add one after the other, each sum saturating (R51, R61). -/
theorem accColumn_real {wf : Fmt} (hwf : wf.isComplex = false) (c : Int) (which : Nat) (l : List (Seg × Seg))
    (hbad : ∀ y ∈ l, y.1.bad = false ∧ y.2.bad = false) (acc : Int) (fl : Flags) (hacc : acc = accPoison ∨ acc.natAbs < 2 ^ 47) :
    (accColumn wf false c which l (acc, fl)).1 = addSegments acc l := by
  induction l generalizing acc fl with
  | nil => rfl
  | cons y l ih =>
    obtain ⟨hw, ha⟩ := hbad y List.mem_cons_self
    have ih' := ih fun z hz => hbad z (List.mem_cons_of_mem _ hz)
    unfold accColumn addSegments
    rw [List.foldl_cons]
    simp only [hw, ha, Bool.or_self, Bool.false_eq_true, if_false, hwf]
    by_cases hp : acc = accPoison
    · rw [if_pos hp]
      split
      · exact ih' _ _ hacc
      · simp only [accAdd, if_pos hp]
        exact ih' _ _ hacc
    · rw [if_neg hp]
      have hlt := hacc.resolve_left hp
      split
      · next hz =>
        rw [dotReal_zero hz, Int.add_zero, satSym_self hlt]
        exact ih' _ _ hacc
      · simp only [accAdd, if_neg hp, Bool.false_eq_true, if_false]
        exact ih' _ _ (.inr (satSym_lt _))

theorem partGeom_width (n : Nat) : (partGeom n).2.2.1 + (partGeom n).2.2.2 ≤ 256 := by
  unfold partGeom; split <;> decide

/-- The sum of one cell of a row (R63). -/
theorem mmtVector_cells {x : Side} {o : MmtOp} {wf : Fmt} (cols : List (List Seg)) {act : List Seg × Flags} (row : Nat)
    (ho : o.af.isScaled = false) (hw : wf.isScaled = false) {r c : Nat} (hc : c < 256) :
    (mmtVector x o wf cols act row).1.accAt r c =
      if r = row ∧ (partGeom o.part).2.2.1 ≤ c ∧ c < (partGeom o.part).2.2.1 + (partGeom o.part).2.2.2 then
        if act.1.any Seg.bad then accPoison
        else (accColumn wf false (if o.acc then x.tag row else 0) ((c - (partGeom o.part).2.2.1) % 2)
          (((cols[if wf.isComplex then (c - (partGeom o.part).2.2.1) / 2 else c - (partGeom o.part).2.2.1]?).getD []).zip act.1)
          (if o.acc then x.accAt row c else 0, 0)).1
      else x.accAt r c := by
  unfold mmtVector Side.accAt
  dsimp only
  rw [get_accSet_row _ _ _ _ _ (partGeom_width _) hc]
  split
  · next h =>
    obtain ⟨rfl, hlo, hhi⟩ := h
    have hj : c - (partGeom o.part).2.2.1 < (partGeom o.part).2.2.2 := by omega
    rw [List.getElem?_map, List.getElem?_map, List.getElem?_range hj, Option.map_some, Option.map_some, Option.getD_some, ho, hw,
      Nat.add_sub_cancel' hlo]
    split <;> rfl
  · rfl

/-- Settles O14: the dispatch, the completions as their commands answer, and one vector cell by cell. -/
theorem matrixRowsAreQueuedAndComplete : Obligations.MatrixRowsAreQueuedAndComplete := by
  refine ⟨⟨entersMeQueue_of exec_mmt (fun s x => mmtLegal_thread) fun s x => by rw [State.spCorrect_mmtOf],
    entersMeQueue_of exec_mwl (fun s x => mwlLegal_thread) fun s x => by rw [State.spCorrect_mwlOf],
    entersMeQueue_of exec_mdr (fun s x => mdrLegal_thread) fun s x => by rw [State.spCorrect_mdrOf], fun s p i x h hl hfull => ?_⟩,
    ⟨fun s p k e o hs hp hk ho hr hd => mmtComplete_answers hs hp hk ho hr hd, fun s p k e o hs hp hk ho hr hd =>
      mdrComplete_answers hs hp hk ho hr hd, fun s p k e o t hs hp hk ho hph hq ht hr => weightPassComplete_first hs hp hk hq ht hr,
      fun s p hs hp hr hstop hb ht => weightPassComplete_second hs hp hr hstop hb ht⟩,
    fun x o wf cols act row j ho hw hcplx hact hcols hj hold => ⟨?_, fun r c hc hne => ?_, fun hacc => ?_, fun r hr => ?_, rfl, rfl⟩⟩
  · obtain ⟨rfl, rfl⟩ := State.iss_pi h.next
    refine ((exec_mmt ..).trans (instr_legal h hl)).trans ?_
    rw [State.meDispatch_full]
    rwa [State.spCorrect_side]
  · have hwhole : act.1.any Seg.bad = false := List.any_eq_false.2 fun a ha => by rw [hact a ha]; decide
    have hc : (partGeom o.part).2.2.1 + j < 256 := by have := partGeom_width o.part; omega
    have hbad : ∀ y ∈ ((cols[j]?).getD []).zip act.1, y.1.bad = false ∧ y.2.bad = false := by
      intro y hy
      obtain ⟨h1, h2⟩ := List.of_mem_zip (show (y.1, y.2) ∈ _ from hy)
      refine ⟨?_, hact _ h2⟩
      cases hcol : cols[j]? with
      | none => rw [hcol] at h1; cases h1
      | some l => rw [hcol] at h1; exact hcols l (List.mem_of_getElem? hcol) _ h1
    rw [mmtVector_cells cols row ho hw hc, if_pos ⟨rfl, Nat.le_add_right .., Nat.add_lt_add_left hj _⟩, hwhole, if_neg Bool.false_ne_true,
      hcplx, Nat.add_sub_cancel_left, if_neg Bool.false_ne_true]
    refine accColumn_real hcplx _ _ _ hbad _ _ ?_
    split
    · exact hold
    · exact .inr (by decide)
  · rw [mmtVector_cells cols row ho hw hc, if_neg]
    rintro ⟨h1, h2, h3⟩
    rcases hne with h | h | h
    · exact h h1
    · omega
    · omega
  · unfold Side.tag mmtVector
    simp only [hacc, ho, hw, Bool.or_self, Bool.and_false, Bool.false_eq_true, if_false, SMap.get_put_self]
  · unfold Side.tag mmtVector
    simp only [ho, hw, Bool.or_self, Bool.and_false, Bool.false_eq_true, if_false, SMap.get_put_other _ _ _ hr]

end Sys2Proof.Machine

namespace Sys2Proof.Machine

/-! # Copy engines (R192 to R204, R218, R231, R298) -/

theorem exec_transactionIssue (p k e : Nat) (w : Bool) (comp : List Nat) (s : State) :
    exec (.transactionIssue p k e w comp) s = execTransactionIssue p k e w comp s := rfl
theorem exec_weaveTransactionComplete (p k e id : Nat) (data : List Nat) (s : State) :
    exec (.weaveTransactionComplete p k e id data) s = execWeaveTransactionComplete p k e id data s := rfl
theorem exec_copyDescriptorComplete (p k e : Nat) (s : State) :
    exec (.copyDescriptorComplete p k e) s = execCopyDescriptorComplete p k e s := rfl

/-- A transaction of an entry that has entered every point of its route. -/
structure State.OutTxn (s : State) (p k e id : Nat) (y : CeEntry) (t : Txn) : Prop where
  clocks : s.clocksStopped = false
  slot : p < 208
  side : k < 2
  engine : e < 2
  entry : (s.ceQueue p k e).entries.find? (fun y => y.inflight.any fun u => u.id == id) = some y
  txn : y.inflight.find? (fun u => u.id == id) = some t
  path : t.path = []

/-- Where the data of a write of entry y go. -/
def txnDst (y : CeEntry) (t : Txn) : Nat := (match y.pieces.find? fun q => q.no == t.piece with | some q => q.dst | none => 0) + t.offset

section
variable {s : State} {p k e id : Nat} {data : List Nat} {y : CeEntry} {t : Txn} {a : Nat} (h : s.OutTxn p k e id y t)
include h

/-- What completes a transaction depends on its place and direction. -/
theorem weaveTransactionComplete_compWrite (hw : t.write = true) (hplace : t.place = .comp a) :
    let r := (s.endTxn p k e y t).settle p y (txnDst y t) t.data
    exec (.weaveTransactionComplete p k e id data) s =
      .next (s.keep ((r.2.compWrite y.ctx.inst (ringOfCmd y.cmd) a r.1).writeDone p k e y.id t)) := by
  simp only [exec_weaveTransactionComplete, execWeaveTransactionComplete, h.entry, h.txn, hw, hplace]
  exact State.when_of h.clocks (by simp [h.slot, h.side, h.engine, h.path])

theorem weaveTransactionComplete_compRead (hw : t.write = false) (hplace : t.place = .comp a) (hlen : data.length = t.len)
    (hlines : s.engineLines p k e id = true) :
    exec (.weaveTransactionComplete p k e id data) s =
      .next (s.keep (((s.endTxn p k e y t).engineAnswered p k e id).readArrived p k e y.id t (data.map (BitVec.ofNat 8)))) := by
  simp only [exec_weaveTransactionComplete, execWeaveTransactionComplete, h.entry, h.txn, hw, hplace]
  exact State.when_of h.clocks (by simp [h.slot, h.side, h.engine, h.path, hlen, hlines])

theorem weaveTransactionComplete_stackWrite (hw : t.write = true) (hplace : t.place = .stack a) (hbank : s.bankHeld y.ctx.inst a true = false) :
    let r := (s.endTxn p k e y t).settle p y (txnDst y t) t.data
    exec (.weaveTransactionComplete p k e id data) s = .next (s.keep (match r.2.stackWrite y.ctx.inst a r.1 with
      | some u => u.writeDone p k e y.id t
      | none => (s.endTxn p k e y t).ceEntryFault p e y 2)) := by
  simp only [exec_weaveTransactionComplete, execWeaveTransactionComplete, h.entry, h.txn, hw, hplace]
  exact State.when_of h.clocks (by simp [h.slot, h.side, h.engine, h.path, hbank])

theorem weaveTransactionComplete_stackRead (hw : t.write = false) (hplace : t.place = .stack a) (hbank : s.bankHeld y.ctx.inst a false = false) :
    exec (.weaveTransactionComplete p k e id data) s =
      .next (s.keep (match (s.endTxn p k e y t).stackRead y.ctx.inst a t.len with
        | (some bs, u) => u.readArrived p k e y.id t bs
        | (none, u) => u.ceEntryFault p e y 2)) := by
  simp only [exec_weaveTransactionComplete, execWeaveTransactionComplete, h.entry, h.txn, hw, hplace]
  exact State.when_of h.clocks (by simp [h.slot, h.side, h.engine, h.path, hbank])

theorem weaveTransactionComplete_peerRead {q : Nat} (hw : t.write = false) (hplace : t.place = .peer q a)
    (hgood : (s.core q).spBad a t.len = false) :
    exec (.weaveTransactionComplete p k e id data) s =
      .next (s.keep (((s.endTxn p k e y t).spCorrect q a t.len).readArrived p k e y.id t ((s.core q).sp.read a t.len))) := by
  simp only [exec_weaveTransactionComplete, execWeaveTransactionComplete, h.entry, h.txn, hw, hplace]
  refine (State.when_of h.clocks (by simp [h.slot, h.side, h.engine, h.path])).trans ?_
  simp only [hgood, Bool.false_eq_true, if_false]

theorem weaveTransactionComplete_withyWrite {d : Nat} (hw : t.write = true) (hplace : t.place = .withy d a) (hroom : s.withy.held.length < 512) :
    exec (.weaveTransactionComplete p k e id data) s =
      .next (s.keep (((s.endTxn p k e y t).withySend p k e y t d a).writeDone p k e y.id t)) := by
  simp only [exec_weaveTransactionComplete, execWeaveTransactionComplete, h.entry, h.txn, hw, hplace]
  exact State.when_of h.clocks (by simp [h.slot, h.side, h.engine, h.path, hroom])

theorem weaveTransactionComplete_withyRead {d : Nat} (hw : t.write = false) (hplace : t.place = .withy d a) (hroom : s.withy.held.length < 512)
    (hnew : s.wyHolds p k e id = false) :
    exec (.weaveTransactionComplete p k e id data) s = .next (s.keep (s.withySend p k e y t d a)) := by
  simp only [exec_weaveTransactionComplete, execWeaveTransactionComplete, h.entry, h.txn, hw, hplace]
  exact State.when_of h.clocks (by simp [h.slot, h.side, h.engine, h.path, hroom, hnew])

end

/-- A read with a free staging block is issued (R201). -/
theorem transactionIssue_read {s : State} {p k e : Nat} {comp : List Nat} {y : CeEntry} {q : Piece} {off len : Nat} {rest : List (Nat × Nat)}
    (hs : s.clocksStopped = false) (hr : s.ceRuns p k e = true) (hfly : (s.ceQueue p k e).flying < 8)
    (hy : (s.ceQueue p k e).issuing = some y) (hq : y.pieces.find? (fun q => !q.reads.isEmpty) = some q) (hreads : q.reads = (off, len) :: rest) :
    exec (.transactionIssue p k e false comp) s = .next (s.keep (s.issueTxn p k e y q false off len comp)) := by
  rw [exec_transactionIssue, execTransactionIssue, hy]
  simp only [Bool.false_eq_true, if_false, hq, hreads]
  exact State.when_of hs (by simp [hr, hfly])

/-- A write is issued while fewer than 8 of its entry are in flight (R201). -/
theorem transactionIssue_write {s : State} {p k e : Nat} {comp : List Nat} {y : CeEntry} {q : Piece} {off len : Nat} {rest : List (Nat × Nat)}
    (hs : s.clocksStopped = false) (hr : s.ceRuns p k e = true) (hfly : y.inflight.length < 8) (hy : (s.ceQueue p k e).issuing = some y)
    (hq : y.pieces.find? (fun q => q.out.isNone || !q.writes.isEmpty) = some q) (hwrites : q.writes = (off, len) :: rest) :
    exec (.transactionIssue p k e true comp) s = .next (s.keep (s.issueTxn p k e y q true off len comp)) := by
  rw [exec_transactionIssue, execTransactionIssue, hy]
  simp only [if_true, hq, hwrites]
  exact State.when_of hs (by simp [hr, hfly])

/-- The first entry of a queue that is done leaves it, with its NOTIFY add (R203). -/
theorem copyDescriptorComplete_first {s : State} {p k e : Nat} {y : CeEntry} {rest : List CeEntry} (hs : s.clocksStopped = false)
    (hr : s.ceRuns p k e = true) (hq : (s.ceQueue p k e).entries = y :: rest) (hst : y.started = true)
    (hdone : y.desc.own = true ∨ (y.opened = true ∧ y.issued = true ∧ y.pieces = [] ∧ y.inflight = [])) :
    let s1 := if y.desc.own then s.runLocal p k e y.id y.desc.pieceBound else s
    exec (.copyDescriptorComplete p k e) s = .next (s.keep (match s1.entry? p k e y.id with
      | none => s1
      | some z => if z.opened then
          (((s1.modCe p k e fun q => { q with entries := q.entries.filter fun u => u.id != z.id }).notifyAdd p k e z).modCmd z.cmd
            fun c => if z.thread.isNone then { c with copied := c.copied + 1 } else c).endCheck p z.cmd
        else s1)) := by
  rw [exec_copyDescriptorComplete, execCopyDescriptorComplete, hq]
  refine State.when_of hs ?_
  rcases hdone with hown | ⟨h1, h2, h3, h4⟩
  · simp [hr, hst, hown]
  · simp [hr, hst, h1, h2, h3, h4]

/-- Settles O15: each issue and each completion as its command answers. -/
theorem copyTransactionsIssueAndComplete : Obligations.CopyTransactionsIssueAndComplete := by
  have hout : ∀ {s : State} {p k e id : Nat} {y : CeEntry} {t : Txn}, (s.clocksStopped = false ∧ p < 208 ∧ k < 2 ∧ e < 2 ∧
      (s.ceQueue p k e).entries.find? (fun y => y.inflight.any fun u => u.id == id) = some y ∧
      y.inflight.find? (fun u => u.id == id) = some t ∧ t.path = []) → s.OutTxn p k e id y t :=
    fun ⟨h1, h2, h3, h4, h5, h6, h7⟩ => ⟨h1, h2, h3, h4, h5, h6, h7⟩
  exact ⟨fun s p k e comp y q off len rest hs hr hfly hy hq hreads => transactionIssue_read hs hr hfly hy hq hreads,
    fun s p k e comp y q off len rest hs hr hfly hy hq hwrites => transactionIssue_write hs hr hfly hy hq hwrites,
    fun s p k e id data y t a h hw hplace => weaveTransactionComplete_compWrite (hout h) hw hplace,
    fun s p k e id data y t a h hw hplace hlen hl => weaveTransactionComplete_compRead (hout h) hw hplace hlen hl,
    fun s p k e id data y t a h hw hplace hb => weaveTransactionComplete_stackWrite (hout h) hw hplace hb,
    fun s p k e id data y t a h hw hplace hb => weaveTransactionComplete_stackRead (hout h) hw hplace hb,
    fun s p k e id data y t q a h hw hplace hb => weaveTransactionComplete_peerRead (hout h) hw hplace hb,
    fun s p k e id data y t d a h hw hplace hroom => weaveTransactionComplete_withyWrite (hout h) hw hplace hroom,
    fun s p k e id data y t d a h hw hplace hroom hnew => weaveTransactionComplete_withyRead (hout h) hw hplace hroom hnew,
    fun s p k e y rest hs hr hq hst hdone => copyDescriptorComplete_first hs hr hq hst hdone⟩

/-- A core 0 whose first word has a single-bit error. -/
def oneSingleError : State := State.reset.modCore 0 fun c => { c with spCheck := [(0, .single)] }

/-- An entry whose NOTIFY word is the first word of the scratchpad. -/
def notifyFirstWord : CeEntry :=
  { id := 1, thread := none, ctx := .tenant 1, cmd := 0, desc := CopyDesc.ofBytes [0x20], peers := [], started := true, row := 0, elem := 0,
    next := 0, pieces := [], inflight := [] }

/-- Refutes O16: the NOTIFY add writes half a word, so a single-bit error of that word is corrected, which is recorded. -/
theorem not_copiesAreQueuedStartedAndNotified : ¬ Obligations.CopiesAreQueuedStartedAndNotified := by
  rintro ⟨-, -, hnotify⟩
  obtain ⟨-, -, -, -, hlog⟩ := hnotify oneSingleError 0 0 0 notifyFirstWord (by decide) (by decide)
  have hqueued := congrArg (fun l : LogState => l.queued.length) hlog
  exact absurd hqueued (by decide)

/-! # Errors of the stacks (R231 to R236) -/

theorem exec_stackRowAccessComplete (pa syms : Nat) (s : State) :
    exec (.stackRowAccessComplete pa syms) s = execStackRowAccessComplete pa syms s := rfl
theorem exec_stackScrub (m ch syms : Nat) (s : State) : exec (.stackScrub m ch syms) s = execStackScrub m ch syms s := rfl
theorem exec_stackRefresh (m ch bank : Nat) (s : State) : exec (.stackRefresh m ch bank) s = execStackRefresh m ch bank s := rfl
theorem exec_refreshComplete (m ch bank : Nat) (s : State) : exec (.refreshComplete m ch bank) s = execRefreshComplete m ch bank s := rfl

theorem State.setEaddr_stacks (s : State) (pa syms : Nat) (unc : Bool) : (s.setEaddr pa syms unc).stackSet = s.stackSet := rfl

theorem State.setEaddr_ecc (s : State) (pa syms : Nat) (unc : Bool) (m : Nat) (f : Fld) :
    (s.setEaddr pa syms unc).getF (.msEcc m) f = s.getF (.msEcc m) f := by
  unfold State.setEaddr
  simp only [State.getF_setF_other_reg _ _ _ _ (show Reg.msEcc m ≠ .msEaddrLo (stackOf pa) from Reg.noConfusion),
    State.getF_setF_other_reg _ _ _ _ (show Reg.msEcc m ≠ .msEaddrHi (stackOf pa) from Reg.noConfusion)]

/-- A corrected line is counted; its bytes and the marks stay (R232, R234). -/
theorem State.lineCorrected_counts (s : State) (pa syms : Nat) :
    (s.lineCorrected pa syms).stackSet.mem = s.stackSet.mem ∧ (s.lineCorrected pa syms).stackSet.poison = s.stackSet.poison ∧
      (s.lineCorrected pa syms).getF (.msEcc (stackOf pa)) MS_ECC.CORR = min (s.getF (.msEcc (stackOf pa)) MS_ECC.CORR + 1) 0xFFFF := by
  unfold State.lineCorrected
  rw [State.msRecord_stacks]
  refine ⟨rfl, rfl, ?_⟩
  rw [State.msRecord, State.getF_note _ _ _ _ _ _ Reg.noConfusion, State.setEaddr_ecc]
  refine (State.getF_setF_self _ _ _ _ (by decide) (by decide)).trans (Nat.mod_eq_of_lt ?_)
  exact Nat.lt_of_le_of_lt (Nat.min_le_right ..) (by decide)

/-- A line past correction is marked and counted; its bytes stay (R233, R234). -/
theorem State.lineUncorrectable_marks (s : State) (pa : Nat) :
    (s.lineUncorrectable pa).stackSet.mem = s.stackSet.mem ∧
      (s.lineUncorrectable pa).stackSet.poison = SMap.put false s.stackSet.poison (pa / 64) true ∧
      (s.lineUncorrectable pa).getF (.msEcc (stackOf pa)) MS_ECC.UNCORR = min (s.getF (.msEcc (stackOf pa)) MS_ECC.UNCORR + 1) 0xFF := by
  have hst : (((s.satF (.msEcc (stackOf pa)) MS_ECC.UNCORR 1).setEaddr pa 3 true).msRecord (stackOf pa) (channelOf pa) 3 false false).stackSet =
      s.stackSet := State.msRecord_stacks ..
  unfold State.lineUncorrectable
  dsimp only
  rw [hst]
  refine ⟨rfl, rfl, ?_⟩
  refine (State.getF_note _ _ _ _ _ _ Reg.noConfusion).trans ((State.setEaddr_ecc ..).trans
    ((State.getF_setF_self _ _ _ _ (by decide) (by decide)).trans (Nat.mod_eq_of_lt ?_)))
  exact Nat.lt_of_le_of_lt (Nat.min_le_right ..) (by decide)

theorem State.rowAccess_good (s : State) (pa : Nat) : s.rowAccess pa 0 = s := if_pos (.inl rfl)

/-- What the faulty symbols of a row access do, by their number. -/
theorem State.rowAccess_corrected {s : State} {pa syms : Nat} (hp : SMap.get false s.stackSet.poison (pa / 64) = false) (h0 : syms ≠ 0)
    (h2 : syms ≤ 2) : s.rowAccess pa syms = s.lineCorrected pa syms := by
  unfold State.rowAccess
  rw [if_neg (by rw [hp]; simp [h0]), if_pos h2]

theorem State.rowAccess_uncorrectable {s : State} {pa : Nat} (hp : SMap.get false s.stackSet.poison (pa / 64) = false) :
    s.rowAccess pa 3 = s.lineUncorrectable pa := by
  unfold State.rowAccess
  rw [if_neg (by rw [hp]; decide), if_neg (by decide), if_pos (by decide)]

/-- Settles O18: row accesses by their faulty symbols, the scrub of a line without any, and the refresh of a bank. -/
theorem stackErrorsCorrectCountAndPoison : Obligations.StackErrorsCorrectCountAndPoison := by
  refine ⟨fun s pa syms hs hpa h64 hst hp hsy => ?_, fun s m ch hs hm hc hen hst hat => ?_, fun s m ch bank hs hm hc hb hfree => ?_,
    fun s m ch bank hs hm hc hb hin => ?_⟩
  · have hans : exec (.stackRowAccessComplete pa syms) s = .next (s.keep (s.rowAccess pa syms)) :=
      (exec_stackRowAccessComplete ..).trans (State.when_of hs (by simp [h64, hst, show syms ≤ 71 by omega]; omega))
    refine ⟨_, hans, ?_⟩
    rw [State.keep_stacks]
    obtain rfl | hsmall | rfl : syms = 0 ∨ (syms = 1 ∨ syms = 2) ∨ syms = 3 := by omega
    · rw [State.rowAccess_good]
      exact ⟨rfl, fun _ => rfl, fun h => by omega, fun h => by omega⟩
    · obtain ⟨hmem, hpoison, hcount⟩ := s.lineCorrected_counts pa syms
      rw [State.rowAccess_corrected hp (by omega) (by omega)]
      exact ⟨hmem, fun h => by omega, fun _ => ⟨hpoison, hcount⟩, fun h => by omega⟩
    · obtain ⟨hmem, hpoison, hcount⟩ := s.lineUncorrectable_marks pa
      rw [State.rowAccess_uncorrectable hp]
      exact ⟨hmem, fun h => by omega, fun h => by omega, fun _ => ⟨by rw [hpoison, SMap.get_put_self],
        fun l hl => by rw [hpoison, SMap.get_put_other _ _ _ hl], hcount⟩⟩
  · refine ⟨_, (exec_stackScrub ..).trans (State.when_of hs (by simp [hm, hc, hen, hst]; exact hat)), ?_⟩
    rw [State.rowAccess_good]
    exact ⟨rfl, rfl, SMap.get_put_self .., SMap.get_put_self ..⟩
  · have hidle : (s.stackSet.refreshing.any fun x => x / 32 == 16 * m + ch) = false := by
      refine List.any_eq_false.2 fun x hx heq => hfree (x % 32) (by omega) ?_
      rw [show (16 * m + ch) * 32 + x % 32 = x by have := eq_of_beq heq; omega]
      exact hx
    exact ⟨_, (exec_stackRefresh ..).trans (State.when_of hs (by simp only [hm, hc, hb, hidle, decide_true, Bool.not_false, Bool.and_true])), rfl,
      List.mem_append_right _ List.mem_cons_self⟩
  · exact ⟨_, (exec_refreshComplete ..).trans (State.when_of hs (by simp [hm, hc, hb, hin])), rfl⟩

end Sys2Proof.Machine

namespace Sys2Proof.Machine

/-! # The weave's arbitration points (R212 to R217) -/

theorem exec_weaveRequest (pt rank who flits : Nat) (txn : Option (Nat × Nat)) (sent : Nat) (s : State) :
    exec (.weaveRequest pt rank who flits txn sent) s = execWeaveRequest pt rank who flits txn sent s := rfl
theorem exec_arbitrationRound (pt : Nat) (s : State) : exec (.arbitrationRound pt) s = execArbitrationRound pt s := rfl
theorem exec_holdCutoff (pt sent : Nat) (s : State) : exec (.holdCutoff pt sent) s = execHoldCutoff pt sent s := rfl
theorem exec_windowStart (s : State) : exec .windowStart s = execWindowStart s := rfl

@[simp] theorem State.wvPoint_setWvPoint (s : State) (pt q : Nat) (x : WvPoint) :
    (s.setWvPoint pt x).wvPoint q = if q = pt then x else s.wvPoint q := SMap.get_put ..

/-- A point is read from the weave alone. -/
theorem State.wvPoint_congr {s t : State} (h : t.weave = s.weave) (q : Nat) : t.wvPoint q = s.wvPoint q := by
  unfold State.wvPoint; rw [h]

/-- The end of a grant moves the transaction of a copy engine on, and frees the point. -/
theorem State.wvEnd_rest (s : State) (pt : Nat) (g : WvReq) :
    s.wvEnd pt g = { s with weave := (s.wvEnd pt g).weave, cores := (s.wvEnd pt g).cores } ∧
      ∀ q, q ≠ pt → (s.wvEnd pt g).wvPoint q = s.wvPoint q := by
  have hpass : ∀ u : State, u.wvPass pt g = { u with cores := (u.wvPass pt g).cores } := by
    intro u
    unfold State.wvPass
    split <;> rfl
  unfold State.wvEnd
  refine ⟨by rw [hpass]; rfl, fun q hq => ?_⟩
  rw [State.wvPoint_congr (s := s.setWvPoint pt _) (by rw [hpass]), State.wvPoint_setWvPoint, if_neg hq]

/-- s once a round has ended the running grant of a point. -/
def State.wvFreed (s : State) (pt : Nat) : State :=
  match (s.wvPoint pt).grant with
  | some g => s.wvEnd pt g
  | none => s

theorem State.wvFreed_rest (s : State) (pt : Nat) :
    s.wvFreed pt = { s with weave := (s.wvFreed pt).weave, cores := (s.wvFreed pt).cores } ∧
      ∀ q, q ≠ pt → (s.wvFreed pt).wvPoint q = s.wvPoint q := by
  unfold State.wvFreed
  split
  · exact s.wvEnd_rest ..
  · exact ⟨rfl, fun _ _ => rfl⟩

/-- A grant taken back: its request waits again from its first flit (R215). -/
theorem State.wvPoint_wvRestart (s : State) (pt : Nat) (g : WvReq) (sent : Nat) :
    ((s.wvRestart pt g sent).wvPoint pt).grant = none ∧
      ((s.wvRestart pt g sent).wvPoint pt).pending = (s.wvPoint pt).pending ++ [{ g with at_ := s.gtc, since := 0, sent := 0 }] := by
  have hpoint : (s.wvRestart pt g sent).wvPoint pt =
      { (s.wvPoint pt).charge g (sent - g.sent) with
        grant := none, pending := (s.wvPoint pt).pending ++ [{ g with at_ := s.gtc, since := 0, sent := 0 }] } := by
    unfold State.wvRestart
    dsimp only
    refine (State.wvPoint_congr (s := s.setWvPoint pt { (s.wvPoint pt).charge g (sent - g.sent) with
      grant := none, pending := (s.wvPoint pt).pending ++ [{ g with at_ := s.gtc, since := 0, sent := 0 }] }) ?_ pt).trans ?_
    · cases g.slot <;> dsimp only <;> split <;> rfl
    · rw [State.wvPoint_setWvPoint, if_pos rfl]
  rw [hpoint]
  exact ⟨rfl, rfl⟩

/-- A request as it begins to wait. -/
def WvReq.fresh (rank who flits : Nat) (txn : Option (Nat × Nat)) (at_ : Nat) : WvReq :=
  { rank := rank, who := who, flits := flits, slot := txn.map Prod.fst, txn := (txn.map Prod.snd).getD 0, at_ := at_, since := 0, sent := 0 }

/-- A point with one more request, whose requester is now active. -/
def WvPoint.asked (x : WvPoint) (q : WvReq) : WvPoint :=
  { x with pending := x.pending ++ [q] }.modReqr q.rank q.who fun r => { r with active := true }

/-- s once a request of the given rank has made a running grant yield (R214). -/
def State.wvYield (s : State) (pt rank sent : Nat) : State :=
  match (s.wvPoint pt).grant with
  | some g => if rank = 0 ∧ g.rank = 1 then (if sent < g.flits then s.wvRestart pt g (max g.sent sent) else s.wvEnd pt g) else s
  | none => s

theorem State.wvYield_rank1 (s : State) (pt sent : Nat) : s.wvYield pt 1 sent = s := by
  unfold State.wvYield
  split
  · exact if_neg fun h => Nat.one_ne_zero h.1
  · rfl

/-- Whether a request may come: its requester, its flits and its transaction. -/
def State.wvAsks (s : State) (pt rank who flits : Nat) (txn : Option (Nat × Nat)) : Bool :=
  decide (pt ≤ 0x1C1) && (decide (rank = 0) && (decide (who = 0) || decide (who = wvSystem)) ||
    decide (rank = 1) && decide (1 ≤ who) && decide (who ≤ 64)) && decide (1 ≤ flits) && decide (flits ≤ 64) &&
      (match txn with | none => true | some z => decide (z.1 < 208) && s.wvMay pt rank who flits z.1 z.2)

theorem execWeaveRequest_eq (s : State) (pt rank who flits : Nat) (txn : Option (Nat × Nat)) (sent : Nat) :
    execWeaveRequest pt rank who flits txn sent s = s.when (s.wvAsks pt rank who flits txn)
      ((s.wvYield pt rank sent).setWvPoint pt (((s.wvYield pt rank sent).wvPoint pt).asked (.fresh rank who flits txn s.gtc))) := rfl

/-- A rank-1 request waits at its point (R212). -/
theorem weaveRequest_waits {s : State} {pt who flits sent : Nat} {txn : Option (Nat × Nat)} (hs : s.clocksStopped = false)
    (hp : pt ≤ 0x1C1) (hw : 1 ≤ who) (hw' : who ≤ 64) (hf : 1 ≤ flits) (hf' : flits ≤ 64)
    (ht : ∀ z, txn = some z → z.1 < 208 ∧ s.wvMay pt 1 who flits z.1 z.2 = true) :
    exec (.weaveRequest pt 1 who flits txn sent) s =
      .next (s.keep (s.setWvPoint pt ((s.wvPoint pt).asked (.fresh 1 who flits txn s.gtc)))) := by
  have hcan : s.wvAsks pt 1 who flits txn = true := by
    unfold State.wvAsks
    cases txn with
    | none => simp [hp, hw, hw', hf, hf']
    | some z => simp [hp, hw, hw', hf, hf', ht z rfl]
  rw [exec_weaveRequest, execWeaveRequest_eq, State.when_of hs hcan, State.wvYield_rank1]

/-- A rank-0 request takes a rank-1 grant back (R214). -/
theorem weaveRequest_revokes {s : State} {pt who flits sent : Nat} {g : WvReq} (hs : s.clocksStopped = false) (hp : pt ≤ 0x1C1)
    (hw : who = 0 ∨ who = wvSystem) (hf : 1 ≤ flits) (hf' : flits ≤ 64) (hg : (s.wvPoint pt).grant = some g) (hr : g.rank = 1)
    (hsent : sent < g.flits) :
    let s1 := s.wvRestart pt g (max g.sent sent)
    exec (.weaveRequest pt 0 who flits none sent) s =
      .next (s.keep (s1.setWvPoint pt ((s1.wvPoint pt).asked (.fresh 0 who flits none s.gtc)))) := by
  have hcan : s.wvAsks pt 0 who flits none = true := by
    unfold State.wvAsks
    rcases hw with h | h <;> simp [hp, h, hf, hf']
  have hyield : s.wvYield pt 0 sent = s.wvRestart pt g (max g.sent sent) := by
    unfold State.wvYield
    rw [hg]
    exact (if_pos ⟨rfl, hr⟩).trans (if_pos hsent)
  rw [exec_weaveRequest, execWeaveRequest_eq, State.when_of hs hcan, hyield]

/-- A round gives the point to the winner (R213). -/
theorem arbitrationRound_grants {s : State} {pt : Nat} {w : WvReq} (hs : s.clocksStopped = false) (hp : pt ≤ 0x1C1)
    (hopen : pt < 0x1B0 ∨ 0x1C0 ≤ pt ∨ s.getF (.wyStatus (pt - 0x1B0)) WY_STATUS.STATE = 3)
    (hw : (s.wvFreed pt).wvWinner ((s.wvFreed pt).wvPoint pt) = some w) :
    exec (.arbitrationRound pt) s = .next (s.keep ((s.wvFreed pt).setWvPoint pt { ((s.wvFreed pt).wvPoint pt).ageAll w with
      grant := some { w with since := s.gtc, sent := 0 }, pending := (((s.wvFreed pt).wvPoint pt).ageAll w).pending.erase w })) := by
  have hcan : (decide (pt ≤ 0x1C1) && (decide (pt < 0x1B0) || decide (0x1C0 ≤ pt) ||
      decide (s.getF (.wyStatus (pt - 0x1B0)) WY_STATUS.STATE = 3))) = true := by simpa [hp, or_assoc] using hopen
  refine (exec_arbitrationRound ..).trans ?_
  change (match (s.wvFreed pt).wvWinner ((s.wvFreed pt).wvPoint pt) with
    | none => s.when (decide (pt ≤ 0x1C1) && (s.wvPoint pt).grant.isSome) (s.wvFreed pt)
    | some w => s.when _ ((s.wvFreed pt).setWvPoint pt { ((s.wvFreed pt).wvPoint pt).ageAll w with
        grant := some { w with since := s.gtc, sent := 0 }, pending := (((s.wvFreed pt).wvPoint pt).ageAll w).pending.erase w })) = _
  rw [hw]
  exact State.when_of hs hcan

/-- A grant past MAX_HOLD is cut off, and recorded (R216). -/
theorem holdCutoff_cuts {s : State} {pt sent : Nat} {q : WvReq} (hs : s.clocksStopped = false) (hp : pt ≤ 0x1C1)
    (hg : (s.wvPoint pt).grant = some q) (hold : WV_CFG.MAXHOLD.get s.weave.cfg ≤ s.wvSlots pt q) :
    let who := if q.who = wvSystem then 0x7F else q.who
    exec (.holdCutoff pt sent) s = .next (s.keep ((((((s.wvRestart pt q (max q.sent (min sent q.flits))).setF .wvHold WV_HOLD.VALID 1).setF
      .wvHold WV_HOLD.RANK q.rank).setF .wvHold WV_HOLD.INST who).setF .wvHold WV_HOLD.POINT pt).event (srcWeave pt) 0 0x20 0xFF who
        (pt + 4096 * q.rank))) := by
  simp only [exec_holdCutoff, execHoldCutoff, hg]
  exact State.when_of hs (by simp [hp, hold])

/-- Settles O17: requests, rounds, cut-offs and windows as their commands answer. -/
theorem weavePointsArbitrate : Obligations.WeavePointsArbitrate := by
  refine ⟨fun s pt who flits sent txn hs hp hw hw' hf hf' ht => ?_, fun s pt who flits sent g hs hp hw hf hf' hg hr hsent => ?_,
    fun s pt w hs hp hopen hw => ?_, fun s pt sent q hs hp hg hwho hrank hold => ?_, fun s hs hwin hnew => ?_⟩
  · refine ⟨_, weaveRequest_waits hs hp hw hw' hf hf' ht, rfl, fun q hq => ?_, ?_, ?_⟩
    · exact (State.wvPoint_setWvPoint ..).trans (if_neg hq)
    · exact (congrArg WvPoint.pending ((State.wvPoint_setWvPoint ..).trans (if_pos rfl))).trans rfl
    · exact (congrArg WvPoint.grant ((State.wvPoint_setWvPoint ..).trans (if_pos rfl))).trans rfl
  · obtain ⟨hgrant, hpend⟩ := s.wvPoint_wvRestart pt g (max g.sent sent)
    refine ⟨_, weaveRequest_revokes hs hp hw hf hf' hg hr hsent, ?_, ?_⟩
    · exact (congrArg WvPoint.grant ((State.wvPoint_setWvPoint ..).trans (if_pos rfl))).trans hgrant
    · have hlist := (congrArg WvPoint.pending ((State.wvPoint_setWvPoint (s.wvRestart pt g (max g.sent sent)) pt pt
        (((s.wvRestart pt g (max g.sent sent)).wvPoint pt).asked (.fresh 0 who flits none s.gtc))).trans (if_pos rfl))).trans
          (congrArg (· ++ [WvReq.fresh 0 who flits none s.gtc]) hpend)
      refine ⟨hlist.symm ▸ ?_, hlist.symm ▸ ?_⟩
      · exact List.mem_append_left _ (List.mem_append_right _ List.mem_cons_self)
      · exact List.mem_append_right _ List.mem_cons_self
  · obtain ⟨hrest, hother⟩ := s.wvFreed_rest pt
    have hpoint := (State.wvPoint_setWvPoint (s.wvFreed pt) pt pt { ((s.wvFreed pt).wvPoint pt).ageAll w with
      grant := some { w with since := s.gtc, sent := 0 }, pending := (((s.wvFreed pt).wvPoint pt).ageAll w).pending.erase w }).trans (if_pos rfl)
    refine ⟨_, arbitrationRound_grants hs hp hopen hw, ?_, fun q hq => ?_, congrArg WvPoint.grant hpoint, congrArg WvPoint.pending hpoint⟩
    · change s.keep ((s.wvFreed pt).setWvPoint pt _) = { s with weave := _, cores := (s.wvFreed pt).cores }
      generalize s.wvFreed pt = u at hrest
      rw [hrest]
      rfl
    · exact ((State.wvPoint_setWvPoint ..).trans (if_neg hq)).trans (hother q hq)
  · obtain ⟨hgrant, hpend⟩ := s.wvPoint_wvRestart pt q (max q.sent (min sent q.flits))
    have hans := holdCutoff_cuts (sent := sent) hs hp hg hold
    dsimp only at hans
    have hwho' : (if q.who = wvSystem then 0x7F else q.who) < 128 := by split <;> omega
    generalize hn : (if q.who = wvSystem then 0x7F else q.who) = who at hans hwho'
    generalize s.wvRestart pt q (max q.sent (min sent q.flits)) = u at hans hgrant hpend
    have hlog := State.logged_event ((((u.setF .wvHold WV_HOLD.VALID 1).setF .wvHold WV_HOLD.RANK q.rank).setF .wvHold WV_HOLD.INST who).setF
      .wvHold WV_HOLD.POINT pt) (srcWeave pt) 0 0x20 0xFF who (pt + 4096 * q.rank)
    generalize State.event _ (srcWeave pt) 0 0x20 0xFF who (pt + 4096 * q.rank) = v at hlog hans
    have hreg := hlog.regs .wvHold Reg.noConfusion
    have hpoint : v.wvPoint pt = u.wvPoint pt := State.wvPoint_congr (by rw [hlog.rest]; rfl) pt
    refine ⟨_, hans, (congrArg WvPoint.grant hpoint).trans hgrant, ?_, ?_, ?_, ?_, ?_⟩
    · have hlist := (congrArg WvPoint.pending hpoint).trans hpend
      exact hlist.symm ▸ List.mem_append_right _ List.mem_cons_self
    all_goals
      rw [State.getF_keep, State.getF, hreg]
      simp only [State.reg_setF_self]
      simp (disch := decide) only [Fld.get_set_other, Fld.get_set]
    · rfl
    · exact Nat.mod_eq_of_lt (Nat.lt_of_le_of_lt hp (by decide))
    · exact Nat.mod_eq_of_lt hwho'
    · exact Nat.mod_eq_of_lt hrank
  · exact (exec_windowStart s).trans (State.when_of hs (by simp [hwin, hnew]))

end Sys2Proof.Machine

namespace Sys2Proof.Machine

/-! # Frames and channels (R224, R229, R253 to R257, R318) -/

theorem exec_frameClearComplete (m f : Nat) (s : State) : exec (.frameClearComplete m f) s = execFrameClearComplete m f s := rfl
theorem exec_channelMigration (m ch : Nat) (c : Bool) (s : State) : exec (.channelMigration m ch c) s = execChannelMigration m ch c s := rfl
theorem exec_migrationComplete (m : Nat) (s : State) : exec (.migrationComplete m) s = execMigrationComplete m s := rfl
theorem exec_channelFail (m ch : Nat) (s : State) : exec (.channelFail m ch) s = execChannelFail m ch s := rfl
theorem exec_stackLost (m : Nat) (s : State) : exec (.stackLost m) s = execStackLost m s := rfl
theorem exec_mirrorRebuildComplete (m : Nat) (s : State) : exec (.mirrorRebuildComplete m) s = execMirrorRebuildComplete m s := rfl
theorem exec_journalRebuildComplete (s : State) : exec .journalRebuildComplete s = execJournalRebuildComplete s := rfl

/-- Cleared bytes read 0, the others as before (R224). -/
theorem Memory.byte_clear (m : Memory) (a n b : Nat) :
    (m.clear a n).byte b = if a ≤ b ∧ b < a + n then 0 else m.byte b := by
  unfold Memory.byte Memory.clear
  split
  · next h =>
    refine SMap.get_of_not_mem fun y hy e => ?_
    have hq := (List.mem_filter.1 hy).2
    rw [e] at hq
    simp [h.1, h.2] at hq
  · next h =>
    refine SMap.get_filter 0 (fun k => !(decide (a ≤ k) && decide (k < a + n))) m ?_
    simp only [Bool.not_eq_true', Bool.and_eq_false_iff, decide_eq_false_iff_not]
    omega

/-- An instance without work in hand is not waiting for frames (R318). -/
theorem State.resizeCheck_idle {s : State} {n : Nat} (h : (s.inst n).work = none) : s.resizeCheck n = s := by
  unfold State.resizeCheck; dsimp only; rw [h]

/-- s with the bytes of frame (m, f) cleared and the frame in its next state. -/
def State.frameCleared (s : State) (m f : Nat) : State :=
  let s1 := s.clearMem (frameBase (m, f)) (2 ^ 30)
  if s.stackSet.releasing.contains (m, f) then
    { s1 with stackSet := { s1.stackSet with releasing := s1.stackSet.releasing.filter fun x => x != (m, f) } }.setReg (.msFrame m f) 0
  else s1.setF (.msFrame m f) MS_FRAME.STATE 2

theorem State.frameCleared_rest (s : State) (m f : Nat) :
    (s.frameCleared m f).stackSet.mem = s.stackSet.mem.clear (frameBase (m, f)) (2 ^ 30) ∧ (s.frameCleared m f).insts = s.insts ∧
      ∀ r, r ≠ .msFrame m f → (s.frameCleared m f).reg r = s.reg r := by
  unfold State.frameCleared
  dsimp only
  split
  · exact ⟨rfl, rfl, fun r hr => State.reg_setReg_other _ _ hr⟩
  · exact ⟨rfl, rfl, fun r hr => State.reg_setF_other _ _ _ hr⟩

/-- What the end of a frame's clear answers (R224, R229). -/
theorem frameClearComplete_answers {s : State} {m f : Nat} (hs : s.clocksStopped = false) (hm : m < 12) (hf : f < 128)
    (hst : s.getF (.msFrame m f) MS_FRAME.STATE = 1) (hwork : (s.inst (s.getF (.msFrame m f) MS_FRAME.OWNER)).work = none) :
    exec (.frameClearComplete m f) s = .next (s.keep (s.frameCleared m f)) := by
  have hidle : ((s.frameCleared m f).inst (s.getF (.msFrame m f) MS_FRAME.OWNER)).work = none := by
    rw [State.inst, (s.frameCleared_rest m f).2.1]; exact hwork
  refine (exec_frameClearComplete ..).trans ((State.when_of hs (by simp [hm, hf, hst])).trans ?_)
  change Host.Outcome.next (s.keep ((s.frameCleared m f).resizeCheck _)) = _
  rw [State.resizeCheck_idle hidle]

/-- What a migration's end leaves (R255). -/
theorem migrationComplete_answers {s : State} {m ch : Nat} (hs : s.clocksStopped = false) (hm : m < 12)
    (hmig : SMap.get none s.stackSet.migrating m = some ch) (hst : s.getF (.msStatus m) MS_STATUS.MIGRATING = 1) :
    exec (.migrationComplete m) s = .next (s.keep ((((({ s with
      stackSet := { s.stackSet with migrating := SMap.put none s.stackSet.migrating m none } } : State).setF (.msStatus m)
        MS_STATUS.MIGRATING 0).setF (.msStatus m) MS_STATUS.SPARED ch).setF (.msStatus m) MS_STATUS.STATE 1).note (srcStack m) 1 0x11
          (ch + 16))) := by
  simp only [exec_migrationComplete, execMigrationComplete, hmig]
  exact State.when_of hs (by simp [hm, hst])

/-- Copies of a channel leave everything but the stacks (R257). -/
theorem State.copyChannels_regs (s : State) (ch : Nat) (l : List (Frame × Frame)) :
    (l.foldl (fun s y => s.copyChannel ch y.1 y.2) s).regs = s.regs := by
  induction l generalizing s with
  | nil => rfl
  | cons y l ih => rw [List.foldl_cons, ih]; rfl

/-- s with no rebuild of a channel of stack m under way. -/
def State.rebuilt (s : State) (m : Nat) : State :=
  { s with stackSet := { s.stackSet with rebuilding := SMap.put none s.stackSet.rebuilding m none } }

/-- The journal's records as the rebuild copies them to the mirror (R257). -/
def State.journalCopied (s : State) : State :=
  match s.stackSet.journal.primary, s.stackSet.journal.mirror with
  | some a, some b =>
    (s.stackSet.journal.recs.filter fun r => r.written).foldl (fun s r =>
      s.paWrite (slotPa b r.seq) (s.stackSet.mem.read (slotPa a r.seq) 256)) s
  | _, _ => s

theorem journalRebuildComplete_answers {s : State} {b : Frame} (hs : s.clocksStopped = false) (hr : s.stackSet.journal.rebuilding = true)
    (hm : s.stackSet.journal.mirror = some b) :
    exec .journalRebuildComplete s = .next (s.keep
      (((s.journalCopied.setJournal { s.stackSet.journal with rebuilding := false }).setF (.msStatus b.1) MS_STATUS.JROLE 2).journalNote b.1 3)) := by
  refine (exec_journalRebuildComplete s).trans ((State.when_of hs (by rw [hr, hm]; rfl)).trans ?_)
  change Host.Outcome.next (s.keep (((s.journalCopied.setJournal { s.stackSet.journal with rebuilding := false }).setJrole
    s.stackSet.journal.mirror 2).journalNote ((s.stackSet.journal.mirror.map Prod.fst).getD 0) 3)) = _
  rw [hm]
  rfl

/-- Settles O19: clears, migrations, losses and rebuilds as their commands answer. -/
theorem framesClearAndChannelsMigrate : Obligations.FramesClearAndChannelsMigrate := by
  refine ⟨fun s m f hs hm hf hst hwork => ?_, fun s m ch hs hm hc hmig hsp hst => ?_, fun s m ch hs hm hc hmig hst => ?_,
    fun s m ch hs hm hc hst huse => ?_, fun s m hs hm hst => ?_, fun s m ch hs hm hreb => ?_, fun s b hs hreb hmir => ?_⟩
  · obtain ⟨hmem, -, hregs⟩ := s.frameCleared_rest m f
    refine ⟨_, frameClearComplete_answers hs hm hf hst hwork, fun a h1 h2 => ?_, fun a ha => ?_, fun hrel => ?_, fun hrel => ?_, hregs⟩
    · rw [State.keep_stacks, hmem, Memory.byte_clear, if_pos ⟨h1, h2⟩]
    · rw [State.keep_stacks, hmem, Memory.byte_clear, if_neg (by omega)]
    · rw [State.getF_keep, State.frameCleared, if_neg (by simpa using hrel)]
      exact State.getF_setF_self _ _ _ _ (by decide) (by decide)
    · rw [State.getF_keep, State.frameCleared, if_pos (by simpa using hrel), State.getF_setReg, if_pos rfl]
      rfl
  · have hlog := State.logged_note (({ s with
      stackSet := { s.stackSet with migrating := SMap.put none s.stackSet.migrating m (some ch) } } : State).setF (.msStatus m)
        MS_STATUS.MIGRATING 1) (srcStack m) 1 0x11 ch
    have hans := (exec_channelMigration m ch true s).trans (State.when_of hs (by simp [hm, hc, hmig, hsp, hst]))
    generalize State.note _ (srcStack m) 1 0x11 ch = u at hlog hans
    have hstacks : u.stackSet = { s.stackSet with migrating := SMap.put none s.stackSet.migrating m (some ch) } := by rw [hlog.rest]; rfl
    refine ⟨_, hans, by rw [State.keep_stacks, hstacks], ?_,
      by rw [State.keep_stacks, hstacks]; exact SMap.get_put_self none s.stackSet.migrating m (some ch), fun r h1 h2 => ?_⟩
    · exact (hlog.getF _ Reg.noConfusion).trans (State.getF_setF_self _ _ _ _ (by decide) (by decide))
    · exact (hlog.regs r h2).trans (State.reg_setF_other _ _ _ h1)
  · have hans := migrationComplete_answers hs hm hmig hst
    generalize hv : ((({ s with
      stackSet := { s.stackSet with migrating := SMap.put none s.stackSet.migrating m none } } : State).setF (.msStatus m)
        MS_STATUS.MIGRATING 0).setF (.msStatus m) MS_STATUS.SPARED ch).setF (.msStatus m) MS_STATUS.STATE 1 = v at hans
    have hlog := v.logged_note (srcStack m) 1 0x11 (ch + 16)
    have hreg : v.reg (.msStatus m) =
        MS_STATUS.STATE.set (MS_STATUS.SPARED.set (MS_STATUS.MIGRATING.set (s.reg (.msStatus m)) 0) ch) 1 := by
      rw [← hv]
      simp only [State.reg_setF_self]
      rfl
    refine ⟨_, hans, ?_, ?_, ?_, ?_⟩
    · rw [State.keep_stacks, hlog.rest, ← hv]; rfl
    all_goals
      rw [State.getF_keep, hlog.getF _ Reg.noConfusion, State.getF, hreg]
      simp (disch := decide) only [Fld.get_set_other, Fld.get_set]
    · rfl
    · exact Nat.mod_eq_of_lt (Nat.lt_trans hc (by decide))
    · rfl
  · have hinuse : (decide (s.getF (.msStatus m) MS_STATUS.SPARED ≠ 0x1F) || decide (s.getF (.msStatus m) MS_STATUS.MIGRATING = 1)) = true := by
      simpa using huse
    refine (exec_channelFail ..).trans ?_
    unfold execChannelFail
    dsimp only
    rw [if_pos hinuse]
    exact State.when_of hs (by simp [hm, hc, hst])
  · exact (exec_stackLost ..).trans (State.when_of hs (by simp [hm, hst]))
  · have hans : exec (.mirrorRebuildComplete m) s = .next (s.keep (((s.partners m).foldl (fun s y => s.copyChannel ch y.1 y.2) s).rebuilt m)) := by
      rw [exec_mirrorRebuildComplete, execMirrorRebuildComplete, hreb]
      exact State.when_of hs (by simp [hm])
    have hregs := s.copyChannels_regs ch (s.partners m)
    generalize (s.partners m).foldl (fun s y => s.copyChannel ch y.1 y.2) s = u at hans hregs
    exact ⟨_, hans, SMap.get_put_self none u.stackSet.rebuilding m none, rfl, hregs⟩
  · have hans := journalRebuildComplete_answers hs hreb hmir
    generalize hv : (s.journalCopied.setJournal { s.stackSet.journal with rebuilding := false }).setF (.msStatus b.1) MS_STATUS.JROLE 2 = v at hans
    have hlog := v.logged_note (srcStack b.1) (if 3 = 4 ∨ 3 = 5 then 3 else 0) 0x14 3
    refine ⟨_, hans, ?_, ?_⟩
    · refine (congrArg (fun u : State => u.stackSet.journal) hlog.rest).trans ?_
      rw [← hv]; rfl
    · refine (hlog.getF _ Reg.noConfusion).trans ?_
      rw [← hv]
      exact State.getF_setF_self _ _ _ _ (by decide) (by decide)

/-! # Stack programs and the journal's records (R240 to R249) -/

theorem exec_sequencerRequest (p k e id : Nat) (s : State) : exec (.sequencerRequest p k e id) s = execSequencerRequest p k e id s := rfl
theorem exec_gatherProgram (x : SeqTurn) (w d : List Nat) (s : State) :
    exec (.gatherProgram x w d) s = seqProgram pGATHER x.stack x.id x.units w d s := rfl
theorem exec_scatter (x : SeqTurn) (w d : List Nat) (s : State) : exec (.scatter x w d) s = seqProgram pSCATTER x.stack x.id x.units w d s := rfl
theorem exec_kvwalk (x : SeqTurn) (w d : List Nat) (s : State) : exec (.kvwalk x w d) s = seqProgram pKVWALK x.stack x.id x.units w d s := rfl
theorem exec_scatadd (x : SeqTurn) (w d : List Nat) (s : State) : exec (.scatadd x w d) s = seqProgram pSCATADD x.stack x.id x.units w d s := rfl
theorem exec_harq (x : SeqTurn) (w d : List Nat) (s : State) : exec (.harq x w d) s = seqProgram pHARQ x.stack x.id x.units w d s := rfl
theorem exec_stackProgramComplete (m id : Nat) (s : State) : exec (.stackProgramComplete m id) s = execStackProgramComplete m id s := rfl
theorem exec_journalWrite (s : State) : exec .journalWrite s = execJournalWrite s := rfl

@[simp] theorem State.seqQueue_setSeqQueue (s : State) (m n : Nat) (q : List SeqReq) :
    (s.setSeqQueue m q).seqQueue n = if n = m then q else s.seqQueue n := SMap.get_put ..

/-- s once the write of request t has been made and the next request has its number. -/
def State.requestTaken (s : State) (p k e : Nat) (y : CeEntry) (t : Txn) : State :=
  let s1 := (s.endTxn p k e y t).writeDone p k e y.id t
  { s1 with stackSet := { s1.stackSet with nextReq := s.stackSet.nextReq + 1 } }

/-- A request that is in order enters the queue of its stack (R241). -/
theorem sequencerRequest_enters {s : State} {p k e m o : Nat} {y : CeEntry} {t : Txn} (hs : s.clocksStopped = false) (hp : p < 208)
    (hk : k < 2) (he : e < 2) (hy : (s.ceQueue p k e).entries.find? (fun y => y.inflight.any fun u => u.id == t.id) = some y)
    (ht : y.inflight.find? (fun u => u.id == t.id) = some t) (hw : t.write = true) (hpath : t.path = []) (hplace : t.place = .seq m o)
    (hroom : (s.seqQueue m).length + (s.journalReqs m).length < 256) {d : SeqReq × Nat × Bool}
    (hd : d = SeqReq.ofBytes t.data (s.stackSet.nextReq + 1) y.ctx p k) (hok : s.seqRefusal d.1 d.2.1 d.2.2 = none) :
    exec (.sequencerRequest p k e t.id) s =
      .next (s.keep ((s.requestTaken p k e y t).setSeqQueue m (s.seqQueue m ++ [d.1]))) := by
  subst hd
  simp only [exec_sequencerRequest, execSequencerRequest, hy, ht, hplace, hok, if_neg (Nat.not_le.2 hroom)]
  exact State.when_of hs (by simp [hp, hk, he, hw, hpath])

/-- A program's turn goes on by whole units (R242 to R247). -/
theorem seqProgram_answers {s : State} {prog m id n : Nat} {words data : List Nat} {q : SeqReq} (hs : s.clocksStopped = false) (hm : m < 12)
    (hq : s.seqTaken m id = some q) (hst : s.getF (.msStatus m) MS_STATUS.STATE ≠ 2)
    (hdata : (words = [] ∧ data = []) ∨ s.cclPort 0 ≠ 2) {x : SeqReq × SeqRun}
    (hx : x = SeqRun.units n (q, ⟨{ s with stackSet := { s.stackSet with
      last := if q.running = true ∨ q.ctx.inst = 0 then s.stackSet.last else SMap.put 0 s.stackSet.last m q.ctx.inst } }, words, data, none, false⟩))
    (hshort : x.2.short = false) (hprog : q.prog = prog) :
    seqProgram prog m id n words data s = .next (s.keep (State.seqDone m x.1 x.2)) := by
  subst hx
  unfold seqProgram
  rw [hq]
  refine State.when_of hs ?_
  rw [hshort]
  rcases hdata with ⟨rfl, rfl⟩ | hport
  · simp [hm, hprog, hst]
  · simp [hm, hprog, hst, hport]

/-! ## The end of a program -/

theorem State.event_cores (s : State) (src sev cls l n d : Nat) : (s.event src sev cls l n d).cores = s.cores := by
  rw [(State.event_frame ..).1]

/-- The cores after a correction depend on the cores alone. -/
theorem State.spCorrect_cores_congr {s t : State} (h : t.cores = s.cores) (p a n : Nat) : (t.spCorrect p a n).cores = (s.spCorrect p a n).cores := by
  unfold State.spCorrect
  rw [State.core_congr h]
  generalize Core.spSingles (s.core p) a n = ws
  induction ws generalizing s t with
  | nil => exact h
  | cons w ws ih =>
    rw [List.foldl_cons, List.foldl_cons]
    refine ih ?_
    simp only [State.event_cores, State.setF_cores, State.health_cores, State.satF_cores]
    unfold State.modCore State.setCore State.core
    rw [h]

theorem State.partCorrect_cores_congr {s t : State} (h : t.cores = s.cores) (p a n : Nat) :
    (t.partCorrect p a n).cores = (s.partCorrect p a n).cores := by
  unfold State.partCorrect
  dsimp only
  have hfirst : (if a % 8 = 0 ∧ 8 ≤ n then t else t.spCorrect p a 1).cores = (if a % 8 = 0 ∧ 8 ≤ n then s else s.spCorrect p a 1).cores := by
    split
    · exact h
    · exact State.spCorrect_cores_congr h ..
  split
  · exact hfirst
  · exact State.spCorrect_cores_congr hfirst ..

theorem State.spStore_cores_congr {s t : State} (h : t.cores = s.cores) (p a : Nat) (bs : List Byte) :
    (t.spStore p a bs).cores = (s.spStore p a bs).cores :=
  congrArg (fun cs : SMap Core => SMap.put Core.zero cs p ((SMap.get Core.zero cs p).spWrite a bs)) (State.partCorrect_cores_congr h ..)

/-- A store into a scratchpad leaves the stacks. -/
theorem State.spStore_stacks (s : State) (p a : Nat) (bs : List Byte) : (s.spStore p a bs).stackSet = s.stackSet := by
  have hcorrect : ∀ (s : State) (a n : Nat), (s.spCorrect p a n).stackSet = s.stackSet := fun s a n => by rw [(s.spCorrect_frame p a n).1]
  unfold State.spStore State.partCorrect
  dsimp only
  refine Eq.trans (b := State.stackSet (if a % 8 = 0 ∧ 8 ≤ bs.length then s else s.spCorrect p a 1)) ?_ ?_
  · split
    · rfl
    · exact hcorrect ..
  · split
    · rfl
    · exact hcorrect ..

/-- The NOTIFY word of a finished program takes NVAL. -/
def State.seqNotified (s : State) (q : SeqReq) : State :=
  if q.notify = true then s.spStore q.slot q.naddr (leBytes 4 ((s.core q.slot).sp.readLE q.naddr 4 + q.nval)) else s

theorem State.seqNotified_stacks (s : State) (q : SeqReq) : (s.seqNotified q).stackSet = s.stackSet := by
  unfold State.seqNotified
  split
  · exact State.spStore_stacks ..
  · rfl

theorem State.setSeqQueue_writeFault (s : State) (m : Nat) (l : List SeqReq) (p k : Nat) (spans : List (Nat × Nat)) :
    (s.setSeqQueue m l).writeFault p k spans = s.writeFault p k spans := by
  have hrole : (s.setSeqQueue m l).getF (.coreCqPlan p) CORE_CQ_PLAN.ROLE = s.getF (.coreCqPlan p) CORE_CQ_PLAN.ROLE :=
    State.getF_setF_other_reg _ _ _ _ Reg.noConfusion
  unfold State.writeFault State.inRange State.spRange State.isStake State.role
  rw [hrole]
  rfl

theorem stackProgramComplete_answers {s : State} {m : Nat} {q : SeqReq} (hs : s.clocksStopped = false) (hm : m < 12)
    (hq : (s.seqQueue m).find? (fun z => z.id == q.id && z.applied) = some q)
    (hn : q.notify = true → s.writeFault q.slot q.side [(q.naddr, 4)] = none) :
    exec (.stackProgramComplete m q.id) s =
      .next (s.keep ((s.setSeqQueue m ((s.seqQueue m).filter fun z => z.id != q.id)).seqNotified q)) := by
  simp only [exec_stackProgramComplete, execStackProgramComplete, hq]
  refine (State.when_of hs (by simp [hm])).trans ?_
  unfold State.seqNotified
  by_cases h : q.notify = true
  · rw [State.setSeqQueue_writeFault, hn h]
    simp [h]
  · simp [h]

/-! ## Records of the journal -/

/-- A slot of the journal lies in the stack of its frame (R248). -/
theorem stackOf_slotPa {f : Frame} (seq : Nat) (h : f.2 < 128) : stackOf (slotPa f seq) = f.1 := by
  unfold stackOf slotPa frameBase
  omega

theorem State.paWrite_mem {s : State} {pa : Nat} (bs : List Byte) (h : s.getF (.msStatus (stackOf pa)) MS_STATUS.STATE ≠ 2) :
    s.paWrite pa bs = (s.setMem (s.stackSet.mem.write pa bs)).unpoison pa bs.length := if_neg h

theorem JRec.bytes_length {r : JRec} (h : r.body.length ≤ 128) : r.bytes.length = 256 := by
  unfold JRec.bytes
  simp only [List.length_append, leBytes_length, List.length_cons, List.length_nil, List.length_replicate]
  omega

theorem State.journalBusy_rest (s : State) : s.journalBusy = { s with regs := s.journalBusy.regs } := by
  unfold State.journalBusy
  dsimp only
  split <;> split <;> rfl

/-- Bytes in the slot of one frame of the journal. -/
def State.putSlot (s : State) (seq : Nat) (bs : List Byte) (f : Option Frame) : State :=
  match f with
  | some f => s.paWrite (slotPa f seq) bs
  | none => s

/-- A record as it is written at cycle `gtc`. -/
def JRec.stamped (r : JRec) (gtc : Nat) : JRec := { r with gtc := gtc, written := true }

/-- The state that a journal record leaves: written to both frames, and stamped (R248, R249). -/
def State.journalWritten (s : State) (r : JRec) : State :=
  ((s.putSlot r.seq (r.stamped s.gtc).bytes s.stackSet.journal.primary).putSlot r.seq (r.stamped s.gtc).bytes
    s.stackSet.journal.mirror).setJournal { s.stackSet.journal with
      recs := s.stackSet.journal.recs.map fun q => if q.seq = r.seq then r.stamped s.gtc else q }

theorem journalWrite_answers {s : State} {r : JRec} {f : Frame} (hs : s.clocksStopped = false) (hl : s.stackSet.journal.lost = false)
    (hf : s.stackSet.journal.primary = some f) (hr : s.stackSet.journal.recs.find? (fun r => !r.written) = some r)
    (hroom : ∀ o, s.stackSet.journal.recs.head? = some o → r.seq < o.seq + 4194304)
    (hnext : ∀ q, s.nextSeq f.1 = some q → q.ctx.inst ≠ 0) (hbusy : s.seqBusy f.1 < 16) (hbase : s.baseLoading f.1 = false) :
    exec .journalWrite s = .next (s.keep (s.journalWritten r).journalBusy) := by
  have hstack : s.journalStack = f.1 := by rw [State.journalStack, hf]; rfl
  have hhead : (s.stackSet.journal.recs.head?.all fun o => decide (r.seq < o.seq + 4194304)) = true := by
    cases ho : s.stackSet.journal.recs.head? with
    | none => rfl
    | some o => exact Option.all_some.trans (decide_eq_true (hroom o ho))
  refine (exec_journalWrite s).trans ?_
  unfold execJournalWrite
  dsimp only
  rw [hr]
  refine State.when_of hs ?_
  rw [hstack, hhead, hl, hbase, hf, decide_eq_true hbusy]
  cases hq : s.nextSeq f.1 with
  | none => rfl
  | some q => simpa using hnext q hq

theorem State.getF_setMem (s : State) (m : Memory) (r : Reg) (f : Fld) : (s.setMem m).getF r f = s.getF r f := rfl
theorem State.getF_unpoison (s : State) (pa n : Nat) (r : Reg) (f : Fld) : (s.unpoison pa n).getF r f = s.getF r f := rfl

theorem State.putSlot_some {s : State} (seq : Nat) (bs : List Byte) {f : Frame} (hf : f.2 < 128)
    (hst : s.getF (.msStatus f.1) MS_STATUS.STATE ≠ 2) :
    s.putSlot seq bs (some f) = (s.setMem (s.stackSet.mem.write (slotPa f seq) bs)).unpoison (slotPa f seq) bs.length :=
  State.paWrite_mem _ (by rwa [stackOf_slotPa _ hf])

/-- The record stands in its slot of both frames (R248). -/
theorem State.journalWritten_mem {s : State} {r : JRec} {f g : Frame} (hf : s.stackSet.journal.primary = some f)
    (hg : s.stackSet.journal.mirror = some g) (hf2 : f.2 < 128) (hg2 : g.2 < 128) (hstf : s.getF (.msStatus f.1) MS_STATUS.STATE ≠ 2)
    (hstg : s.getF (.msStatus g.1) MS_STATUS.STATE ≠ 2) :
    (s.journalWritten r).stackSet.mem = (s.stackSet.mem.write (slotPa f r.seq) (r.stamped s.gtc).bytes).write (slotPa g r.seq)
      (r.stamped s.gtc).bytes := by
  have hput : (s.journalWritten r).stackSet.mem = ((s.putSlot r.seq (r.stamped s.gtc).bytes s.stackSet.journal.primary).putSlot r.seq
      (r.stamped s.gtc).bytes s.stackSet.journal.mirror).stackSet.mem := rfl
  have hst : ((s.setMem (s.stackSet.mem.write (slotPa f r.seq) (r.stamped s.gtc).bytes)).unpoison (slotPa f r.seq)
      (r.stamped s.gtc).bytes.length).getF (.msStatus g.1) MS_STATUS.STATE ≠ 2 := by
    rwa [State.getF_unpoison, State.getF_setMem]
  rw [hput, hf, hg, State.putSlot_some _ _ hf2 hstf, State.putSlot_some _ _ hg2 hst, State.setMem_unpoison_mem, State.setMem_unpoison_mem]

theorem State.journalWritten_rest (s : State) (r : JRec) : s.journalWritten r = { s with stackSet := (s.journalWritten r).stackSet } := by
  have hput : ∀ (u : State) (seq : Nat) (bs : List Byte) (f : Option Frame),
      u.putSlot seq bs f = { u with stackSet := (u.putSlot seq bs f).stackSet } := by
    intro u seq bs f
    unfold State.putSlot State.paWrite
    split
    · split <;> rfl
    · rfl
  unfold State.journalWritten
  rw [hput, hput]
  rfl

/-- Settles O20: requests, turns, ends and journal records as their commands answer. -/
theorem stackProgramsAndJournalRecordsRun : Obligations.StackProgramsAndJournalRecordsRun := by
  refine ⟨⟨fun s p k e m o y t hs hp hk he hy ht hw hpath hplace hroom hok => ?_, fun s m id n words data q hs hm hq hst hdata hshort => ?_,
    fun s m q hs hm hq hn => ?_⟩, fun s r f g hs hl hf hg hr hroom hbody hnext hbusy hbase hf2 hg2 hstf hstg => ?_⟩
  · exact ⟨_, sequencerRequest_enters hs hp hk he hy ht hw hpath hplace hroom rfl hok, (State.seqQueue_setSeqQueue ..).trans (if_pos rfl), rfl⟩
  · have hturn := fun prog => seqProgram_answers (prog := prog) hs hm hq hst hdata rfl hshort
    exact ⟨fun h => (exec_gatherProgram ..).trans (hturn _ h), fun h => (exec_scatter ..).trans (hturn _ h),
      fun h => (exec_kvwalk ..).trans (hturn _ h), fun h => (exec_scatadd ..).trans (hturn _ h), fun h => (exec_harq ..).trans (hturn _ h)⟩
  · have hstacks := State.seqNotified_stacks (s.setSeqQueue m ((s.seqQueue m).filter fun z => z.id != q.id)) q
    refine ⟨_, stackProgramComplete_answers hs hm hq hn, ?_, ?_, fun h => ?_, fun h => ?_⟩
    · exact (congrArg (fun x : StackState => SMap.get [] x.queues m) hstacks).trans ((State.seqQueue_setSeqQueue ..).trans (if_pos rfl))
    · exact (congrArg StackState.mem hstacks).trans rfl
    · rw [State.keep_cores, State.seqNotified, if_neg (by simp [h])]
      rfl
    · rw [State.keep_cores, State.seqNotified, if_pos h]
      exact State.spStore_cores_congr (s := s) (t := s.setSeqQueue m ((s.seqQueue m).filter fun z => z.id != q.id)) rfl ..
  · refine ⟨_, journalWrite_answers hs hl hf hr hroom hnext hbusy hbase, ?_, ?_, JRec.bytes_length hbody, ?_⟩
    · rw [State.journalBusy_rest, State.journalWritten_rest]
      rfl
    · rw [State.keep_stacks, State.journalBusy_rest]
      exact State.journalWritten_mem hf hg hf2 hg2 hstf hstg
    · rw [State.keep_stacks, State.journalBusy_rest]
      exact List.mem_map.2 ⟨r, List.mem_of_find?_eq_some hr, if_pos rfl⟩

end Sys2Proof.Machine


namespace Sys2Proof.Machine

/-! ## The companion link -/

theorem exec_cclPortUp (i : Nat) (up : CclUp) (s : State) : exec (.cclPortUp i up) s = execCclPortUp i up s := rfl
theorem exec_cclPortDown (i lanes : Nat) (s : State) : exec (.cclPortDown i lanes) s = execCclPortDown i lanes s := rfl
theorem exec_cclRetry (i : Nat) (s : State) : exec (.cclRetry i) s = execCclRetry i s := rfl
theorem exec_snpinv (a : Nat) (s : State) : exec (.snpinv a) s = execSnpinv a s := rfl
theorem exec_watchedLineReread (s : State) : exec .watchedLineReread s = execWatchedLineReread s := rfl
theorem exec_lineDataReturn (j : Nat) (data : List Nat) (s : State) : exec (.lineDataReturn j data) s = execLineDataReturn j data s := rfl
theorem exec_writeAcknowledge (j : Nat) (s : State) : exec (.writeAcknowledge j) s = execWriteAcknowledge j s := rfl
theorem exec_eventTimerTick (s : State) : exec .eventTimerTick s = execEventTimerTick s := rfl

@[simp] theorem State.cclLink_modLink_self (s : State) (i : Nat) (f : CclLink → CclLink) : (s.modLink i f).cclLink i = f (s.cclLink i) :=
  SMap.get_put_self CclLink.zero s.ccl.links i _

theorem State.cclLink_modLink_other (s : State) {i k : Nat} (f : CclLink → CclLink) (h : k ≠ i) : (s.modLink i f).cclLink k = s.cclLink k :=
  SMap.get_put_other _ _ _ h

/-- A flit that is sent leaves the width that the ports have fallen to. -/
theorem State.flitOut_narrow (s : State) (i k : Nat) : ((s.flitOut i).cclLink k).narrow = (s.cclLink k).narrow := by
  unfold State.flitOut
  split
  · by_cases h : k = i
    · subst h
      rw [State.cclLink_modLink_self]
    · rw [State.cclLink_modLink_other _ _ h]
  · rfl

/-- Re-routing the outstanding transactions sends flits and moves no port's width. -/
theorem State.cclRoute_narrow (s : State) (hit : CclTxn → Bool) (k : Nat) : ((s.cclRoute hit).cclLink k).narrow = (s.cclLink k).narrow := by
  have hfold : ∀ (l : List CclTxn) (x : List CclTxn × State), ((l.foldl (fun x t =>
      if hit t then (x.1 ++ [{ t with port := x.2.cclOutPort t.addr }], x.2.flitOut (x.2.cclOutPort t.addr)) else (x.1 ++ [t], x.2)) x).2.cclLink
        k).narrow = (x.2.cclLink k).narrow := by
    intro l
    induction l with
    | nil => intro x; rfl
    | cons t l ih =>
      intro x
      rw [List.foldl_cons, ih]
      split
      · exact x.2.flitOut_narrow _ k
      · rfl
  exact hfold s.ccl.out ([], s)

/-- What a port that comes up or falls shows: STATE and WIDTH, and a record. -/
theorem State.setCclPort_logged (s : State) (i state width : Nat) :
    ((s.setF (.cclPortStatus i) CCL_PORT_STATUS.STATE state).setF (.cclPortStatus i) CCL_PORT_STATUS.WIDTH width).Logged (s.setCclPort i state width) :=
  State.logged_note ..

theorem State.setCclPort_rest (s : State) (i state width : Nat) : (s.setCclPort i state width).ccl = s.ccl ∧
    (s.setCclPort i state width).cores = s.cores ∧ (s.setCclPort i state width).stackSet = s.stackSet := by
  rw [(s.setCclPort_logged i state width).rest]
  exact ⟨rfl, rfl, rfl⟩

theorem State.setCclPort_state (s : State) (i : Nat) {state : Nat} (width : Nat) (h : state < 4) :
    (s.setCclPort i state width).getF (.cclPortStatus i) CCL_PORT_STATUS.STATE = state := by
  rw [(s.setCclPort_logged i state width).getF _ Reg.noConfusion, State.getF_setF_other _ _ _ _ _ (by decide) (by decide)
      (by decide) (by decide), State.getF_setF_self _ _ _ _ (by decide) (by decide)]
  exact Nat.mod_eq_of_lt h

theorem State.setCclPort_width (s : State) (i state : Nat) {width : Nat} (h : width < 32) :
    (s.setCclPort i state width).getF (.cclPortStatus i) CCL_PORT_STATUS.WIDTH = width := by
  rw [(s.setCclPort_logged i state width).getF _ Reg.noConfusion, State.getF_setF_self _ _ _ _ (by decide) (by decide)]
  exact Nat.mod_eq_of_lt h

/-- Settles O21: each command's guard holds, and the companion link's own functions say what the ports show. -/
theorem companionLinkCommandsTakeEffect : Obligations.CompanionLinkCommandsTakeEffect := by
  refine ⟨?_, ?_, ?_, ?_, ?_, ?_, ?_, ?_⟩
  · intro s i lanes base hs hi hl hb hd hst
    have hl32 : lanes < 32 := by omega
    refine ⟨(exec_cclPortUp ..).trans (State.when_of hs ?_), State.setCclPort_state _ i lanes (by decide), State.setCclPort_width _ i 2 hl32⟩
    rcases hl with ⟨rfl, hn⟩ | rfl
    · simp [-Nat.reducePow, hi, hn, hb, hd, hst]
    · simp [-Nat.reducePow, hi, hb, hd, hst]
  · intro s i lanes hs hi hl hst
    refine ⟨_, (exec_cclPortDown ..).trans (State.when_of hs (by simp [hi, hl, hst])), ?_, ?_, ?_, ?_, ?_⟩
    · rw [State.getF_keep, State.cclRoute_frame]
      exact State.setCclPort_state _ i 0 (by split <;> decide)
    · rw [State.getF_keep, State.cclRoute_frame]
      exact State.setCclPort_width _ i _ (by decide)
    · refine (State.cclRoute_narrow _ _ i).trans ?_
      refine (congrArg (fun l => (SMap.get CclLink.zero l.links i).narrow) (State.setCclPort_rest _ i _ 0).1).trans ?_
      exact congrArg CclLink.narrow (State.cclLink_modLink_self s i _)
    · exact (congrArg State.cores (State.cclRoute_frame _ _)).trans (State.setCclPort_rest _ i _ 0).2.1
    · exact (congrArg State.stackSet (State.cclRoute_frame _ _)).trans (State.setCclPort_rest _ i _ 0).2.2
  · intro s i hs hi hst
    refine ⟨_, (exec_cclRetry ..).trans (State.when_of hs (by simp [hi, hst])), ?_, rfl, fun r hr => State.reg_setF_other _ _ _ hr⟩
    refine (State.getF_setF_self _ _ _ _ (by decide) (by decide)).trans ?_
    exact Nat.mod_eq_of_lt (Nat.lt_of_le_of_lt (Nat.min_le_right ..) (by decide))
  · intro s a hs ha hb hup
    exact (exec_snpinv ..).trans (State.when_of hs (by simp [-Nat.reducePow, ha, hb, hup]))
  · intro s hs ht
    exact (exec_watchedLineReread s).trans (State.when_of hs (decide_eq_true ht))
  · intro s j data t hs hj hk hp hlen hbytes hw
    rw [exec_lineDataReturn, execLineDataReturn, hj]
    refine State.when_of hs ?_
    have hall : (data.all fun b => decide (b < 256)) = true := List.all_eq_true.2 fun b hb => decide_eq_true (hbytes b hb)
    rcases hk with hk | hk <;> simp [hk, hp, hlen, hall, hw]
  · intro s j t hs hj hk hp
    rw [exec_writeAcknowledge, execWriteAcknowledge, hj]
    refine State.when_of hs ?_
    rcases hk with hk | hk <;> simp [hk, hp]
  · intro s hs hen ht hhb hhealth
    have hfirst : ((s.wlActive && decide (s.waling.hbAt + 28800 ≤ s.gtc)) || decide (s.waling.healthAt + 360000000 ≤ s.gtc)) = false := by
      rw [decide_eq_false (Nat.not_le.2 hhealth), Bool.or_false]
      rcases hhb with hhb | hhb
      · rw [hhb, Bool.false_and]
      · rw [decide_eq_false (Nat.not_le.2 hhb), Bool.and_false]
    exact (exec_eventTimerTick s).trans (State.when_of hs (by rw [hfirst, decide_eq_true hen, decide_eq_true ht]; rfl))

end Sys2Proof.Machine


namespace Sys2Proof.Machine

/-! ## The state of a time base and the start of the beat -/

theorem exec_timeBaseLock (n : Nat) (s : State) : exec (.timeBaseLock n) s = execTimeBaseLock n s := rfl
theorem exec_timeBaseUnlock (n : Nat) (s : State) : exec (.timeBaseUnlock n) s = execTimeBaseUnlock n s := rfl
theorem exec_holdover (n : Nat) (s : State) : exec (.holdover n) s = execHoldover n s := rfl
theorem exec_radioSwitch (a : Nat) (s : State) : exec (.radioSwitch a) s = execRadioSwitch a s := rfl
theorem exec_beatStart (s : State) : exec .beatStart s = execBeatStart s := rfl

/-- One base takes its new state, with a record where it changes. -/
def State.tbMove (s : State) (new k : Nat) : State :=
  if s.tbState k = new then s else (s.setF (.timeTbStatus k) TIME_TB_STATUS.STATE new).tbNote k (s.tbState k) new

theorem State.tbMove_getF (s : State) (new k : Nat) {r : Reg} (f : Fld) (hr : r ≠ .timeTbStatus k) (hl : r ≠ .gctlElogLost) :
    (s.tbMove new k).getF r f = s.getF r f := by
  unfold State.tbMove
  split
  · rfl
  · exact ((State.logged_event ..).getF f hl).trans (State.getF_setF_other_reg _ _ _ _ hr)

theorem State.tbState_tbMove_self (s : State) {new : Nat} (k : Nat) (h : new < 8) : (s.tbMove new k).tbState k = new := by
  unfold State.tbMove
  split
  · assumption
  · refine ((State.logged_event ..).getF _ Reg.noConfusion).trans ((State.getF_setF_self _ _ _ _ (by decide) (by decide)).trans ?_)
    exact Nat.mod_eq_of_lt h

theorem State.tbState_tbMove_other (s : State) (new : Nat) {k j : Nat} (h : j ≠ k) : (s.tbMove new k).tbState j = s.tbState j :=
  s.tbMove_getF new k _ (fun e => h (Reg.timeTbStatus.inj e)) Reg.noConfusion

theorem State.follows_tbMove (s : State) (new k i j : Nat) : (s.tbMove new k).follows i j = s.follows i j := by
  have h (f : Fld) : (s.tbMove new k).getF (.timeTbCfg i) f = s.getF (.timeTbCfg i) f :=
    s.tbMove_getF new k f Reg.noConfusion Reg.noConfusion
  simp only [State.follows, State.tbConfigOk, State.psrc, State.follow, h]
  rfl

/-- A base that follows is base 2 or 3, and base 2 follows a base below it. -/
theorem State.follows_bounds {s : State} {k n : Nat} (hk : k < 4) (h : s.follows k n = true) : k = 2 ∧ n < 2 ∨ k = 3 ∧ n ≠ 3 := by
  simp only [State.follows, State.tbConfigOk, Bool.and_eq_true, beq_iff_eq] at h
  obtain ⟨⟨⟨_, hc⟩, hp⟩, hf⟩ := h
  simp only [hp, hf, Bool.and_eq_true, Bool.or_eq_true, decide_eq_true_eq, bne_iff_ne] at hc
  omega

theorem State.setTbState_eq (s : State) (n new : Nat) : s.setTbState n new =
    let a := s.tbMove new n
    let b := if a.follows 2 n then a.tbMove new 2 else a
    if b.follows 3 n || (b.follows 2 n && b.follows 3 2) then b.tbMove new 3 else b := rfl

/-- A base's new state reaches every base that follows it (R362, R364). -/
theorem State.setTbState_moves (s : State) {n new : Nat} (hn : n < 4) (hnew : new < 8) :
    (s.setTbState n new).tbState n = new ∧ ∀ k, k < 4 → s.follows k n = true → (s.setTbState n new).tbState k = new := by
  have hself (t : State) (k : Nat) : (t.tbMove new k).tbState k = new := t.tbState_tbMove_self k hnew
  have h2 : s.follows 2 n = true → n < 2 := fun h => by have := State.follows_bounds (by decide) h; omega
  have h3 : s.follows 3 n = true → n ≠ 3 := fun h => by have := State.follows_bounds (by decide) h; omega
  rw [State.setTbState_eq]
  simp only [State.follows_tbMove]
  generalize hb : (if s.follows 2 n then (s.tbMove new n).tbMove new 2 else s.tbMove new n) = b
  have hbf (i j : Nat) : b.follows i j = s.follows i j := by rw [← hb]; split <;> simp only [State.follows_tbMove]
  have hbn : b.tbState n = new := by
    rw [← hb]
    split
    case isTrue h => rw [State.tbState_tbMove_other _ _ (by have := h2 h; omega), hself]
    case isFalse => exact hself s n
  have hb2 (h : s.follows 2 n = true) : b.tbState 2 = new := by rw [← hb, if_pos h, hself]
  simp only [hbf]
  refine ⟨?_, fun k hk hf => ?_⟩
  · split
    case isTrue h =>
      have hn3 : n ≠ 3 := by
        rw [Bool.or_eq_true, Bool.and_eq_true] at h
        exact h.elim h3 fun h => by have := h2 h.1; omega
      rw [State.tbState_tbMove_other _ _ hn3, hbn]
    case isFalse => exact hbn
  · rcases State.follows_bounds hk hf with ⟨rfl, _⟩ | ⟨rfl, _⟩
    · split
      · rw [State.tbState_tbMove_other _ _ (by decide), hb2 hf]
      · exact hb2 hf
    · rw [hf, Bool.true_or, if_pos rfl, hself]

/-- Settles O24: the guards hold, and the followers of a base move with it. -/
theorem timeBasesLockAndTheBeatStarts : Obligations.TimeBasesLockAndTheBeatStarts := by
  refine ⟨⟨?_, ?_, ?_, ?_, fun s n new hn hnew => s.setTbState_moves hn hnew, ?_⟩, ?_⟩
  · intro s n hs hn hp hst hin
    exact (exec_timeBaseLock n s).trans (State.when_of hs (by simp [hn, hp, hst, hin]))
  · intro s n hs hn hp hst hout
    exact (exec_timeBaseUnlock n s).trans (State.when_of hs (by simp [hn, hp, hst, hout]))
  · intro s n hs hn hp hst hloss hf
    rw [exec_holdover, execHoldover, hf]
    exact State.when_of hs (by simp [hn, hp, hst, hloss])
  · intro s n f hs hn hp hst hloss hf
    rw [exec_holdover, execHoldover, hf]
    exact State.when_of hs (by simp [hn, hp, hst, hloss])
  · intro s a hs ha hsel
    exact (exec_radioSwitch a s).trans (State.when_of hs (by simp [ha, hsel]))
  · intro s hs hst hstage hlock
    refine ⟨_, (exec_beatStart s).trans (State.when_of hs (by simp [hst, hstage, hlock])), rfl, rfl, rfl, Nat.le_add_right _ _,
      fun r hr => State.reg_setF_other _ _ _ hr, rfl⟩

end Sys2Proof.Machine


namespace Sys2Proof.Machine

/-! ## Cold reset and cold start -/

theorem exec_coldReset (pwr : Bool) (s : State) : exec (.coldReset pwr) s = execColdReset pwr s := rfl
theorem exec_coldStart (straps : List Bool) (flash : Option Flash) (s : State) :
    exec (.coldStart straps flash) s = execColdStart straps flash s := rfl

/-- A step of the boot: only registers and the log change, and of the registers no power domain. -/
structure State.BootStep (s t : State) : Prop where
  rest : t = { s with regs := t.regs, log := t.log }
  power : ∀ k, t.reg (.gctlPdstat k) = s.reg (.gctlPdstat k)

theorem State.BootStep.refl (s : State) : s.BootStep s := ⟨rfl, fun _ => rfl⟩

theorem State.BootStep.trans {s t u : State} (h : s.BootStep t) (g : t.BootStep u) : s.BootStep u := by
  refine ⟨?_, fun k => (g.power k).trans (h.power k)⟩
  have hu := g.rest
  rw [h.rest] at hu
  exact hu

theorem State.bootStep_setReg (s : State) {r : Reg} (w : BitVec 64) (h : ∀ k, .gctlPdstat k ≠ r) : s.BootStep (s.setReg r w) :=
  ⟨rfl, fun k => State.reg_setReg_other s w (h k)⟩

theorem State.bootStep_setF (s : State) {r : Reg} (f : Fld) (x : Nat) (h : ∀ k, .gctlPdstat k ≠ r) : s.BootStep (s.setF r f x) :=
  s.bootStep_setReg _ h

theorem State.Logged.bootStep {s t : State} (h : s.Logged t) : s.BootStep t :=
  ⟨h.rest, fun _ => h.regs _ Reg.noConfusion⟩

theorem State.bootStep_toStage (s : State) (n : Nat) : s.BootStep (s.toStage n) := by
  unfold State.toStage
  split
  · exact .refl s
  · exact (s.bootStep_setF _ _ fun _ => Reg.noConfusion).trans (State.logged_note ..).bootStep

theorem State.bootStep_bootFail (s : State) (cause : Nat) : s.BootStep (s.bootFail cause) :=
  (s.bootStep_setF _ _ fun _ => Reg.noConfusion).trans (State.logged_note ..).bootStep

theorem State.bootStep_toMaint (s : State) (cause : Nat) : s.BootStep (s.toMaint cause) :=
  (s.bootStep_bootFail cause).trans (State.bootStep_toStage _ 7)

theorem State.bootStep_toRecovery (s : State) (cause : Nat) : s.BootStep (s.toRecovery cause) :=
  (s.bootStep_bootFail cause).trans (State.bootStep_toStage _ 8)

theorem State.bootStep_bootSlot (s : State) (slot : Nat) (trial : Bool) : s.BootStep (s.bootSlot slot trial) := by
  have hset := (s.bootStep_setF (r := .mpBootstat) MP_BOOTSTAT.SLOT slot fun _ => Reg.noConfusion).trans
    (State.bootStep_setF _ (r := .mpBootstat) MP_BOOTSTAT.TRIAL trial.toNat fun _ => Reg.noConfusion)
  simp only [State.bootSlot]
  split
  · exact hset.trans (State.bootStep_toStage _ 1)
  · exact hset.trans (State.bootStep_toMaint _ 5)

/-- The choice of a slot changes the boot flash (its header) and else only what a boot step changes. -/
theorem State.bootStep_chooseSlot (s : State) : ∃ f, (s.setFlash f).BootStep s.chooseSlot := by
  simp only [State.chooseSlot]
  split
  · exact ⟨s.boot.flash, s.bootStep_toRecovery 1⟩
  · split
    · exact ⟨_, State.bootStep_bootSlot ..⟩
    · split
      · exact ⟨_, ((State.bootStep_bootFail ..).trans (State.logged_note ..).bootStep).trans (State.bootStep_bootSlot ..)⟩
      · exact ⟨s.boot.flash, s.bootStep_toRecovery 2⟩

theorem State.bootStep_foldl {α : Type} (f : State → α → State) (h : ∀ (s : State) a, s.BootStep (f s a)) (l : List α) (s : State) :
    s.BootStep (l.foldl f s) := by
  induction l generalizing s with
  | nil => exact .refl s
  | cons a l ih => exact (h s a).trans (ih _)

theorem State.bootStep_training (s : State) : s.BootStep s.training := by
  refine State.bootStep_foldl _ (fun s i => ?_) _ s
  split
  · exact s.bootStep_setF _ _ fun _ => Reg.noConfusion
  · exact .refl s

theorem State.bootStep_identity (s : State) : s.BootStep s.identity := by
  have hset := (s.bootStep_setF (r := .secStatus) SEC_STATUS.IDOK s.boot.flash.idok.toNat fun _ => Reg.noConfusion).trans
    (State.bootStep_setF _ (r := .secStatus) SEC_STATUS.CNTOK s.boot.flash.cntok.toNat fun _ => Reg.noConfusion)
  simp only [State.identity]
  split
  · exact hset
  · exact (hset.trans (State.bootStep_foldl _ (fun t k => t.bootStep_setReg (r := .secDevhash k) _ fun _ => Reg.noConfusion) _ _)).trans
      (State.bootStep_foldl _ (fun t k => t.bootStep_setReg (r := .secDevpub k) _ fun _ => Reg.noConfusion) _ _)

theorem State.BootStep.domainOn {s t : State} (h : s.BootStep t) (d : Nat) : t.domainOn d = s.domainOn d := by
  unfold State.domainOn State.getF
  rw [h.power]

@[simp] theorem State.stage_toStage (s : State) {n : Nat} (h : n < 16) : (s.toStage n).stage = n := by
  unfold State.toStage
  split
  · assumption
  · refine ((State.logged_note ..).getF _ Reg.noConfusion).trans ((State.getF_setF_self _ _ _ _ (by decide) (by decide)).trans ?_)
    exact Nat.mod_eq_of_lt h

/-- The other fields of MP_BOOTSTAT than STAGE stay when a stage is entered. -/
theorem State.getF_toStage (s : State) (n : Nat) (r : Reg) {f : Fld} (h1 : f.lo ≤ f.hi) (h2 : f.hi < 64) (hr : r ≠ .gctlElogLost)
    (h : f.hi < MP_BOOTSTAT.STAGE.lo ∨ MP_BOOTSTAT.STAGE.hi < f.lo) : (s.toStage n).getF r f = s.getF r f := by
  unfold State.toStage
  split
  · rfl
  · refine ((State.logged_note ..).getF _ hr).trans ?_
    by_cases hb : r = .mpBootstat
    · subst hb
      exact State.getF_setF_other _ _ _ _ _ h1 h2 (by decide) h
    · exact State.getF_setF_other_reg _ _ _ _ hb

@[simp] theorem State.domainOn_setDomain_self (s : State) (d : Nat) (on : Bool) : (s.setDomain d on).domainOn d = on := by
  have hf := State.getF_setF_self s (.gctlPdstat (d / 32)) ⟨d % 32, d % 32⟩ on.toNat (Nat.le_refl _)
    (Nat.lt_trans (Nat.mod_lt d (by decide)) (by decide))
  unfold State.domainOn State.setDomain
  rw [hf]
  simp only [Nat.add_sub_cancel_left, Nat.pow_one]
  cases on <;> rfl

theorem State.domainOn_setDomain_other (s : State) {d e : Nat} (on : Bool) (h : e ≠ d) : (s.setDomain d on).domainOn e = s.domainOn e := by
  unfold State.domainOn State.setDomain
  by_cases hq : e / 32 = d / 32
  · have hm : e % 32 < d % 32 ∨ d % 32 < e % 32 := by omega
    rw [hq, State.getF_setF_other _ _ _ _ _ (Nat.le_refl _) (Nat.lt_trans (Nat.mod_lt e (by decide)) (by decide)) (Nat.le_refl _) hm]
  · rw [State.getF_setF_other_reg _ _ _ _ fun he => hq (Reg.gctlPdstat.inj he)]

/-- The state in which the ROM chooses a slot: the straps and the flash are known, the CCL ports train, the identity is shown. -/
def State.romStarted (s : State) (straps : List Bool) (noPort1 : Bool) (f : Flash) : State :=
  let s1 := { s with boot := { s.boot with straps := straps, flash := f, started := true } }
  ((((s1.setDomain 270 true).setDomain 271 (!noPort1)).setDomain 285 true).training).identity

theorem State.bootStep_romStarted (s : State) (straps : List Bool) (b : Bool) (f : Flash) :
    State.BootStep (((({ s with boot := { s.boot with straps := straps, flash := f, started := true } }.setDomain 270 true).setDomain 271
      (!b)).setDomain 285 true)) (s.romStarted straps b f) :=
  (State.bootStep_training _).trans (State.bootStep_identity _)

theorem State.romStarted_domains (s : State) (straps : List Bool) (b : Bool) (f : Flash) :
    (s.romStarted straps b f).domainOn 270 = true ∧ ((s.romStarted straps b f).domainOn 271 = !b) := by
  rw [(s.bootStep_romStarted straps b f).domainOn, (s.bootStep_romStarted straps b f).domainOn]
  constructor
  · rw [State.domainOn_setDomain_other _ _ (by decide), State.domainOn_setDomain_other _ _ (by decide), State.domainOn_setDomain_self]
  · rw [State.domainOn_setDomain_other _ _ (by decide), State.domainOn_setDomain_self]

/-- What a boot step leaves of a state whose ROM has started; the flash may have changed before. -/
theorem State.BootStep.of_romStarted {s t : State} {straps : List Bool} {b : Bool} {f f' : Flash}
    (h : ((s.romStarted straps b f).setFlash f').BootStep t) :
    t.boot.started = true ∧ t.boot.straps = straps ∧ t.boot.flash = f' ∧ t.cores = s.cores ∧ t.domainOn 270 = true ∧
      (t.domainOn 271 = true ↔ b = false) := by
  obtain ⟨h270, h271⟩ := s.romStarted_domains straps b f
  have hrom := (s.bootStep_romStarted straps b f).rest
  have hboot : t.boot = { (s.romStarted straps b f).boot with flash := f' } := (congrArg State.boot h.rest).trans rfl
  rw [(congrArg State.boot hrom).trans rfl] at hboot
  refine ⟨congrArg BootState.started hboot, congrArg BootState.straps hboot, congrArg BootState.flash hboot, ?_, (h.domainOn _).trans h270, ?_⟩
  · exact ((congrArg State.cores h.rest).trans rfl).trans ((congrArg State.cores hrom).trans rfl)
  · rw [h.domainOn]
    exact (iff_of_eq (congrArg (· = true) h271)).trans (by cases b <;> decide)

theorem State.romStarted_flash (s : State) (straps : List Bool) (b : Bool) (f : Flash) : (s.romStarted straps b f).boot.flash = f :=
  (congrArg (fun t => t.boot.flash) (s.bootStep_romStarted straps b f).rest).trans rfl

theorem State.getF_bootFail (s : State) (cause : Nat) :
    (s.bootFail cause).getF .mpBootstat MP_BOOTSTAT.FAILCAUSE = cause % 256 :=
  ((State.logged_note ..).getF _ Reg.noConfusion).trans (State.getF_setF_self _ _ _ _ (by decide) (by decide))

theorem State.toMaint_shows (s : State) {cause : Nat} (h : cause < 256) : (s.toMaint cause).stage = 7 ∧
    (s.toMaint cause).getF .mpBootstat MP_BOOTSTAT.FAILCAUSE = cause :=
  ⟨State.stage_toStage _ (by decide), ((State.getF_toStage _ _ _ (by decide) (by decide) Reg.noConfusion (by decide)).trans
    (s.getF_bootFail cause)).trans (Nat.mod_eq_of_lt h)⟩

theorem State.toRecovery_shows (s : State) {cause : Nat} (h : cause < 256) : (s.toRecovery cause).stage = 8 ∧
    (s.toRecovery cause).getF .mpBootstat MP_BOOTSTAT.FAILCAUSE = cause :=
  ⟨State.stage_toStage _ (by decide), ((State.getF_toStage _ _ _ (by decide) (by decide) Reg.noConfusion (by decide)).trans
    (s.getF_bootFail cause)).trans (Nat.mod_eq_of_lt h)⟩

/-- A slot with its identity and counters good boots in stage 1, outside a trial. -/
theorem State.bootSlot_shows (s : State) {slot : Nat} (hid : s.boot.flash.idok = true) (hcnt : s.boot.flash.cntok = true) (hslot : slot < 2) :
    (s.bootSlot slot false).stage = 1 ∧ (s.bootSlot slot false).getF .mpBootstat MP_BOOTSTAT.SLOT = slot ∧
      (s.bootSlot slot false).getF .mpBootstat MP_BOOTSTAT.TRIAL = 0 := by
  have hb : s.bootSlot slot false = ((s.setF .mpBootstat MP_BOOTSTAT.SLOT slot).setF .mpBootstat MP_BOOTSTAT.TRIAL 0).toStage 1 := by
    refine (if_pos ?_)
    rw [Bool.and_eq_true]
    exact ⟨hid, hcnt⟩
  rw [hb]
  refine ⟨State.stage_toStage _ (by decide), ?_, ?_⟩
  · rw [State.getF_toStage _ _ _ (by decide) (by decide) Reg.noConfusion (by decide),
      State.getF_setF_other _ _ _ _ _ (by decide) (by decide) (by decide) (by decide), State.getF_setF_self _ _ _ _ (by decide) (by decide)]
    exact Nat.mod_eq_of_lt hslot
  · rw [State.getF_toStage _ _ _ (by decide) (by decide) Reg.noConfusion (by decide), State.getF_setF_self _ _ _ _ (by decide) (by decide)]
    rfl

/-- A header whose active slot is valid and not on trial has that slot booted, the flash left as it is. -/
theorem State.chooseSlot_of_valid {s : State} {i : Nat} {h : BootHeader} (hh : s.boot.flash.header = some (i, h))
    (hv : s.boot.flash.valid (s.boot.flash.slot h.active) = true) (ht : h.trial = false) : s.chooseSlot = s.bootSlot h.active false := by
  simp only [State.chooseSlot, hh, hv, ht, Bool.false_and, Bool.not_false, Bool.and_true, if_true, Bool.false_eq_true, if_false]
  rfl

theorem State.chooseSlot_of_none {s : State} (hh : s.boot.flash.header = none) : s.chooseSlot = s.toRecovery 1 := by
  simp only [State.chooseSlot, hh]

/-- What COLD_START does without STRAP3 and STRAP2. -/
theorem coldStart_starts {s : State} (a b : Bool) (flash : Option Flash) (hs : s.clocksStopped = false) (hb : s.boot.started = false) :
    exec (.coldStart [a, b, false, false] flash) s =
      .next (s.keep (if a then (s.romStarted [a, b, false, false] b (flash.getD s.boot.flash)).toStage 8
        else (s.romStarted [a, b, false, false] b (flash.getD s.boot.flash)).chooseSlot)) :=
  (exec_coldStart ..).trans (State.when_of hs (by rw [hb]; rfl))

/-- With STRAP2, the chip goes into boundary-scan mode. -/
theorem coldStart_scans {s : State} (a b : Bool) (flash : Option Flash) (hs : s.clocksStopped = false) (hb : s.boot.started = false) :
    exec (.coldStart [a, b, true, false] flash) s = .next (s.keep (State.setDomain { s with boot := { s.boot with
      straps := [a, b, true, false], flash := flash.getD s.boot.flash, started := true } } 285 true)) :=
  (exec_coldStart ..).trans (State.when_of hs (by rw [hb]; rfl))

/-- Settles O25: cold reset is an assignment; cold start is the ROM's boot steps after the straps. -/
theorem coldResetAndColdStart : Obligations.ColdResetAndColdStart := by
  refine ⟨fun s pwr => ⟨_, exec_coldReset pwr s, fun _ => rfl, rfl, fun _ => rfl, rfl, rfl, rfl, rfl, rfl, rfl, rfl, rfl, rfl, Iff.rfl⟩, ?_⟩
  intro s a b c flash hs hb
  refine ⟨⟨_, coldStart_starts a b flash hs hb, ?_⟩, ⟨_, coldStart_scans a b flash hs hb, rfl, rfl,
      State.getF_setF_other_reg _ _ _ _ Reg.noConfusion, rfl⟩,
    ⟨_, (exec_coldStart ..).trans (State.when_of hs (by rw [hb]; rfl)), rfl⟩⟩
  have hflash := s.romStarted_flash [a, b, false, false] b (flash.getD s.boot.flash)
  generalize hrom : s.romStarted [a, b, false, false] b (flash.getD s.boot.flash) = u at hflash
  cases a with
  | true =>
    rw [if_pos rfl]
    have hstep : (u.setFlash u.boot.flash).BootStep (u.toStage 8) := u.bootStep_toStage 8
    rw [← hrom] at hstep
    obtain ⟨hstarted, hstraps, hf, hcores, h270, h271⟩ := hstep.of_romStarted
    rw [hrom] at hstarted hstraps hf hcores h270 h271
    exact ⟨hstarted, hstraps, rfl, hcores, h270, h271, fun _ => ⟨State.stage_toStage _ (by decide), hf.trans hflash⟩, nofun, nofun⟩
  | false =>
    rw [if_neg Bool.false_ne_true]
    obtain ⟨f', hstep⟩ := u.bootStep_chooseSlot
    rw [← hrom] at hstep
    obtain ⟨hstarted, hstraps, hf, hcores, h270, h271⟩ := hstep.of_romStarted
    rw [hrom] at hstarted hstraps hf hcores h270 h271
    refine ⟨hstarted, hstraps, rfl, hcores, h270, h271, nofun, fun _ hid hcnt i h hh hact hv ht => ?_, fun _ hh => ?_⟩
    · rw [← hflash] at hid hcnt hh hv
      have hchoose := State.chooseSlot_of_valid hh hv ht
      obtain ⟨hstage, hslot, htrial⟩ := u.bootSlot_shows hid hcnt hact
      refine ⟨?_, ?_, ?_, ?_⟩
      · exact (congrArg State.stage hchoose).trans hstage
      · exact (congrArg (fun t => t.getF .mpBootstat MP_BOOTSTAT.SLOT) hchoose).trans hslot
      · exact (congrArg (fun t => t.getF .mpBootstat MP_BOOTSTAT.TRIAL) hchoose).trans htrial
      · rw [← hflash]
        exact (congrArg (fun t => t.boot.flash) hchoose).trans ((congrArg (fun t => t.boot.flash) (u.bootStep_bootSlot h.active false).rest).trans rfl)
    · rw [← hflash] at hh
      have hchoose := State.chooseSlot_of_none hh
      obtain ⟨hstage, hcause⟩ := u.toRecovery_shows (cause := 1) (by decide)
      exact ⟨(congrArg State.stage hchoose).trans hstage, (congrArg (fun t => t.getF .mpBootstat MP_BOOTSTAT.FAILCAUSE) hchoose).trans hcause⟩

end Sys2Proof.Machine


namespace Sys2Proof.Machine

/-! ## The fields of the registers, and what a warm reset leaves of them -/

/-- The fields of a register lie in its 64 bits and apart from each other. -/
def fieldsApart : List FieldRow → Bool
  | [] => true
  | f :: l => decide (f.fld.lo ≤ f.fld.hi) && decide (f.fld.hi < 64)
      && l.all (fun g => decide (g.fld.hi < f.fld.lo) || decide (f.fld.hi < g.fld.lo)) && fieldsApart l

theorem Reg.fields_apart (r : Reg) : fieldsApart r.fields = true := by
  cases r <;> rfl

theorem fieldsApart_cons {f : FieldRow} {l : List FieldRow} (h : fieldsApart (f :: l) = true) : (f.fld.lo ≤ f.fld.hi ∧ f.fld.hi < 64) ∧
    (∀ g ∈ l, g.fld.hi < f.fld.lo ∨ f.fld.hi < g.fld.lo) ∧ fieldsApart l = true := by
  simp only [fieldsApart, Bool.and_eq_true, decide_eq_true_eq, List.all_eq_true, Bool.or_eq_true] at h
  exact ⟨h.1.1, h.1.2, h.2⟩

theorem fieldsApart_mem {l : List FieldRow} (h : fieldsApart l = true) : ∀ f ∈ l, f.fld.lo ≤ f.fld.hi ∧ f.fld.hi < 64 := by
  induction l with
  | nil => nofun
  | cons g l ih =>
    obtain ⟨hg, _, hl⟩ := fieldsApart_cons h
    intro f hf
    rcases List.mem_cons.1 hf with rfl | hf
    · exact hg
    · exact ih hl f hf

/-- A field that is given the value it has leaves the word. -/
theorem Fld.set_get_self (f : Fld) (w : BitVec 64) (h : f.lo ≤ f.hi) : f.set w (f.get w) = w := by
  apply BitVec.eq_of_toNat_eq
  have hsplit : w.toNat / 2 ^ (f.hi + 1) * 2 ^ (f.hi + 1) + w.toNat / 2 ^ f.lo % 2 ^ (f.hi + 1 - f.lo) * 2 ^ f.lo + w.toNat % 2 ^ f.lo
      = w.toNat := by
    have hpow : 2 ^ (f.hi + 1) = 2 ^ f.lo * 2 ^ (f.hi + 1 - f.lo) := by rw [← Nat.pow_add]; congr 1; omega
    have h1 := Nat.div_add_mod w.toNat (2 ^ f.lo)
    have h2 := Nat.div_add_mod (w.toNat / 2 ^ f.lo) (2 ^ (f.hi + 1 - f.lo))
    rw [Nat.div_div_eq_div_mul, ← hpow] at h2
    calc w.toNat / 2 ^ (f.hi + 1) * 2 ^ (f.hi + 1) + w.toNat / 2 ^ f.lo % 2 ^ (f.hi + 1 - f.lo) * 2 ^ f.lo + w.toNat % 2 ^ f.lo
        = 2 ^ f.lo * (2 ^ (f.hi + 1 - f.lo) * (w.toNat / 2 ^ (f.hi + 1)) + w.toNat / 2 ^ f.lo % 2 ^ (f.hi + 1 - f.lo)) + w.toNat % 2 ^ f.lo := by
          rw [hpow, Nat.mul_add, Nat.mul_comm (w.toNat / _), Nat.mul_assoc, Nat.mul_comm (w.toNat / 2 ^ f.lo % _)]
      _ = w.toNat := by rw [h2, h1]
  simp only [Fld.set, Fld.get, Nat.mod_mod, BitVec.toNat_ofNat]
  rw [hsplit]
  exact Nat.mod_eq_of_lt w.isLt

/-- A register that holds its reset word holds it after a warm reset. -/
theorem Reg.warmWord_resetWord (r : Reg) : r.warmWord r.resetWord = r.resetWord := by
  have hfold : ∀ l : List FieldRow, (∀ f ∈ l, f.fld.lo ≤ f.fld.hi) → l.foldl (fun x f =>
      let keep := match f.acc with
        | .rws | .rwl => true
        | .ro => r.warmKeeps f.fld true
        | _ => r.warmKeeps f.fld false
      if keep then f.fld.set x (f.fld.get r.resetWord) else x) r.resetWord = r.resetWord := by
    intro l hl
    induction l with
    | nil => rfl
    | cons f l ih =>
      rw [List.foldl_cons]
      have hset := f.fld.set_get_self r.resetWord (hl f List.mem_cons_self)
      simp only [hset, ite_self]
      exact ih fun g hg => hl g (List.mem_cons_of_mem _ hg)
  exact hfold r.fields fun f hf => (fieldsApart_mem r.fields_apart f hf).1

/-- The register file after the words of a warm reset. -/
theorem regGet_map_warmWord (m : List (Reg × BitVec 64)) (r : Reg) :
    regGet (m.map fun x => (x.1, x.1.warmWord x.2)) r = r.warmWord (regGet m r) := by
  induction m with
  | nil => exact r.warmWord_resetWord.symm
  | cons x m ih =>
    obtain ⟨q, w⟩ := x
    simp only [List.map_cons, regGet]
    split
    case isTrue h => rw [h]
    case isFalse => exact ih

theorem State.seqBusy_congr {s t : State} (h : t.stackSet = s.stackSet) (m : Nat) : t.seqBusy m = s.seqBusy m := by
  simp only [State.seqBusy, State.seqQueue, h]

/-- SEQBUSY of the stacks of a list, brought up to date. -/
theorem State.foldl_showBusy (l : List Nat) (hl : l.Nodup) (s : State) : (l.foldl State.showBusy s).stackSet = s.stackSet ∧
    (∀ r, (∀ m ∈ l, r ≠ .msStatus m) → (l.foldl State.showBusy s).reg r = s.reg r) ∧
    ∀ m ∈ l, (l.foldl State.showBusy s).reg (.msStatus m) = MS_STATUS.SEQBUSY.set (s.reg (.msStatus m)) (s.seqBusy m) := by
  induction l generalizing s with
  | nil => exact ⟨rfl, fun _ _ => rfl, nofun⟩
  | cons n l ih =>
    obtain ⟨hn, hl⟩ := List.nodup_cons.1 hl
    obtain ⟨hstack, hother, hself⟩ := ih hl (s.showBusy n)
    rw [List.foldl_cons]
    refine ⟨hstack, fun r hr => ?_, fun m hm => ?_⟩
    · rw [hother r fun m hm => hr m (List.mem_cons_of_mem _ hm)]
      exact State.reg_setF_other _ _ _ (hr n List.mem_cons_self)
    · rcases List.mem_cons.1 hm with rfl | hm
      · rw [hother _ fun k hk e => hn (by rw [Reg.msStatus.inj e]; exact hk)]
        exact State.reg_setF_self ..
      · have hne : m ≠ n := fun e => hn (e ▸ hm)
        rw [hself m hm]
        exact congr (congrArg _ (State.reg_setF_other _ _ _ fun e => hne (Reg.msStatus.inj e))) rfl

/-- What a fold of writes over the entries of a map leaves at a key: the last entry's value, or what stood there. -/
theorem SMap.get_foldl_put {α : Type} [DecidableEq α] (d : α) (f : Nat → α → α) (l m : SMap α) (k : Nat) :
    (∃ x ∈ l, x.1 = k ∧ SMap.get d (l.foldl (fun m x => SMap.put d m x.1 (f x.1 x.2)) m) k = f k x.2) ∨
      (∀ x ∈ l, x.1 ≠ k) ∧ SMap.get d (l.foldl (fun m x => SMap.put d m x.1 (f x.1 x.2)) m) k = SMap.get d m k := by
  induction l generalizing m with
  | nil => exact .inr ⟨nofun, rfl⟩
  | cons x l ih =>
    rw [List.foldl_cons]
    rcases ih (SMap.put d m x.1 (f x.1 x.2)) with ⟨y, hy, hk, hget⟩ | ⟨hno, hget⟩
    · exact .inl ⟨y, List.mem_cons_of_mem _ hy, hk, hget⟩
    · by_cases hx : x.1 = k
      · subst hx
        exact .inl ⟨x, List.mem_cons_self, rfl, hget.trans (SMap.get_put_self ..)⟩
      · refine .inr ⟨fun y hy => (List.mem_cons.1 hy).elim (fun e => e ▸ hx) (hno y), hget.trans (SMap.get_put_other _ _ _ (Ne.symm hx))⟩

/-- What holds of every core that `mapCores` writes, and of a zero core, holds of every core after it. -/
theorem State.core_mapCores_of {s : State} {f : Nat → Core → Core} (P : Core → Prop) (h : ∀ p c, P (f p c)) (h0 : P Core.zero) (p : Nat) :
    P ((s.mapCores f).core p) := by
  rcases SMap.get_foldl_put Core.zero f s.cores s.cores p with ⟨x, _, _, hget⟩ | ⟨hno, hget⟩
  · have hcore : (s.mapCores f).core p = f p x.2 := hget
    rw [hcore]
    exact h p x.2
  · have hcore : (s.mapCores f).core p = Core.zero := hget.trans (SMap.get_of_not_mem hno)
    rw [hcore]
    exact h0

/-! ## Warm reset and Grizor's restart -/

theorem exec_warmReset (pin : Bool) (s : State) : exec (.warmReset pin) s = execWarmReset pin s := rfl
theorem exec_warmResetRequest (v : Nat) (s : State) : exec (.warmResetRequest v) s = execWarmResetRequest v s := rfl
theorem exec_warmResetEnd (s : State) : exec .warmResetEnd s = execWarmResetEnd s := rfl
theorem exec_mpWatchdog (s : State) : exec .mpWatchdog s = execMpWatchdog s := rfl
theorem exec_grizorRestart (rver : Nat) (s : State) : exec (.grizorRestart rver) s = execGrizorRestart rver s := rfl
theorem exec_mpLoadWindow (load : Nat) (s : State) : exec (.mpLoadWindow load) s = execMpLoadWindow load s := rfl
theorem exec_tamper (source : Nat) (s : State) : exec (.tamper source) s = execTamper source s := rfl

/-- The warm words of the registers, before SEQBUSY shows what still runs. -/
theorem State.warmUnits_reg (s : State) : (∀ r, (∀ m, m < 12 → r ≠ .msStatus m) → s.warmUnits.reg r = r.warmWord (s.reg r)) ∧
    ∀ m, m < 12 → s.warmUnits.reg (.msStatus m) =
      MS_STATUS.SEQBUSY.set ((Reg.msStatus m).warmWord (s.reg (.msStatus m))) (s.warmUnits.seqBusy m) := by
  unfold State.warmUnits
  generalize hu : ({ s with
    regs := s.regs.map fun x => (x.1, x.1.warmWord x.2)
    stackSet := { s.stackSet with queues := [] }
    weave := { s.weave with points := [], winAt := none }
    withy := { s.withy with held := [] }
    insts := s.insts.map fun x => (x.1, { x.2 with tlb := [], root := s.reg (.iwS1root x.1) })
    ccl := { s.ccl with out := s.ccl.out.filter fun t => t.kind == .wrl || t.kind == .wrp, cache := [] } } : State) = u
  have hreg (r : Reg) : u.reg r = r.warmWord (s.reg r) := by
    rw [← hu]
    exact regGet_map_warmWord s.regs r
  obtain ⟨hstack, hother, hself⟩ := State.foldl_showBusy (List.range 12) List.nodup_range u
  refine ⟨fun r hr => (hother r fun m hm => hr m (List.mem_range.1 hm)).trans (hreg r), fun m hm => ?_⟩
  rw [hself m (List.mem_range.2 hm), hreg, State.seqBusy_congr hstack]

/-- The core of a warm reset keeps its failed and testing marks alone. -/
theorem State.warmCores_core (s : State) (p : Nat) : (s.warmCores.core p).sp = [] ∧ (s.warmCores.core p).threads = [] ∧
    (s.warmCores.core p).plaits = [] ∧ (s.warmCores.core p).residents = [] :=
  State.core_mapCores_of (fun c => c.sp = [] ∧ c.threads = [] ∧ c.plaits = [] ∧ c.residents = []) (fun _ _ => ⟨rfl, rfl, rfl, rfl⟩)
    ⟨rfl, rfl, rfl, rfl⟩ p

/-- The boot state with another snapshot, and at the end of a load window. -/
def BootState.withSnap (b : BootState) (l : List Nat) : BootState := { b with snap := l }
def BootState.loadedAt (b : BootState) (at_ : Nat) (l : List Nat) : BootState := { b with loadAt := at_, snap := l }

/-- A snapshot changes no other part of the boot state. -/
theorem State.boot_grizorLatch (s : State) : s.grizorLatch.boot = s.boot.withSnap s.grizorLatch.boot.snap := by
  simp only [State.grizorLatch]
  split <;> rfl

/-- MP_LOAD as a 10 ms window leaves it. -/
def State.loadShown (s : State) (load : Nat) : State :=
  ((State.setF { s with boot := { s.boot with loadAt := s.gtc } } .mpLoad MP_LOAD.LOAD load).setF .mpLoad MP_LOAD.PEAK
    (max load (s.getF .mpLoad MP_LOAD.PEAK))).setF .mpLoad MP_LOAD.LEVEL (loadLevel (s.getF .mpLoad MP_LOAD.LEVEL) load)

theorem State.loadShown_reg (s : State) (load : Nat) {r : Reg} (h : r ≠ .mpLoad) : (s.loadShown load).reg r = s.reg r :=
  (State.reg_setF_other _ _ _ h).trans ((State.reg_setF_other _ _ _ h).trans (State.reg_setF_other _ _ _ h))

/-- The load, with its record where the level changes. -/
def State.loadLogged (s : State) (load : Nat) : State :=
  if loadLevel (s.getF .mpLoad MP_LOAD.LEVEL) load = s.getF .mpLoad MP_LOAD.LEVEL then s.loadShown load
  else (s.loadShown load).note srcMp 0 0xA9 (loadLevel (s.getF .mpLoad MP_LOAD.LEVEL) load + 4 * load)

theorem State.loadLogged_logged (s : State) (load : Nat) : (s.loadShown load).Logged (s.loadLogged load) := by
  unfold State.loadLogged
  split
  · exact .refl _
  · exact State.logged_note ..

theorem mpLoadWindow_answers {s : State} {load : Nat} (hs : s.clocksStopped = false) (hg : s.boot.grizor = true)
    (ht : s.boot.loadAt + 36000000 ≤ s.gtc) (hl : load ≤ 100) : exec (.mpLoadWindow load) s = .next (s.keep
      (if loadLevel (s.getF .mpLoad MP_LOAD.LEVEL) load < 2 then (s.loadLogged load).grizorLatch else s.loadLogged load)) :=
  (exec_mpLoadWindow load s).trans (State.when_of hs (by rw [hg, decide_eq_true ht, decide_eq_true hl]; rfl))

/-- Three levels of load. -/
theorem loadLevel_lt (old load : Nat) : loadLevel old load < 4 := by
  unfold loadLevel
  dsimp only
  repeat' split
  all_goals omega

theorem State.loadShown_fields (s : State) {load : Nat} (hl : load ≤ 100) : (s.loadShown load).getF .mpLoad MP_LOAD.LOAD = load ∧
    (s.loadShown load).getF .mpLoad MP_LOAD.PEAK = max load (s.getF .mpLoad MP_LOAD.PEAK) ∧
    (s.loadShown load).getF .mpLoad MP_LOAD.LEVEL = loadLevel (s.getF .mpLoad MP_LOAD.LEVEL) load := by
  have hpeak : s.getF .mpLoad MP_LOAD.PEAK < 128 := Fld.get_lt _ _
  unfold State.loadShown
  refine ⟨?_, ?_, ?_⟩
  · rw [State.getF_setF_other _ _ _ _ _ (by decide) (by decide) (by decide) (by decide),
      State.getF_setF_other _ _ _ _ _ (by decide) (by decide) (by decide) (by decide), State.getF_setF_self _ _ _ _ (by decide) (by decide)]
    exact Nat.mod_eq_of_lt (Nat.lt_of_le_of_lt hl (by decide))
  · rw [State.getF_setF_other _ _ _ _ _ (by decide) (by decide) (by decide) (by decide), State.getF_setF_self _ _ _ _ (by decide) (by decide)]
    exact Nat.mod_eq_of_lt (Nat.max_lt.2 ⟨Nat.lt_of_le_of_lt hl (by decide), hpeak⟩)
  · rw [State.getF_setF_self _ _ _ _ (by decide) (by decide)]
    exact Nat.mod_eq_of_lt (loadLevel_lt _ _)

/-- The state of the boot that a warm reset leaves. -/
def BootState.warmed (b : BootState) (up : Bool) : BootState :=
  { b with grizor := false, restart := if up then some 1 else none, recover := up, warm := true, warmAt := none }

/-- The units that a warm reset has stopped. -/
def State.warmStopped (s : State) : State :=
  let s1 := s.warmJournal
  let s2 := (List.range 127).foldl (fun s g => if s.cgExists g then s.contextDown g 5 0 else s) s1
  let s3 := s2.warmCores.warmUnits
  let s4 := (List.range 24).foldl (fun s p => if s.fhEn p then s.peStop p .reset else s) s3
  s4.rereadLines fun _ => true

/-- The state with another boot state. -/
def State.setBoot (s : State) (b : BootState) : State := { s with boot := b }

theorem State.keep_setBoot_shows (s u : State) (b : BootState) : (s.keep (u.setBoot b)).boot = b ∧ (s.keep (u.setBoot b)).gtc = s.gtc ∧
    (s.keep (u.setBoot b)).pending = s.pending := ⟨rfl, rfl, rfl⟩

theorem warmReset_answers {s : State} {pin : Bool} (hs : s.clocksStopped = false) (hb : s.boot.started = true) (hscan : s.scanMode = false)
    (hw : s.boot.warm = false) (hdue : pin = true ∨ ∃ a, s.boot.warmAt = some a ∧ a ≤ s.gtc) : exec (.warmReset pin) s =
      .next (s.keep (s.warmStopped.setBoot (s.warmStopped.boot.warmed (s.boot.grizor || s.boot.restart.isSome)))) := by
  have hdue' : (pin || match s.boot.warmAt with | some t => decide (t ≤ s.gtc) | none => false) = true := by
    rcases hdue with hp | ⟨a, ha, hle⟩
    · rw [hp, Bool.true_or]
    · rw [ha, Bool.or_eq_true]
      exact .inr (decide_eq_true hle)
  refine (exec_warmReset pin s).trans (State.when_of hs ?_)
  rw [hb, hscan, hw]
  exact hdue'

/-- A write of GCTL_RESET, by its key and its WARM bit. -/
theorem warmResetRequest_answers {s : State} {v : Nat} (hs : s.clocksStopped = false) (hv : v < 2 ^ 32) :
    exec (.warmResetRequest v) s = .next (s.keep (if GCTL_RESET.KEY.get (BitVec.ofNat 64 v) ≠ 0x5752 then s.accessIgnored 0x10
      else if GCTL_RESET.WARM.get (BitVec.ofNat 64 v) = 1 ∧ s.boot.warmAt = none then
        { s with boot := { s.boot with warmAt := some (s.gtc + 1024) } }
      else s)) :=
  (exec_warmResetRequest v s).trans (State.when_of hs (decide_eq_true hv))

/-- Grizor's restart with its cause. -/
theorem grizorRestart_answers {s : State} {rver k : Nat} (hs : s.clocksStopped = false) (hr : s.boot.restart = some k) (hv : rver < 256)
    (hdur : s.boot.recover = true → ∀ q ∈ s.stackSet.journal.recs, q.written = true → q.durable = true) :
    exec (.grizorRestart rver) s =
      let s1 : State := { s with boot := { s.boot with grizor := true, restart := none } }
      let s2 := if k = 0 then s1 else s1.note srcMp 3 0xAA (2 ^ k)
      let s3 := if k = 2 then State.migrate { s2 with boot := { s2.boot with rver := rver } } else s2
      let s4 := if s.boot.recover then s3.readJournal else s3
      .next (s.keep (if k = 1 then s4.resumeUpdate else s4)) := by
  rw [exec_grizorRestart, execGrizorRestart, hr]
  refine State.when_of hs ?_
  rw [decide_eq_true hv, Bool.true_and, Bool.or_eq_true, Bool.not_eq_true', Bool.not_eq_true', List.any_eq_false]
  rcases Bool.eq_false_or_eq_true s.boot.recover with hrec | hrec
  · refine .inr fun q hq h => ?_
    rw [Bool.and_eq_true] at h
    rw [hdur hrec q hq h.1] at h
    exact Bool.false_ne_true h.2
  · exact .inl hrec

theorem mpWatchdog_answers {s : State} (hs : s.clocksStopped = false) (hg : s.boot.grizor = true) : ∃ t, exec .mpWatchdog s = .next t ∧
    t.boot = { s.boot with grizor := false, restart := some 0 } ∧ t = { s with boot := t.boot, log := t.log, regs := t.regs } ∧
    ∀ r, r ≠ .gctlElogLost → t.reg r = s.reg r := by
  have hlog := State.logged_note { s with boot := { s.boot with grizor := false, restart := some 0 } } srcMp 3 0xAA 1
  refine ⟨_, (exec_mpWatchdog s).trans (State.when_of hs hg), congrArg State.boot hlog.rest, ?_, fun r hr => hlog.regs r hr⟩
  rw [hlog.rest]
  rfl

/-- Settles O27: the register file is mapped word by word, the cores are zeroed, and the other commands are assignments to the boot state. -/
theorem warmResetAndGrizorRestart : Obligations.WarmResetAndGrizorRestart := by
  refine ⟨?_, State.warmCores_core, fun s r hr => s.warmUnits_reg.1 r hr,
    fun s m hm => s.warmUnits_reg.2 m hm, ?_, ?_, ?_, fun s hs hw => (exec_warmResetEnd s).trans (State.when_of hs hw),
    fun s hs hg => mpWatchdog_answers hs hg, ?_, ?_, ?_, ?_, ?_⟩
  · intro s pin hs hb hscan hw hdue
    obtain ⟨hboot, hgtc, hpend⟩ := s.keep_setBoot_shows s.warmStopped (s.warmStopped.boot.warmed (s.boot.grizor || s.boot.restart.isSome))
    refine ⟨_, warmReset_answers hs hb hscan hw hdue, congrArg BootState.warm hboot, congrArg BootState.grizor hboot,
      congrArg BootState.warmAt hboot, hgtc, hpend, (congrArg BootState.restart hboot).trans ?_⟩
    simp only [← Bool.or_eq_true]
    rfl
  · intro s v hs hv hat hkey hwarm
    rw [warmResetRequest_answers hs hv, if_neg (Classical.not_not.2 hkey), if_pos ⟨hwarm, hat⟩]
    rfl
  · intro s v hs hv hkey hno
    have hnot : ¬(GCTL_RESET.WARM.get (BitVec.ofNat 64 v) = 1 ∧ s.boot.warmAt = none) := fun ⟨h1, h2⟩ =>
      hno.elim (fun h => h h2) fun h => absurd (h.symm.trans h1) (by decide)
    rw [warmResetRequest_answers hs hv, if_neg (Classical.not_not.2 hkey), if_neg hnot]
    rfl
  · intro s v hs hv hkey
    rw [warmResetRequest_answers hs hv, if_pos hkey]
  · intro s rver hs hr hrec hv
    refine (grizorRestart_answers hs hr hv (by rw [hrec]; nofun)).trans ?_
    simp only [hrec]
    rfl
  · intro s rver hs hr hrec hv hdur
    refine (grizorRestart_answers hs hr hv fun _ => hdur).trans ?_
    simp only [hrec]
    rfl
  · intro s rver hs hr hrec hv
    refine (grizorRestart_answers hs hr hv (by rw [hrec]; nofun)).trans ?_
    simp only [hrec]
    rfl
  · intro s load hs hg ht hl
    obtain ⟨hload, hpeak, hlevel⟩ := s.loadShown_fields hl
    have hlog := s.loadLogged_logged load
    have hmp (f : Fld) : (s.loadLogged load).getF .mpLoad f = (s.loadShown load).getF .mpLoad f := hlog.getF f Reg.noConfusion
    have hboot : (s.loadLogged load).boot = s.boot.loadedAt s.gtc s.boot.snap := (congrArg State.boot hlog.rest).trans rfl
    have hregs (r : Reg) (h1 : r ≠ .gctlElogLost) (h2 : r ≠ .mpLoad) : (s.loadLogged load).reg r = s.reg r :=
      (hlog.regs r h1).trans (s.loadShown_reg load h2)
    rcases Nat.lt_or_ge (loadLevel (s.getF .mpLoad MP_LOAD.LEVEL) load) 2 with hlt | hge
    · have hx := mpLoadWindow_answers hs hg ht hl
      rw [if_pos hlt] at hx
      refine ⟨_, hx, (hmp _).trans hload, (hmp _).trans hpeak, (hmp _).trans hlevel,
        ?_, fun h => absurd hlt (Nat.not_lt.2 h), hregs⟩
      exact (State.boot_grizorLatch _).trans (congrArg (fun b => BootState.withSnap b _) hboot)
    · have hx := mpLoadWindow_answers hs hg ht hl
      rw [if_neg (Nat.not_lt.2 hge)] at hx
      refine ⟨_, hx, (hmp _).trans hload, (hmp _).trans hpeak, (hmp _).trans hlevel, ?_, fun _ => (congrArg BootState.snap hboot).trans rfl, hregs⟩
      exact hboot.trans (congrArg (s.boot.loadedAt s.gtc) (congrArg BootState.snap hboot).symm)
  · intro s source hs hb hsrc
    have hlog := State.logged_note (State.setF { s with stackSet := { s.stackSet with keys := [] } } .secStatus SEC_STATUS.TAMPER 1) srcSec 3
      0xAB source
    refine ⟨_, (exec_tamper source s).trans (State.when_of hs (by rw [hb, decide_eq_true hsrc]; rfl)), fun k => ?_, ?_,
      (congrArg State.stackSet hlog.rest).trans rfl, fun r h1 h2 => (hlog.regs r h1).trans (State.reg_setF_other _ _ _ h2),
      (congrArg State.cores hlog.rest).trans rfl⟩
    · exact congrArg (fun x => SMap.get none x.keys k) (congrArg State.stackSet hlog.rest)
    · exact (hlog.getF _ Reg.noConfusion).trans (State.getF_setF_self _ _ _ _ (by decide) (by decide))

end Sys2Proof.Machine


namespace Sys2Proof.Machine

/-! ## Register writes -/

theorem exec_registerWrite (off size v : Nat) (s : State) : exec (.registerWrite off size v) s = execRegisterWrite off size v s := rfl

/-- What the access code of one field makes of a word. -/
def FieldRow.merge (locked : Bool) (v : BitVec 64) (w : BitVec 64) (f : FieldRow) : BitVec 64 :=
  match f.acc with
  | .ro | .wo => w
  | .rw | .rws => f.fld.set w (f.fld.get v)
  | .rwl => if locked then w else f.fld.set w (f.fld.get v)
  | .w1c => if f.fld.get v = 1 then f.fld.set w 0 else w

theorem Reg.merge_eq (r : Reg) (locked : Bool) (old v : BitVec 64) : r.merge locked old v = r.fields.foldl (FieldRow.merge locked v) old := rfl

theorem FieldRow.get_merge_self {f : FieldRow} (h1 : f.fld.lo ≤ f.fld.hi) (h2 : f.fld.hi < 64) (locked : Bool) (old v w : BitVec 64)
    (hw : f.fld.get w = f.fld.get old) : f.fld.get (FieldRow.merge locked v w f) = fieldAfter locked f old v := by
  have hset : f.fld.get (f.fld.set w (f.fld.get v)) = f.fld.get v := by
    rw [Fld.get_set _ _ _ h1 h2]
    exact Nat.mod_eq_of_lt (Fld.get_lt _ _)
  have hzero : f.fld.get (f.fld.set w 0) = 0 := by rw [Fld.get_set _ _ _ h1 h2, Nat.zero_mod]
  unfold FieldRow.merge fieldAfter
  cases f.acc
  case rwl => cases locked <;> simp [hw, hset]
  case w1c => by_cases hv : f.fld.get v = 1 <;> simp [hv, hw, hzero]
  case ro | wo => exact hw
  case rw | rws => exact hset

/-- The access code of a field leaves the fields apart from it. -/
theorem FieldRow.get_merge_other {f g : FieldRow} (h1 : g.fld.lo ≤ g.fld.hi) (h2 : g.fld.hi < 64) (hf : f.fld.lo ≤ f.fld.hi)
    (h : g.fld.hi < f.fld.lo ∨ f.fld.hi < g.fld.lo) (locked : Bool) (v w : BitVec 64) :
    g.fld.get (FieldRow.merge locked v w f) = g.fld.get w := by
  have hset (x : Nat) : g.fld.get (f.fld.set w x) = g.fld.get w := Fld.get_set_other _ _ _ _ h1 h2 hf h
  unfold FieldRow.merge
  split
  case h_1 | h_2 => rfl
  case h_3 | h_4 => exact hset _
  case h_5 =>
    split
    · rfl
    · exact hset _
  case h_6 =>
    split
    · exact hset _
    · rfl

theorem fieldsApart_get_merge {l : List FieldRow} (hl : fieldsApart l = true) (locked : Bool) (old v : BitVec 64) (f : FieldRow) (w : BitVec 64) :
    (f ∈ l → f.fld.get w = f.fld.get old → f.fld.get (l.foldl (FieldRow.merge locked v) w) = fieldAfter locked f old v) ∧
    (f.fld.lo ≤ f.fld.hi → f.fld.hi < 64 → (∀ g ∈ l, g.fld.hi < f.fld.lo ∨ f.fld.hi < g.fld.lo) →
      f.fld.get (l.foldl (FieldRow.merge locked v) w) = f.fld.get w) := by
  induction l generalizing w with
  | nil => exact ⟨nofun, fun _ _ _ => rfl⟩
  | cons g l ih =>
    obtain ⟨⟨hlo, hhi⟩, hapart, hrest⟩ := fieldsApart_cons hl
    rw [List.foldl_cons]
    refine ⟨fun hf hw => ?_, fun h1 h2 hg => ?_⟩
    · rcases List.mem_cons.1 hf with rfl | hf
      · exact ((ih hrest _).2 hlo hhi hapart).trans (FieldRow.get_merge_self hlo hhi locked old v w hw)
      · obtain ⟨h1, h2⟩ := fieldsApart_mem hrest f hf
        exact (ih hrest _).1 hf ((FieldRow.get_merge_other h1 h2 hlo (hapart f hf) locked v w).trans hw)
    · refine ((ih hrest _).2 h1 h2 fun q hq => hg q (List.mem_cons_of_mem _ hq)).trans ?_
      exact FieldRow.get_merge_other h1 h2 hlo ((hg g List.mem_cons_self).symm) locked v w

/-- A register that takes no write keeps its word. -/
theorem Reg.merge_of_not_writable {r : Reg} {locked : Bool} (h : r.writable locked = false) (old v : BitVec 64) : r.merge locked old v = old := by
  rw [Reg.merge_eq]
  rw [Reg.writable, List.any_eq_false] at h
  generalize r.fields = l at h
  induction l with
  | nil => rfl
  | cons f l ih =>
    have hf := h f List.mem_cons_self
    have hstep : FieldRow.merge locked v old f = old := by
      rw [Bool.and_eq_true, Classical.not_and_iff_not_or_not, Bool.not_eq_true, Bool.not_eq_true, bne_eq_false_iff_eq, Bool.not_eq_false',
        Bool.and_eq_true, beq_iff_eq] at hf
      unfold FieldRow.merge
      rcases hf with hf | ⟨hlock, hf⟩
      · rw [hf]
      · rw [hf, hlock]
        rfl
    rw [List.foldl_cons, hstep]
    exact ih fun q hq => h q (List.mem_cons_of_mem _ hq)

/-- A companion write whose register has no effect of its own beyond its word. -/
def State.plainWrite (s : State) (r : Reg) (v : BitVec 64) : State :=
  let locked := s.getF .gctlSeal GCTL_SEAL.SEALED == 1
  let new := r.merge locked (s.reg r) v
  if r.rangeOk new = false then s.writeIgnored r.offset
  else
    let s1 := if r.writable locked then s.setReg r new else s
    if r.lockedDiffers locked (s.reg r) v then s1.writeIgnored r.offset else s1

theorem State.fieldWrite_plain {s : State} {r : Reg} {v : BitVec 64} (hc : r.clears v = false) (ha : ∀ new, s.writeAllowed r new = true)
    (hw : ∀ (u : State) (old new : BitVec 64), u.written r old new = u) : s.fieldWrite r v = s.plainWrite r v := by
  simp only [State.fieldWrite, State.plainWrite, hc, ha, hw, Bool.false_eq_true, if_false, false_or, Bool.true_eq_false]

/-- A register of 4 bytes at an aligned offset below the core groups, with no register of 8 bytes across it. -/
def Reg.placed (r : Reg) : Bool :=
  decide (r.offset < 0x800000) && decide (r.offset % 4 = 0) && Reg.at r.offset == some r && r.bytes == 4
    && (Reg.at (r.offset / 8 * 8)).all fun q => q.bytes == 4

theorem quietRegs_placed : ∀ r ∈ quietRegs, r.placed = true := by decide +kernel

theorem State.write4_of_placed {s : State} {r : Reg} (h : r.placed = true) (v : Nat) : s.write4 r.offset v = s.companionWrite r v := by
  simp only [Reg.placed, Bool.and_eq_true, decide_eq_true_eq, beq_iff_eq] at h
  obtain ⟨⟨⟨⟨hlow, _⟩, hat⟩, hb⟩, hq⟩ := h
  have hon : s.coreOff r.offset = false := by
    rw [State.coreOff, decide_eq_false (Nat.not_le.2 hlow)]
    rfl
  simp only [State.write4, hon, Bool.false_eq_true, if_false]
  cases hp : Reg.at (r.offset / 8 * 8) with
  | none => simp only [hat, hb, if_true]
  | some q =>
    have hq4 : q.bytes = 4 := by
      rw [hp] at hq
      exact beq_iff_eq.1 hq
    simp only [hq4, if_true, hat, hb]
    rw [if_neg (by decide)]
    split
    case isTrue h8 =>
      rw [Nat.div_mul_cancel (Nat.dvd_of_mod_eq_zero h8)] at hp
      rw [Option.some.inj (hat.symm.trans hp)]
    case isFalse => rfl

/-- The nine quiet registers: a write changes the word, where it is within its ranges, and has no effect besides. -/
theorem State.companionWrite_quiet (s : State) {r : Reg} (h : r ∈ quietRegs) (v : Nat) :
    s.companionWrite r v = s.plainWrite r (BitVec.ofNat 64 v) := by
  simp only [quietRegs, List.mem_cons, List.not_mem_nil, or_false] at h
  rcases h with rfl | rfl | rfl | rfl | rfl | rfl | rfl | rfl | rfl
  all_goals exact State.fieldWrite_plain rfl (fun _ => rfl) fun _ _ _ => rfl

theorem State.logged_writeIgnored (s : State) (o : Nat) : s.Logged (s.writeIgnored o) := by
  simp only [State.writeIgnored]
  repeat' split
  all_goals exact State.logged_event ..

theorem State.plainWrite_of_range {s : State} {r : Reg} {v : BitVec 64}
    (h : r.rangeOk (r.merge (s.getF .gctlSeal GCTL_SEAL.SEALED == 1) (s.reg r) v) = true) (hne : r ≠ .gctlElogLost) :
    s.plainWrite r v = { s with regs := (s.plainWrite r v).regs, log := (s.plainWrite r v).log } ∧
      (s.plainWrite r v).reg r = r.merge (s.getF .gctlSeal GCTL_SEAL.SEALED == 1) (s.reg r) v ∧
      ∀ q, q ≠ r → q ≠ .gctlElogLost → (s.plainWrite r v).reg q = s.reg q := by
  generalize hlock : (s.getF .gctlSeal GCTL_SEAL.SEALED == 1) = locked at h ⊢
  generalize hu : (if r.writable locked then s.setReg r (r.merge locked (s.reg r) v) else s) = u
  have hplain : s.plainWrite r v = if r.lockedDiffers locked (s.reg r) v then u.writeIgnored r.offset else u := by
    simp only [State.plainWrite, hlock, h, Bool.true_eq_false, if_false, hu]
  have hlog : u.Logged (s.plainWrite r v) := by
    rw [hplain]
    exact State.logged_if _ _ _ (u.logged_writeIgnored _)
  have hself : u.reg r = r.merge locked (s.reg r) v := by
    rw [← hu]
    split
    case isTrue => exact State.reg_setReg_self ..
    case isFalse hw => exact (Reg.merge_of_not_writable (Bool.not_eq_true _ ▸ hw) _ _).symm
  have hother (q : Reg) (hq : q ≠ r) : u.reg q = s.reg q := by
    rw [← hu]
    split
    · exact State.reg_setReg_other _ _ hq
    · rfl
  have hrest : u = { s with regs := u.regs } := by
    rw [← hu]
    split <;> rfl
  refine ⟨?_, (hlog.regs r hne).trans hself, fun q hq hl => (hlog.regs q hl).trans (hother q hq)⟩
  conv => lhs; rw [hlog.rest, hrest]

theorem State.plainWrite_of_bad {s : State} {r : Reg} {v : BitVec 64}
    (h : r.rangeOk (r.merge (s.getF .gctlSeal GCTL_SEAL.SEALED == 1) (s.reg r) v) = false) : s.Logged (s.plainWrite r v) := by
  have hplain : s.plainWrite r v = s.writeIgnored r.offset := by
    simp only [State.plainWrite, h, if_true]
  rw [hplain]
  exact s.logged_writeIgnored _

theorem State.keep_of_rest {s t : State} (h : t = { s with regs := t.regs, log := t.log }) : s.keep t = t := by
  rw [h]
  rfl

/-- A write within the register space. -/
theorem registerWrite_answers {s : State} {off size v : Nat} (hs : s.clocksStopped = false) (ho : off < 2 ^ 26) (hv : v < 2 ^ (8 * size)) :
    exec (.registerWrite off size v) s = .next (s.keep (if (size = 4 ∨ size = 8) ∧ off % size = 0 then
      (if size = 4 then s.write4 off v else s.write8 off v) else s.accessIgnored off)) := by
  rw [exec_registerWrite, execRegisterWrite, if_neg (by rw [hs]; exact Bool.false_ne_true), if_neg (Nat.not_le.2 ho)]
  exact State.when_of hs (decide_eq_true hv)

theorem registerWrite_quiet {s : State} {r : Reg} {v : Nat} (hs : s.clocksStopped = false) (hr : r ∈ quietRegs) (hv : v < 2 ^ 32) :
    exec (.registerWrite r.offset 4 v) s = .next (s.keep (s.plainWrite r (BitVec.ofNat 64 v))) := by
  have hp := quietRegs_placed r hr
  have hplace := hp
  simp only [Reg.placed, Bool.and_eq_true, decide_eq_true_eq] at hplace
  obtain ⟨⟨⟨⟨hlow, hal⟩, _⟩, _⟩, _⟩ := hplace
  rw [registerWrite_answers hs (Nat.lt_trans hlow (by decide)) hv, if_pos ⟨.inl rfl, hal⟩, if_pos rfl, State.write4_of_placed hp,
    State.companionWrite_quiet s hr]

/-- Settles O28: the fields of a register are apart, so each takes its own access code; the quiet registers have no effect but their word. -/
theorem registerWritesFollowCodeAndSpace : Obligations.RegisterWritesFollowCodeAndSpace := by
  refine ⟨fun r locked old v f hf => ?_, ?_, ?_, fun s r v hs hr hv => ⟨fun hok => ?_, fun hbad => ?_⟩⟩
  · rw [Reg.merge_eq]
    exact (fieldsApart_get_merge r.fields_apart locked old v f old).1 hf rfl
  · intro s off size v hs ho
    rw [exec_registerWrite, execRegisterWrite, if_neg (by rw [hs]; exact Bool.false_ne_true), if_pos ho]
  · intro s off size v hs ho hv hbad
    have hlog : s.Logged (s.accessIgnored off) := State.logged_event ..
    have hx := registerWrite_answers hs ho hv
    rw [if_neg hbad, State.keep_of_rest hlog.rest] at hx
    exact ⟨_, hx, hlog.rest, fun r hl => hlog.regs r hl⟩
  · have hne : r ≠ .gctlElogLost := by
      rintro rfl
      exact absurd hr (by decide)
    obtain ⟨hrest, hself, hother⟩ := State.plainWrite_of_range hok hne
    have hx := registerWrite_quiet hs hr hv
    rw [State.keep_of_rest hrest] at hx
    exact ⟨_, hx, hrest, hself, hother⟩
  · have hlog := State.plainWrite_of_bad hbad
    have hx := registerWrite_quiet hs hr hv
    rw [State.keep_of_rest hlog.rest] at hx
    exact ⟨_, hx, hlog.rest, fun q hl => hlog.regs q hl⟩

end Sys2Proof.Machine


namespace Sys2Proof.Machine

/-! ## Windows and control registers -/

theorem exec_seal (s : State) : exec .seal s = execSeal s := rfl
theorem exec_imAcctLatch (v : Nat) (s : State) : exec (.imAcctLatch v) s = execImAcctLatch v s := rfl
theorem exec_tlbInvalidate (n : Nat) (s : State) : exec (.tlbInvalidate n) s = execTlbInvalidate n s := rfl
theorem exec_tlbInvalidateDone (n : Nat) (s : State) : exec (.tlbInvalidateDone n) s = execTlbInvalidateDone n s := rfl
theorem exec_ringEnable (n r v : Nat) (s : State) : exec (.ringEnable n r v) s = execRingEnable n r v s := rfl
theorem exec_digestLogEnable (n v : Nat) (s : State) : exec (.digestLogEnable n v) s = execDigestLogEnable n v s := rfl
theorem exec_msiUnmask (v w : Nat) (s : State) : exec (.msiUnmask v w) s = execMsiUnmask v w s := rfl

theorem Fld.get_ofNat (f : Fld) {v : Nat} (h : v < 2 ^ 64) : f.get (BitVec.ofNat 64 v) = v / 2 ^ f.lo % 2 ^ (f.hi + 1 - f.lo) := by
  rw [Fld.get, BitVec.toNat_ofNat, Nat.mod_eq_of_lt h]

/-- Each field of a written word, by its access code. -/
theorem Reg.get_merge {r : Reg} {f : FieldRow} (h : f ∈ r.fields) (locked : Bool) (old v : BitVec 64) :
    f.fld.get (r.merge locked old v) = fieldAfter locked f old v := by
  rw [Reg.merge_eq]
  exact (fieldsApart_get_merge r.fields_apart locked old v f old).1 h rfl

/-- The word that a companion write of v leaves in r. -/
def State.merged (s : State) (r : Reg) (v : BitVec 64) : BitVec 64 := r.merge (s.getF .gctlSeal GCTL_SEAL.SEALED == 1) (s.reg r) v

/-- A write that the state allows, of a register with a field that is writable and none that the seal locks. -/
theorem State.fieldWrite_of {s : State} {r : Reg} {v : BitVec 64} (hc : r.clears v = false) (ha : s.writeAllowed r (s.merged r v) = true)
    (hr : r.rangeOk (s.merged r v) = true) (hw : ∀ locked, r.writable locked = true) (hl : ∀ locked old v, r.lockedDiffers locked old v = false) :
    s.fieldWrite r v = (s.setReg r (s.merged r v)).written r (s.reg r) (s.merged r v) := by
  unfold State.merged at ha hr ⊢
  simp only [State.fieldWrite, hc, ha, hr, hw, hl, Bool.false_eq_true, Bool.true_eq_false, if_false, if_true, or_self]

/-! ### Rings -/

theorem State.ring_modRing_self (s : State) (n r : Nat) (f : Ring → Ring) : (s.modRing n r f).ring n r = f (s.ring n r) :=
  SMap.get_put_self Ring.empty s.rings (ringKey n r) _

theorem ringRegs_window {n : Nat} (r : Nat) (h : n < 65) :
    ringRegs n r = ⟨.iwRingCtl n r, .iwRingStatus n r, .iwRingCmdbase n r, .iwRingCplbase n r, .iwRingWline n r, .iwRingSline n r⟩ := if_pos h

/-- The registers of the rings that can be enabled: a window's, or those of the management and the device ring. -/
theorem ringRegs_cases {n r : Nat} (h : n = 65 ∧ r < 2 ∨ n < 65) :
    (n < 65 ∧ (ringRegs n r).ctl = .iwRingCtl n r) ∨ (n = 65 ∧ r = 0 ∧ (ringRegs n r).ctl = .mpMgmtCtl) ∨
      (n = 65 ∧ r = 1 ∧ (ringRegs n r).ctl = .mpDevCtl) := by
  rcases h with ⟨rfl, hr⟩ | h
  · obtain rfl | rfl : r = 0 ∨ r = 1 := by omega
    · exact .inr (.inl ⟨rfl, rfl, rfl⟩)
    · exact .inr (.inr ⟨rfl, rfl, rfl⟩)
  · exact .inl ⟨h, by rw [ringRegs_window r h]⟩

theorem ringRegs_ctl_fields {n r : Nat} (h : n = 65 ∧ r < 2 ∨ n < 65) :
    (⟨IW_RING_CTL.EN, .rws, 0⟩ : FieldRow) ∈ (ringRegs n r).ctl.fields ∧ (⟨IW_RING_CTL.L, .rws, 4⟩ : FieldRow) ∈ (ringRegs n r).ctl.fields ∧
      (⟨IW_RING_CTL.MSIVEC, .rws, 0⟩ : FieldRow) ∈ (ringRegs n r).ctl.fields := by
  rcases ringRegs_cases h with ⟨_, hc⟩ | ⟨_, _, hc⟩ | ⟨_, _, hc⟩ <;> rw [hc]
  · exact ⟨.head _, .tail _ (.tail _ (.head _)), .tail _ (.tail _ (.tail _ (.head _)))⟩
  · exact ⟨.head _, .tail _ (.tail _ (.head _)), .tail _ (.tail _ (.tail _ (.head _)))⟩
  · exact ⟨.head _, .tail _ (.tail _ (.head _)), .tail _ (.tail _ (.tail _ (.head _)))⟩

theorem ringRegs_apart (n r : Nat) : (ringRegs n r).ctl ≠ (ringRegs n r).status ∧ (ringRegs n r).wline ≠ (ringRegs n r).ctl ∧
    (ringRegs n r).wline ≠ (ringRegs n r).status := by
  unfold ringRegs
  repeat' split
  all_goals exact ⟨Reg.noConfusion, Reg.noConfusion, Reg.noConfusion⟩

/-- A write of a ring's CTL that puts its three fields within their ranges. -/
theorem State.fieldWrite_ringCtl {s : State} {n r v : Nat} (h : n = 65 ∧ r < 2 ∨ 0 < n ∧ n < 65 ∧ s.instState n = stQUIESCED) (hv : v < 2 ^ 32)
    (hl1 : 4 ≤ v / 2 ^ 11 % 32) (hl2 : v / 2 ^ 11 % 32 ≤ 20) :
    let w := s.merged (ringRegs n r).ctl (BitVec.ofNat 64 v)
    s.fieldWrite (ringRegs n r).ctl (BitVec.ofNat 64 v) = (s.setReg (ringRegs n r).ctl w).ringSwitched n r
      (s.getF (ringRegs n r).ctl IW_RING_CTL.EN) (IW_RING_CTL.EN.get w) ∧ IW_RING_CTL.EN.get w = v / 2 ^ 31 ∧
      IW_RING_CTL.L.get w = v / 2 ^ 11 % 32 ∧ IW_RING_CTL.MSIVEC.get w = v % 2 ^ 11 := by
  have hn : n = 65 ∧ r < 2 ∨ n < 65 := h.imp_right fun h => h.2.1
  obtain ⟨hen, hl, hvec⟩ := ringRegs_ctl_fields hn
  intro w
  have hv64 : v < 2 ^ 64 := Nat.lt_trans hv (by decide)
  have hwen : IW_RING_CTL.EN.get w = v / 2 ^ 31 := by
    refine (Reg.get_merge hen _ _ _).trans ((Fld.get_ofNat _ hv64).trans (Nat.mod_eq_of_lt ?_))
    exact Nat.div_lt_of_lt_mul hv
  have hwl : IW_RING_CTL.L.get w = v / 2 ^ 11 % 32 := (Reg.get_merge hl _ _ _).trans (Fld.get_ofNat _ hv64)
  have hwvec : IW_RING_CTL.MSIVEC.get w = v % 2 ^ 11 :=
    (Reg.get_merge hvec _ _ _).trans ((Fld.get_ofNat _ hv64).trans (congrArg (· % 2 ^ 11) (Nat.div_one v)))
  refine ⟨?_, hwen, hwl, hwvec⟩
  have hrange : (decide (4 ≤ IW_RING_CTL.L.get w) && decide (IW_RING_CTL.L.get w ≤ 20)) = true := by
    rw [hwl, decide_eq_true hl1, decide_eq_true hl2]
    rfl
  rcases ringRegs_cases hn with ⟨hlt, hc⟩ | ⟨rfl, rfl, hc⟩ | ⟨rfl, rfl, hc⟩
  · have ha : (decide (n ≠ 0) && s.instState n == stQUIESCED) = true := by
      obtain ⟨h65, _⟩ | ⟨hpos, _, hq⟩ := h
      · omega
      · rw [hq, decide_eq_true (Nat.pos_iff_ne_zero.1 hpos)]
        rfl
    revert hrange
    simp only [w, hc]
    intro hrange
    exact State.fieldWrite_of rfl ha hrange (fun locked => by cases locked <;> rfl) fun locked _ _ => by cases locked <;> rfl
  · exact State.fieldWrite_of rfl rfl hrange (fun locked => by cases locked <;> rfl) fun locked _ _ => by cases locked <;> rfl
  · exact State.fieldWrite_of rfl rfl hrange (fun locked => by cases locked <;> rfl) fun locked _ _ => by cases locked <;> rfl

/-- What reading the watched line of a ring in companion memory asks for. -/
theorem State.readWatched_of {s : State} {n r a : Nat}
    (h : s.ringPlace n (s.getF (ringRegs n r).wline IW_RING_WLINE.ADDR * 64) false = some (.comp a)) : ∃ port,
    (s.readWatched n r).ccl.out = s.ccl.out ++ [⟨.rds, a, [], port, .watched n r⟩] ∧ (s.readWatched n r).regs = s.regs ∧
      (s.readWatched n r).cores = s.cores ∧ (s.readWatched n r).ring n r = { s.ring n r with shared := false } := by
  generalize hu : s.modRing n r (fun x => { x with shared := false }) = u
  have hplace : u.ringPlace n (u.getF (ringRegs n r).wline IW_RING_WLINE.ADDR * 64) false = some (.comp a) := by
    rw [← hu]
    exact h
  have hread : s.readWatched n r = (u.uncache a).cclSend .rds a [] (.watched n r) := by
    simp only [State.readWatched, hu, hplace]
  have hring : u.ring n r = { s.ring n r with shared := false } := by
    rw [← hu]
    exact s.ring_modRing_self n r _
  refine ⟨(u.uncache a).cclOutPort a, ?_⟩
  rw [hread]
  obtain ⟨hframe, hout⟩ := (u.uncache a).cclSend_frame .rds a [] (.watched n r)
  obtain ⟨hccl, hregs, hcores⟩ : u.ccl.out = s.ccl.out ∧ u.regs = s.regs ∧ u.cores = s.cores := by rw [← hu]; exact ⟨rfl, rfl, rfl⟩
  refine ⟨hout.trans (congrArg (· ++ _) hccl), ?_, ?_, ?_⟩
  · rw [hframe]
    exact hregs
  · rw [hframe]
    exact hcores
  · rw [hframe]
    exact hring

/-- A ring that comes into service, its status in no error of its own. -/
theorem State.ringEnabled_of {s : State} {n r a : Nat} (hst : s.getF (ringRegs n r).status IW_RING_STATUS.STATE ≠ 3)
    (hp : s.ringPlace n (s.getF (ringRegs n r).wline IW_RING_WLINE.ADDR * 64) false = some (.comp a)) :
    ∃ port, (s.ringEnabled n r).ccl.out = s.ccl.out ++ [⟨.rds, a, [], port, .watched n r⟩] ∧
      (s.ringEnabled n r).getF (ringRegs n r).status IW_RING_STATUS.STATE = (if 65 ≤ n then 1 else 2) ∧
      ((s.ringEnabled n r).ring n r).enabling = true ∧ (s.ringEnabled n r).cores = s.cores ∧
      ∀ q, q ≠ (ringRegs n r).status → (s.ringEnabled n r).reg q = s.reg q := by
  generalize hu : s.setF (ringRegs n r).status IW_RING_STATUS.STATE (if 65 ≤ n then 1 else 2) = u
  generalize hw : u.modRing n r (fun x => { x with enabling := true }) = w
  have hen : s.ringEnabled n r = w.readWatched n r := by
    simp only [State.ringEnabled, if_neg hst, hu, hw]
  have hureg (q : Reg) (hq : q ≠ (ringRegs n r).status) : w.reg q = s.reg q := by
    rw [← hw, ← hu]
    exact State.reg_setF_other _ _ _ hq
  have hstate : w.getF (ringRegs n r).status IW_RING_STATUS.STATE = if 65 ≤ n then 1 else 2 := by
    rw [← hw, ← hu]
    refine (State.getF_setF_self _ _ _ _ (by decide) (by decide)).trans (Nat.mod_eq_of_lt ?_)
    split <;> decide
  have hplace : w.ringPlace n (w.getF (ringRegs n r).wline IW_RING_WLINE.ADDR * 64) false = some (.comp a) := by
    rw [State.getF, hureg _ (ringRegs_apart n r).2.2, ← hw, ← hu]
    exact hp
  obtain ⟨port, hout, hregs, hcores, hring⟩ := State.readWatched_of hplace
  refine ⟨port, ?_, ?_, ?_, ?_, fun q hq => ?_⟩
  · rw [hen, hout, ← hw, ← hu]
    rfl
  · rw [hen, State.getF, State.reg_congr hregs]
    exact hstate
  · rw [hen, hring, ← hw]
    exact congrArg Ring.enabling (u.ring_modRing_self n r _)
  · rw [hen, hcores, ← hw, ← hu]
    rfl
  · rw [hen, State.reg_congr hregs, hureg q hq]

/-- Setting a register that a ring's watched line does not depend on leaves the line's place. -/
theorem State.ringPlace_setReg (s : State) (q : Reg) (w : BitVec 64) (n ipa : Nat) (b : Bool) :
    (s.setReg q w).ringPlace n ipa b = s.ringPlace n ipa b := rfl

theorem ringEnable_answers {s : State} {n r v a : Nat} (hs : s.clocksStopped = false)
    (h : n = 65 ∧ r < 2 ∨ 0 < n ∧ n < 65 ∧ r < 64 ∧ s.instState n = stQUIESCED) (hv : v < 2 ^ 32) (hen : v / 2 ^ 31 = 1)
    (hl1 : 4 ≤ v / 2 ^ 11 % 32) (hl2 : v / 2 ^ 11 % 32 ≤ 20) (hoff : s.ringEn n r = false)
    (hst : s.getF (ringRegs n r).status IW_RING_STATUS.STATE ≠ 3)
    (hp : s.ringPlace n (s.getF (ringRegs n r).wline IW_RING_WLINE.ADDR * 64) false = some (.comp a)) :
    ∃ t port, exec (.ringEnable n r v) s = .next t ∧ t.ringEn n r = true ∧ t.ringL n r = v / 2 ^ 11 % 32 ∧ t.ringVec n r = v % 2 ^ 11 ∧
      t.getF (ringRegs n r).status IW_RING_STATUS.STATE = (if n = 65 then 1 else 2) ∧ (t.ring n r).enabling = true ∧
      t.ccl.out = s.ccl.out ++ [⟨.rds, a, [], port, .watched n r⟩] ∧ t.cores = s.cores ∧
      ∀ q, q ≠ (ringRegs n r).ctl → q ≠ (ringRegs n r).status → t.reg q = s.reg q := by
  have hn : n ≤ 65 ∧ r < if n = 65 then 2 else 64 := by
    rcases h with ⟨rfl, hr⟩ | ⟨_, hn, hr, _⟩
    · exact ⟨Nat.le_refl _, hr⟩
    · exact ⟨Nat.le_of_lt hn, by rw [if_neg (Nat.ne_of_lt hn)]; exact hr⟩
  obtain ⟨hwrite, hwen, hwl, hwvec⟩ := State.fieldWrite_ringCtl (h.imp_right fun ⟨h1, h2, _, h3⟩ => ⟨h1, h2, h3⟩) hv hl1 hl2
  generalize hw : s.merged (ringRegs n r).ctl (BitVec.ofNat 64 v) = w at hwrite hwen hwl hwvec
  obtain ⟨hcs, hwc, _⟩ := ringRegs_apart n r
  have hold : s.getF (ringRegs n r).ctl IW_RING_CTL.EN = 0 := by
    have hlt : s.getF (ringRegs n r).ctl IW_RING_CTL.EN < 2 := Fld.get_lt _ _
    have hne : s.getF (ringRegs n r).ctl IW_RING_CTL.EN ≠ 1 := beq_eq_false_iff_ne.1 hoff
    omega
  generalize hu : s.setReg (ringRegs n r).ctl w = u at hwrite
  have hureg (q : Reg) (hq : q ≠ (ringRegs n r).ctl) : u.reg q = s.reg q := by rw [← hu]; exact State.reg_setReg_other _ _ hq
  have hctl : u.reg (ringRegs n r).ctl = w := by rw [← hu]; exact State.reg_setReg_self ..
  rw [hold, hwen, hen, State.ringSwitched, if_pos ⟨rfl, rfl⟩] at hwrite
  have hust : u.getF (ringRegs n r).status IW_RING_STATUS.STATE ≠ 3 := by rw [State.getF, hureg _ hcs.symm]; exact hst
  have huplace : u.ringPlace n (u.getF (ringRegs n r).wline IW_RING_WLINE.ADDR * 64) false = some (.comp a) := by
    rw [State.getF, hureg _ hwc, ← hu]
    exact hp
  obtain ⟨port, hout, hstate, henab, hcores, hreg⟩ := State.ringEnabled_of hust huplace
  have hexec : exec (.ringEnable n r v) s = .next (s.keep (u.ringEnabled n r)) := by
    refine (exec_ringEnable n r v s).trans ((State.when_of hs ?_).trans (congrArg (fun t => Host.Outcome.next (s.keep t)) hwrite))
    rw [decide_eq_true hn.1, decide_eq_true hn.2, decide_eq_true hv, decide_eq_true hen, hoff]
    rfl
  have hfield (f : Fld) : (u.ringEnabled n r).getF (ringRegs n r).ctl f = f.get w := congrArg f.get ((hreg _ hcs).trans hctl)
  refine ⟨_, port, hexec, ?_, (hfield _).trans hwl, (hfield _).trans hwvec, ?_, henab, ?_, ?_, fun q h1 h2 => (hreg q h2).trans (hureg q h1)⟩
  · exact beq_iff_eq.2 ((hfield _).trans (hwen.trans hen))
  · refine hstate.trans ?_
    have hiff : 65 ≤ n ↔ n = 65 := ⟨fun h => Nat.le_antisymm hn.1 h, fun h => Nat.le_of_eq h.symm⟩
    simp only [hiff]
  · rw [State.keep_ccl, hout, ← hu]
    rfl
  · rw [State.keep_cores, hcores, ← hu]
    rfl

/-- The snapshot of an instance's account: seven registers. -/
theorem imAcctLatch_answers {s : State} {n : Nat} (hs : s.clocksStopped = false) (hn : n < 128) :
    exec (.imAcctLatch n) s = .next (s.keep (if n ≤ 64 then
      (((((((s.setReg (.imAcctSnap 0) (BitVec.ofNat 64 (s.inst n).acct.qwait)).setReg (.imAcctSnap 1) (BitVec.ofNat 64 (s.inst n).acct.npre)).setReg
        (.imAcctSnap 2) (BitVec.ofNat 64 (s.inst n).acct.held)).setReg (.imAcctSnap 3) (BitVec.ofNat 64 (s.inst n).acct.array)).setReg
        (.imAcctSnap 4) (BitVec.ofNat 64 (s.inst n).acct.bytes)).setReg (.imAcctSnap 5) (BitVec.ofNat 64 (s.inst n).acct.ovr)).setReg
        .imAcctSnapGtc (BitVec.ofNat 64 s.gtc)) else s)) := by
  rw [exec_imAcctLatch, execImAcctLatch, Nat.mod_eq_of_lt hn]
  exact State.when_of hs (decide_eq_true (Nat.lt_trans hn (by decide)))

theorem State.inst_setInst_self (s : State) (n : Nat) (x : Instance) : (s.setInst n x).inst n = x := SMap.get_put_self Instance.absent s.insts n x
theorem State.inst_setInst_other (s : State) {n m : Nat} (x : Instance) (h : m ≠ n) : (s.setInst n x).inst m = s.inst m :=
  SMap.get_put_other _ _ _ h

/-- A digest log that is enabled in a quiesced instance. -/
theorem digestLogEnable_answers {s : State} {n v : Nat} (hs : s.clocksStopped = false) (hn : n ≤ 64) (hv : v < 2 ^ 32) (hen : v / 2 ^ 31 = 1)
    (hl1 : 4 ≤ v % 32) (hl2 : v % 32 ≤ 20) (hoff : s.getF (.imDlogCtl n) IM_DLOG_CTL.EN = 0) (hq : s.instState n = stQUIESCED) :
    let w := s.merged (.imDlogCtl n) (BitVec.ofNat 64 v)
    exec (.digestLogEnable n v) s = .next (s.keep ((s.setReg (.imDlogCtl n) w).setReg (.imDlogProd n) 0)) ∧ IM_DLOG_CTL.EN.get w = 1 ∧
      IM_DLOG_CTL.L.get w = v % 32 := by
  intro w
  have hv64 : v < 2 ^ 64 := Nat.lt_trans hv (by decide)
  have hmen : (⟨IM_DLOG_CTL.EN, .rws, 0⟩ : FieldRow) ∈ (Reg.imDlogCtl n).fields := .head _
  have hml : (⟨IM_DLOG_CTL.L, .rws, 4⟩ : FieldRow) ∈ (Reg.imDlogCtl n).fields := .tail _ (.head _)
  have hwen : IM_DLOG_CTL.EN.get w = 1 := by
    refine (Reg.get_merge hmen _ _ _).trans ((Fld.get_ofNat _ hv64).trans ?_)
    exact congrArg (· % 2) hen
  have hwl : IM_DLOG_CTL.L.get w = v % 32 :=
    (Reg.get_merge hml _ _ _).trans ((Fld.get_ofNat _ hv64).trans (congrArg (· % 2 ^ 5) (Nat.div_one v)))
  refine ⟨?_, hwen, hwl⟩
  have hrange : (decide (4 ≤ IM_DLOG_CTL.L.get w) && decide (IM_DLOG_CTL.L.get w ≤ 20)) = true := by
    rw [hwl, decide_eq_true hl1, decide_eq_true hl2]
    rfl
  have hwrite := State.fieldWrite_of (s := s) (r := .imDlogCtl n) (v := BitVec.ofNat 64 v) rfl (beq_iff_eq.2 hq) hrange
    (fun locked => by cases locked <;> rfl) fun locked _ _ => by cases locked <;> rfl
  have hwritten : (s.setReg (.imDlogCtl n) w).written (.imDlogCtl n) (s.reg (.imDlogCtl n)) w =
      (s.setReg (.imDlogCtl n) w).setReg (.imDlogProd n) 0 := if_pos ⟨hoff, hwen⟩
  refine (exec_digestLogEnable n v s).trans ((State.when_of hs ?_).trans (congrArg (fun t => Host.Outcome.next (s.keep t))
    (hwrite.trans hwritten)))
  rw [decide_eq_true hn, decide_eq_true hv, decide_eq_true hen, decide_eq_true hoff]
  rfl

theorem State.regsCcl_trans {s u t : State} (h : u = { s with regs := u.regs, ccl := u.ccl })
    (g : t = { u with regs := t.regs, ccl := t.ccl }) : t = { s with regs := t.regs, ccl := t.ccl } := by
  rw [h] at g
  exact g

/-- A vector that is unmasked: MASK and PEND are 0, and a held interrupt is sent. -/
theorem State.unmask_of {s : State} {v : Nat} (hm : s.getF (.cclMsic v) CCL_MSIC.MASK = 0) :
    s.unmask v = { s with regs := (s.unmask v).regs, ccl := (s.unmask v).ccl } ∧ (s.unmask v).getF (.cclMsic v) CCL_MSIC.MASK = 0 ∧
      (s.unmask v).getF (.cclMsic v) CCL_MSIC.PEND = 0 ∧ (∀ r, r ≠ .cclMsic v → (s.unmask v).reg r = s.reg r) ∧
      (s.getF (.cclMsic v) CCL_MSIC.PEND = 0 → (s.unmask v).ccl = s.ccl) ∧
      (s.getF (.cclMsic v) CCL_MSIC.PEND = 1 → ∃ x, (s.unmask v).ccl.out = s.ccl.out ++ [x] ∧ x.purpose = .msi v ∧ x.kind = .wrp) := by
  by_cases hp : s.getF (.cclMsic v) CCL_MSIC.PEND = 1
  · generalize hu : s.setF (.cclMsic v) CCL_MSIC.PEND 0 = u
    have hum : u.getF (.cclMsic v) CCL_MSIC.MASK = 0 := by
      rw [← hu, State.getF_setF_other _ _ _ _ _ (by decide) (by decide) (by decide) (by decide)]
      exact hm
    have hup : u.getF (.cclMsic v) CCL_MSIC.PEND = 0 := by
      rw [← hu, State.getF_setF_self _ _ _ _ (by decide) (by decide)]
      rfl
    have hsend : s.unmask v = u.cclSend .wrp (u.getF (.cclMsia v) CCL_MSIA.ADDR * 4) (leBytes 4 (u.getF (.cclMsid v) CCL_MSID.DATA)) (.msi v) := by
      rw [State.unmask, if_pos ⟨hm, hp⟩, hu, State.msi, if_neg (by rw [hum]; decide)]
    obtain ⟨hframe, hout⟩ := u.cclSend_frame .wrp (u.getF (.cclMsia v) CCL_MSIA.ADDR * 4) (leBytes 4 (u.getF (.cclMsid v) CCL_MSID.DATA))
      (.msi v)
    rw [← hsend] at hframe hout
    have hregs : (s.unmask v).regs = u.regs := (congrArg State.regs hframe).trans rfl
    have huregs : u = { s with regs := u.regs, ccl := u.ccl } := by rw [← hu]; rfl
    have huccl : u.ccl = s.ccl := by rw [← hu]; rfl
    have htrans : s.unmask v = { u with regs := (s.unmask v).regs, ccl := (s.unmask v).ccl } := by
      rw [hregs]
      exact hframe
    refine ⟨State.regsCcl_trans huregs htrans, ?_, ?_, fun r hr => ?_, fun h0 => absurd (h0.symm.trans hp) (by decide), fun _ =>
      ⟨_, hout.trans (by rw [huccl]), rfl, rfl⟩⟩
    · rw [State.getF, State.reg_congr hregs]
      exact hum
    · rw [State.getF, State.reg_congr hregs]
      exact hup
    · rw [State.reg_congr hregs, ← hu]
      exact State.reg_setF_other _ _ _ hr
  · have hlt : s.getF (.cclMsic v) CCL_MSIC.PEND < 2 := Fld.get_lt _ _
    have hsame : s.unmask v = s := if_neg fun h => hp h.2
    rw [hsame]
    exact ⟨rfl, hm, by omega, fun _ _ => rfl, fun _ => rfl, fun h => absurd h hp⟩

/-- A write that clears MASK of a vector unmasks it. -/
theorem msiUnmask_answers {s : State} {v w : Nat} (hs : s.clocksStopped = false) (hv : v < 2048) (hw : w < 2 ^ 32) (hw0 : w % 2 = 0)
    (hm : s.getF (.cclMsic v) CCL_MSIC.MASK = 1) : exec (.msiUnmask v w) s = .next (s.keep
      ((s.setReg (.cclMsic v) (s.merged (.cclMsic v) (BitVec.ofNat 64 w))).unmask v)) := by
  have hwrite := State.fieldWrite_of (s := s) (r := .cclMsic v) (v := BitVec.ofNat 64 w) rfl rfl rfl
    (fun locked => by cases locked <;> rfl) fun locked _ _ => by cases locked <;> rfl
  refine (exec_msiUnmask v w s).trans ((State.when_of hs ?_).trans (congrArg (fun t => Host.Outcome.next (s.keep t)) hwrite))
  rw [decide_eq_true hv, decide_eq_true hw, decide_eq_true hw0, decide_eq_true hm]
  rfl

/-- Settles O29: each command writes the registers it names, and the ring reads its watched line. -/
theorem windowAndControlRegistersTakeEffect : Obligations.WindowAndControlRegistersTakeEffect := by
  refine ⟨?_, ?_, ?_, ?_, ?_, ?_, ?_, ?_⟩
  · intro s hs
    exact ⟨_, (exec_seal s).trans (State.when_of hs rfl), rfl, State.getF_setF_self _ _ _ _ (by decide) (by decide),
      fun r hr => State.reg_setF_other _ _ _ hr⟩
  · intro s n hs hn
    have hx := imAcctLatch_answers (n := n) hs (Nat.lt_of_le_of_lt hn (by decide))
    rw [if_pos hn] at hx
    refine ⟨_, hx, rfl, ?_, ?_, ?_, ?_, ?_, ?_, State.reg_setReg_self ..⟩ <;> simp
  · intro s n hs hlt hn
    have hx := imAcctLatch_answers (n := n) hs hn
    rw [if_neg (Nat.not_le.2 hlt)] at hx
    exact hx
  · intro s n hs hn
    exact ⟨_, (exec_tlbInvalidate n s).trans (State.when_of hs (decide_eq_true hn)), rfl,
      State.getF_setF_self _ _ _ _ (by decide) (by decide), fun r hr => State.reg_setF_other _ _ _ hr⟩
  · intro s n hs hn hdone
    exact ⟨_, (exec_tlbInvalidateDone n s).trans (State.when_of hs (by simp [hn, hdone])), rfl,
      congrArg Instance.tlb (s.inst_setInst_self n { s.inst n with tlb := [], root := s.reg (.iwS1root n) }),
      State.getF_setF_self _ _ _ _ (by decide) (by decide), fun m hm => s.inst_setInst_other _ hm, fun r hr => State.reg_setF_other _ _ _ hr⟩
  · intro s n r v a hs h hv hen hl1 hl2 hoff hst hp
    exact ringEnable_answers hs h hv hen hl1 hl2 hoff hst hp
  · intro s n v hs hn hv hen hl1 hl2 hoff hq
    obtain ⟨hx, hwen, hwl⟩ := digestLogEnable_answers hs hn hv hen hl1 hl2 hoff hq
    have hctl (u : State) (w : BitVec 64) : ((u.setReg (.imDlogCtl n) w).setReg (.imDlogProd n) 0).reg (.imDlogCtl n) = w :=
      (State.reg_setReg_other _ _ Reg.noConfusion).trans (State.reg_setReg_self ..)
    exact ⟨_, hx, rfl, (congrArg IM_DLOG_CTL.EN.get (hctl s _)).trans hwen, (congrArg IM_DLOG_CTL.L.get (hctl s _)).trans hwl,
      State.reg_setReg_self .., fun r h1 h2 => (State.reg_setReg_other _ _ h2).trans (State.reg_setReg_other _ _ h1)⟩
  · intro s v w hs hv hw hw0 hm
    generalize hu : s.setReg (.cclMsic v) (s.merged (.cclMsic v) (BitVec.ofNat 64 w)) = u
    have hx := msiUnmask_answers hs hv hw hw0 hm
    rw [hu] at hx
    have hreg : u.reg (.cclMsic v) = s.merged (.cclMsic v) (BitVec.ofNat 64 w) := by rw [← hu]; exact State.reg_setReg_self ..
    have hmask : (⟨CCL_MSIC.MASK, .rw, 1⟩ : FieldRow) ∈ (Reg.cclMsic v).fields := .tail _ (.head _)
    have hpend : (⟨CCL_MSIC.PEND, .ro, 0⟩ : FieldRow) ∈ (Reg.cclMsic v).fields := .head _
    have hum : u.getF (.cclMsic v) CCL_MSIC.MASK = 0 := by
      rw [State.getF, hreg]
      refine (Reg.get_merge hmask _ _ _).trans ((Fld.get_ofNat _ (Nat.lt_trans hw (by decide))).trans ?_)
      exact (congrArg (· % 2) (Nat.div_one w)).trans hw0
    have hup : u.getF (.cclMsic v) CCL_MSIC.PEND = s.getF (.cclMsic v) CCL_MSIC.PEND := by
      rw [State.getF, hreg]
      exact Reg.get_merge hpend _ _ _
    obtain ⟨hrest, hm0, hp0, hregs, hquiet, hsent⟩ := State.unmask_of hum
    have hus : u = { s with regs := u.regs, ccl := u.ccl } := by rw [← hu]; rfl
    have hccl : u.ccl = s.ccl := by rw [← hu]; rfl
    rw [hup, hccl] at hquiet hsent
    have hall := State.regsCcl_trans hus hrest
    have hkeep : s.keep (u.unmask v) = u.unmask v := by
      rw [hall]
      rfl
    rw [hkeep] at hx
    refine ⟨_, hx, hall, hm0, hp0, fun r hr => (hregs r hr).trans ?_, hquiet, hsent⟩
    rw [← hu]
    exact State.reg_setReg_other _ _ hr

end Sys2Proof.Machine


namespace Sys2Proof.Machine

/-! ## Queue pairs, fronthaul ports and flow entries -/

theorem exec_queuePairEnable (q v : Nat) (s : State) : exec (.queuePairEnable q v) s = execQueuePairEnable q v s := rfl
theorem exec_fhPortEnable (p v : Nat) (s : State) : exec (.fhPortEnable p v) s = execFhPortEnable p v s := rfl
theorem exec_flowStagingWrite (p f v : Nat) (g : Bool) (s : State) :
    exec (.flowStagingWrite p f v g) s = execFlowStagingWrite p f v g s := rfl
theorem exec_flowEntryReplace (p f v : Nat) (g : Bool) (s : State) :
    exec (.flowEntryReplace p f v g) s = execFlowEntryReplace p f v g s := rfl

theorem State.fhp_modFhp_self (s : State) (p : Nat) (f : FhPort → FhPort) : (s.modFhp p f).fhp p = f (s.fhp p) :=
  SMap.get_put_self FhPort.reset s.fh p _

theorem State.fhp_modFhp_other (s : State) {p q : Nat} (f : FhPort → FhPort) (h : q ≠ p) : (s.modFhp p f).fhp q = s.fhp q :=
  SMap.get_put_other _ _ _ h

/-- Clearing a word's bits between two of its places. -/
theorem Fld.get_cleared (f : Fld) {v a b : Nat} (hv : v < 2 ^ 64) (h : b ≤ a) (hf : a ≤ f.lo) :
    f.get (BitVec.ofNat 64 (v / 2 ^ a * 2 ^ a + v % 2 ^ b)) = f.get (BitVec.ofNat 64 v) := by
  have hle : v / 2 ^ a * 2 ^ a + v % 2 ^ b ≤ v := by
    have h1 := Nat.div_add_mod v (2 ^ a)
    have h2 : v % 2 ^ b ≤ v % 2 ^ a := by
      rw [← Nat.mod_mod_of_dvd v (Nat.pow_dvd_pow 2 h)]
      exact Nat.mod_le _ _
    rw [Nat.mul_comm] at h1
    omega
  have hdiv : (v / 2 ^ a * 2 ^ a + v % 2 ^ b) / 2 ^ a = v / 2 ^ a := by
    have hlt : v % 2 ^ b < 2 ^ a := Nat.lt_of_lt_of_le (Nat.mod_lt _ (Nat.two_pow_pos b)) (Nat.pow_le_pow_right (by decide) h)
    rw [Nat.mul_comm, Nat.mul_add_div (Nat.two_pow_pos a), Nat.div_eq_of_lt hlt, Nat.add_zero]
  rw [Fld.get_ofNat _ (Nat.lt_of_le_of_lt hle hv), Fld.get_ofNat _ hv]
  have hsplit : f.lo = a + (f.lo - a) := by omega
  rw [hsplit, Nat.pow_add, ← Nat.div_div_eq_div_mul, ← Nat.div_div_eq_div_mul, hdiv]

/-- Reading a watched line of a queue pair: the link, or the pair's status where the line has no place. -/
theorem State.qpWatch_keeps (s : State) (q : Nat) (out : Bool) : (s.qpWatch q out).cores = s.cores ∧
    (s.qpWatch q out).stackSet = s.stackSet ∧ ∀ r, r ≠ .rlQpStatus q → (s.qpWatch q out).reg r = s.reg r := by
  simp only [State.qpWatch]
  split
  · rw [(State.cclSend_frame ..).1]
    exact ⟨rfl, rfl, fun _ _ => rfl⟩
  · exact ⟨rfl, rfl, fun r hr => State.reg_setF_other _ _ _ hr⟩

theorem State.reg_setQp (s : State) (q : Nat) (x : Qp) (r : Reg) : (s.setQp q x).reg r = s.reg r := rfl

/-- The queue pair's registers and lines as it comes into service. -/
def State.qpEnabled (s : State) (q : Nat) (w : BitVec 64) : State :=
  (((s.setReg (.rlQpCtl q) w).setF (.rlQpStatus q) RL_QP_STATUS.STATE 0).setF (.rlQpStatus q) RL_QP_STATUS.FAULTS 0).setQp q
    { Qp.off with enabling := 2 }

theorem State.qpEnabled_keeps (s : State) (q : Nat) (w : BitVec 64) : (s.qpEnabled q w).reg (.rlQpCtl q) = w ∧
    (s.qpEnabled q w).cores = s.cores ∧ (s.qpEnabled q w).stackSet = s.stackSet :=
  ⟨(State.reg_setQp ..).trans ((State.reg_setF_other _ _ _ Reg.noConfusion).trans ((State.reg_setF_other _ _ _ Reg.noConfusion).trans
    (State.reg_setReg_self ..))), rfl, rfl⟩

/-- The word that RL_QP_CTL takes of a written value: bits 12 and 11 are reserved. -/
def qpCtlWord (v : Nat) : BitVec 64 := BitVec.ofNat 64 (v / 2 ^ 13 * 2 ^ 13 + v % 2 ^ 11)

theorem qpCtlWord_get {f : Fld} {v : Nat} (hv : v < 2 ^ 64) (hf : 13 ≤ f.lo) : f.get (qpCtlWord v) = f.get (BitVec.ofNat 64 v) :=
  Fld.get_cleared f hv (by decide) hf

theorem queuePairEnable_bad {s : State} {q v : Nat} (hs : s.clocksStopped = false) (hq : q < 64) (hv : v < 2 ^ 32)
    (hen : RL_QP_CTL.EN.get (BitVec.ofNat 64 v) = 1) (hoff : s.getF (.rlQpCtl q) RL_QP_CTL.EN = 0)
    (hctx : RL_QP_CTL.CTX.get (BitVec.ofNat 64 v) = 127) :
    exec (.queuePairEnable q v) s = .next (s.keep (s.regIgnored 0 (0x4000 + 0x80 * q))) := by
  have hx := (exec_queuePairEnable q v s).trans (State.when_of hs
    (by rw [decide_eq_true hq, decide_eq_true hv, decide_eq_true hen, decide_eq_true hoff]; rfl))
  rw [if_neg (by rw [decide_eq_false (Classical.not_not.2 hctx), Bool.and_false]; exact Bool.false_ne_true)] at hx
  exact hx

theorem queuePairEnable_good {s : State} {q v : Nat} (hs : s.clocksStopped = false) (hq : q < 64) (hv : v < 2 ^ 32)
    (hen : RL_QP_CTL.EN.get (BitVec.ofNat 64 v) = 1) (hoff : s.getF (.rlQpCtl q) RL_QP_CTL.EN = 0)
    (hctx : RL_QP_CTL.CTX.get (BitVec.ofNat 64 v) ≠ 127) (h1 : 16 ≤ RL_QP_CTL.LIN.get (BitVec.ofNat 64 v))
    (h2 : RL_QP_CTL.LIN.get (BitVec.ofNat 64 v) ≤ 26) (h3 : 16 ≤ RL_QP_CTL.LOUT.get (BitVec.ofNat 64 v))
    (h4 : RL_QP_CTL.LOUT.get (BitVec.ofNat 64 v) ≤ 26) (hst : s.getF (.rlQpStatus q) RL_QP_STATUS.STATE ≤ 1) :
    exec (.queuePairEnable q v) s = .next (s.keep (((s.qpEnabled q (qpCtlWord v)).qpWatch q false).qpWatch q true)) := by
  have hx := (exec_queuePairEnable q v s).trans (State.when_of hs
    (by rw [decide_eq_true hq, decide_eq_true hv, decide_eq_true hen, decide_eq_true hoff]; rfl))
  rw [if_pos (by simp [hst, h1, h2, h3, h4, hctx])] at hx
  exact hx

/-- The word that FH_CFG takes of a written value: bits 28 to 24 are reserved. -/
def fhCfgWord (v : Nat) : BitVec 64 := BitVec.ofNat 64 (v / 2 ^ 29 * 2 ^ 29 + v % 2 ^ 24)

theorem fhCfgWord_get {f : Fld} {v : Nat} (hv : v < 2 ^ 64) (hf : 29 ≤ f.lo) : f.get (fhCfgWord v) = v / 2 ^ f.lo % 2 ^ (f.hi + 1 - f.lo) :=
  (Fld.get_cleared f hv (by decide) hf).trans (Fld.get_ofNat f hv)

/-- A fronthaul port that comes into service: no credits, its domain on. -/
def State.fhEnabled (s : State) (p : Nat) (w : BitVec 64) : State :=
  (((s.setReg (.fhCfg p) w).modFhp p fun x =>
    { x with credits := [], subCredits := [], tokens := [] }).setDomain (220 + p) true)

theorem State.fhEnabled_keeps (s : State) (p : Nat) (w : BitVec 64) : (s.fhEnabled p w).cores = s.cores ∧
    ((s.fhEnabled p w).fhp p).tokens = [] ∧ (∀ q, q ≠ p → (s.fhEnabled p w).fhp q = s.fhp q) ∧
    (s.fhEnabled p w).domainOn (220 + p) = true ∧ (s.fhEnabled p w).reg (.fhCfg p) = w :=
  ⟨rfl, congrArg FhPort.tokens (State.fhp_modFhp_self (s.setReg (.fhCfg p) w) p fun x => { x with credits := [], subCredits := [], tokens := [] }),
    fun _ hq => State.fhp_modFhp_other (s.setReg (.fhCfg p) w) (fun x => { x with credits := [], subCredits := [], tokens := [] }) hq,
    State.domainOn_setDomain_self .., (State.reg_setF_other _ _ _ Reg.noConfusion).trans (State.reg_setReg_self ..)⟩

theorem State.setDomain_frame (s : State) (d : Nat) (on : Bool) (r : Reg) (h : ∀ k, r ≠ .gctlPdstat k) :
    (s.setDomain d on).reg r = s.reg r := State.reg_setF_other _ _ _ (h _)

/-- The domains of the port groups follow the ports. -/
theorem State.portDomains_keeps (s : State) : s.portDomains.cores = s.cores ∧ s.portDomains.fh = s.fh ∧
    (∀ r, (∀ k, r ≠ .gctlPdstat k) → s.portDomains.reg r = s.reg r) ∧
    ∀ d, d ≠ 268 → d ≠ 269 → d ≠ 284 → s.portDomains.domainOn d = s.domainOn d := by
  simp only [State.portDomains]
  refine ⟨rfl, rfl, fun r hr => ?_, fun d h1 h2 h3 => ?_⟩
  · rw [State.setDomain_frame _ _ _ r hr, State.setDomain_frame _ _ _ r hr, State.setDomain_frame _ _ _ r hr]
  · rw [State.domainOn_setDomain_other _ _ h3, State.domainOn_setDomain_other _ _ h2, State.domainOn_setDomain_other _ _ h1]

theorem fhPortEnable_answers {s : State} {p v : Nat} (hs : s.clocksStopped = false) (hp : p < 24) (hv : v < 2 ^ 32) (hen : v / 2 ^ 31 = 1)
    (hoff : s.getF (.fhCfg p) FH_CFG.EN = 0) (hmode : v / 2 ^ 29 % 4 ≠ 3) :
    exec (.fhPortEnable p v) s = .next (s.keep (s.fhEnabled p (fhCfgWord v)).portDomains) := by
  have hv64 : v < 2 ^ 64 := Nat.lt_trans hv (by decide)
  have hwen : FH_CFG.EN.get (BitVec.ofNat 64 v) = 1 := (Fld.get_ofNat _ hv64).trans (congrArg (· % 2) hen)
  have hwmode : FH_CFG.MODE.get (BitVec.ofNat 64 v) ≠ 3 := (Fld.get_ofNat FH_CFG.MODE hv64).symm ▸ hmode
  have hold : FH_CFG.EN.get (s.reg (.fhCfg p)) = 0 := hoff
  have hx := (exec_fhPortEnable p v s).trans (State.when_of hs
    (by rw [decide_eq_true hp, decide_eq_true hv, hen, hoff]; rfl))
  simp only [State.writeFhCfg, hold, hwen, Nat.zero_ne_one, false_and, if_false, if_neg hwmode, Nat.one_ne_zero, decide_true, State.fhSwitch,
    if_true] at hx
  exact hx

/-- A fronthaul port that comes into service has its mode, its domain on, and no tokens. -/
theorem fhPortEnable_shows {s : State} {p v : Nat} (hs : s.clocksStopped = false) (hp : p < 24) (hv : v < 2 ^ 32) (hen : v / 2 ^ 31 = 1)
    (hoff : s.getF (.fhCfg p) FH_CFG.EN = 0) (hmode : v / 2 ^ 29 % 4 ≠ 3) :
    ∃ t, exec (.fhPortEnable p v) s = .next t ∧ t.fhEn p = true ∧ t.getF (.fhCfg p) FH_CFG.MODE = v / 2 ^ 29 % 4 ∧
      t.domainOn (220 + p) = true ∧ (t.fhp p).tokens = [] ∧ t.cores = s.cores ∧ ∀ q, q ≠ p → t.fhp q = s.fhp q := by
  obtain ⟨hcores, hfh, hregs, hdom⟩ := (s.fhEnabled p (fhCfgWord v)).portDomains_keeps
  obtain ⟨hc, htok, hother, hon, hword⟩ := s.fhEnabled_keeps p (fhCfgWord v)
  have hv64 : v < 2 ^ 64 := Nat.lt_trans hv (by decide)
  have hx := fhPortEnable_answers hs hp hv hen hoff hmode
  obtain ⟨t, ht⟩ : ∃ t, (s.fhEnabled p (fhCfgWord v)).portDomains = t := ⟨_, rfl⟩
  rw [ht] at hx hcores hfh hregs hdom
  have hcfg : t.reg (.fhCfg p) = fhCfgWord v := (hregs _ fun _ => Reg.noConfusion).trans hword
  have hfhp (q : Nat) : t.fhp q = (s.fhEnabled p (fhCfgWord v)).fhp q := congrArg (fun m => SMap.get FhPort.reset m q) hfh
  refine ⟨_, hx, ?_, ?_, ?_, ?_, hcores.trans hc, fun q hq => (hfhp q).trans (hother q hq)⟩
  · refine beq_iff_eq.2 ((congrArg FH_CFG.EN.get hcfg).trans ((fhCfgWord_get hv64 (by decide)).trans ?_))
    exact congrArg (· % 2) hen
  · exact (congrArg FH_CFG.MODE.get hcfg).trans (fhCfgWord_get hv64 (by decide))
  · exact (hdom _ (by omega) (by omega) (by omega)).trans hon
  · exact (congrArg FhPort.tokens (hfhp p)).trans htok

/-- Settles O30: the guards hold, and a port's or a pair's registers are its own. -/
theorem portsAndPairsAreEnabled : Obligations.PortsAndPairsAreEnabled := by
  refine ⟨?_, ?_, ?_, ?_, ?_, ?_⟩
  · intro s q v hs hq hv hen hoff hctx
    have hlog : s.Logged (s.regIgnored 0 (0x4000 + 0x80 * q)) := State.logged_event ..
    have hx := queuePairEnable_bad hs hq hv hen hoff hctx
    rw [State.keep_of_rest hlog.rest] at hx
    exact ⟨_, hx, hlog.rest, fun r hr => hlog.regs r hr⟩
  · intro s q v hs hq hv hen hoff hctx h1 h2 h3 h4 hst
    have hx := queuePairEnable_good hs hq hv hen hoff hctx h1 h2 h3 h4 hst
    have hv64 : v < 2 ^ 64 := Nat.lt_trans hv (by decide)
    obtain ⟨hctl, hc0, hs0⟩ := s.qpEnabled_keeps q (qpCtlWord v)
    obtain ⟨hc1, hs1, hr1⟩ := (s.qpEnabled q (qpCtlWord v)).qpWatch_keeps q false
    obtain ⟨hc2, hs2, hr2⟩ := ((s.qpEnabled q (qpCtlWord v)).qpWatch q false).qpWatch_keeps q true
    generalize ((s.qpEnabled q (qpCtlWord v)).qpWatch q false).qpWatch q true = t at hx hc2 hs2 hr2
    have hword : t.reg (.rlQpCtl q) = qpCtlWord v := (hr2 _ Reg.noConfusion).trans ((hr1 _ Reg.noConfusion).trans hctl)
    refine ⟨_, hx, ?_, ?_, hc2.trans (hc1.trans hc0), hs2.trans (hs1.trans hs0)⟩
    · exact (congrArg RL_QP_CTL.EN.get hword).trans ((qpCtlWord_get hv64 (by decide)).trans hen)
    · exact (congrArg RL_QP_CTL.CTX.get hword).trans (qpCtlWord_get hv64 (by decide))
  · exact fun s p v hs hp hv hen hoff hmode => fhPortEnable_shows hs hp hv hen hoff hmode
  · intro s p f v g hs hp hf hv hg
    have hfree : (s.fhEn p && !g) = false := by rcases hg with hg | hg <;> simp [hg]
    have hx := (exec_flowStagingWrite p f v g s).trans (State.when_of hs
      (by rw [decide_eq_true hp, decide_eq_true hf, decide_eq_true hv]; rfl))
    rw [hfree, if_neg Bool.false_ne_true] at hx
    exact ⟨_, hx, rfl, congrArg FhPort.staging (s.fhp_modFhp_self p fun x => { x with staging := some (f, v) }),
      fun q hq => s.fhp_modFhp_other (fun x => { x with staging := some (f, v) }) hq⟩
  · intro s p f v w g hs hp hf hv hw hg hst
    have hfree : (s.fhEn p && !g) = false := by rcases hg with hg | hg <;> simp [hg]
    have hx := (exec_flowEntryReplace p f v g s).trans (State.when_of hs
      (by rw [decide_eq_true hp, decide_eq_true hf, decide_eq_true hv]; rfl))
    rw [hfree, if_neg Bool.false_ne_true] at hx
    simp only [hst, if_true] at hx
    refine ⟨_, hx, rfl, congrArg FhPort.staging (State.fhp_modFhp_self _ p fun x => { x with staging := none }), ?_,
      State.reg_setReg_self .., fun r h1 h2 => (State.reg_setReg_other _ _ h2).trans (State.reg_setReg_other _ _ h1)⟩
    exact (State.reg_setReg_other _ _ Reg.noConfusion).trans (State.reg_setReg_self ..)
  · intro s p f v hs hp hf hv hen
    have hbusy : (s.fhEn p && !false) = true := by rw [hen]; rfl
    have ht := (exec_flowStagingWrite p f v false s).trans (State.when_of hs
      (by rw [decide_eq_true hp, decide_eq_true hf, decide_eq_true hv]; rfl))
    have hu := (exec_flowEntryReplace p f v false s).trans (State.when_of hs
      (by rw [decide_eq_true hp, decide_eq_true hf, decide_eq_true hv]; rfl))
    rw [hbusy, if_pos rfl] at ht hu
    have hlogt : s.Logged (s.fhIgnored p (0x4000 + 16 * f)) := State.logged_event ..
    have hlogu : s.Logged (s.fhIgnored p (0x4000 + 16 * f + 8)) := State.logged_event ..
    exact ⟨_, _, ht, hu, (congrArg State.fh hlogt.rest).trans rfl, (congrArg State.fh hlogu.rest).trans rfl,
      fun r hr => ⟨hlogt.regs r hr, hlogu.regs r hr⟩⟩

end Sys2Proof.Machine


namespace Sys2Proof.Machine

/-! ## The stop of a tenant side, and borrows -/

theorem exec_stopIssueComplete (p : Nat) (s : State) : exec (.stopIssueComplete p) s = execStopIssueComplete p s := rfl
theorem exec_meDrainComplete (p : Nat) (stops : List Nat) (s : State) : exec (.meDrainComplete p stops) s = execMeDrainComplete p stops s := rfl
theorem exec_borrowRequest (p no : Nat) (s : State) : exec (.borrowRequest p no) s = execBorrowRequest p no s := rfl
theorem exec_bankSwitchComplete (p : Nat) (s : State) : exec (.bankSwitchComplete p) s = execBankSwitchComplete p s := rfl
theorem exec_radioDispatchComplete (p : Nat) (s : State) : exec (.radioDispatchComplete p) s = execRadioDispatchComplete p s := rfl
theorem exec_weightReloadComplete (p : Nat) (s : State) : exec (.weightReloadComplete p) s = execWeightReloadComplete p s := rfl
theorem exec_dlAbort (p : Nat) (s : State) : exec (.dlAbort p) s = execDlAbort p s := rfl

theorem State.core_setCore_self (s : State) (p : Nat) (c : Core) : (s.setCore p c).core p = c := by rw [State.core_setCore, if_pos rfl]
theorem State.core_setCore_other (s : State) {p q : Nat} (c : Core) (h : q ≠ p) : (s.setCore p c).core q = s.core q := by
  rw [State.core_setCore, if_neg h]
theorem State.core_modCore_self (s : State) (p : Nat) (f : Core → Core) : (s.modCore p f).core p = f (s.core p) := by
  rw [State.core_modCore, if_pos rfl]
theorem State.core_modCore_other (s : State) {p q : Nat} (f : Core → Core) (h : q ≠ p) : (s.modCore p f).core q = s.core q := by
  rw [State.core_modCore, if_neg h]

theorem State.core_setPhase (s : State) (p n q : Nat) : (s.setPhase p n).core q = s.core q := rfl

theorem State.phase_setPhase (s : State) (p : Nat) {n : Nat} (h : n < 8) : (s.setPhase p n).getF (.coreCqPre p) CORE_CQ_PRE.PHASE = n :=
  (State.getF_setF_self _ _ _ _ (by decide) (by decide)).trans (Nat.mod_eq_of_lt h)

theorem State.slotFrame_setCore (s : State) (p : Nat) (c : Core) : s.SlotFrame (s.setCore p c) p [] :=
  ⟨rfl, fun _ hq => s.core_setCore_other c hq, fun _ _ => rfl⟩

theorem State.slotFrame_setCore_setPhase (s : State) (p : Nat) (c : Core) (n : Nat) :
    s.SlotFrame ((s.setCore p c).setPhase p n) p [.coreCqPre p] :=
  ⟨rfl, fun _ hq => s.core_setCore_other c hq, fun _ hr => State.reg_setF_other _ _ _ fun e => hr (e ▸ List.mem_singleton_self _)⟩

theorem State.SlotFrame.keep {s t : State} {p : Nat} {rs : List Reg} (h : s.SlotFrame t p rs) : s.keep t = t := by
  rw [h.rest]
  rfl

theorem State.SlotFrame.setF {s t : State} {p : Nat} {rs : List Reg} (h : s.SlotFrame t p rs) {r : Reg} (f : Fld) (x : Nat) (hr : r ∈ rs) :
    s.SlotFrame (t.setF r f x) p rs := by
  refine ⟨?_, h.cores, fun q hq => (State.reg_setF_other _ _ _ fun e => hq (by rw [e]; exact hr)).trans (h.regs q hq)⟩
  have hset : t.setF r f x = { t with regs := (t.setF r f x).regs } := rfl
  rw [hset]
  generalize (t.setF r f x).regs = g
  exact congrArg (fun u : State => { u with regs := g }) h.rest

/-- The side has an open no-preempt region, as the model counts it. -/
theorem Core.openRegion_iff (c : Core) :
    c.openRegion ↔ (c.threads.any fun x => threadSide x.1 == 0 && x.2.running && x.2.region.isSome) = true := by
  rw [List.any_eq_true]
  constructor
  · rintro ⟨x, hx, h1, h2, h3⟩
    exact ⟨x, hx, by rw [h1, h2, h3]; rfl⟩
  · rintro ⟨x, hx, h⟩
    rw [Bool.and_eq_true, Bool.and_eq_true, beq_iff_eq] at h
    exact ⟨x, hx, h.1.1, h.1.2, h.2⟩

/-- The core of a side whose issue has stopped. -/
def Core.stopStep (c : Core) (step : Stop) : Core := { c with t := { c.t with stop := step } }

theorem stopIssueComplete_answers {s : State} {p : Nat} (hs : s.clocksStopped = false) (hp : p < 208) (hst : (s.core p).t.stop = .stopIssue)
    (b : Bool) (hb : ((s.core p).threads.any fun x => threadSide x.1 == 0 && x.2.running && x.2.region.isSome) = b) :
    exec (.stopIssueComplete p) s =
      .next ((s.setCore p ((s.core p).stopStep (if b then .regionWait else .drain))).setPhase p (if b then 2 else 3)) := by
  have hx := (exec_stopIssueComplete p s).trans (State.when_of hs (by rw [hst, decide_eq_true hp]; rfl))
  rw [hb] at hx
  exact hx

/-- The tenant side as a drain leaves it. -/
def State.drained (s : State) (p : Nat) (stops : List Nat) : State :=
  (s.meStop p 0 stops).modCore p fun c => { c with t := { c.t with stop := .stopped } }

theorem meDrainComplete_answers {s : State} {p : Nat} (stops : List Nat) (hs : s.clocksStopped = false) (hp : p < 208)
    (hst : (s.core p).t.stop = .drain) : exec (.meDrainComplete p stops) s = .next (s.keep ((s.drained p stops).afterStop p)) :=
  (exec_meDrainComplete p stops s).trans (State.when_of hs (by rw [hst, decide_eq_true hp]; rfl))

theorem State.afterStop_of_borrow {s : State} {p : Nat} {b : Borrow} (hb : (s.core p).borrow = some b) (hph : b.phase = .stopping) :
    s.afterStop p = (s.modCore p fun c => { c with borrow := some { b with phase := .bankSwitch } }).setPhase p 4 := by
  simp only [State.afterStop, hb, hph, if_true]

/-- The radio command queued at its core. -/
def State.radioAsked (s : State) (p no : Nat) (c : Cmd) : State :=
  (((s.modCmd no fun _ => c).modCore p fun q => { q with radioQ := q.radioQ ++ [(c.ctx, no)], req := s.gtc }).takeDue 0 c.ring)

theorem State.takeDue_keeps (s : State) (n r : Nat) : (s.takeDue n r).cores = s.cores ∧ (s.takeDue n r).insts = s.insts := by
  unfold State.takeDue
  split
  · dsimp only
    split
    · rw [(State.logged_event ..).rest]
      exact ⟨rfl, rfl⟩
    · exact ⟨rfl, rfl⟩
  · exact ⟨rfl, rfl⟩

theorem State.radioAsked_keeps (s : State) (p no : Nat) (c : Cmd) : (s.radioAsked p no c).insts = s.insts ∧
    (s.radioAsked p no c).core p = { s.core p with radioQ := (s.core p).radioQ ++ [(c.ctx, no)], req := s.gtc } ∧
    ∀ q, q ≠ p → (s.radioAsked p no c).core q = s.core q := by
  obtain ⟨hcores, hinsts⟩ := ((s.modCmd no fun _ => c).modCore p fun q =>
    { q with radioQ := q.radioQ ++ [(c.ctx, no)], req := s.gtc }).takeDue_keeps 0 c.ring
  refine ⟨hinsts, (State.core_congr hcores p).trans (State.core_modCore_self ..), fun q hq => ?_⟩
  exact (State.core_congr hcores q).trans (State.core_modCore_other _ _ hq)

theorem borrowRequest_answers {s : State} {p no : Nat} {c : Cmd} (hs : s.clocksStopped = false) (hp : p < 208) (hc : s.cmd no = some c)
    (hi : (s.mapped c).inst = 0) (hk : (s.mapped c).isKernel = true ∨ (s.mapped c).isCopy = true) (hh : s.head 0 (s.mapped c).ring = some c)
    (hd : s.duePast 0 (s.mapped c).ring = true) (ht : s.lcoreNo p ∈ (s.mapped c).todo) (hk2 : s.isStake p = false)
    (hq : ∀ y ∈ (s.core p).radioQ, y.2 ≠ no) :
    exec (.borrowRequest p no) s = .next (s.keep ((s.radioAsked p no (s.mapped c)).serveRadio p)) := by
  rw [exec_borrowRequest, execBorrowRequest, hc]
  refine State.when_of hs ?_
  have hany : ((s.core p).radioQ.any fun y => y.2 == no) = false :=
    List.any_eq_false.2 fun y hy h => hq y hy (beq_iff_eq.1 h)
  have hkind : ((s.mapped c).isKernel || (s.mapped c).isCopy) = true := by rw [Bool.or_eq_true]; exact hk
  rw [decide_eq_true hp, decide_eq_true hi, hkind, hh, beq_self_eq_true, hd, List.contains_iff_mem.2 ht, hk2, hany]
  rfl

/-- A core whose borrow moves on to a phase. -/
def Core.switched (c : Core) (radio : Bool) (b : Borrow) (ph : BorrowPhase) : Core :=
  { c with radio := radio, borrow := some { b with phase := ph } }

theorem bankSwitch_to_radio {s : State} {p : Nat} {b : Borrow} (hs : s.clocksStopped = false) (hp : p < 208)
    (hb : (s.core p).borrow = some b) (hph : b.phase = .bankSwitch) :
    exec (.bankSwitchComplete p) s = .next (s.setCore p ((s.core p).switched true b .dispatch)) := by
  rw [exec_bankSwitchComplete, execBankSwitchComplete, hb]
  refine (State.when_of hs (by rw [hph, decide_eq_true hp]; rfl)).trans ?_
  rw [if_pos hph]
  rfl

/-- An MMT of the queue has stopped. -/
def Core.mmtStopped (c : Core) : Bool := c.t.meQ.any fun e => e.phase == .stopped && (match e.op with | .mmt _ => true | _ => false)

theorem bankSwitch_back {s : State} {p : Nat} {b : Borrow} (hs : s.clocksStopped = false) (hp : p < 208)
    (hb : (s.core p).borrow = some b) (hph : b.phase = .switchBack) :
    exec (.bankSwitchComplete p) s = .next (s.keep (if ((s.core p).mmtStopped && (s.core p).takeover.isNone) = true
      then s.setCore p ((s.core p).switched false b .reload)
      else (s.setCore p ((s.core p).switched false b .reload)).endReturn p)) := by
  rw [exec_bankSwitchComplete, execBankSwitchComplete, hb]
  refine (State.when_of hs (by rw [hph, decide_eq_true hp]; rfl)).trans ?_
  rw [if_neg (by rw [hph]; exact BorrowPhase.noConfusion)]
  rfl

theorem Core.mmtStopped_of {c : Core} {e : MeEntry} {o : MmtOp} (he : e ∈ c.t.meQ) (hph : e.phase = .stopped) (ho : e.op = .mmt o) :
    c.mmtStopped = true :=
  List.any_eq_true.2 ⟨e, he, by rw [hph, ho]; rfl⟩

theorem Core.mmtStopped_of_none {c : Core} (h : ∀ e ∈ c.t.meQ, e.phase ≠ .stopped) : c.mmtStopped = false :=
  List.any_eq_false.2 fun e he hst => by
    rw [Bool.and_eq_true, beq_iff_eq] at hst
    exact h e he hst.1

/-- The dispatch of the radio command: LAST shows the cycles since the request. -/
def State.radioDispatched (s : State) (p : Nat) (b : Borrow) (last : Nat) : State :=
  (((s.modCore p fun c => { c with borrow := some { b with phase := .radio } }).setF (.coreCqPre p) CORE_CQ_PRE.LAST last).setPhase p 5)

theorem State.radioDispatched_shows (s : State) (p : Nat) (b : Borrow) {last : Nat} (hl : last < 2 ^ 16) :
    s.SlotFrame (s.radioDispatched p b last) p [.coreCqPre p] ∧
    (s.radioDispatched p b last).core p = { s.core p with borrow := some { b with phase := .radio } } ∧
    (s.radioDispatched p b last).getF (.coreCqPre p) CORE_CQ_PRE.LAST = last ∧
    (s.radioDispatched p b last).getF (.coreCqPre p) CORE_CQ_PRE.PHASE = 5 := by
  have hmod : s.SlotFrame (s.modCore p fun c => { c with borrow := some { b with phase := .radio } }) p [.coreCqPre p] :=
    ⟨rfl, fun _ hq => State.core_modCore_other _ _ hq, fun _ _ => rfl⟩
  unfold State.radioDispatched
  refine ⟨(hmod.setF _ _ (List.mem_singleton_self _)).setF _ _ (List.mem_singleton_self _), ?_, ?_, State.phase_setPhase _ _ (by decide)⟩
  · rw [State.core_setPhase, State.core_setF, State.core_modCore_self]
  · refine (State.getF_setF_other _ _ _ _ _ (by decide) (by decide) (by decide) (by decide)).trans
      ((State.getF_setF_self _ _ _ _ (by decide) (by decide)).trans (Nat.mod_eq_of_lt hl))

theorem radioDispatchComplete_answers {s : State} {p : Nat} {b : Borrow} (hs : s.clocksStopped = false) (hp : p < 208)
    (hb : (s.core p).borrow = some b) (hph : b.phase = .dispatch) :
    exec (.radioDispatchComplete p) s = .next (s.keep (((s.radioDispatched p b (min (s.gtc - (s.core p).req) 0xFFFF)).radioNext p).kickCore p)) := by
  rw [exec_radioDispatchComplete, execRadioDispatchComplete, hb]
  exact State.when_of hs (by rw [hph, decide_eq_true hp]; rfl)

/-- The state in which a return ends: the time held is charged, and the borrow is gone. -/
def State.returned (s : State) (p : Nat) (b : Borrow) : State :=
  (if b.charged ≠ 0 then s.charge b.charged fun a => { a with held := a.held + (s.gtc - b.at_) } else s).modCore p
    fun c => { c with borrow := none, extension := 0, tiles := c.tiles.filter fun t => t.side != 1 }

theorem State.returned_keeps (s : State) (p : Nat) (b : Borrow) : (s.returned p b).regs = s.regs ∧
    (s.returned p b).core p = { s.core p with borrow := none, extension := 0, tiles := (s.core p).tiles.filter fun t => t.side != 1 } ∧
    ∀ q, q ≠ p → (s.returned p b).core q = s.core q := by
  unfold State.returned
  split
  · exact ⟨rfl, State.core_modCore_self .., fun _ hq => State.core_modCore_other _ _ hq⟩
  · exact ⟨rfl, State.core_modCore_self .., fun _ hq => State.core_modCore_other _ _ hq⟩

theorem State.endReturn_of {s : State} {p : Nat} {b : Borrow} (hb : (s.core p).borrow = some b) (ht : (s.core p).takeover = none) :
    s.endReturn p = if (s.core p).throttled = true then (s.returned p b).setPhase p 0 else (s.returned p b).resumeTenant p := by
  simp only [State.endReturn, hb, ht, Option.isSome_none, Bool.false_eq_true, if_false]
  rfl

theorem dlAbort_answers {s : State} {p : Nat} {r : Resident} (hs : s.clocksStopped = false) (hp : p < 208) (he : (s.core p).extension = 2)
    (hr : (s.core p).residents.filter (fun r => r.side == 1) = [r]) :
    exec (.dlAbort p) s = .next (s.keep ((s.event (srcCore p) 2 0x36 (s.lcoreNo p) r.ctx.group
      (min (s.gtc - r.began) (2 ^ 28 - 1))).contextDown r.ctx.group 2 5)) := by
  have hmem : r ∈ (s.core p).residents := (List.mem_filter.1 (hr ▸ List.mem_singleton_self r)).1
  have hfound : ((s.core p).resident r.cmd).isNone = false := by
    rw [← Option.not_isSome, Bool.not_eq_false']
    exact List.find?_isSome.2 ⟨r, hmem, beq_self_eq_true _⟩
  rw [exec_dlAbort, execDlAbort, hr]
  refine (State.when_of hs (by rw [decide_eq_true hp, decide_eq_true he]; rfl)).trans ?_
  rw [List.foldl_cons, List.foldl_nil, hfound, if_neg Bool.false_ne_true]

/-- Settles O31: each phase of a stop and of a borrow is one change of the core and of its PHASE. -/
theorem sidesStopAndBorrowsReturn : Obligations.SidesStopAndBorrowsReturn := by
  refine ⟨⟨?_, ?_, ?_⟩, ?_, ?_, ?_, ?_, ?_, ?_, ?_, ?_⟩
  · intro s p hs hp hst
    refine ⟨_, stopIssueComplete_answers hs hp hst _ rfl, s.slotFrame_setCore_setPhase p _ _, fun ho => ?_, fun ho => ?_⟩
    · have hany := (Core.openRegion_iff _).1 ho
      rw [hany]
      exact ⟨(State.core_setPhase ..).trans (State.core_setCore_self ..), State.phase_setPhase _ _ (by decide)⟩
    · have hany := Bool.not_eq_true _ ▸ mt (Core.openRegion_iff _).2 ho
      rw [hany]
      exact ⟨(State.core_setPhase ..).trans (State.core_setCore_self ..), State.phase_setPhase _ _ (by decide)⟩
  · intro s p stops b hs hp hst hb hph
    have hcore := (s.meStop p 0 stops).core_modCore_self p fun c => { c with t := { c.t with stop := .stopped } }
    have hborrow : ((s.drained p stops).core p).borrow = some b := (congrArg Core.borrow hcore).trans hb
    have hx := meDrainComplete_answers stops hs hp hst
    rw [State.afterStop_of_borrow hborrow hph] at hx
    have hend := (s.drained p stops).core_modCore_self p fun c => { c with borrow := some { b with phase := .bankSwitch } }
    refine ⟨_, hx, ?_, ?_, State.phase_setPhase _ _ (by decide), ?_⟩
    · rw [State.core_keep, State.core_setPhase, hend]
      exact congrArg (fun c => c.t.stop) hcore
    · rw [State.core_keep, State.core_setPhase, hend]
    · rw [State.core_keep, State.core_setPhase, hend]
      exact congrArg (fun c => c.t.meQ) hcore
  · exact fun s p stops hs hp hst => meDrainComplete_answers stops hs hp hst
  · intro s p no c hs hp hc _ hi hk hh hd ht hk2 hq
    obtain ⟨hinsts, hcore, hother⟩ := s.radioAsked_keeps p no (s.mapped c)
    exact ⟨_, borrowRequest_answers hs hp hc hi hk hh hd ht hk2 hq, congrArg Core.req hcore, congrArg Core.radioQ hcore, hother, hinsts⟩
  · intro s p b hs hp hb hph
    exact ⟨_, bankSwitch_to_radio hs hp hb hph, s.slotFrame_setCore p _, s.core_setCore_self p _⟩
  · intro s p b e o hs hp hb hph he hest ho htk
    have hx := bankSwitch_back hs hp hb hph
    rw [Core.mmtStopped_of he hest ho, htk, if_pos (by rfl), (s.slotFrame_setCore p _).keep] at hx
    exact ⟨_, hx, s.slotFrame_setCore p _, s.core_setCore_self p _⟩
  · intro s p b hs hp hb hph hno
    have hx := bankSwitch_back hs hp hb hph
    have hcond : ((s.core p).mmtStopped && (s.core p).takeover.isNone) = false := by
      rcases hno with htk | hno
      · rw [← Option.not_isSome, htk]
        exact Bool.and_false _
      · rw [Core.mmtStopped_of_none hno]
        rfl
    rw [hcond, if_neg Bool.false_ne_true] at hx
    exact ⟨_, hx, s.slotFrame_setCore p _, s.core_setCore_self p _⟩
  · intro s p b hs hp hb hph
    obtain ⟨hframe, hcore, hlast, hphase⟩ := s.radioDispatched_shows p b (last := min (s.gtc - (s.core p).req) 0xFFFF)
      (Nat.lt_of_le_of_lt (Nat.min_le_right ..) (by decide))
    exact ⟨_, radioDispatchComplete_answers hs hp hb hph, hframe, hcore, hlast, hphase⟩
  · intro s p b hs hp hb hph
    rw [exec_weightReloadComplete, execWeightReloadComplete, hb]
    exact State.when_of hs (by rw [hph, decide_eq_true hp]; rfl)
  · intro s p b hb ht
    obtain ⟨hregs, hcore, hother⟩ := s.returned_keeps p b
    exact ⟨_, State.endReturn_of hb ht, hcore, hother, hregs⟩
  · exact fun s p r hs hp he hr => dlAbort_answers hs hp he hr

end Sys2Proof.Machine


namespace Sys2Proof.Machine

/-! ## A restore from a poisoned save slot -/

/-- A core whose restore finds poisoned data in its save slot. -/
def poisonedRestore : State :=
  let k : TakeOver := { phase := .restore, from_ := 1, to_ := 2, role := 2, since := 0, spillAt := 0, slot := none, restore := some 0 }
  let i : Image := { inst := 1, lcore := 0, role := 2, core := Core.zero, locks := List.replicate 48 0, arith := [0, 0, 0] }
  { State.reset with
    cores := [(0, { Core.zero with takeover := some k })]
    images := [(0, some i)]
    beat := { BeatState.stopped with saveFrames := [(0, 1)] }
    stackSet := { StackState.reset with poison := [(2 ^ 24, true)] } }

/-- A core of a command's next state is in a take-over. -/
def takesOver (p : Nat) : Out → Bool
  | .next t => (t.core p).takeover.isSome
  | _ => false

/-- Refutes O32: RESTORE_COMPLETE from a poisoned slot faults the instance and leaves the core in its take-over, so that the state is not
the one that ENDTAKE leaves: there the core is in none. -/
theorem not_takeOversSpillZeroAndRestore : ¬ Obligations.TakeOversSpillZeroAndRestore := by
  unfold Obligations.TakeOversSpillZeroAndRestore
  rintro ⟨_, _, _, hpoison⟩
  have hexec := hpoison poisonedRestore 0 0 _ _ rfl (by decide) rfl rfl rfl rfl rfl rfl (by decide +kernel)
  have hstays : takesOver 0 (exec (.restoreComplete 0) poisonedRestore) = true := by decide +kernel
  have hends : takesOver 0 (.next (poisonedRestore.keep ((poisonedRestore.ceFault 0 2 (.tenant 1) 0).endTake 0))) = false := by
    decide +kernel
  rw [hexec] at hstays
  exact Bool.false_ne_true (hends.symm.trans hstays)

end Sys2Proof.Machine


namespace Sys2Proof.Machine

/-! ## Locks, fixed leases, failed cores -/

theorem exec_lockLeaseExpiry (p n : Nat) (s : State) : exec (.lockLeaseExpiry p n) s = execLockLeaseExpiry p n s := rfl
theorem exec_fixedLeaseEnd (n : Nat) (s : State) : exec (.fixedLeaseEnd n) s = execFixedLeaseEnd n s := rfl
theorem exec_coreFailed (p : Nat) (s : State) : exec (.coreFailed p) s = execCoreFailed p s := rfl
theorem exec_coreWakeComplete (p : Nat) (s : State) : exec (.coreWakeComplete p) s = execCoreWakeComplete p s := rfl
theorem exec_knownAnswerTestComplete (p : Nat) (rows : List Nat) (s : State) :
    exec (.knownAnswerTestComplete p rows) s = execKnownAnswerTestComplete p rows s := rfl
theorem exec_dieFail (d : Nat) (s : State) : exec (.dieFail d) s = execDieFail d s := rfl
theorem exec_spareSubstitution (l : Nat) (s : State) : exec (.spareSubstitution l) s = execSpareSubstitution l s := rfl

theorem State.inst_modInst_self (s : State) (n : Nat) (f : Instance → Instance) : (s.modInst n f).inst n = f (s.inst n) :=
  s.inst_setInst_self n _
theorem State.inst_modInst_other (s : State) {n m : Nat} (f : Instance → Instance) (h : m ≠ n) : (s.modInst n f).inst m = s.inst m :=
  s.inst_setInst_other _ h

/-- The lock's word as a run-out lease leaves it. -/
def State.lockBroken (s : State) (r : Reg) : State :=
  ((s.setF r CORE_CQ_LOCK.STATE 2).setF r CORE_CQ_LOCK.LAST (s.getF r CORE_CQ_LOCK.OWNER)).setF r CORE_CQ_LOCK.OWNER 0

theorem State.lockBroken_shows (s : State) (r : Reg) : (s.lockBroken r).getF r CORE_CQ_LOCK.STATE = 2 ∧
    (s.lockBroken r).getF r CORE_CQ_LOCK.LAST = s.getF r CORE_CQ_LOCK.OWNER ∧ (s.lockBroken r).getF r CORE_CQ_LOCK.OWNER = 0 ∧
    (∀ q, q ≠ r → (s.lockBroken r).reg q = s.reg q) ∧ s.lockBroken r = { s with regs := (s.lockBroken r).regs } := by
  have howner : s.getF r CORE_CQ_LOCK.OWNER < 256 := Fld.get_lt _ _
  unfold State.lockBroken
  refine ⟨?_, ?_, State.getF_setF_self _ _ _ _ (by decide) (by decide), fun q hq => ?_, rfl⟩
  · rw [State.getF_setF_other _ _ _ _ _ (by decide) (by decide) (by decide) (by decide),
      State.getF_setF_other _ _ _ _ _ (by decide) (by decide) (by decide) (by decide), State.getF_setF_self _ _ _ _ (by decide) (by decide)]
    rfl
  · rw [State.getF_setF_other _ _ _ _ _ (by decide) (by decide) (by decide) (by decide), State.getF_setF_self _ _ _ _ (by decide) (by decide)]
    exact Nat.mod_eq_of_lt howner
  · rw [State.reg_setF_other _ _ _ hq, State.reg_setF_other _ _ _ hq, State.reg_setF_other _ _ _ hq]

/-- The instance and its register as a fixed lease ends. -/
def Instance.unfixed (x : Instance) : Instance := { x with fixedLeft := none, fixedTerm := 0 }
def State.fixedEnded (s : State) (n : Nat) : State := (s.modInst n Instance.unfixed).setF (.iwState n) IW_STATE.FIXED 0

theorem State.inst_fixedEnded_self (s : State) (n : Nat) : (s.fixedEnded n).inst n = (s.inst n).unfixed := s.inst_modInst_self n _
theorem State.inst_fixedEnded_other (s : State) {n m : Nat} (h : m ≠ n) : (s.fixedEnded n).inst m = s.inst m := s.inst_modInst_other _ h

theorem State.fixedEnded_rest (s : State) (n : Nat) :
    s.fixedEnded n = { s with insts := (s.fixedEnded n).insts, regs := (s.fixedEnded n).regs } := rfl

/-- A core of a fixed lease that ends: its holder's work is discarded, and a take-over to the same holder begins. -/
def State.fixedOne (n : Nat) (s : State) (l : Nat) : State :=
  match s.slotOf l with
  | some p =>
    if s.role p = 3 ∧ s.getF (.coreCqPlan p) CORE_CQ_PLAN.OWNER = n then
      ((s.setF (.coreCqPlan p) CORE_CQ_PLAN.ROLE 2).discard p).startTake p
        { phase := .stopping, from_ := n, to_ := n, role := 3, since := s.gtc, spillAt := 0, slot := none, restore := none }
    else s
  | none => s

theorem execFixedLeaseEnd_eq (n : Nat) (s : State) : execFixedLeaseEnd n s =
    s.when (decide (1 ≤ n) && decide (n ≤ 64) && decide ((s.inst n).fixedLeft = some 0))
      ((s.inst n).lease.foldl (State.fixedOne n) (s.fixedEnded n)) := rfl

theorem State.fixedOne_of {s : State} {n l p : Nat} (hp : s.slotOf l = some p) (hr : s.role p = 3)
    (ho : s.getF (.coreCqPlan p) CORE_CQ_PLAN.OWNER = n) :
    s.fixedOne n l = ((s.setF (.coreCqPlan p) CORE_CQ_PLAN.ROLE 2).discard p).startTake p
      { phase := .stopping, from_ := n, to_ := n, role := 3, since := s.gtc, spillAt := 0, slot := none, restore := none } := by
  simp only [State.fixedOne, hp, hr, ho, and_self, if_true]

theorem fixedLeaseEnd_guard {s : State} {n : Nat} (h1 : 1 ≤ n) (h2 : n ≤ 64) (hf : (s.inst n).fixedLeft = some 0) :
    (decide (1 ≤ n) && decide (n ≤ 64) && decide ((s.inst n).fixedLeft = some 0)) = true := by
  rw [decide_eq_true h1, decide_eq_true h2, decide_eq_true hf]
  rfl

theorem fixedLeaseEnd_idle {s : State} {n : Nat} (hs : s.clocksStopped = false) (h1 : 1 ≤ n) (h2 : n ≤ 64)
    (hf : (s.inst n).fixedLeft = some 0) (hl : (s.inst n).lease = []) : exec (.fixedLeaseEnd n) s = .next (s.keep (s.fixedEnded n)) := by
  rw [exec_fixedLeaseEnd, execFixedLeaseEnd, hl]
  exact State.when_of hs (fixedLeaseEnd_guard h1 h2 hf)

/-- The borrow of a core is charged up to now: its account and its core alone change. -/
theorem State.heldToBoundary_keeps (s : State) (p : Nat) : (s.heldToBoundary p).regs = s.regs ∧ (s.heldToBoundary p).stackSet = s.stackSet ∧
    ∀ q, q ≠ p → (s.heldToBoundary p).core q = s.core q := by
  unfold State.heldToBoundary
  split
  · split
    · exact ⟨rfl, rfl, fun _ _ => rfl⟩
    · exact ⟨rfl, rfl, fun q hq => State.core_modCore_other _ _ hq⟩
  · exact ⟨rfl, rfl, fun _ _ => rfl⟩

theorem State.regs_trans {s u t : State} (h : u = { s with regs := u.regs }) (g : t = { u with regs := t.regs }) :
    t = { s with regs := t.regs } := by
  rw [h] at g
  exact g

theorem State.keep_of_regs {s t : State} (h : t = { s with regs := t.regs }) : s.keep t = t := by
  rw [h]
  rfl

/-- A core that has failed, and one that has woken. -/
def Core.failedZero (c : Core) : Core := { Core.zero with failed := true, nextId := c.nextId }
def Core.woken (c : Core) : Core :=
  { Core.zero with failed := c.failed, testing := c.testing, radioQ := c.radioQ, nextId := c.nextId }

theorem coreFailed_answers {s : State} {p : Nat} (hs : s.clocksStopped = false) (hp : p < 208) (hf : (s.core p).failed = false) :
    exec (.coreFailed p) s = .next (s.keep ((s.heldToBoundary p).setCore p (s.core p).failedZero)) :=
  (exec_coreFailed p s).trans (State.when_of hs (by rw [decide_eq_true hp, hf]; rfl))

theorem coreWakeComplete_answers {s : State} {p : Nat} (hs : s.clocksStopped = false) (hp : p < 208) (hw : (s.core p).waking = true) :
    exec (.coreWakeComplete p) s = .next (s.keep ((s.setCore p (s.core p).woken).spareRows p)) :=
  (exec_coreWakeComplete p s).trans (State.when_of hs (by rw [decide_eq_true hp, hw]; rfl))

/-- Showing the spare rows of a slot changes its four registers alone. -/
theorem State.spareRows_keeps (s : State) (p : Nat) : s.spareRows p = { s with regs := (s.spareRows p).regs } ∧
    ∀ r, (∀ k, r ≠ .coreMeSpare p k) → (s.spareRows p).reg r = s.reg r := by
  have hfold : ∀ (rows : List Nat) (l : List Nat) (t : State),
      let f := fun (s : State) (k : Nat) => match rows[k]? with
        | some r => (s.setF (.coreMeSpare p k) CORE_ME_SPARE.VALID 1).setF (.coreMeSpare p k) CORE_ME_SPARE.FROW r
        | none => s.resetReg (.coreMeSpare p k)
      l.foldl f t = { t with regs := (l.foldl f t).regs } ∧ ∀ r, (∀ k, r ≠ .coreMeSpare p k) → (l.foldl f t).reg r = t.reg r := by
    intro rows l
    induction l with
    | nil => exact fun t => ⟨rfl, fun _ _ => rfl⟩
    | cons k l ih =>
      intro t f
      have hstep : f t k = { t with regs := (f t k).regs } ∧ ∀ r, (∀ k, r ≠ .coreMeSpare p k) → (f t k).reg r = t.reg r := by
        simp only [f]
        cases rows[k]? with
        | none => exact ⟨rfl, fun r hr => State.reg_setReg_other _ _ (hr k)⟩
        | some x => exact ⟨rfl, fun r hr => (State.reg_setF_other _ _ _ (hr k)).trans (State.reg_setF_other _ _ _ (hr k))⟩
      obtain ⟨hrest, hreg⟩ := ih (f t k)
      rw [List.foldl_cons]
      exact ⟨State.regs_trans hstep.1 hrest, fun r hr => (hreg r hr).trans (hstep.2 r hr)⟩
  exact hfold _ _ s

/-! ### The known-answer test -/

/-- Rows that a test finds and the map does not hold yet. -/
def State.freshRows (s : State) (p : Nat) (rows : List Nat) : List Nat :=
  (rows.filter fun r => !s.boot.rows.any fun x => x.1 == p && x.2 == r).eraseDups

/-- A core that the test can reach, no work on it. -/
structure State.Testable (s : State) (p : Nat) : Prop where
  slot : p < 208
  powered : s.powered p = true
  waking : (s.core p).waking = false
  failed : (s.core p).failed = false
  residents : (s.core p).residents = []
  takeover : (s.core p).takeover = none
  borrow : (s.core p).borrow = none
  role : s.role p = 0
  brw : s.getF (.coreCqPlan p) CORE_CQ_PLAN.BRW = 0

theorem knownAnswerTest_answers {s : State} {p : Nat} {rows : List Nat} (hs : s.clocksStopped = false) (h : s.Testable p)
    (hr : ∀ r ∈ rows, r < 260) : ∃ u : State, s.Logged u ∧ exec (.knownAnswerTestComplete p rows) s = .next (s.keep
      (if (s.freshRows p rows).isEmpty then s.setCore p { s.core p with testing := false }
       else if 4 < (s.boot.rows.filter fun x => x.1 == p).length + (s.freshRows p rows).length then
         u.setCore p { s.core p with failed := true, testing := false }
       else ({ u with boot := { u.boot with rows := u.boot.rows ++ (s.freshRows p rows).map fun r => (p, r) } }.setCore p
         { s.core p with testing := true }).spareRows p)) := by
  refine ⟨_, ?_, (exec_knownAnswerTestComplete p rows s).trans (State.when_of hs ?_)⟩
  · generalize s.freshRows p rows = fresh
    have hfold : ∀ (all : Nat) (l : List Nat) (t : State), t.Logged (l.foldl (fun s r => s.event (srcDie (p / 26)) 1 0x04 (s.lcoreNo p) 0x7F
        (r + if 4 < all then 512 else 0)) t) := by
      intro all l
      induction l with
      | nil => exact fun t => .refl t
      | cons r l ih => exact fun t => (State.logged_event ..).trans (ih _)
    exact hfold _ _ s
  · have hall : (rows.all fun r => decide (r < 260)) = true := List.all_eq_true.2 fun r hm => decide_eq_true (hr r hm)
    rw [decide_eq_true h.slot, h.powered, h.waking, h.failed, h.residents, h.takeover, h.borrow, decide_eq_true h.role, decide_eq_true h.brw, hall]
    rfl

/-- A test of a core whose one found row is new. -/
theorem State.freshRows_single {s : State} {p r : Nat} (h : (p, r) ∉ s.boot.rows) : s.freshRows p [r] = [r] := by
  have hnone : (s.boot.rows.any fun x => x.1 == p && x.2 == r) = false := by
    rw [List.any_eq_false]
    rintro ⟨a, b⟩ hx hxy
    rw [Bool.and_eq_true, beq_iff_eq, beq_iff_eq] at hxy
    exact h (hxy.1 ▸ hxy.2 ▸ hx)
  rw [State.freshRows, List.filter_cons_of_pos (by rw [hnone]; rfl)]
  rfl

theorem State.domainOn_keep (s u : State) (d : Nat) : (s.keep u).domainOn d = u.domainOn d := rfl

/-- A new failed row: the core is tested again, or fails with its fifth. -/
theorem knownAnswerTest_finds {s : State} {p r : Nat} (hs : s.clocksStopped = false) (h : s.Testable p) (hr : r < 260)
    (hnew : (p, r) ∉ s.boot.rows) :
    ∃ t, exec (.knownAnswerTestComplete p [r]) s = .next t ∧ (∀ q, q ≠ p → t.core q = s.core q) ∧
      ((s.boot.rows.filter fun x => x.1 == p).length < 4 →
        t.core p = { s.core p with testing := true } ∧ t.boot.rows = s.boot.rows ++ [(p, r)]) ∧
      (4 ≤ (s.boot.rows.filter fun x => x.1 == p).length →
        t.core p = { s.core p with failed := true, testing := false } ∧ t.boot.rows = s.boot.rows) := by
  obtain ⟨u, hlog, hx⟩ := knownAnswerTest_answers (rows := [r]) hs h fun x hx => List.mem_singleton.1 hx ▸ hr
  rw [State.freshRows_single hnew, if_neg (by rw [List.isEmpty_cons]; exact Bool.false_ne_true), List.length_singleton] at hx
  have hboot : u.boot = s.boot := (congrArg State.boot hlog.rest).trans rfl
  by_cases hfew : (s.boot.rows.filter fun x => x.1 == p).length < 4
  · rw [if_neg (by omega), List.map_singleton] at hx
    obtain ⟨w, hw⟩ : ∃ w : State, ({ u with boot := { u.boot with rows := u.boot.rows ++ [(p, r)] } } : State) = w := ⟨_, rfl⟩
    have hwcores : w.cores = u.cores := by rw [← hw]
    have hwrows : w.boot.rows = s.boot.rows ++ [(p, r)] := by rw [← hw, ← hboot]
    rw [hw] at hx
    obtain ⟨hrest, _⟩ := (w.setCore p { s.core p with testing := true }).spareRows_keeps p
    have hcores : ((w.setCore p { s.core p with testing := true }).spareRows p).cores = (w.setCore p { s.core p with testing := true }).cores := by
      rw [hrest]
    have hrows : ((w.setCore p { s.core p with testing := true }).spareRows p).boot = w.boot := by
      rw [hrest]
      rfl
    refine ⟨_, hx, fun q hq => ?_, fun _ => ⟨?_, ?_⟩, fun h4 => absurd hfew (Nat.not_lt.2 h4)⟩
    · rw [State.core_keep, State.core_congr hcores, State.core_setCore_other _ _ hq, State.core_congr hwcores, hlog.core]
    · rw [State.core_keep, State.core_congr hcores, State.core_setCore_self]
    · rw [State.keep_boot, hrows, hwrows]
  · rw [if_pos (by omega)] at hx
    refine ⟨_, hx, fun q hq => ?_, fun hlt => absurd hlt hfew, fun _ => ⟨?_, ?_⟩⟩
    · rw [State.core_keep, State.core_setCore_other _ _ hq, hlog.core]
    · rw [State.core_keep, State.core_setCore_self]
    · exact congrArg BootState.rows hboot

/-! ### Spare slots -/

/-- The repair record of a substitution. -/
def State.repairRecord (s : State) (p l : Nat) : DevRec :=
  ⟨true, 0x8001, s.boot.rver, s.boot.flash.records.length, p, l :: (s.spareSlots (l / 24)).head?.toList⟩

theorem spareSubstitution_answers {s : State} {l p : Nat} (hs : s.clocksStopped = false) (hl : l < 192) (hp : s.slotOf l = some p)
    (hf : (s.core p).failed = true) (he : s.entry l = 0) (hlease : ∀ x ∈ s.insts, l ∉ x.2.lease)
    (hc : ∀ c ∈ s.cmds, c.phase = .running → l ∉ c.left) : ∃ u : State,
      (match (s.spareSlots (l / 24)).head? with
        | some q => ((s.setF (.gctlCmap l) GCTL_CMAP.SLOT q).setF (.gctlCmap l) GCTL_CMAP.SPARE 1).Logged u
        | none => (s.setF (.gctlCmap l) GCTL_CMAP.VALID 0).Logged u) ∧
      exec (.spareSubstitution l) s = .next (s.keep { u with boot := { u.boot with flash := { u.boot.flash with
        records := u.boot.flash.records ++ [s.repairRecord p l] } } }) := by
  rw [exec_spareSubstitution, execSpareSubstitution, hp]
  refine ⟨_, ?_, State.when_of hs ?_⟩
  · cases (s.spareSlots (l / 24)).head? with
    | none => exact State.logged_event ..
    | some q => exact State.logged_event ..
  · have h1 : (s.insts.any fun x => x.2.lease.contains l) = false :=
      List.any_eq_false.2 fun x hx h => hlease x hx (List.contains_iff_mem.1 h)
    have h2 : (s.cmds.any fun c => c.phase == .running && c.left.contains l) = false := List.any_eq_false.2 fun c hm h => by
      rw [Bool.and_eq_true, beq_iff_eq] at h
      exact hc c hm h.1 (List.contains_iff_mem.1 h.2)
    rw [h1, h2, hf, decide_eq_true hl, decide_eq_true he]
    rfl

/-- The slot that a logical core's entry of the core map names. -/
theorem State.slotOf_of {s : State} {l p : Nat} (h : s.slotOf l = some p) :
    l < 192 ∧ s.getF (.gctlCmap l) GCTL_CMAP.VALID = 1 ∧ s.getF (.gctlCmap l) GCTL_CMAP.SLOT = p := by
  unfold State.slotOf at h
  split at h
  case isTrue hc => exact ⟨hc.1, hc.2, Option.some.inj h⟩
  case isFalse => cases h

theorem State.spareSlots_lt {s : State} {d q : Nat} (hd : d < 8) (h : q ∈ s.spareSlots d) : q < 208 := by
  obtain ⟨k, hk, rfl⟩ := List.mem_map.1 (List.mem_filter.1 h).1
  have := List.mem_range.1 hk
  omega

/-- A failed slot's logical core passes to the lowest free spare slot of its die. -/
theorem spareSubstitution_passes {s : State} {l p q : Nat} {rest : List Nat} (hs : s.clocksStopped = false) (hl : l < 192)
    (hp : s.slotOf l = some p) (hf : (s.core p).failed = true) (he : s.entry l = 0) (hlease : ∀ x ∈ s.insts, l ∉ x.2.lease)
    (hc : ∀ c ∈ s.cmds, c.phase = .running → l ∉ c.left) (hq : s.spareSlots (l / 24) = q :: rest) :
    ∃ t, exec (.spareSubstitution l) s = .next t ∧ t.slotOf l = some q ∧ t.getF (.gctlCmap l) GCTL_CMAP.SPARE = 1 ∧ t.cores = s.cores ∧
      (∀ r, r ≠ .gctlCmap l → r ≠ .gctlElogLost → t.reg r = s.reg r) ∧
      ∃ x, t.boot.flash.records = s.boot.flash.records ++ [x] ∧ x.type = 0x8001 ∧ x.subject = p ∧ x.body = [l, q] := by
  obtain ⟨u, hlog, hx⟩ := spareSubstitution_answers hs hl hp hf he hlease hc
  obtain ⟨_, hvalid, _⟩ := State.slotOf_of hp
  have hq208 : q < 208 := State.spareSlots_lt (by omega) (hq ▸ List.mem_cons_self)
  have hhead : (s.spareSlots (l / 24)).head? = some q := by rw [hq]; rfl
  rw [hhead] at hlog
  have huvalid : u.getF (.gctlCmap l) GCTL_CMAP.VALID = 1 := by
    rw [hlog.getF _ Reg.noConfusion, State.getF_setF_other _ _ _ _ _ (by decide) (by decide) (by decide) (by decide),
      State.getF_setF_other _ _ _ _ _ (by decide) (by decide) (by decide) (by decide), hvalid]
  have huslot : u.getF (.gctlCmap l) GCTL_CMAP.SLOT = q := by
    rw [hlog.getF _ Reg.noConfusion, State.getF_setF_other _ _ _ _ _ (by decide) (by decide) (by decide) (by decide),
      State.getF_setF_self _ _ _ _ (by decide) (by decide)]
    exact Nat.mod_eq_of_lt (Nat.lt_trans hq208 (by decide))
  have huspare : u.getF (.gctlCmap l) GCTL_CMAP.SPARE = 1 :=
    (hlog.getF _ Reg.noConfusion).trans (State.getF_setF_self _ _ _ _ (by decide) (by decide))
  have hrecords : u.boot.flash.records = s.boot.flash.records := by
    rw [hlog.rest]
    rfl
  refine ⟨_, hx, ?_, huspare, (congrArg State.cores hlog.rest).trans rfl, fun r h1 h2 => ?_, s.repairRecord p l, ?_, rfl, rfl, ?_⟩
  · exact (if_pos ⟨hl, huvalid⟩).trans (congrArg some huslot)
  · exact (hlog.regs r h2).trans ((State.reg_setF_other _ _ _ h1).trans (State.reg_setF_other _ _ _ h1))
  · exact congrArg (· ++ [s.repairRecord p l]) hrecords
  · exact congrArg (fun o => l :: o.toList) hhead

/-! ### Failed cores leave the leases -/

/-- An instance without the failed cores. -/
def Instance.without (bad : List Nat) (x : Instance) : Instance :=
  { x with lease := x.lease.filter fun l => !bad.contains l, yielded := x.yielded.filter fun l => !bad.contains l }

/-- The failed cores leave the lease of one instance. -/
def State.leaseDropped (bad : List Nat) (s : State) (x : Nat × Instance) : State :=
  if x.2.lease.any bad.contains then (s.modInst x.1 (Instance.without bad)).showLease x.1 else s

theorem State.inst_showLease (s : State) (n m : Nat) : (s.showLease n).inst m = s.inst m := rfl

theorem State.rerunFor_nil (s : State) : s.rerunFor [] = s := rfl

/-- The images of failed cores are dropped. -/
def State.imagesKept (s : State) (bad : List Nat) : State :=
  { s with images := s.images.filter fun x => match x.2 with | some i => !bad.contains i.lcore | none => false }

theorem State.dropFailed_of_no_hit {s : State}
    (h : (s.cmds.filter fun c => c.phase == .running && c.left.any s.failedCores.contains) = []) :
    s.dropFailed = (s.insts.foldl (State.leaseDropped s.failedCores) s).imagesKept s.failedCores := by
  simp only [State.dropFailed, h, State.rerunFor_nil]
  rfl

theorem State.foldl_leaseDropped_idle (bad : List Nat) (l : List (Nat × Instance)) (s : State) (h : ∀ x ∈ l, x.2.lease = []) :
    l.foldl (State.leaseDropped bad) s = s := by
  induction l with
  | nil => rfl
  | cons x l ih =>
    have hx : s.leaseDropped bad x = s := by
      rw [State.leaseDropped, h x List.mem_cons_self]
      rfl
    rw [List.foldl_cons, hx]
    exact ih fun y hy => h y (List.mem_cons_of_mem _ hy)

theorem State.inst_leaseDropped_other (bad : List Nat) (s : State) {x : Nat × Instance} {n : Nat} (h : n ≠ x.1) :
    (State.leaseDropped bad s x).inst n = s.inst n := by
  unfold State.leaseDropped
  split
  · rw [State.inst_showLease, State.inst_modInst_other _ _ h]
  · rfl

theorem State.foldl_leaseDropped_other (bad : List Nat) {n : Nat} (l : List (Nat × Instance)) (s : State) (h : ∀ x ∈ l, n ≠ x.1) :
    (l.foldl (State.leaseDropped bad) s).inst n = s.inst n := by
  induction l generalizing s with
  | nil => rfl
  | cons x l ih =>
    rw [List.foldl_cons, ih _ fun y hy => h y (List.mem_cons_of_mem _ hy), State.inst_leaseDropped_other bad s (h x List.mem_cons_self)]

/-- The instance with a single entry, whose lease holds a failed core, loses them. -/
theorem State.foldl_leaseDropped_self (bad : List Nat) {n : Nat} {i : Instance} (hi : i.lease.any bad.contains = true)
    (l : List (Nat × Instance)) (s : State) (hf : SMap.find? l n = some i) (h1 : (l.filter fun x => x.1 == n).length = 1) :
    ((l.foldl (State.leaseDropped bad) s).inst n).lease = (s.inst n).lease.filter fun l => !bad.contains l := by
  induction l generalizing s with
  | nil => cases hf
  | cons x l ih =>
    rw [List.foldl_cons]
    by_cases hx : x.1 = n
    · have hxi : x.2 = i := by
        rw [SMap.find?, if_pos hx] at hf
        exact Option.some.inj hf
      have hrest : ∀ y ∈ l, n ≠ y.1 := by
        rw [List.filter_cons_of_pos (p := fun x : Nat × Instance => x.1 == n) (beq_iff_eq.2 hx), List.length_cons,
            Nat.add_eq_right, List.length_eq_zero_iff] at h1
        intro y hy e
        exact List.filter_eq_nil_iff.1 h1 y hy (beq_iff_eq.2 e.symm)
      have hstep : State.leaseDropped bad s x = (s.modInst n (Instance.without bad)).showLease n := by
        rw [State.leaseDropped, hxi, if_pos hi, hx]
      rw [State.foldl_leaseDropped_other bad l _ hrest, hstep, State.inst_showLease, State.inst_modInst_self]
      rfl
    · rw [SMap.find?, if_neg hx] at hf
      rw [List.filter_cons_of_neg (by rw [beq_iff_eq]; exact hx)] at h1
      rw [ih _ hf h1, State.inst_leaseDropped_other bad s (Ne.symm hx)]

/-- Settles O34: each event changes its core, its lock, its instance or its entry of the core map, and nothing else that the rule names. -/
theorem coresLeasesAndLocksEnd : Obligations.CoresLeasesAndLocksEnd := by
  refine ⟨?_, ?_, ?_, ?_, ?_, ?_, ?_, ?_, ?_, ?_, ?_⟩
  · intro s p n hs hp hn hst hnp hl
    obtain ⟨hstate, hlast, howner, hreg, hrest⟩ := s.lockBroken_shows (.coreCqLock p n)
    have hx := (exec_lockLeaseExpiry p n s).trans (State.when_of hs
      (by rw [decide_eq_true hp, decide_eq_true hn, decide_eq_true hst, decide_eq_true hnp, decide_eq_true hl]; rfl))
    exact ⟨_, hx.trans (congrArg Host.Outcome.next (State.keep_of_regs hrest)), hrest, hstate, hlast, howner, hreg⟩
  · intro s n hs h1 h2 hf hl
    have hkeep : s.keep (s.fixedEnded n) = s.fixedEnded n := by
      rw [s.fixedEnded_rest n]
      rfl
    have hx := fixedLeaseEnd_idle hs h1 h2 hf hl
    rw [hkeep] at hx
    refine ⟨_, hx, s.fixedEnded_rest n, ?_, State.getF_setF_self _ _ _ _ (by decide) (by decide), fun m hm => s.inst_fixedEnded_other hm,
      fun r hr => State.reg_setF_other _ _ _ hr⟩
    rw [s.inst_fixedEnded_self n]
    rfl
  · intro s n l p hs h1 h2 hf hl hp hrole howner
    have hreg (r : Reg) (f : Fld) (hr : r ≠ .iwState n) : (s.fixedEnded n).getF r f = s.getF r f := State.getF_setF_other_reg _ _ _ _ hr
    have hslot : (s.fixedEnded n).slotOf l = some p := by
      rw [State.slotOf, hreg _ _ Reg.noConfusion, hreg _ _ Reg.noConfusion]
      exact hp
    rw [exec_fixedLeaseEnd, execFixedLeaseEnd_eq, hl, State.when_of hs (fixedLeaseEnd_guard h1 h2 hf), List.foldl_cons, List.foldl_nil,
      State.fixedOne_of hslot ((hreg _ _ Reg.noConfusion).trans hrole) ((hreg _ _ Reg.noConfusion).trans howner)]
    rfl
  · intro s p hs hp hf
    obtain ⟨hregs, hstack, hother⟩ := s.heldToBoundary_keeps p
    refine ⟨_, coreFailed_answers hs hp hf, ?_, fun q hq => ?_, hregs, hstack⟩
    · rw [State.core_keep, State.core_setCore_self]
      rfl
    · rw [State.core_keep, State.core_setCore_other _ _ hq, hother q hq]
  · intro s p hs hp hw
    obtain ⟨hrest, hreg⟩ := (s.setCore p (s.core p).woken).spareRows_keeps p
    have hcore (q : Nat) : ((s.setCore p (s.core p).woken).spareRows p).core q = (s.setCore p (s.core p).woken).core q :=
      State.core_congr ((congrArg State.cores hrest).trans rfl) q
    have hself : ((s.setCore p (s.core p).woken).spareRows p).core p = (s.core p).woken := (hcore p).trans (State.core_setCore_self ..)
    obtain ⟨t, ht⟩ : ∃ t, (s.setCore p (s.core p).woken).spareRows p = t := ⟨_, rfl⟩
    have hx := coreWakeComplete_answers hs hp hw
    rw [ht] at hx hreg hcore hself
    refine ⟨_, hx, ?_, ?_, ?_, ?_, fun q hq => ?_, fun r hr => hreg r hr⟩
    · rw [State.core_keep, hself]; rfl
    · rw [State.core_keep, hself]; rfl
    · rw [State.core_keep, hself]; rfl
    · rw [State.core_keep, hself]; rfl
    · rw [State.core_keep, hcore, State.core_setCore_other _ _ hq]
  · intro s p hs hp hpow hw hf hres ht hb hrole hbrw
    have h : s.Testable p := ⟨hp, hpow, hw, hf, hres, ht, hb, hrole, hbrw⟩
    refine ⟨?_, fun r hr hnew => ?_⟩
    · obtain ⟨_, _, hx⟩ := knownAnswerTest_answers (rows := []) hs h nofun
      rw [if_pos (by rfl), (s.slotFrame_setCore p _).keep] at hx
      exact ⟨_, hx, s.slotFrame_setCore p _, s.core_setCore_self p _⟩
    · exact knownAnswerTest_finds hs h hr hnew
  · intro s d hs hd hon
    refine ⟨_, (exec_dieFail d s).trans (State.when_of hs (by rw [decide_eq_true hd, hon]; rfl)), ?_, rfl, rfl⟩
    exact (State.domainOn_keep ..).trans (State.domainOn_setDomain_self ..)
  · intro s l p q rest hs hl hp hf he hlease hc hq
    exact spareSubstitution_passes hs hl hp hf he hlease hc hq
  · intro s l p hs hl hp hf he hlease hc hq
    obtain ⟨u, hlog, hx⟩ := spareSubstitution_answers hs hl hp hf he hlease hc
    rw [hq] at hlog
    refine ⟨_, hx, ?_, (congrArg State.cores hlog.rest).trans rfl⟩
    refine if_neg fun h => ?_
    have hvalid : u.getF (.gctlCmap l) GCTL_CMAP.VALID = 0 :=
      (hlog.getF _ Reg.noConfusion).trans (State.getF_setF_self _ _ _ _ (by decide) (by decide))
    exact absurd (hvalid.symm.trans h.2) (by decide)
  · intro s himg hbad hlease
    have hhit : (s.cmds.filter fun c => c.phase == .running && c.left.any s.failedCores.contains) = [] := by
      rw [hbad]
      refine List.filter_eq_nil_iff.2 fun c _ h => ?_
      rw [Bool.and_eq_true, List.any_eq_true] at h
      obtain ⟨_, x, _, hx⟩ := h
      cases hx
    rw [State.dropFailed_of_no_hit hhit, State.foldl_leaseDropped_idle _ _ _ hlease, State.imagesKept, himg, List.filter_nil, ← himg]
  · intro s n hrun hany hfind hone
    have hhit : (s.cmds.filter fun c => c.phase == .running && c.left.any s.failedCores.contains) = [] :=
      List.filter_eq_nil_iff.2 fun c hc h => hrun c hc (beq_iff_eq.1 ((Bool.and_eq_true_iff).1 h).1)
    rw [State.dropFailed_of_no_hit hhit]
    exact State.foldl_leaseDropped_self _ hany s.insts s hfind hone

end Sys2Proof.Machine


namespace Sys2Proof.Machine

/-! # What writes to rings, to stacks and to the link leave -/

/-- t is s but for the registers, the log, the companion link, the rings and the stacks: a write of a ring's objects changes no more. -/
def State.Posts (s t : State) : Prop :=
  t = { s with regs := t.regs, log := t.log, ccl := t.ccl, rings := t.rings, stackSet := t.stackSet }

theorem State.Posts.refl (s : State) : s.Posts s := rfl

theorem State.Posts.trans {s t u : State} (h : s.Posts t) (g : t.Posts u) : s.Posts u := by
  unfold State.Posts at h g
  rw [h] at g
  exact g

theorem State.Posts.of_if {s t u : State} {c : Prop} [Decidable c] (h : s.Posts t) (g : s.Posts u) : s.Posts (if c then t else u) := by
  split
  · exact h
  · exact g

theorem State.Posts.foldl {α : Type} {f : State → α → State} (h : ∀ (s : State) a, s.Posts (f s a)) (l : List α) (s : State) :
    s.Posts (l.foldl f s) := by
  induction l generalizing s with
  | nil => exact .refl s
  | cons a l ih => exact (h s a).trans (ih _)

theorem State.Logged.posts {s t : State} (h : s.Logged t) : s.Posts t := by
  have hrest := h.rest
  have hccl : t.ccl = s.ccl := (congrArg State.ccl hrest).trans rfl
  have hrings : t.rings = s.rings := (congrArg State.rings hrest).trans rfl
  have hstack : t.stackSet = s.stackSet := (congrArg State.stackSet hrest).trans rfl
  unfold State.Posts
  rw [hccl, hrings, hstack]
  exact hrest

theorem State.posts_setF (s : State) (r : Reg) (f : Fld) (x : Nat) : s.Posts (s.setF r f x) := rfl
theorem State.posts_setReg (s : State) (r : Reg) (w : BitVec 64) : s.Posts (s.setReg r w) := rfl
theorem State.posts_modRing (s : State) (n r : Nat) (f : Ring → Ring) : s.Posts (s.modRing n r f) := rfl
theorem State.posts_setJournal (s : State) (j : Journal) : s.Posts (s.setJournal j) := rfl
theorem State.posts_uncache (s : State) (a : Nat) : s.Posts (s.uncache a) := rfl

theorem State.posts_of_ccl {s t : State} (h : t = { s with ccl := t.ccl }) : s.Posts t := by
  unfold State.Posts
  rw [h]

theorem State.posts_cclSend (s : State) (k : CclKind) (a : Nat) (bs : List Byte) (pu : CclPurpose) : s.Posts (s.cclSend k a bs pu) :=
  State.posts_of_ccl (s.cclSend_frame k a bs pu).1

theorem State.posts_paWrite (s : State) (pa : Nat) (bs : List Byte) : s.Posts (s.paWrite pa bs) := by
  unfold State.paWrite
  split
  · exact .refl s
  · rfl

theorem State.posts_mirrorLines (s : State) (pa pb n : Nat) : s.Posts (s.mirrorLines pa pb n) := by
  simp only [State.mirrorLines]
  refine State.Posts.trans (State.Posts.of_if (.refl s) ?_) (State.logged_note ..).posts
  rfl

theorem State.posts_stackWrite (s : State) (n a : Nat) (bs : List Byte) : s.Posts ((s.stackWrite n a bs).getD s) := by
  simp only [State.stackWrite]
  split
  · split
    · exact .refl s
    · exact s.posts_paWrite _ _
  · split
    · exact .refl s
    · have hmirror (a b c d : Nat) (p q : Prop) [Decidable p] [Decidable q] :
          s.Posts (if p then s.mirrorLines a b d else if q then s.mirrorLines b a c else s) :=
        .of_if (s.posts_mirrorLines ..) (.of_if (s.posts_mirrorLines ..) (.refl s))
      exact ((hmirror _ _ _ _ _ _).trans (State.posts_paWrite ..)).trans (State.posts_paWrite ..)

theorem State.posts_ringError (s : State) (n r err : Nat) : s.Posts (s.ringError n r err) := by
  simp only [State.ringError]
  refine .of_if (.refl s) ?_
  exact ((s.posts_setF _ _ _).trans (State.posts_setF ..)).trans (State.logged_event ..).posts

theorem State.posts_ringWrite (s : State) (n r ipa : Nat) (bs : List Byte) (pu : CclPurpose) : s.Posts (s.ringWrite n r ipa bs pu) := by
  unfold State.ringWrite
  split
  · exact s.posts_cclSend ..
  · exact s.posts_stackWrite ..
  · exact s.posts_ringError ..

theorem State.posts_retireRing (s : State) (n r : Nat) : s.Posts (s.retireRing n r) := rfl

theorem State.posts_statusAcked (s : State) (n r c line : Nat) : s.Posts (s.statusAcked n r c line) := rfl

theorem State.posts_msi (s : State) (v : Nat) : s.Posts (s.msi v) := .of_if (s.posts_setF ..) (s.posts_cclSend ..)

theorem State.posts_sendMsis (s : State) : s.Posts s.sendMsis := by
  simp only [State.sendMsis]
  refine State.Posts.trans ?_ (State.Posts.foldl (fun t (w : MsiWait) => t.posts_msi w.vec) _ _)
  rfl

theorem State.posts_statusLine (s : State) (n r : Nat) : s.Posts (s.statusLine n r) := by
  simp only [State.statusLine]
  have hwrite (u : State) (ipa : Nat) (bs : List Byte) (pu : CclPurpose) (h : s.Posts u) : s.Posts (u.ringWrite n r ipa bs pu) :=
    h.trans (u.posts_ringWrite ..)
  split
  · exact ((hwrite _ _ _ _ (s.posts_modRing ..)).trans (State.posts_statusAcked ..)).trans (State.posts_sendMsis _)
  · exact hwrite _ _ _ _ (s.posts_modRing ..)

theorem State.posts_fetchLine (s : State) (n r cplprod : Nat) (last : Bool) : s.Posts (s.fetchLine n r cplprod last) :=
  .of_if (s.posts_statusLine n r) (.refl s)

theorem State.posts_dropLines (s : State) (n r x : Nat) : s.Posts (s.dropLines n r x) := by
  unfold State.dropLines
  split
  · rfl
  · exact .refl s

end Sys2Proof.Machine


namespace Sys2Proof.Machine

/-! ## Descriptors -/

theorem exec_descriptorFetch (n r : Nat) (s : State) : exec (.descriptorFetch n r) s = execDescriptorFetch n r s := rfl
theorem exec_descriptorCheck (n r : Nat) (s : State) : exec (.descriptorCheck n r) s = execDescriptorCheck n r s := rfl
theorem exec_journalRecordDurable (comp : List Nat) (s : State) : exec (.journalRecordDurable comp) s = execJournalRecordDurable comp s := rfl
theorem exec_journalSlotFreed (s : State) : exec .journalSlotFreed s = execJournalSlotFreed s := rfl

/-- Requests of the next descriptors of a ring, all that it may fetch. -/
def State.requestAll (s : State) (n r : Nat) : State :=
  (List.range (s.fetchCount n r)).foldl (fun u i => u.requestDescr n r ((s.ring n r).next + i) (i + 1 == s.fetchCount n r)) s

/-- The fetch, once the watched line is known. -/
def State.fetched (s : State) (n r : Nat) : State :=
  if s.ringLive n r = false ∨ s.fetchCount n r = 0 then s
  else if s.journalRoom = false then
    if s.stackSet.journal.full then s else (s.setJournal { s.stackSet.journal with full := true }).journalNote s.journalStack 0
  else s.requestAll n r

theorem execDescriptorFetch_eq (n r : Nat) (s : State) : execDescriptorFetch n r s =
    s.when (decide (n ≤ 65) && decide (r < 64) && s.ringLive n r && s.cclUp && !(s.ring n r).enabling && (decide (n = 0) || s.cacheRoom 2)
      && !s.boot.warm && (decide (n = 0) || !s.boot.recover)) ((s.readOwnLine n r).fetched n r) := rfl

theorem State.readOwnLine_tenant (s : State) {n : Nat} (r : Nat) (h : 0 < n) : s.readOwnLine n r = s := if_neg (Nat.pos_iff_ne_zero.1 h)

/-- A fetch of a tenant's ring, or of the management and the device ring. -/
theorem descriptorFetch_answers {s : State} {n r : Nat} (hs : s.clocksStopped = false) (hn : 0 < n) (hn2 : n ≤ 65) (hr : r < 64)
    (hlive : s.ringLive n r = true) (hup : s.cclUp = true) (hen : (s.ring n r).enabling = false) (hw : s.boot.warm = false)
    (hrec : s.boot.recover = false) (hroom : s.cacheRoom 2 = true) : exec (.descriptorFetch n r) s = .next (s.keep (s.fetched n r)) := by
  rw [exec_descriptorFetch, execDescriptorFetch_eq, s.readOwnLine_tenant r hn]
  refine State.when_of hs ?_
  rw [decide_eq_true hn2, decide_eq_true hr, hlive, hup, hen, hw, hrec, hroom, Bool.or_true, Bool.not_false, Bool.or_true]
  rfl

theorem State.fetched_none {s : State} {n r : Nat} (h : s.fetchCount n r = 0) : s.fetched n r = s := if_pos (.inr h)

theorem State.fetched_some {s : State} {n r : Nat} (hlive : s.ringLive n r = true) (h : 0 < s.fetchCount n r) (hj : s.journalRoom = true) :
    s.fetched n r = s.requestAll n r := by
  rw [State.fetched, if_neg (by rw [hlive]; exact fun h' => h'.elim (fun e => Bool.noConfusion e) fun e => absurd e (Nat.pos_iff_ne_zero.1 h)),
    if_neg (by rw [hj]; exact Bool.noConfusion)]

theorem State.fetched_full {s : State} {n r : Nat} (hlive : s.ringLive n r = true) (h : 0 < s.fetchCount n r) (hj : s.journalRoom = false)
    (hf : s.stackSet.journal.full = false) :
    (s.setJournal { s.stackSet.journal with full := true }).Logged (s.fetched n r) := by
  rw [State.fetched, if_neg (by rw [hlive]; exact fun h' => h'.elim (fun e => Bool.noConfusion e) fun e => absurd e (Nat.pos_iff_ne_zero.1 h)),
    if_pos hj, if_neg (by rw [hf]; exact Bool.noConfusion)]
  exact State.logged_note ..

/-! ### What a request asks for -/

/-- The ring with one more descriptor fetched. -/
def Ring.requested (y : Ring) (x : Nat) (last : Bool) (limit : Option Nat) : Ring :=
  { y with next := x + 1, fetched := y.fetched ++ [⟨x, none, none, last, false, 0, 0, limit⟩] }

theorem State.requestDescr_of {s : State} {n r x p q : Nat} (last : Bool) (hst : s.getF (ringRegs n r).status IW_RING_STATUS.STATE ≠ 3)
    (hp : s.ringPlace n (s.getF (ringRegs n r).cmdbase IW_RING_CMDBASE.ADDR * 64 + 128 * (x % 2 ^ s.ringL n r)) false = some (.comp p))
    (hq : s.ringPlace n (s.getF (ringRegs n r).cmdbase IW_RING_CMDBASE.ADDR * 64 + 128 * (x % 2 ^ s.ringL n r) + 64) false = some (.comp q)) :
    s.requestDescr n r x last = ((s.modRing n r fun y => y.requested x last (s.inst n).sizeLimit).cclSend .rdc p [] (.descriptor n r x)).cclSend
      .rdc q [] (.descriptor n r x) := by
  simp only [State.requestDescr, if_neg hst, hp, hq]
  rfl

/-- Two transactions go out for a descriptor, one for each half. -/
theorem State.requestDescr_sends {s : State} {n r x p q : Nat} (last : Bool) (hst : s.getF (ringRegs n r).status IW_RING_STATUS.STATE ≠ 3)
    (hp : s.ringPlace n (s.getF (ringRegs n r).cmdbase IW_RING_CMDBASE.ADDR * 64 + 128 * (x % 2 ^ s.ringL n r)) false = some (.comp p))
    (hq : s.ringPlace n (s.getF (ringRegs n r).cmdbase IW_RING_CMDBASE.ADDR * 64 + 128 * (x % 2 ^ s.ringL n r) + 64) false = some (.comp q)) :
    ∃ a b, (s.requestDescr n r x last).ccl.out =
        s.ccl.out ++ [⟨.rdc, p, [], a, .descriptor n r x⟩, ⟨.rdc, q, [], b, .descriptor n r x⟩] ∧
      (s.requestDescr n r x last).ring n r = (s.ring n r).requested x last (s.inst n).sizeLimit ∧
      (s.requestDescr n r x last).regs = s.regs ∧ (s.requestDescr n r x last).cores = s.cores := by
  rw [State.requestDescr_of last hst hp hq]
  generalize hu : s.modRing n r (fun y => y.requested x last (s.inst n).sizeLimit) = u
  have hring : u.ring n r = (s.ring n r).requested x last (s.inst n).sizeLimit := by rw [← hu]; exact s.ring_modRing_self n r _
  obtain ⟨hout, hregs, hcores⟩ : u.ccl.out = s.ccl.out ∧ u.regs = s.regs ∧ u.cores = s.cores := by rw [← hu]; exact ⟨rfl, rfl, rfl⟩
  obtain ⟨hframe1, hout1⟩ := u.cclSend_frame .rdc p [] (.descriptor n r x)
  generalize hv : u.cclSend .rdc p [] (.descriptor n r x) = v at hframe1 hout1
  obtain ⟨hframe2, hout2⟩ := v.cclSend_frame .rdc q [] (.descriptor n r x)
  generalize v.cclSend .rdc q [] (.descriptor n r x) = w at hframe2 hout2
  refine ⟨u.cclOutPort p, v.cclOutPort q, ?_, ?_, ?_, ?_⟩
  · rw [hout2, hout1, hout, List.append_assoc]
    rfl
  · rw [hframe2, hframe1]
    exact hring
  · rw [hframe2, hframe1]
    exact hregs
  · rw [hframe2, hframe1]
    exact hcores

/-! ### The check -/

theorem State.dropLines_frame (s : State) (n r x : Nat) : s.dropLines n r x = { s with ccl := (s.dropLines n r x).ccl } ∧
    (s.dropLines n r x).ccl.out = s.ccl.out := by
  unfold State.dropLines
  split
  · exact ⟨rfl, rfl⟩
  · exact ⟨rfl, rfl⟩

/-- The ring with a descriptor checked. -/
def Ring.checked (x : Ring) (ridx cause tag step : Nat) : Ring :=
  { x with
    prevStep := if cause = 0 then some step else x.prevStep
    fetched := x.fetched.map fun f => if f.ridx = ridx then { f with checked := true, tag := tag, step := step } else f }

/-- The state with an instance's descriptor checked, its lines out of the cache. -/
def State.descrChecked (s : State) (n r cause : Nat) (f : Fetched) (bs : List Byte) : State :=
  (s.setRing n r ((s.ring n r).checked f.ridx cause (fieldAt bs 8 8) (fieldAt bs 16 8))).dropLines n r f.ridx

theorem State.descrChecked_frame (s : State) (n r cause : Nat) (f : Fetched) (bs : List Byte) :
    s.descrChecked n r cause f bs = { s with rings := (s.descrChecked n r cause f bs).rings, ccl := (s.descrChecked n r cause f bs).ccl } ∧
      (s.descrChecked n r cause f bs).ccl.out = s.ccl.out ∧ (s.descrChecked n r cause f bs).stackSet = s.stackSet := by
  unfold State.descrChecked
  generalize hu : s.setRing n r ((s.ring n r).checked f.ridx cause (fieldAt bs 8 8) (fieldAt bs 16 8)) = u
  obtain ⟨hframe, hout⟩ := u.dropLines_frame n r f.ridx
  have hrest : u = { s with rings := u.rings } := by rw [← hu]; rfl
  have hccl : u.ccl = s.ccl := by rw [← hu]; rfl
  have hstack : u.stackSet = s.stackSet := by rw [← hu]; rfl
  refine ⟨?_, hout.trans (congrArg CclState.out hccl), ((congrArg State.stackSet hframe).trans rfl).trans hstack⟩
  have hrings : (u.dropLines n r f.ridx).rings = u.rings := (congrArg State.rings hframe).trans rfl
  rw [hrings]
  generalize u.dropLines n r f.ridx = v at hframe
  rw [hrest] at hframe
  exact hframe

theorem descriptorCheck_answers {s : State} {n r : Nat} {f : Fetched} {lo hi : List Byte} (hs : s.clocksStopped = false) (hn : n < 65)
    (hr : r < 64) (hj : s.journalRoom = true) (hf : (s.ring n r).fetched.find? (fun f => !f.checked) = some f) (hlo : f.lo = some lo)
    (hhi : f.hi = some hi) : exec (.descriptorCheck n r) s = .next (s.keep
      (if s.checkDescr n r f.limit (lo ++ hi) = 0 then (s.descrChecked n r (s.checkDescr n r f.limit (lo ++ hi)) f (lo ++ hi)).journalPut .accept 0
          ⟨n, r, f.ridx⟩ (fieldAt (lo ++ hi) 16 8) (lo ++ hi)
        else (s.descrChecked n r (s.checkDescr n r f.limit (lo ++ hi)) f (lo ++ hi)).journalPut .reject (s.checkDescr n r f.limit (lo ++ hi))
          ⟨n, r, f.ridx⟩ (fieldAt (lo ++ hi) 16 8) [])) := by
  obtain ⟨ridx, flo, fhi, last, checked, tag, step, limit⟩ := f
  obtain rfl : flo = some lo := hlo
  obtain rfl : fhi = some hi := hhi
  rw [exec_descriptorCheck, execDescriptorCheck, hf]
  simp only [if_pos hn]
  exact State.when_of hs (by rw [decide_eq_true hr, hj]; rfl)

/-- A record that joins the journal. -/
def Journal.newRec (j : Journal) (req : Nat) (kind : JKind) (cause : Nat) (k : CmdKey) (step : Nat) (body : List Byte) : JRec :=
  { seq := j.next, req := req, kind := kind, cause := cause, inst := k.inst, ring := k.ring, ridx := k.ridx, gtc := 0, step := step,
    body := body, written := false, durable := false, retired := false, reply := [] }

theorem State.journalPut_shows (s : State) (kind : JKind) (cause : Nat) (k : CmdKey) (step : Nat) (body : List Byte) :
    s.journalPut kind cause k step body = { s with stackSet := (s.journalPut kind cause k step body).stackSet } ∧
      (s.journalPut kind cause k step body).stackSet.journal.recs = s.stackSet.journal.recs ++
        [s.stackSet.journal.newRec (s.stackSet.nextReq + 1) kind cause k step body] := ⟨rfl, rfl⟩

/-- A descriptor of the management or the device ring that is checked. -/
def State.requestTakenFrom (s : State) (r ridx : Nat) : State :=
  (s.setRing 65 r { s.ring 65 r with fetched := (s.ring 65 r).fetched.filter fun f => f.ridx != ridx, cmdcons := ridx + 1 }).dropLines 65 r ridx

/-- The request reaches Grizor, or is refused. -/
def State.requestQueued (s : State) (r ridx : Nat) (bs : List Byte) : State :=
  let s1 := s.requestTakenFrom r ridx
  if r = 0 then
    (if mgmtMalformed bs then s1.mgmtReply ridx (fieldAt bs 8 8) 2 1 else { s1 with mgmtQ := s1.mgmtQ ++ [⟨ridx, bs⟩] })
  else if devMalformed bs then s1.postCompletion ⟨65, 1, ridx⟩ ⟨fieldAt bs 8 8, 2, 1, 0, 0, 0, 0, 0, none, s.gtc⟩ id
  else { s1 with devQ := s1.devQ ++ [⟨ridx, bs⟩] }

theorem descriptorCheck_request {s : State} {r : Nat} {f : Fetched} {lo hi : List Byte} (hs : s.clocksStopped = false) (hr : r < 2)
    (hf : (s.ring 65 r).fetched.find? (fun f => !f.checked) = some f) (hlo : f.lo = some lo) (hhi : f.hi = some hi) : ∃ b : Bool,
    exec (.descriptorCheck 65 r) s = .next (s.keep (if b = true then (s.requestQueued r f.ridx (lo ++ hi)).statusLine 65 r
      else s.requestQueued r f.ridx (lo ++ hi))) := by
  obtain ⟨ridx, flo, fhi, last, checked, tag, step, limit⟩ := f
  obtain rfl : flo = some lo := hlo
  obtain rfl : fhi = some hi := hhi
  refine ⟨last && ((s.requestQueued r ridx (lo ++ hi)).ring 65 r).cplprod == (s.ring 65 r).cplprod, ?_⟩
  rw [exec_descriptorCheck, execDescriptorCheck, hf]
  simp only [if_neg (show ¬(65 < 65) by decide)]
  exact State.when_of hs (by rw [decide_eq_true hr]; rfl)

/-- A write of the management or the device ring goes to companion memory. -/
theorem State.ringWrite_stacks (s : State) (r ipa : Nat) (bs : List Byte) (pu : CclPurpose) :
    (s.ringWrite 65 r ipa bs pu).stackSet = s.stackSet := by
  have hplace : s.ringPlace 65 ipa true = some (.comp ipa) := if_pos (by decide)
  rw [State.ringWrite, hplace]
  exact (congrArg State.stackSet (s.cclSend_frame .wrl ipa bs pu).1).trans rfl

theorem State.statusLine_stacks (s : State) (r : Nat) : (s.statusLine 65 r).stackSet = s.stackSet := by
  simp only [State.statusLine]
  rw [if_neg (by decide), State.ringWrite_stacks]
  rfl

/-! ### Durable records -/

/-- The oldest record that is not durable becomes durable. -/
def State.recordDurable (s : State) (q : JRec) : State := (s.modJrec q.seq fun q => { q with durable := true }).journalBusy

section
variable {s : State} {q : JRec} {comp : List Nat} (hs : s.clocksStopped = false)
  (hq : s.stackSet.journal.recs.find? (fun q => !q.durable) = some q) (hw : q.written = true)
include hs hq hw

theorem journalRecordDurable_accept {f : Fetched} (hk : q.kind = .accept)
    (hf : (s.ring q.inst q.ring).fetched.find? (fun f => f.ridx == q.ridx && f.checked) = some f) :
    exec (.journalRecordDurable comp) s = .next (s.keep
      (((((s.recordDurable q).accepted q f.last).retireRing q.inst q.ring).finishReset q.inst).finishRemove q.inst)) := by
  rw [exec_journalRecordDurable, execJournalRecordDurable, hq]
  simp only [hf]
  rw [hk]
  exact State.when_of hs hw

theorem journalRecordDurable_reject {f : Fetched} (hk : q.kind = .reject)
    (hf : (s.ring q.inst q.ring).fetched.find? (fun f => f.ridx == q.ridx && f.checked) = some f) :
    exec (.journalRecordDurable comp) s = .next (s.keep
      (((((s.recordDurable q).rejected q f.tag f.last).retireRing q.inst q.ring).finishReset q.inst).finishRemove q.inst)) := by
  rw [exec_journalRecordDurable, execJournalRecordDurable, hq]
  simp only [hf]
  rw [hk]
  exact State.when_of hs hw

theorem journalRecordDurable_commit {c : Cmd} (hk : q.kind = .commit) (hc : s.cmd q.key.no = some c) (hp : c.phase = .ended) :
    exec (.journalRecordDurable comp) s = .next (s.keep
      (((((s.recordDurable q).committed c comp).retireRing q.inst q.ring).finishReset q.inst).finishRemove q.inst)) := by
  rw [exec_journalRecordDurable, execJournalRecordDurable, hq]
  simp only [hc]
  rw [hk]
  refine (State.when_of hs hw).trans ?_
  simp only [hp, if_true]
  rfl

end

/-! ### Accepted commands -/

/-- The command that an ACCEPT record makes. -/
def JRec.command (q : JRec) : Cmd :=
  { inst := q.inst, ring := q.ring, ridx := q.ridx, d := descrOf q.body, phase := .waiting, order := q.seq, cores := [], left := [], todo := [],
    fetched := 0, copied := 0, ovr := 0, rerun := 0, silent := false, flags := 0, result := 0, digests := [], folded := 0, peers := [],
    status := 0, cause := 0, waddr := none, word := none, saddr := none, atTrel := none }

/-- The state in which an accepted command waits, before its instance's state is looked at. -/
def State.commandAdded (s : State) (q : JRec) : State :=
  let opens := (descrOf q.body).stepb || (s.ring q.inst q.ring).stepStart.isNone
  let s := s.descrDone q.inst q.ring q.ridx
  let s := if opens then s.modRing q.inst q.ring fun x => { x with stepStart := some q.ridx } else s
  let kept := if opens then
      s.cmds.filter fun y => !(y.inst == q.inst && y.ring == q.ring && y.phase == .committed && decide (y.ridx < q.ridx))
    else s.cmds
  let s := { s with cmds := kept ++ [q.command] }
  if opens then s.retireRing q.inst q.ring else s

theorem State.commandAdded_cmds (s : State) (q : JRec) : q.command ∈ (s.commandAdded q).cmds := by
  simp only [State.commandAdded]
  split
  · exact List.mem_append_right _ (List.mem_singleton_self _)
  · exact List.mem_append_right _ (List.mem_singleton_self _)

theorem State.commandAdded_instState (s : State) (q : JRec) (n : Nat) : (s.commandAdded q).instState n = s.instState n := by
  simp only [State.commandAdded]
  split
  · rfl
  · rfl

theorem State.accepted_of {s : State} {q : JRec} (last : Bool)
    (h : q.inst = 0 ∨ s.instState q.inst ≠ stFAULTED ∧ s.instState q.inst ≠ stRESETTING ∧ s.instState q.inst ≠ stREMOVING) :
    s.accepted q last = (s.commandAdded q).fetchLine q.inst q.ring (s.ring q.inst q.ring).cplprod last := by
  have haccepted : s.accepted q last =
      (if q.inst = 0 then s.commandAdded q
        else if (s.commandAdded q).instState q.inst = stFAULTED then
          (s.commandAdded q).endCommand q.command.key.no 3 ((s.commandAdded q).getF (.iwFault q.inst) IW_FAULT.CLASS)
        else if (s.commandAdded q).instState q.inst = stRESETTING ∨ (s.commandAdded q).instState q.inst = stREMOVING then
          (s.commandAdded q).endCommand q.command.key.no 4 0
        else s.commandAdded q).fetchLine q.inst q.ring (s.ring q.inst q.ring).cplprod last := rfl
  rw [haccepted, s.commandAdded_instState]
  rcases h with h | ⟨h1, h2, h3⟩
  · rw [if_pos h]
  · rw [if_neg h1, if_neg (not_or.2 ⟨h2, h3⟩), ite_self]

/-- Settles O35: each command of the life of a descriptor is its own case of the model, and what it posts leaves the commands alone. -/
theorem descriptorsBecomeCommands : Obligations.DescriptorsBecomeCommands := by
  refine ⟨?_, ?_, ?_, ?_, ?_, fun s comp q f hs hq hw hk hf => journalRecordDurable_accept hs hq hw hk hf,
    fun s comp q f hs hq hw hk hf => journalRecordDurable_reject hs hq hw hk hf,
    fun s comp q c hs hq hw hk hc hp => journalRecordDurable_commit hs hq hw hk hc hp, ?_, ?_⟩
  · intro s n r hs hn hn2 hr hlive hup hen hw hrec hroom
    have hx := descriptorFetch_answers hs hn hn2 hr hlive hup hen hw hrec hroom
    refine ⟨fun h0 => ?_, fun hpos hj => ?_, fun hpos hj hfull => ?_⟩
    · rw [hx, State.fetched_none h0]
      rfl
    · rw [hx, State.fetched_some hlive hpos hj]
      rfl
    · have hlog := State.fetched_full hlive hpos hj hfull
      refine ⟨_, hx, ?_, (congrArg State.rings hlog.rest).trans rfl, (congrArg State.ccl hlog.rest).trans rfl⟩
      exact congrArg (fun x => x.journal.full) ((congrArg State.stackSet hlog.rest).trans rfl)
  · intro s r u hs hr hlive hup hen hw hulive hpos hj
    rw [exec_descriptorFetch, execDescriptorFetch_eq]
    refine (State.when_of hs ?_).trans ?_
    · rw [decide_eq_true hr, hlive, hup, hen, hw]
      rfl
    · rw [State.fetched_some hulive hpos hj]
      rfl
  · intro s n r x p q last _ hst hp hq t
    obtain ⟨a, b, hout, hring, hregs, hcores⟩ := State.requestDescr_sends last hst hp hq
    refine ⟨a, b, hout, ?_, ?_, hregs, hcores⟩
    · rw [hring]
      rfl
    · rw [hring]
      exact List.map_append
  · intro s n r f lo hi hs hn hr hj hf hlo hhi
    have hx := descriptorCheck_answers hs hn hr hj hf hlo hhi
    generalize s.checkDescr n r f.limit (lo ++ hi) = cause at hx ⊢
    obtain ⟨hframe, hout, hstack⟩ := s.descrChecked_frame n r cause f (lo ++ hi)
    generalize s.descrChecked n r cause f (lo ++ hi) = u at hx hframe hout hstack
    have hrest (k : JKind) (c : Nat) (b : List Byte) : s.keep (u.journalPut k c ⟨n, r, f.ridx⟩ (fieldAt (lo ++ hi) 16 8) b) = { s with
        rings := u.rings, ccl := u.ccl, stackSet := (u.journalPut k c ⟨n, r, f.ridx⟩ (fieldAt (lo ++ hi) 16 8) b).stackSet } := by
      rw [hframe]
      rfl
    have hrecs : u.stackSet.journal = s.stackSet.journal := by rw [hstack]
    by_cases hc : cause = 0
    · rw [if_pos hc] at hx
      refine ⟨_, u.stackSet.journal.newRec (u.stackSet.nextReq + 1) .accept 0 ⟨n, r, f.ridx⟩ (fieldAt (lo ++ hi) 16 8) (lo ++ hi), hx,
        hrest .., hout, ?_, congrArg Journal.next hrecs, rfl, rfl, rfl, rfl, rfl, rfl, (if_pos hc).symm, hc.symm, fun _ => rfl⟩
      exact congrArg (fun x : Journal => x.recs ++ _) hrecs
    · rw [if_neg hc] at hx
      refine ⟨_, u.stackSet.journal.newRec (u.stackSet.nextReq + 1) .reject cause ⟨n, r, f.ridx⟩ (fieldAt (lo ++ hi) 16 8) [], hx,
        hrest .., hout, ?_, congrArg Journal.next hrecs, rfl, rfl, rfl, rfl, rfl, rfl, (if_neg hc).symm, rfl, fun h => absurd h hc⟩
      exact congrArg (fun x : Journal => x.recs ++ _) hrecs
  · intro s r f lo hi hs hr hf hlo hhi
    obtain ⟨b, hx⟩ := descriptorCheck_request hs hr hf hlo hhi
    have hend : (if b = true then (s.requestQueued r f.ridx (lo ++ hi)).statusLine 65 r else s.requestQueued r f.ridx (lo ++ hi)).mgmtQ =
          (s.requestQueued r f.ridx (lo ++ hi)).mgmtQ ∧
        (if b = true then (s.requestQueued r f.ridx (lo ++ hi)).statusLine 65 r else s.requestQueued r f.ridx (lo ++ hi)).devQ =
          (s.requestQueued r f.ridx (lo ++ hi)).devQ ∧
        (if b = true then (s.requestQueued r f.ridx (lo ++ hi)).statusLine 65 r else s.requestQueued r f.ridx (lo ++ hi)).stackSet =
          (s.requestQueued r f.ridx (lo ++ hi)).stackSet := by
      split
      · have hposts := (s.requestQueued r f.ridx (lo ++ hi)).posts_statusLine 65 r
        exact ⟨(congrArg State.mgmtQ hposts).trans rfl, (congrArg State.devQ hposts).trans rfl, State.statusLine_stacks ..⟩
      · exact ⟨rfl, rfl, rfl⟩
    obtain ⟨hmgmt, hdev, hstack⟩ := hend
    have htaken := (s.setRing 65 r { s.ring 65 r with
      fetched := (s.ring 65 r).fetched.filter fun x => x.ridx != f.ridx, cmdcons := f.ridx + 1 }).dropLines_frame 65 r f.ridx
    have htmgmt : (s.requestTakenFrom r f.ridx).mgmtQ = s.mgmtQ := (congrArg State.mgmtQ htaken.1).trans rfl
    have htdev : (s.requestTakenFrom r f.ridx).devQ = s.devQ := (congrArg State.devQ htaken.1).trans rfl
    have htstack : (s.requestTakenFrom r f.ridx).stackSet = s.stackSet := (congrArg State.stackSet htaken.1).trans rfl
    refine ⟨fun h0 hgood => ?_, fun h1 hgood => ?_⟩
    · have hq : s.requestQueued r f.ridx (lo ++ hi) = { s.requestTakenFrom r f.ridx with
          mgmtQ := (s.requestTakenFrom r f.ridx).mgmtQ ++ [⟨f.ridx, lo ++ hi⟩] } := by
        simp only [State.requestQueued, if_pos h0, hgood, Bool.false_eq_true, if_false]
      refine ⟨_, hx, hmgmt.trans ((congrArg State.mgmtQ hq).trans (congrArg (· ++ [⟨f.ridx, lo ++ hi⟩]) htmgmt)),
        hdev.trans ((congrArg State.devQ hq).trans htdev), hstack.trans ((congrArg State.stackSet hq).trans htstack)⟩
    · have hq : s.requestQueued r f.ridx (lo ++ hi) = { s.requestTakenFrom r f.ridx with
          devQ := (s.requestTakenFrom r f.ridx).devQ ++ [⟨f.ridx, lo ++ hi⟩] } := by
        simp only [State.requestQueued, if_neg (show ¬r = 0 by omega), hgood, Bool.false_eq_true, if_false]
      refine ⟨_, hx, hdev.trans ((congrArg State.devQ hq).trans (congrArg (· ++ [⟨f.ridx, lo ++ hi⟩]) htdev)),
        hmgmt.trans ((congrArg State.mgmtQ hq).trans htmgmt), hstack.trans ((congrArg State.stackSet hq).trans htstack)⟩
  · intro s q last h
    refine ⟨q.command, ?_, rfl, rfl, rfl, rfl, rfl⟩
    rw [State.accepted_of last h]
    have hposts := (s.commandAdded q).posts_fetchLine q.inst q.ring (s.ring q.inst q.ring).cplprod last
    rw [(congrArg State.cmds hposts).trans rfl]
    exact s.commandAdded_cmds q
  · intro s q rest hs hrecs hret
    have hx := (exec_journalSlotFreed s).trans (State.when_of hs (by rw [hrecs]; exact hret))
    generalize hu : s.setJournal { s.stackSet.journal with recs := s.stackSet.journal.recs.dropWhile fun q => q.retired, full := false } = u at hx
    have hlog : u.Logged (if s.stackSet.journal.full = true then u.journalNote s.journalStack 1 else u) :=
      State.logged_if _ _ _ (State.logged_note ..)
    have hjournal : u.stackSet.journal.recs = rest.dropWhile (fun q => q.retired) ∧ u.stackSet.journal.full = false ∧ u.cores = s.cores ∧
        ∀ r, u.reg r = s.reg r := by
      rw [← hu, hrecs, List.dropWhile_cons_of_pos hret]
      exact ⟨rfl, rfl, rfl, fun _ => rfl⟩
    obtain ⟨t, ht⟩ : ∃ t, (if s.stackSet.journal.full = true then u.journalNote s.journalStack 1 else u) = t := ⟨_, rfl⟩
    rw [ht] at hx hlog
    obtain ⟨h1, h2, h3, h4⟩ := hjournal
    have hstack : t.stackSet = u.stackSet := (congrArg State.stackSet hlog.rest).trans rfl
    exact ⟨_, hx, (congrArg (fun x => x.journal.recs) hstack).trans h1, (congrArg (fun x => x.journal.full) hstack).trans h2,
      ((congrArg State.cores hlog.rest).trans rfl).trans h3, fun r hr => (hlog.regs r hr).trans (h4 r)⟩

end Sys2Proof.Machine


namespace Sys2Proof.Machine

/-! ## Kernels and copies begin -/

theorem exec_kernel (n r : Nat) (s : State) : exec (.kernel n r) s = execKernel n r s := rfl
theorem exec_synchronisedStart (n r : Nat) (s : State) : exec (.synchronisedStart n r) s = execSynchronisedStart n r s := rfl
theorem exec_copy (n r : Nat) (data comp : List Nat) (s : State) : exec (.copy n r data comp) s = execCopy n r data comp s := rfl

/-- The scalar registers of a kernel's arguments, the first in s1. -/
def argRegs (args : List Word) (k : Nat) (m : SMap Word) : SMap Word := (args.zipIdx k).foldl (fun m x => SMap.put 0 m (x.2 + 1) x.1) m

theorem argRegs_below (args : List Word) (k j : Nat) (m : SMap Word) (h : j ≤ k) : SMap.get 0 (argRegs args k m) j = SMap.get 0 m j := by
  induction args generalizing k m with
  | nil => rfl
  | cons x l ih =>
    refine (ih (k + 1) (SMap.put 0 m (k + 1) x) (by omega)).trans ?_
    exact SMap.get_put_other _ _ _ (by omega)

theorem argRegs_get (args : List Word) (k i : Nat) (m : SMap Word) (h : i < args.length) :
    some (SMap.get 0 (argRegs args k m) (k + i + 1)) = args[i]? := by
  induction args generalizing k i m with
  | nil => cases h
  | cons x l ih =>
    cases i with
    | zero =>
      refine congrArg some ((argRegs_below l (k + 1) (k + 1) _ (Nat.le_refl _)).trans ?_)
      exact SMap.get_put_self 0 m (k + 1) x
    | succ i =>
      have hi := ih (k + 1) i (SMap.put 0 m (k + 1) x) (Nat.lt_of_succ_lt_succ h)
      rw [show k + 1 + i + 1 = k + (i + 1) + 1 by omega] at hi
      exact hi

/-- The state of the core as the command's mode is loaded. -/
def State.modeLoaded (s : State) (p k : Nat) (c : Cmd) (l : Nat) : State :=
  (s.loadMode p k c).modCmd c.key.no fun x => { x with phase := .running, todo := x.todo.filter fun y => y != l }

theorem Core.setSide_keeps (c : Core) (k : Nat) (x : Side) : (c.setSide k x).threads = c.threads ∧ (c.setSide k x).sp = c.sp ∧
    (c.setSide k x).residents = c.residents := by
  unfold Core.setSide
  split <;> exact ⟨rfl, rfl, rfl⟩

theorem State.core_loadMode (s : State) (p k : Nat) (c : Cmd) (q : Nat) :
    (s.loadMode p k c).core q = if q = p then (s.core p).setSide k { (s.core p).side k with folded := 0 } else s.core q := by
  simp only [State.loadMode, State.core_modCore, State.core_setReg, State.core_setF]

theorem State.modeLoaded_keeps (s : State) (p k : Nat) (c : Cmd) (l : Nat) :
    ((s.modeLoaded p k c l).core p).threads = (s.core p).threads ∧ ((s.modeLoaded p k c l).core p).sp = (s.core p).sp ∧
      ((s.modeLoaded p k c l).core p).residents = (s.core p).residents ∧ ∀ q, q ≠ p → (s.modeLoaded p k c l).core q = s.core q := by
  have hself : (s.modeLoaded p k c l).core p = (s.core p).setSide k { (s.core p).side k with folded := 0 } :=
    (s.core_loadMode p k c p).trans (if_pos rfl)
  obtain ⟨h1, h2, h3⟩ := (s.core p).setSide_keeps k { (s.core p).side k with folded := 0 }
  rw [hself]
  exact ⟨h1, h2, h3, fun q hq => (s.core_loadMode p k c q).trans (if_neg hq)⟩

/-- The resident entry of a kernel on a core. -/
def State.kernelEntry (s : State) (p k : Nat) (c : Cmd) (b : KernelBody) : Resident :=
  { cmd := c.key.no, ctx := c.ctx, side := k, code := b.code, codeLen := b.codeLen, index := c.cores.findIdx fun x => x == s.lcoreNo p,
    count := c.cores.length, step := BitVec.ofNat 64 c.d.step, launch := none, nextSkein := c.cores.findIdx fun x => x == s.lcoreNo p,
    meFlags := 0, began := s.gtc, flags := 0, refused := false }

/-- The thread in which a kernel begins. -/
def kernelThread (c : Cmd) (b : KernelBody) (old : Thread) : Thread :=
  { Thread.idle with
    running := true, pc := b.code + b.entry, s := argRegs b.args 0 [], ctx := c.ctx, cmd := c.key.no, loads := old.leftover }

/-- The core on which a kernel has begun. -/
def Core.begun (q : Core) (t : Nat) (c : Cmd) (b : KernelBody) (r : Resident) : Core :=
  { q.setThread t (kernelThread c b (q.thread t)) with residents := q.residents ++ [r] }

/-- Without a launch there are no skeins to start. -/
theorem State.startSkeins_of_none {s : State} {p cmd : Nat} {r : Resident} (n : Nat) (h : (s.core p).resident cmd = some r)
    (hl : r.launch = none) : State.startSkeins n p cmd s = s := by
  cases n with
  | zero => rfl
  | succ n => simp only [State.startSkeins, h, hl]

theorem Core.resident_append {c : Core} {r : Resident} (h : c.resident r.cmd = none) :
    ({ c with residents := c.residents ++ [r] } : Core).resident r.cmd = some r := by
  have hnone : c.residents.find? (fun x => x.cmd == r.cmd) = none := h
  unfold Core.resident
  dsimp only
  rw [List.find?_append, hnone, Option.none_or, List.find?_cons_of_pos (p := fun x : Resident => x.cmd == r.cmd) (beq_self_eq_true _)]

theorem State.beginOn_kernel {s : State} {p k t : Nat} {c : Cmd} {b : KernelBody} (hb : c.d.body = .kernel b) (hl : c.d.launch = false)
    (hr : (s.core p).resident c.key.no = none) :
    s.beginOn p k t c = (s.modeLoaded p k c (s.lcoreNo p)).modCore p fun q => q.begun t c b (s.kernelEntry p k c b) := by
  obtain ⟨_, _, hres, _⟩ := s.modeLoaded_keeps p k c (s.lcoreNo p)
  have hfree : ((s.modeLoaded p k c (s.lcoreNo p)).core p).resident c.key.no = none := by
    rw [Core.resident, hres]
    exact hr
  have hbegun : s.beginOn p k t c = State.startSkeins 256 p c.key.no ((s.modeLoaded p k c (s.lcoreNo p)).modCore p fun q =>
      q.begun t c b (s.kernelEntry p k c b)) := by
    simp only [State.beginOn, hb, hl]
    rfl
  have hcore := (s.modeLoaded p k c (s.lcoreNo p)).core_modCore_self p fun q => q.begun t c b (s.kernelEntry p k c b)
  rw [hbegun]
  refine State.startSkeins_of_none (r := s.kernelEntry p k c b) 256 ?_ rfl
  rw [hcore]
  exact Core.resident_append (c := ((s.modeLoaded p k c (s.lcoreNo p)).core p).setThread t _) hfree

/-- Settles O36: the guards hold, and a kernel's beginning on a core writes one thread and one resident entry. -/
theorem kernelsAndCopiesBegin : Obligations.KernelsAndCopiesBegin := by
  refine ⟨?_, ?_, ?_, ?_, ?_⟩
  · intro s n r c0 hs hh hk hd hlen hst
    rw [exec_kernel, execKernel, hh]
    refine State.when_of hs ?_
    have hne : (s.starts (s.mapped c0)).isEmpty = false := List.isEmpty_eq_false_iff.2 hst
    rw [hk, hd, hlen, hne, beq_self_eq_true]
    rfl
  · intro s n r t c0 hs hh hk hd ht hph hlen hst
    rw [exec_synchronisedStart, execSynchronisedStart, hh]
    refine State.when_of hs ?_
    have hpast : s.duePast n r = true := by
      rw [State.duePast, hd]
      exact decide_eq_true ht
    have hkind : ((s.mapped c0).isKernel || (s.mapped c0).isCopy) = true := by rw [Bool.or_eq_true]; exact hk
    rw [hkind, hd, hpast, hph, hlen, hst, beq_self_eq_true, beq_self_eq_true]
    rfl
  · intro s p k t i c b hb hl hi hr u
    obtain ⟨hthreads, hsp, hres, hother⟩ := s.modeLoaded_keeps p k c (s.lcoreNo p)
    have hu : u = (s.modeLoaded p k c (s.lcoreNo p)).modCore p fun q => q.begun t c b (s.kernelEntry p k c b) := State.beginOn_kernel hb hl hr
    have hcore : u.core p = ((s.modeLoaded p k c (s.lcoreNo p)).core p).begun t c b (s.kernelEntry p k c b) := by
      rw [hu, State.core_modCore_self]
    have hthread (j : Nat) : (u.core p).thread j = if j = t then
        kernelThread c b (((s.modeLoaded p k c (s.lcoreNo p)).core p).thread t) else (s.core p).thread j := by
      have hold : ((s.modeLoaded p k c (s.lcoreNo p)).core p).thread j = (s.core p).thread j := by rw [Core.thread, hthreads]; rfl
      rw [hcore, ← hold]
      exact Core.thread_setThread ((s.modeLoaded p k c (s.lcoreNo p)).core p) t j
        (kernelThread c b (((s.modeLoaded p k c (s.lcoreNo p)).core p).thread t))
    have hself := (hthread t).trans (if_pos rfl)
    have harg := argRegs_get b.args 0 i [] hi
    rw [Nat.zero_add] at harg
    refine ⟨?_, ?_, ?_, ?_, fun j hj => (hthread j).trans (if_neg hj), ?_, fun q hq => ?_, s.kernelEntry p k c b, ?_, rfl, rfl, rfl, rfl⟩
    · rw [hself]; rfl
    · rw [hself]; rfl
    · rw [hself]; rfl
    · rw [hself]
      exact harg
    · rw [hcore]
      exact hsp
    · rw [hu, State.core_modCore_other _ _ hq, hother q hq]
    · rw [hcore]
      refine Core.resident_append (c := ((s.modeLoaded p k c (s.lcoreNo p)).core p).setThread t _) ?_
      exact (congrArg (fun l => l.find? fun x => x.cmd == c.key.no) hres).trans hr
  · intro s n r data comp c0 b x rest hs hh hb hph hd hlen hst
    rw [exec_copy, execCopy, hh]
    simp only [hb, hph, if_true, hst]
    exact State.when_of hs (by rw [hd, hlen]; rfl)
  · intro s n r p l data comp c0 b x rest hs hh hb hph hcores hslot hres hce hlt hroom
    rw [exec_copy, execCopy, hh]
    have hhead : ((s.mapped c0).cores.head?).bind s.slotOf = some p := by rw [hcores]; exact hslot
    simp only [hb, hph, if_false, hhead, hres]
    exact State.when_of hs (by rw [hce, decide_eq_true hlt, decide_eq_true hroom]; rfl)

end Sys2Proof.Machine


namespace Sys2Proof.Machine

/-! ## BARRIER, FENCE and SIGNAL -/

theorem exec_barrier (n r : Nat) (comp : List Nat) (s : State) : exec (.barrier n r comp) s = execBarrier n r comp s := rfl
theorem exec_barrierRelease (n r : Nat) (s : State) : exec (.barrierRelease n r) s = execBarrierRelease n r s := rfl
theorem exec_fence (n r : Nat) (s : State) : exec (.fence n r) s = execFence n r s := rfl
theorem exec_fenceComplete (n r : Nat) (s : State) : exec (.fenceComplete n r) s = execFenceComplete n r s := rfl
theorem exec_signal (n r : Nat) (comp : List Nat) (s : State) : exec (.signal n r comp) s = execSignal n r comp s := rfl

/-- Commands of a number after a change that keeps each command's key. -/
theorem State.mem_modCmd {s : State} {no : Nat} {f : Cmd → Cmd} {y : Cmd} (hy : y ∈ (s.modCmd no f).cmds) (hk : y.key.no = no) :
    ∃ x ∈ s.cmds, y = f x := by
  obtain ⟨x, hx, rfl⟩ := List.mem_map.1 hy
  by_cases hno : x.key.no = no
  · exact ⟨x, hx, if_pos hno⟩
  · rw [if_neg hno] at hk
    exact absurd hk hno

theorem State.cmd_modCmd {s : State} {no : Nat} {f : Cmd → Cmd} (hf : ∀ c, (f c).key = c.key) :
    (s.modCmd no f).cmd no = (s.cmd no).map f := by
  unfold State.cmd State.modCmd
  dsimp only
  generalize s.cmds = l
  induction l with
  | nil => rfl
  | cons c l ih =>
    rw [List.map_cons]
    by_cases hc : c.key.no = no
    · rw [if_pos hc, List.find?_cons_of_pos (p := fun c : Cmd => c.key.no == no) (by rw [hf, beq_iff_eq]; exact hc),
        List.find?_cons_of_pos (p := fun c : Cmd => c.key.no == no) (beq_iff_eq.2 hc)]
      rfl
    · rw [if_neg hc, List.find?_cons_of_neg (p := fun c : Cmd => c.key.no == no) (by rw [beq_iff_eq]; exact hc),
        List.find?_cons_of_neg (p := fun c : Cmd => c.key.no == no) (by rw [beq_iff_eq]; exact hc)]
      exact ih

/-! ### BARRIER -/

/-- The command as a BARRIER begins to hold its ring. -/
def State.barrierHeld (s : State) (b : BarrierBody) (c : Cmd) : Cmd :=
  { c with phase := .running, atTrel := if b.scope = 1 ∧ s.trel b ≤ s.tbValue 2 then some (s.tbState 2, false) else none }

section
variable {s : State} {n r : Nat} {comp : List Nat} {c : Cmd} {b : BarrierBody} (hs : s.clocksStopped = false) (hh : s.head n r = some c)
  (hb : c.d.body = .barrier b)
include hs hh hb

theorem barrier_answers (hp : c.phase = .waiting) (hd : s.duePast n r = true) :
    exec (.barrier n r comp) s = .next (s.keep (if b.waddr = 0 then (s.takeDue n r).modCmd c.key.no (s.barrierHeld b)
      else match ((s.takeDue n r).modCmd c.key.no (s.barrierHeld b)).xlate n b.waddr 8 false comp with
        | (.ok (.comp pa), s2) =>
          (s2.modCmd c.key.no fun c => { c with waddr := some pa, word := none }).cclSend .rds (pa / 64 * 64) [] (.barrierWord c.key)
        | (.ok _, s2) => s2.transFault c.ctx 4 0 b.waddr false 2 0xFF
        | (.held, _) => s
        | (.fault cause level addr, s2) => s2.transFault c.ctx cause level addr false 2 0xFF)) := by
  have hheld : (fun c : Cmd => { c with phase := .running, atTrel :=
      if (decide (b.scope = 1) && decide (s.trel b ≤ s.tbValue 2)) = true then some (s.tbState 2, false) else none }) = s.barrierHeld b := by
    funext c
    simp only [State.barrierHeld, Bool.and_eq_true, decide_eq_true_eq]
  rw [exec_barrier, execBarrier, hh]
  simp only [hb, hheld]
  exact State.when_of hs (by rw [hp, hd]; rfl)

theorem barrierRelease_plain (hp : c.phase = .running) (hm : s.barrierMet c b = true) (hsc : b.scope ≠ 1) :
    exec (.barrierRelease n r) s = .next (s.keep ((s.endCommand c.key.no 1 0).dropWord c)) := by
  rw [exec_barrierRelease, execBarrierRelease, hh]
  simp only [hb, if_neg hsc]
  exact State.when_of hs (by rw [hp, hm, decide_eq_true hsc]; rfl)

theorem barrierRelease_timed (hp : c.phase = .running) (hm : s.barrierMet c b = true) (hsc : b.scope = 1) (ht : s.trel b ≤ s.tbValue 2) :
    exec (.barrierRelease n r) s = .next (s.keep ((((s.barrierNotes c (s.trel b)).modRing n r fun x =>
      { x with due := some (s.gtc + 512) }).endCommand c.key.no 1 0).dropWord c)) := by
  rw [exec_barrierRelease, execBarrierRelease, hh]
  simp only [hb, if_pos hsc]
  exact State.when_of hs (by rw [hp, hm, decide_eq_true ht, Bool.or_true]; rfl)

end

theorem State.logged_barrierNotes (s : State) (c : Cmd) (t : Rat) : s.Logged (s.barrierNotes c t) := by
  simp only [State.barrierNotes]
  have hif (u : State) (p : Prop) [Decidable p] (a d e f g h : Nat) : u.Logged (if p then u else u.event a d e f g h) := by
    split
    · exact .refl u
    · exact u.logged_event ..
  exact (hif s _ _ _ _ _ _ _).trans (hif _ _ _ _ _ _ _ _)

/-- The end of a command changes the commands and the journal. -/
theorem State.endCommand_frame (s : State) (no status cause : Nat) : s.endCommand no status cause =
    { s with cmds := (s.endCommand no status cause).cmds, stackSet := (s.endCommand no status cause).stackSet } := by
  unfold State.endCommand
  split
  · rfl
  · split
    · rfl
    · rfl

theorem State.dropWord_frame (s : State) (c : Cmd) : s.dropWord c = { s with ccl := (s.dropWord c).ccl } := by
  unfold State.dropWord
  split
  · split
    · rfl
    · rfl
  · rfl

/-- A timed release of a barrier leaves the cores, and of the registers all but the count of lost records (R355). -/
theorem State.timedRelease_keeps {s u : State} (h : s.Logged u) {n r no status cause d : Nat} {c : Cmd} :
    let t := s.keep (((u.modRing n r fun x => { x with due := some d }).endCommand no status cause).dropWord c)
    (t.ring n r).due = some d ∧ t.cores = s.cores ∧ ∀ q, q ≠ .gctlElogLost → t.reg q = s.reg q := by
  obtain ⟨v, hv⟩ : ∃ v, (u.modRing n r fun x => { x with due := some d }) = v := ⟨_, rfl⟩
  have hend := v.endCommand_frame no status cause
  have hdrop := (v.endCommand no status cause).dropWord_frame c
  have hrings : ((v.endCommand no status cause).dropWord c).rings = v.rings := by
    rw [hdrop]
    exact (congrArg State.rings hend).trans rfl
  have hcores : ((v.endCommand no status cause).dropWord c).cores = v.cores := by
    rw [hdrop]
    exact (congrArg State.cores hend).trans rfl
  have hregs : ((v.endCommand no status cause).dropWord c).regs = v.regs := by
    rw [hdrop]
    exact (congrArg State.regs hend).trans rfl
  have hdue : (v.ring n r).due = some d := by rw [← hv, State.ring_modRing_self]
  rw [hv]
  refine ⟨(congrArg (fun m => (SMap.get Ring.empty m (ringKey n r)).due) hrings).trans hdue, hcores.trans ?_, fun q hq => ?_⟩
  · rw [← hv]
    exact (congrArg State.cores h.rest).trans rfl
  · have hu : v.reg q = u.reg q := by rw [← hv]; rfl
    exact (State.reg_congr hregs q).trans (hu.trans (h.regs q hq))

/-! ### FENCE -/

theorem fence_answers {s : State} {n r : Nat} {c : Cmd} {a b : Bool} (hs : s.clocksStopped = false) (hh : s.head n r = some c)
    (hb : c.d.body = .fence a b) (hp : c.phase = .waiting) (hd : s.duePast n r = true) :
    exec (.fence n r) s = .next (s.keep (if s.fenceMet n r a b = true
      then ((s.takeDue n r).modCmd c.key.no fun c => { c with phase := .running }).endCommand c.key.no 1 0
      else (s.takeDue n r).modCmd c.key.no fun c => { c with phase := .running })) := by
  rw [exec_fence, execFence, hh]
  simp only [hb]
  exact State.when_of hs (by rw [hp, hd]; rfl)

/-! ### SIGNAL -/

theorem State.endCommand_of {s : State} {no : Nat} {c : Cmd} (h : s.cmd no = some c) (hs : c.silent = false) (status cause : Nat) :
    (s.endCommand no status cause).cmds = (s.modCmd no fun c => { c with phase := .ended, status := status, cause := cause }).cmds := by
  simp only [State.endCommand, h, hs, Bool.false_eq_true, if_false]
  rfl

theorem State.signalRead_cmds {s : State} {c c1 : Cmd} {b : SignalBody} (w : Nat) (hb : c.d.body = .signal b)
    (hc : s.cmd c.key.no = some c1) (hs : c1.silent = false) : ∀ y ∈ (s.signalRead c w).cmds, y.key.no = c.key.no →
      y.result = (if b.op = 0 then b.sval else (w + b.sval) % 2 ^ 64) ∧ y.phase = .ended ∧ y.status = 1 := by
  intro y hy hk
  generalize hres : (if b.op = 0 then b.sval else (w + b.sval) % 2 ^ 64) = res
  have hread : s.signalRead c w = (s.modCmd c.key.no fun c => { c with result := res }).endCommand c.key.no 1 0 := by
    simp only [State.signalRead, hb, hres]
  have hcmd := State.cmd_modCmd (s := s) (no := c.key.no) (f := fun c => { c with result := res }) fun _ => rfl
  rw [hc, Option.map_some] at hcmd
  rw [hread, State.endCommand_of hcmd hs] at hy
  obtain ⟨x, hx, rfl⟩ := State.mem_modCmd hy hk
  obtain ⟨z, _, rfl⟩ := State.mem_modCmd (f := fun c => { c with result := res }) hx hk
  exact ⟨rfl, rfl, rfl⟩

section
variable {s : State} {n r : Nat} {comp : List Nat} {c : Cmd} {b : SignalBody} (hs : s.clocksStopped = false) (hh : s.head n r = some c)
  (hb : c.d.body = .signal b) (hp : c.phase = .waiting) (hd : s.duePast n r = true) (hg : s.signalling n = false)
include hs hh hb hp hd hg

theorem signal_answers : exec (.signal n r comp) s = .next (s.keep
      (match ((s.takeDue n r).modCmd c.key.no fun c => { c with phase := .running }).xlate n b.saddr 8 false comp with
        | (.ok (.comp pa), s2) =>
          (s2.modCmd c.key.no fun c => { c with waddr := some pa }).cclSend .rdc (pa / 64 * 64) [] (.signalRead c.key)
        | (.held, _) => s
        | (.ok (.stack a), s2) =>
          (match (s2.modCmd c.key.no fun c => { c with saddr := some a }).stackRead n a 8 with
          | (some bs, s3) => s3.signalRead c (leNat bs)
          | (none, s3) => s3.tearDown c.ctx 4 0xFF)
        | (.ok _, s2) => s2.transFault c.ctx 4 0 b.saddr false 2 0xFF
        | (.fault cause level addr, s2) => s2.transFault c.ctx cause level addr false 2 0xFF)) := by
  rw [exec_signal, execSignal, hh]
  simp only [hb]
  exact State.when_of hs (by rw [hp, hd, hg]; rfl)

end

/-- Settles O37: each command's answer is one match on its translation, and the end of a command writes its result. -/
theorem barriersFencesAndSignalsFollowTheirRules : Obligations.BarriersFencesAndSignalsFollowTheirRules := by
  refine ⟨?_, fun s n r c b hs hh hb hp hm hsc => barrierRelease_plain hs hh hb hp hm hsc, ?_, ?_, ?_, ?_,
    fun s c c1 b w hb hc hs _ => State.signalRead_cmds w hb hc hs⟩
  · intro s n r comp c b hs hh hb hp hd u
    have hu : (s.takeDue n r).modCmd c.key.no (s.barrierHeld b) = u := rfl
    have hx := barrier_answers (comp := comp) hs hh hb hp hd
    rw [hu] at hx
    refine ⟨fun h0 => ?_, fun a v h0 hv => ?_, fun cause level addr v h0 hv => ?_, fun a v h0 hv => ?_, fun v h0 hv => ?_⟩
    · rw [hx, if_pos h0]
    · simp only [if_neg h0, hv] at hx
      obtain ⟨hframe, hout⟩ := (v.modCmd c.key.no fun c => { c with waddr := some a, word := none }).cclSend_frame .rds (a / 64 * 64) []
        (.barrierWord c.key)
      refine ⟨_, _, hx, hout, fun y hy hk => ?_, (congrArg State.cores hframe).trans rfl, (congrArg State.regs hframe).trans rfl⟩
      rw [State.keep_cmds, (congrArg State.cmds hframe).trans rfl] at hy
      obtain ⟨x, _, rfl⟩ := State.mem_modCmd (s := v) (f := fun c => { c with waddr := some a, word := none }) hy hk
      exact ⟨rfl, rfl⟩
    · simp only [if_neg h0, hv] at hx
      exact hx
    · simp only [if_neg h0, hv] at hx
      exact hx
    · simp only [if_neg h0, hv] at hx
      exact hx
  · intro s n r c b hs hh hb hp hm hsc ht
    have hlog := s.logged_barrierNotes c (s.trel b)
    exact ⟨_, barrierRelease_timed hs hh hb hp hm hsc ht, State.timedRelease_keeps hlog⟩
  · intro s n r c a b hs hh hb hp hd t
    have hx := fence_answers hs hh hb hp hd
    refine ⟨fun h => ?_, fun h => ?_⟩
    · rw [hx, if_pos h]
    · rw [hx, if_neg (by rw [h]; exact Bool.false_ne_true)]
  · intro s n r c a b hs hh hb hp hm
    rw [exec_fenceComplete, execFenceComplete, hh]
    simp only [hb]
    exact State.when_of hs (by rw [hp, hm]; rfl)
  · intro s n r comp c b hs hh hb hp hd hg u
    have hu : ((s.takeDue n r).modCmd c.key.no fun c => { c with phase := .running }) = u := rfl
    have hx := signal_answers (comp := comp) hs hh hb hp hd hg
    rw [hu] at hx
    refine ⟨fun a v hv => ?_, fun a v w bs hv hw => ?_, fun a v w hv hw => ?_, fun cause level addr v hv => ?_, fun v hv => ?_⟩
    · simp only [hv] at hx
      obtain ⟨hframe, hout⟩ := (v.modCmd c.key.no fun c => { c with waddr := some a }).cclSend_frame .rdc (a / 64 * 64) []
        (.signalRead c.key)
      exact ⟨_, _, hx, hout, (congrArg State.cores hframe).trans rfl, (congrArg State.regs hframe).trans rfl⟩
    · simp only [hv, hw] at hx
      exact hx
    · simp only [hv, hw] at hx
      exact hx
    · simp only [hv] at hx
      exact hx
    · simp only [hv] at hx
      exact hx

end Sys2Proof.Machine


namespace Sys2Proof.Machine

/-! # Management requests

One request is answered with its cause, or takes its effect (R316): the two equations of `mgmt` for a request that is served. -/

theorem State.Serves.cause_eq {s : State} {n op : Nat} {q : Req} (h : s.Serves n op q) (c : Nat) :
    (if s.getF .mpBootstat MP_BOOTSTAT.STAGE = 7 then 2 else c) = c := if_neg (Nat.ne_of_lt h.until7)

theorem State.Serves.refused {s : State} {n op : Nat} {q : Req} (h : s.Serves n op q) {o : Bool} {cause : State → Req → Nat}
    {eff : State → Req → State} (hc : cause (s.dropReq q) q ≠ 0) :
    mgmt n op o cause eff s = .next (s.keep ((s.dropReq q).answer q (cause (s.dropReq q) q))) := by
  simp only [mgmt, h.next, h.cause_eq, if_pos hc]
  exact State.when_of h.clocks (by rw [h.serves, decide_eq_true h.from4, decide_eq_true (Nat.le_of_lt h.until7), decide_eq_true hc]; rfl)

theorem State.Serves.refused_with {s : State} {n op : Nat} {q : Req} (h : s.Serves n op q) {o : Bool} {cause : State → Req → Nat}
    {eff : State → Req → State} {k : Nat} (hc : cause (s.dropReq q) q = k) (hk : k ≠ 0) :
    mgmt n op o cause eff s = .next (s.keep ((s.dropReq q).answer q k)) := by
  subst hc
  exact h.refused hk

theorem State.Serves.runs {s : State} {n op : Nat} {q : Req} (h : s.Serves n op q) {cause : State → Req → Nat}
    {eff : State → Req → State} (hc : cause (s.dropReq q) q = 0) :
    mgmt n op true cause eff s = .next (s.keep (eff (s.dropReq q) q)) := by
  simp only [mgmt, h.next, h.cause_eq, hc]
  exact State.when_of h.clocks (by rw [h.serves, decide_eq_true h.from4, decide_eq_true (Nat.le_of_lt h.until7)]; rfl)

/-- In MAINT every request is answered with cause 2 (R507). -/
theorem mgmt_maint {s : State} {n op : Nat} {q : Req} {o : Bool} {cause : State → Req → Nat} {eff : State → Req → State}
    (hs : s.clocksStopped = false) (hq : s.nextReq n op = some q) (hg : s.mpServes = true)
    (h7 : s.getF .mpBootstat MP_BOOTSTAT.STAGE = 7) :
    mgmt n op o cause eff s = .next (s.keep ((s.dropReq q).answer q 2)) := by
  simp only [mgmt, hq, h7, if_true]
  exact State.when_of hs (by rw [hg]; rfl)

theorem exec_setw (n : Nat) (s : State) : exec (.setw n) s = execSetw n s := rfl
theorem exec_map (n : Nat) (s : State) : exec (.map n) s = execMap n s := rfl
theorem exec_unmap (n : Nat) (s : State) : exec (.unmap n) s = execUnmap n s := rfl
theorem exec_quiesce (n : Nat) (s : State) : exec (.quiesce n) s = execQuiesce n s := rfl
theorem exec_quiesceComplete (n : Nat) (s : State) : exec (.quiesceComplete n) s = execQuiesceComplete n s := rfl
theorem exec_resume (n : Nat) (s : State) : exec (.resume n) s = execResume n s := rfl
theorem exec_reset (n : Nat) (s : State) : exec (.reset n) s = execReset n s := rfl
theorem exec_remove (n : Nat) (s : State) : exec (.remove n) s = execRemove n s := rfl

/-! ### The state of an instance -/

theorem State.logged_setInstState (s : State) (n st : Nat) : (s.setF (.iwState n) IW_STATE.STATE st).Logged (s.setInstState n st) :=
  State.logged_event ..

theorem State.instState_setInstState (s : State) (n : Nat) {st : Nat} (h : st < 8) : (s.setInstState n st).instState n = st := by
  have hst := (s.logged_setInstState n st).getF IW_STATE.STATE (r := .iwState n) Reg.noConfusion
  rw [State.getF_setF_self _ _ _ _ (by decide) (by decide)] at hst
  exact hst.trans (Nat.mod_eq_of_lt h)

theorem State.reg_setInstState_other (s : State) (n st : Nat) {r : Reg} (h : r ≠ .iwState n) (hl : r ≠ .gctlElogLost) :
    (s.setInstState n st).reg r = s.reg r :=
  ((s.logged_setInstState n st).regs r hl).trans (State.reg_setF_other _ _ _ h)

/-! ### SETW -/

/-- The state after SETW has set weight and priority. -/
def State.setWeight (s : State) (n w p : Nat) : State := (s.setF (.wvWeight n) WV_WEIGHT.WEIGHT w).setF (.iwState n) IW_STATE.PRIO p

theorem State.setWeight_keeps (s : State) (n : Nat) {w p : Nat} (hw : w < 256) (hp : p < 8) :
    (s.setWeight n w p).getF (.wvWeight n) WV_WEIGHT.WEIGHT = w ∧ (s.setWeight n w p).getF (.iwState n) IW_STATE.PRIO = p ∧
      s.setWeight n w p = { s with regs := (s.setWeight n w p).regs } ∧
      ∀ r, r ≠ .wvWeight n → r ≠ .iwState n → (s.setWeight n w p).reg r = s.reg r := by
  refine ⟨?_, ?_, rfl, fun r h1 h2 => ?_⟩
  · rw [State.setWeight, State.getF_setF_other_reg _ _ _ _ Reg.noConfusion, State.getF_setF_self _ _ _ _ (by decide) (by decide)]
    exact Nat.mod_eq_of_lt hw
  · rw [State.setWeight, State.getF_setF_self _ _ _ _ (by decide) (by decide)]
    exact Nat.mod_eq_of_lt hp
  · rw [State.setWeight, State.reg_setF_other _ _ _ h2, State.reg_setF_other _ _ _ h1]

theorem State.rest_of_dropReq {s u : State} {q : Req} (h : u = { s.dropReq q with regs := u.regs }) :
    u = { s with regs := u.regs, mgmtQ := u.mgmtQ } := by
  rw [h]
  rfl

/-! ### MAP and UNMAP -/

theorem State.inst_setRegion_self (s : State) (n k : Nat) (r : Option RegionEnt) : (s.setRegion n k r).inst n =
    { s.inst n with regions := SMap.put none (s.inst n).regions k r, tlb := [], root := s.reg (.iwS1root n) } := by
  rw [State.setRegion, State.flushTlb, State.inst_modInst_self, State.inst_modInst_self]
  rfl

theorem State.setRegion_keeps (s : State) (n k : Nat) (r : Option RegionEnt) :
    (s.setRegion n k r).regs = s.regs ∧ (s.setRegion n k r).cores = s.cores ∧
      (s.setRegion n k r).inst n = { s.inst n with
        regions := ((s.setRegion n k r).inst n).regions, tlb := [], root := s.reg (.iwS1root n) } ∧
      (∀ i, SMap.get none ((s.setRegion n k r).inst n).regions i = if i = k then r else SMap.get none (s.inst n).regions i) ∧
      ∀ m, m ≠ n → (s.setRegion n k r).inst m = s.inst m := by
  refine ⟨rfl, rfl, ?_, fun i => ?_, fun m hm => ?_⟩
  · rw [s.inst_setRegion_self]
  · rw [s.inst_setRegion_self]
    exact SMap.get_put none _ k i r
  · exact (State.inst_modInst_other _ _ hm).trans (State.inst_modInst_other _ _ hm)

/-! ### RESUME and QUIESCE -/

/-- The start of one enabled ring that is held (R317). -/
def State.startRing (s : State) (n r : Nat) : State :=
  if s.ringEn n r ∧ s.getF (.iwRingStatus n r) IW_RING_STATUS.STATE = 2 then s.setF (.iwRingStatus n r) IW_RING_STATUS.STATE 1 else s

theorem State.startRing_on {s : State} {n r : Nat} (he : s.ringEn n r = true) (h2 : s.getF (.iwRingStatus n r) IW_RING_STATUS.STATE = 2) :
    (s.startRing n r).getF (.iwRingStatus n r) IW_RING_STATUS.STATE = 1 := by
  rw [State.startRing, if_pos ⟨he, h2⟩]
  exact State.getF_setF_self _ _ _ _ (by decide) (by decide)

theorem State.startRing_other (s : State) (n : Nat) {r : Nat} {q : Reg} (h : q ≠ .iwRingStatus n r) : (s.startRing n r).reg q = s.reg q := by
  unfold State.startRing
  split
  · exact State.reg_setF_other _ _ _ h
  · rfl

theorem State.startRing_started {s : State} {n k : Nat} (r : Nat) (h : s.getF (.iwRingStatus n k) IW_RING_STATUS.STATE = 1) :
    (s.startRing n r).getF (.iwRingStatus n k) IW_RING_STATUS.STATE = 1 := by
  by_cases hr : r = k
  · subst hr
    rw [State.startRing, if_neg fun h2 => absurd (h.symm.trans h2.2) (by decide)]
    exact h
  · exact (congrArg IW_RING_STATUS.STATE.get (s.startRing_other n fun e => hr (by injection e with _ e; exact e.symm))).trans h

theorem State.startRings_started {n k : Nat} (l : List Nat) {s : State} (h : s.getF (.iwRingStatus n k) IW_RING_STATUS.STATE = 1) :
    (l.foldl (fun s r => s.startRing n r) s).getF (.iwRingStatus n k) IW_RING_STATUS.STATE = 1 := by
  induction l generalizing s with
  | nil => exact h
  | cons r l ih => exact ih (State.startRing_started r h)

theorem State.startRings_other (n : Nat) {q : Reg} (h : ∀ r, q ≠ .iwRingStatus n r) (l : List Nat) (s : State) :
    (l.foldl (fun s r => s.startRing n r) s).reg q = s.reg q := by
  induction l generalizing s with
  | nil => rfl
  | cons r l ih => exact (ih _).trans (s.startRing_other n (h r))

theorem State.startRings_on {n k : Nat} (hn : n < 65) {l : List Nat} (hk : k ∈ l) {s : State} (he : s.ringEn n k = true)
    (h2 : s.getF (.iwRingStatus n k) IW_RING_STATUS.STATE = 2) :
    (l.foldl (fun s r => s.startRing n r) s).getF (.iwRingStatus n k) IW_RING_STATUS.STATE = 1 := by
  induction l generalizing s with
  | nil => exact absurd hk List.not_mem_nil
  | cons r l ih =>
    by_cases hr : r = k
    · subst hr
      exact State.startRings_started l (State.startRing_on he h2)
    · have hst : (s.startRing n r).reg (.iwRingStatus n k) = s.reg (.iwRingStatus n k) :=
        s.startRing_other n fun e => hr (by injection e with _ e; exact e.symm)
      have hctl : (s.startRing n r).reg (ringRegs n k).ctl = s.reg (ringRegs n k).ctl :=
        s.startRing_other n (by rw [ringRegs_window k hn]; exact Reg.noConfusion)
      have hen : (s.startRing n r).ringEn n k = true := (congrArg (fun w => IW_RING_CTL.EN.get w == 1) hctl).trans he
      exact ih ((List.mem_cons.1 hk).resolve_left fun e => hr e.symm) hen ((congrArg IW_RING_STATUS.STATE.get hst).trans h2)

theorem State.startRings_eq (s : State) (n : Nat) : s.startRings n = (List.range 64).foldl (fun s r => s.startRing n r) s := rfl

theorem State.posts_holdRings (s : State) (n : Nat) : s.Posts (s.holdRings n) :=
  State.Posts.foldl (fun s r => State.Posts.of_if (s.posts_setF (.iwRingStatus n r) IW_RING_STATUS.STATE 2) (.refl s)) _ _

theorem State.posts_stopFetch (s : State) (n : Nat) : s.Posts (s.stopFetch n) :=
  (s.posts_holdRings n).trans (State.Posts.foldl (fun s r => s.posts_modRing n r _) _ _)

theorem State.posts_setInstState (s : State) (n st : Nat) : s.Posts (s.setInstState n st) :=
  (s.posts_setF _ _ _).trans (s.logged_setInstState n st).posts

theorem State.Posts.cmds {s t : State} (h : s.Posts t) : t.cmds = s.cmds := by rw [h]
theorem State.Posts.cores {s t : State} (h : s.Posts t) : t.cores = s.cores := by rw [h]
theorem State.Posts.insts {s t : State} (h : s.Posts t) : t.insts = s.insts := by rw [h]

/-- A quiesced instance that has no command left: its state with the reply still to come. -/
theorem quiesceComplete_answers {s : State} {n : Nat} {w : MgmtWork} (hs : s.clocksStopped = false) (hw : (s.inst n).work = some w)
    (hop : w.op = .quiesce) (hc : ∀ c ∈ s.cmds, c.inst = n → c.phase = .committed ∧ s.signalOut c.key = false)
    (hf : ∀ r, r < 64 → (s.ring n r).fetched = []) : exec (.quiesceComplete n) s =
      .next (s.keep (((s.modInst n fun x => { x with work := none }).setInstState n stQUIESCED).mgmtReply w.ridx w.tag 1 0)) := by
  have hidle : (s.cmds.all fun c => c.inst != n || (c.phase == .committed && !s.signalOut c.key)) = true := by
    refine List.all_eq_true.2 fun c hmem => ?_
    by_cases hn : c.inst = n
    · obtain ⟨hp, ho⟩ := hc c hmem hn
      rw [hp, ho]
      exact Bool.or_true _
    · rw [bne_iff_ne.2 hn]
      rfl
  have hnone : ((List.range 64).all fun r => (s.ring n r).fetched.isEmpty) = true := by
    refine List.all_eq_true.2 fun r hr => ?_
    rw [hf r (List.mem_range.1 hr)]
    rfl
  rw [exec_quiesceComplete, execQuiesceComplete, hw]
  dsimp only
  exact State.when_of hs (by rw [hop, hidle, hnone]; rfl)

theorem fieldAt_byte_lt (bs : List Byte) (a : Nat) : fieldAt bs a 1 < 256 := by
  unfold fieldAt
  rcases bs.drop a with _ | ⟨b, l⟩
  · exact Nat.zero_lt_succ _
  · exact b.isLt

/-- Settles O38: the two equations of a served request, and what each effect leaves. -/
theorem managementRequestsTakeEffect : Obligations.ManagementRequestsTakeEffect := by
  refine ⟨?_, ?_, ?_, ?_, ?_, ?_, ?_⟩
  · intro s n q h
    rw [exec_setw, execSetw]
    refine ⟨fun ha => h.refused_with (if_pos ha) (by decide),
      fun ha hr => h.refused_with ((if_neg (ne_false_of_eq_true ha)).trans (if_pos hr)) (by decide), fun ha hp hw => ?_⟩
    obtain ⟨hw1, hp1, hrest, hregs⟩ := (s.dropReq q).setWeight_keeps n (fieldAt_byte_lt q.bytes 19) (Nat.lt_succ_of_le hp)
    have hx := h.runs (cause := fun s q => if s.allowed n [1, 2, 3, 4, 5, 6, 7] = false then 2 else if 7 < q.f 16 1 ∨ q.f 19 1 < 1 then 3 else 0)
      (eff := fun s q => (s.setWeight n (q.f 19 1) (q.f 16 1)).answer q 0)
      ((if_neg (ne_false_of_eq_true ha)).trans (if_neg (not_or.2 ⟨Nat.not_lt.2 hp, Nat.not_lt.2 hw⟩)))
    exact ⟨_, hx, hw1, hp1, State.rest_of_dropReq hrest, hregs⟩
  · intro s n q h
    rw [exec_map, execMap]
    obtain ⟨hregs, hcores, hinst, hget, hother⟩ := (s.dropReq q).setRegion_keeps n (q.f 16 1) (some (regionOf q))
    exact ⟨fun hc => h.refused hc, fun hc => ⟨_, h.runs hc, hregs, hcores, hinst, hget, hother⟩⟩
  · intro s n q h
    rw [exec_unmap, execUnmap]
    obtain ⟨hregs, _, hinst, hget, _⟩ := (s.dropReq q).setRegion_keeps n (q.f 16 1) none
    refine ⟨fun ha hk => ?_, fun ha hk => h.refused_with ((if_neg (ne_false_of_eq_true ha)).trans (if_pos hk)) (by decide),
      fun ha => h.refused_with (if_pos ha) (by decide)⟩
    exact ⟨_, h.runs ((if_neg (ne_false_of_eq_true ha)).trans (if_neg (Nat.not_lt.2 hk))), hregs, hinst, hget⟩
  · intro s n q h
    rw [exec_quiesce, execQuiesce]
    refine ⟨fun ha => ?_, fun ha => h.refused_with (if_pos ha) (by decide)⟩
    have hx := h.runs (cause := fun s _ => if s.allowed n [stACTIVE] = false then 2 else 0)
      (eff := fun s q => ((s.stopFetch n).setInstState n stQUIESCING).begin_ n .quiesce q) (if_neg (ne_false_of_eq_true ha))
    have hposts := ((s.dropReq q).posts_stopFetch n).trans (State.posts_setInstState _ n stQUIESCING)
    have hst := ((s.dropReq q).stopFetch n).instState_setInstState n (st := stQUIESCING) (by decide)
    obtain ⟨u, hu⟩ : ∃ u, ((s.dropReq q).stopFetch n).setInstState n stQUIESCING = u := ⟨_, rfl⟩
    rw [hu] at hx hposts hst
    refine ⟨_, hx, hst, ?_, hposts.cmds, hposts.cores⟩
    exact congrArg Instance.work (u.inst_modInst_self n fun x => { x with work := some ⟨.quiesce, q.ridx, q.tag⟩ })
  · intro s n w hs hw hop hc hf
    obtain ⟨v, hv⟩ : ∃ v, (s.modInst n fun x => { x with work := none }) = v := ⟨_, rfl⟩
    have hinst : v.inst n = { s.inst n with work := none } := by rw [← hv, State.inst_modInst_self]
    have hx := quiesceComplete_answers hs hw hop hc hf
    have hposts := v.posts_setInstState n stQUIESCED
    have hu : (v.setInstState n stQUIESCED).inst n = v.inst n := congrArg (fun m => SMap.get Instance.absent m n) hposts.insts
    rw [hv] at hx
    refine ⟨_, hx, v.instState_setInstState n (by decide), ?_, ?_, hposts.cores.trans (by rw [← hv]; rfl)⟩
    · rw [hu, hinst]
    · rw [hu, hinst]
  · intro s n q h
    rw [exec_resume, execResume]
    refine ⟨fun ha => ?_, fun ha => h.refused_with (if_pos ha) (by decide)⟩
    have hn : n < 65 := by
      simp only [State.allowed, Bool.and_eq_true, decide_eq_true_eq] at ha
      omega
    obtain ⟨v, hv⟩ : ∃ v, (s.dropReq q).setInstState n stACTIVE = v := ⟨_, rfl⟩
    have hreg (r : Reg) (h1 : r ≠ .iwState n) (h2 : r ≠ .gctlElogLost) : v.reg r = s.reg r := by
      rw [← hv]
      exact State.reg_setInstState_other _ n _ h1 h2
    have hx := h.runs (cause := fun s _ => if s.allowed n [stQUIESCED] = false then 2 else 0)
      (eff := fun s q => ((s.setInstState n stACTIVE).startRings n).answer q 0) (if_neg (ne_false_of_eq_true ha))
    rw [hv, State.startRings_eq] at hx
    refine ⟨_, hx, ?_, fun r hr he h2 => State.startRings_on hn (List.mem_range.2 hr) ?_ ?_⟩
    · refine (congrArg IW_STATE.STATE.get (State.startRings_other n (fun r => Reg.noConfusion) _ v)).trans ?_
      rw [← hv]
      exact State.instState_setInstState _ n (by decide)
    · refine (congrArg (fun w => IW_RING_CTL.EN.get w == 1) (hreg (ringRegs n r).ctl ?_ ?_)).trans he
      · rw [ringRegs_window r hn]
        exact Reg.noConfusion
      · rw [ringRegs_window r hn]
        exact Reg.noConfusion
    · exact (congrArg IW_RING_STATUS.STATE.get (hreg _ Reg.noConfusion Reg.noConfusion)).trans h2
  · intro s n op q i hs hq hg h7 hi
    simp only [List.mem_cons, Prod.mk.injEq, List.not_mem_nil, or_false] at hi
    rcases hi with ⟨rfl, rfl⟩ | ⟨rfl, rfl⟩ | ⟨rfl, rfl⟩ | ⟨rfl, rfl⟩ | ⟨rfl, rfl⟩ | ⟨rfl, rfl⟩ | ⟨rfl, rfl⟩
    · exact (exec_setw n s).trans (mgmt_maint hs hq hg h7)
    · exact (exec_map n s).trans (mgmt_maint hs hq hg h7)
    · exact (exec_unmap n s).trans (mgmt_maint hs hq hg h7)
    · exact (exec_quiesce n s).trans (mgmt_maint hs hq hg h7)
    · exact (exec_resume n s).trans (mgmt_maint hs hq hg h7)
    · exact (exec_reset n s).trans (mgmt_maint hs hq hg h7)
    · exact (exec_remove n s).trans (mgmt_maint hs hq hg h7)

end Sys2Proof.Machine


namespace Sys2Proof.Machine

/-! # Life and death of an instance -/

theorem State.Serves.runs_of {s : State} {n op : Nat} {q : Req} (h : s.Serves n op q) {o : Bool} (ho : o = true) {cause : State → Req → Nat}
    {eff : State → Req → State} (hc : cause (s.dropReq q) q = 0) :
    mgmt n op o cause eff s = .next (s.keep (eff (s.dropReq q) q)) := by
  subst ho
  exact h.runs hc

theorem exec_create (n : Nat) (cores : List Nat) (frames : List (List Nat)) (s : State) :
    exec (.create n cores frames) s = execCreate n cores frames s := rfl
theorem exec_createComplete (n : Nat) (s : State) : exec (.createComplete n) s = execCreateComplete n s := rfl
theorem exec_resize (n : Nat) (cores : List Nat) (frames : List (List Nat)) (s : State) :
    exec (.resize n cores frames) s = execResize n cores frames s := rfl
theorem exec_fixlease (n : Nat) (cores : List Nat) (s : State) : exec (.fixlease n cores) s = execFixlease n cores s := rfl

/-- What every element of a fold keeps, the fold keeps. -/
theorem foldl_keeps {σ α β : Type} {π : σ → β} {f : σ → α → σ} (h : ∀ s a, π (f s a) = π s) (l : List α) (s : σ) :
    π (l.foldl f s) = π s := by
  induction l generalizing s with
  | nil => rfl
  | cons a l ih => exact (ih _).trans (h s a)

/-! ### CREATE -/

/-- Frames of an instance, after those it has in each slot (R225). -/
def Instance.withFrames (x : Instance) (frames : List (List Nat)) : Instance :=
  { x with frames := ((x.stackSet.zip frames).zipIdx).map fun y => (x.frames[y.2]?).getD [] ++ y.1.2.map fun f => (y.1.1, f) }

theorem State.insts_takeFrame (s : State) (f : Frame) (owner slot idx : Nat) (mirror sys : Bool) :
    (s.takeFrame f owner slot idx mirror sys).insts = s.insts := rfl

theorem State.takeFrames_eq (s : State) (n : Nat) (frames : List (List Nat)) :
    ∃ v : State, v.insts = s.insts ∧ s.takeFrames n frames = v.modInst n fun x => x.withFrames frames := by
  unfold State.takeFrames
  refine ⟨_, ?_, rfl⟩
  refine foldl_keeps (π := State.insts) (fun u y => ?_) _ s
  dsimp only
  exact foldl_keeps (π := State.insts) (fun u f => u.insts_takeFrame _ _ _ _ _ _) _ u

theorem State.inst_takeFrames_self (s : State) (n : Nat) (frames : List (List Nat)) :
    (s.takeFrames n frames).inst n = (s.inst n).withFrames frames := by
  obtain ⟨v, hv, ht⟩ := s.takeFrames_eq n frames
  rw [ht, State.inst_modInst_self, State.inst, hv]
  rfl

theorem State.inst_takeFrames_other (s : State) {n m : Nat} (h : m ≠ n) (frames : List (List Nat)) :
    (s.takeFrames n frames).inst m = s.inst m := by
  obtain ⟨v, hv, ht⟩ := s.takeFrames_eq n frames
  rw [ht, State.inst_modInst_other _ _ h, State.inst, hv]
  rfl

/-- The keys that are drawn for a set of dies are one pair, in each of them (R237). -/
theorem SMap.get_foldl_putAll {α : Type} [DecidableEq α] (d a : α) (g : Nat → Nat) (l : List Nat) (m : SMap α) {k : Nat} (hk : k ∈ l) :
    SMap.get d (l.foldl (fun m x => SMap.put d m (g x) a) m) (g k) = a := by
  have hstay (l : List Nat) (m : SMap α) (hm : SMap.get d m (g k) = a) : SMap.get d (l.foldl (fun m x => SMap.put d m (g x) a) m) (g k) = a := by
    induction l generalizing m with
    | nil => exact hm
    | cons x l ih =>
      refine ih _ ?_
      rw [SMap.get_put, hm, ite_self]
  induction l generalizing m with
  | nil => exact absurd hk List.not_mem_nil
  | cons x l ih =>
    rcases List.mem_cons.1 hk with rfl | hl
    · exact hstay l _ (SMap.get_put_self d m (g k) a)
    · exact ih _ hl

theorem State.drawKey_keys (s : State) (dies : List Nat) (n : Nat) :
    ∃ k, ∀ m ∈ dies, SMap.get none (s.drawKey dies n).stackSet.keys (66 * m + n) = some k :=
  ⟨⟨Config.freeBits (s.free + 0) ++ Config.freeBits (s.free + 1), Config.freeBits (s.free + 2) ++ Config.freeBits (s.free + 3)⟩,
    fun _ hm => SMap.get_foldl_putAll none _ (fun m => 66 * m + n) dies s.stackSet.keys hm⟩

/-- The registers of a new instance: weight, priority, least cores, lease, stack set, mirror and quota, in state CREATING. -/
def State.showCreated (s : State) (n weight prio least set mirror quota : Nat) : State :=
  let u := (((s.setF (.wvWeight n) WV_WEIGHT.WEIGHT weight).setF (.iwState n) IW_STATE.PRIO prio).setF (.iwState n) IW_STATE.MINCORES
    least).showLease n
  (((u.setF (.iwMem n) IW_MEM.STACKSET set).setF (.iwMem n) IW_MEM.MIRROR mirror).setF (.iwMem n) IW_MEM.QGIB quota).setInstState n stCREATING

theorem State.showCreated_keeps (s : State) (n least set mirror quota : Nat) {weight prio : Nat} (hw : weight < 256) (hp : prio < 8) :
    let t := s.showCreated n weight prio least set mirror quota
    t.instState n = stCREATING ∧ t.getF (.wvWeight n) WV_WEIGHT.WEIGHT = weight ∧ t.getF (.iwState n) IW_STATE.PRIO = prio ∧
      t.insts = s.insts ∧ t.stackSet = s.stackSet := by
  dsimp only [State.showCreated]
  obtain ⟨u, hu⟩ : ∃ u, (((s.setF (.wvWeight n) WV_WEIGHT.WEIGHT weight).setF (.iwState n) IW_STATE.PRIO prio).setF (.iwState n)
    IW_STATE.MINCORES least).showLease n = u := ⟨_, rfl⟩
  obtain ⟨v, hv⟩ : ∃ v, ((u.setF (.iwMem n) IW_MEM.STACKSET set).setF (.iwMem n) IW_MEM.MIRROR mirror).setF (.iwMem n) IW_MEM.QGIB quota = v :=
    ⟨_, rfl⟩
  have hvreg (r : Reg) (h : r ≠ .iwMem n) : v.reg r = u.reg r := by
    rw [← hv, State.reg_setF_other _ _ _ h, State.reg_setF_other _ _ _ h, State.reg_setF_other _ _ _ h]
  have hinsts : v.insts = s.insts := by
    rw [← hv, ← hu]
    rfl
  have hstack : v.stackSet = s.stackSet := by
    rw [← hv, ← hu]
    rfl
  have hlog := v.logged_setInstState n stCREATING
  rw [hu, hv]
  refine ⟨v.instState_setInstState n (by decide), ?_, ?_, ?_, ?_⟩
  · rw [hlog.getF _ Reg.noConfusion, State.getF_setF_other_reg _ _ _ _ Reg.noConfusion, State.getF, hvreg _ Reg.noConfusion, ← hu]
    refine (State.getF_setF_other_reg _ _ _ _ Reg.noConfusion).trans ?_
    rw [State.getF_setF_other_reg _ _ _ _ Reg.noConfusion, State.getF_setF_other_reg _ _ _ _ Reg.noConfusion,
      State.getF_setF_self _ _ _ _ (by decide) (by decide)]
    exact Nat.mod_eq_of_lt hw
  · rw [hlog.getF _ Reg.noConfusion, State.getF_setF_other _ _ _ _ _ (by decide) (by decide) (by decide) (by decide), State.getF,
      hvreg _ Reg.noConfusion, ← hu]
    refine (State.getF_setF_other _ _ _ _ _ (by decide) (by decide) (by decide) (by decide)).trans ?_
    rw [State.getF_setF_other _ _ _ _ _ (by decide) (by decide) (by decide) (by decide),
      State.getF_setF_self _ _ _ _ (by decide) (by decide)]
    exact Nat.mod_eq_of_lt hp
  · exact (congrArg State.insts hlog.rest).trans hinsts
  · exact (congrArg State.stackSet hlog.rest).trans hstack

/-- The entry of a new instance, before it has frames. -/
def State.newInstance (s : State) (n : Nat) (cores : List Nat) (q : Req) : Instance :=
  { Instance.absent with
    lease := cores
    stackSet := stacksOf (q.f 20 2)
    mirror := q.f 22 1 == 1
    quota := q.f 24 2
    root := s.reg (.iwS1root n)
    frames := (stacksOf (q.f 20 2)).map fun _ => [] }

theorem createEff_eq (n : Nat) (cores : List Nat) (frames : List (List Nat)) (s : State) (q : Req) : createEff n cores frames s q =
    (((((s.setInst n (s.newInstance n cores q)).takeFrames n frames).drawKey (stacksOf (q.f 20 2)) n).showCreated n (q.f 19 1) (q.f 16 1)
      (q.f 17 1) (q.f 20 2) (q.f 22 1) (q.f 24 2)).begin_ n .create q) := rfl

theorem createEff_keeps {n : Nat} {cores : List Nat} {frames : List (List Nat)} {s : State} {q : Req} (hp : q.f 16 1 < 8) :
    let t := createEff n cores frames s q
    t.instState n = stCREATING ∧ (t.inst n).lease = cores ∧ (t.inst n).quota = q.f 24 2 ∧
      (t.inst n).work = some ⟨.create, q.ridx, q.tag⟩ ∧
      t.getF (.wvWeight n) WV_WEIGHT.WEIGHT = q.f 19 1 ∧ t.getF (.iwState n) IW_STATE.PRIO = q.f 16 1 ∧
      (∃ k, ∀ m ∈ stacksOf (q.f 20 2), SMap.get none t.stackSet.keys (66 * m + n) = some k) ∧ ∀ m, m ≠ n → t.inst m = s.inst m := by
  intro t
  obtain ⟨a, ha⟩ : ∃ a, (s.setInst n (s.newInstance n cores q)).takeFrames n frames = a := ⟨_, rfl⟩
  obtain ⟨b, hb⟩ : ∃ b, a.drawKey (stacksOf (q.f 20 2)) n = b := ⟨_, rfl⟩
  have hshow := b.showCreated_keeps n (q.f 17 1) (q.f 20 2) (q.f 22 1) (q.f 24 2) (weight := q.f 19 1) (fieldAt_byte_lt q.bytes 19) hp
  obtain ⟨c, hc⟩ : ∃ c, b.showCreated n (q.f 19 1) (q.f 16 1) (q.f 17 1) (q.f 20 2) (q.f 22 1) (q.f 24 2) = c := ⟨_, rfl⟩
  rw [hc] at hshow
  obtain ⟨hst, hw, hprio, hinsts, hstack⟩ := hshow
  have ht : t = c.begin_ n .create q := by rw [← hc, ← hb, ← ha]; exact createEff_eq n cores frames s q
  have hca (m : Nat) : c.inst m = a.inst m := by
    have hba : b.insts = a.insts := by rw [← hb]; rfl
    exact congrArg (fun i => SMap.get Instance.absent i m) (hinsts.trans hba)
  have hself : t.inst n = { (s.newInstance n cores q).withFrames frames with work := some ⟨.create, q.ridx, q.tag⟩ } := by
    rw [ht, State.begin_, State.inst_modInst_self, hca, ← ha, State.inst_takeFrames_self, State.inst_setInst_self]
  have hother (m : Nat) (hm : m ≠ n) : t.inst m = s.inst m := by
    rw [ht, State.begin_, State.inst_modInst_other _ _ hm, hca, ← ha, State.inst_takeFrames_other _ hm, State.inst_setInst_other _ _ hm]
  obtain ⟨k, hk⟩ := a.drawKey_keys (stacksOf (q.f 20 2)) n
  refine ⟨?_, by rw [hself]; rfl, by rw [hself]; rfl, by rw [hself], ?_, ?_, ⟨k, fun m hm => ?_⟩, hother⟩
  · rw [ht]
    exact hst
  · rw [ht]
    exact hw
  · rw [ht]
    exact hprio
  · have hstack' : t.stackSet = (a.drawKey (stacksOf (q.f 20 2)) n).stackSet := by
      rw [ht, hb]
      exact hstack
    rw [hstack']
    exact hk m hm

theorem createCause_prio {n : Nat} {s : State} {q : Req} (h : createCause n s q = 0) : q.f 16 1 < 8 := by
  refine Classical.byContradiction fun hp => ?_
  simp only [createCause] at h
  split at h
  · exact absurd h (by decide)
  · rw [if_pos (.inl (Nat.lt_of_not_le fun hle => hp (Nat.lt_succ_of_le hle)))] at h
    exact absurd h (by decide)

/-! ### The end of an instance's commands -/

/-- An open command after the end of a number was open before, and has another number. -/
theorem State.open_endCommand {s : State} {no status cause : Nat} {c : Cmd} (hc : c ∈ (s.endCommand no status cause).cmds)
    (ho : c.open_ = true) : c ∈ s.cmds ∧ c.key.no ≠ no := by
  have hmod (f : Cmd → Cmd) (hf : ∀ x, (f x).open_ = false) (hm : c ∈ (s.modCmd no f).cmds) : c ∈ s.cmds ∧ c.key.no ≠ no := by
    obtain ⟨x, hx, rfl⟩ := List.mem_map.1 hm
    by_cases hno : x.key.no = no
    · rw [if_pos hno, hf x] at ho
      exact absurd ho Bool.false_ne_true
    · rw [if_neg hno]
      exact ⟨hx, hno⟩
  rcases hcmd : s.cmd no with _ | x
  · rw [State.endCommand, hcmd] at hc
    exact ⟨hc, fun h => absurd (List.find?_eq_none.1 hcmd c hc) (by rw [h]; simp)⟩
  · by_cases hs : x.silent = true
    · simp only [State.endCommand, hcmd, hs, if_true] at hc
      exact hmod _ (fun _ => rfl) hc
    · rw [State.endCommand_of hcmd (Bool.not_eq_true _ ▸ hs)] at hc
      exact hmod _ (fun _ => rfl) hc

theorem State.open_foldl_endCommand {n status cause : Nat} (mine : List Cmd) {s : State}
    (h : ∀ c ∈ s.cmds, c.inst = n → c.open_ = true → ∃ x ∈ mine, x.silent = false ∧ x.key.no = c.key.no) :
    ∀ c ∈ (mine.foldl (fun s c => if c.silent then s else s.endCommand c.key.no status cause) s).cmds, c.inst = n → c.open_ = false := by
  induction mine generalizing s with
  | nil =>
    intro c hc hn
    refine Bool.eq_false_iff.2 fun ho => ?_
    obtain ⟨x, hx, _⟩ := h c hc hn ho
    exact absurd hx List.not_mem_nil
  | cons y mine ih =>
    refine ih fun c hc hn ho => ?_
    dsimp only at hc
    by_cases hs : y.silent = true
    · rw [if_pos hs] at hc
      obtain ⟨x, hx, hsil, hno⟩ := h c hc hn ho
      refine ⟨x, (List.mem_cons.1 hx).resolve_left fun e => ?_, hsil, hno⟩
      rw [e, hs] at hsil
      exact absurd hsil Bool.noConfusion
    · rw [if_neg hs] at hc
      obtain ⟨hmem, hne⟩ := State.open_endCommand hc ho
      obtain ⟨x, hx, hsil, hno⟩ := h c hmem hn ho
      exact ⟨x, (List.mem_cons.1 hx).resolve_left fun e => hne (by rw [← hno, e]), hsil, hno⟩

theorem State.retireAll_closed {s : State} {n status cause : Nat} {c : Cmd} (hc : c ∈ (s.retireAll n status cause).cmds) (hn : c.inst = n) :
    c.open_ = false := by
  refine State.open_foldl_endCommand (s.cmds.filter fun c => c.inst == n && c.open_) (fun c hc hn ho => ?_) c hc hn
  obtain ⟨hmem, hkept⟩ := List.mem_filter.1 hc
  refine ⟨c, List.mem_filter.2 ⟨hmem, by rw [hn, ho]; simp⟩, ?_, rfl⟩
  rw [hn, ho] at hkept
  refine Bool.eq_false_iff.2 fun hs => ?_
  rw [hs] at hkept
  simp at hkept

/-! ### The end of RESET and REMOVE -/

theorem State.posts_resetRing (s : State) (n r : Nat) : s.Posts (s.resetRing n r) :=
  ((s.posts_modRing n r _).trans ((State.posts_setF _ _ _ _).trans (State.posts_setF _ _ _ _))).trans
    (State.Posts.of_if (State.posts_statusLine _ n r) (.refl _))

/-- A state whose commands are those of s without the instance's. -/
def State.withoutCmds (s : State) (n : Nat) : State := { s with cmds := s.cmds.filter fun c => c.inst != n }

theorem State.withoutCmds_inst {s : State} {n : Nat} {c : Cmd} (h : c ∈ (s.withoutCmds n).cmds) : c.inst ≠ n :=
  bne_iff_ne.1 (List.mem_filter.1 h).2

theorem State.cmds_releaseCore (s : State) (n p : Nat) : (s.releaseCore n p).cmds = s.cmds := by
  unfold State.releaseCore
  split
  · rfl
  · rfl

theorem State.cmds_freeFrame (s : State) (f : Frame) : (s.freeFrame f).cmds = s.cmds := by
  unfold State.freeFrame
  split
  · rfl
  · rfl

section
variable {s : State} {n : Nat} {w : MgmtWork} (hw : (s.inst n).work = some w)
include hw

theorem State.finishReset_waits (h : s.retired n = false) : s.finishReset n = s := by
  simp only [State.finishReset, hw, h]
  exact if_neg fun hr => Bool.noConfusion hr.2

theorem State.finishRemove_waits (h : s.retired n = false) : s.finishRemove n = s := by
  simp only [State.finishRemove, hw, h]
  exact if_neg fun hr => Bool.noConfusion hr.2

theorem State.finishReset_ends (hop : w.op = .reset) (h : s.retired n = true) : s.finishReset n =
    (((((List.range 64).foldl (fun s r => s.resetRing n r) (s.withoutCmds n)).modInst n fun x => { x with work := none }).setInstState n
      stQUIESCED).mgmtReply w.ridx w.tag 1 0) := by
  simp only [State.finishReset, hw]
  exact if_pos ⟨hop, h⟩

end

/-- The state in which a removed instance has left its cores, images, frames, keys and registers, its entry not yet absent. -/
def State.removed (s : State) (n : Nat) : State :=
  let u := (List.range 64).foldl (fun s r => s.resetRing n r) (s.withoutCmds n)
  let u := (s.inst n).frames.flatten.foldl State.freeFrame (((List.range 208).foldl (fun s p => s.releaseCore n p) u).dropImages n)
  let u := (u.dropKey (s.inst n).stackSet n).setF (.wvWeight n) WV_WEIGHT.WEIGHT 0
  ((((u.setF (.iwState n) IW_STATE.FIXED 0).setF (.iwState n) IW_STATE.PRIO 0).setF (.iwState n) IW_STATE.CORES 0).setF
    (.iwState n) IW_STATE.MINCORES 0).setReg (.iwMem n) 0

theorem State.cmds_removed (s : State) (n : Nat) : (s.removed n).cmds = (s.withoutCmds n).cmds := by
  have hrings := (State.Posts.foldl (fun (s : State) r => s.posts_resetRing n r) (List.range 64) (s.withoutCmds n)).cmds
  have hcores := foldl_keeps (π := State.cmds) (fun (s : State) p => s.cmds_releaseCore n p) (List.range 208)
    ((List.range 64).foldl (fun s r => s.resetRing n r) (s.withoutCmds n))
  have hframes := foldl_keeps (π := State.cmds) State.cmds_freeFrame (s.inst n).frames.flatten
    (((List.range 208).foldl (fun s p => s.releaseCore n p) ((List.range 64).foldl (fun s r => s.resetRing n r) (s.withoutCmds n))).dropImages n)
  exact hframes.trans (hcores.trans hrings)

theorem State.finishRemove_ends {s : State} {n : Nat} {w : MgmtWork} (hw : (s.inst n).work = some w) (hop : w.op = .remove)
    (h : s.retired n = true) : s.finishRemove n =
      (((s.removed n).setInst n { Instance.absent with acct := (s.inst n).acct }).setInstState n stABSENT).mgmtReply w.ridx w.tag 1 0 := by
  simp only [State.finishRemove, hw]
  exact if_pos ⟨hop, h⟩

/-! ### FIXLEASE -/

theorem fixEff_keeps (n : Nat) (cores : List Nat) (s : State) (q : Req) : ∃ u : State, fixEff n cores s q = u.answer q 0 ∧
    u.getF (.iwState n) IW_STATE.FIXED = 1 ∧ (u.inst n).lease = (s.inst n).lease.take (q.f 18 1) ++ cores ∧
    (u.inst n).fixedTerm = q.f 28 4 ∧ u.cores = s.cores := by
  obtain ⟨v, hv⟩ : ∃ v, (s.modInst n fun x => { x with
    lease := x.lease.take (q.f 18 1) ++ cores, fixedTerm := q.f 28 4, fixedLeft := none }) = v := ⟨_, rfl⟩
  have hinst : ((v.setF (.iwState n) IW_STATE.FIXED 1).showLease n).inst n = v.inst n := rfl
  have hself : v.inst n = _ := hv ▸ s.inst_modInst_self n _
  refine ⟨(v.setF (.iwState n) IW_STATE.FIXED 1).showLease n, by rw [← hv]; rfl, ?_, by rw [hinst, hself], by rw [hinst, hself], ?_⟩
  · refine (State.getF_setF_other _ _ _ _ _ (by decide) (by decide) (by decide) (by decide)).trans ?_
    exact State.getF_setF_self _ _ _ _ (by decide) (by decide)
  · rw [← hv]
    rfl

theorem State.inst_setInstState (s : State) (n st m : Nat) : (s.setInstState n st).inst m = s.inst m :=
  congrArg (fun i => SMap.get Instance.absent i m) (s.posts_setInstState n st).insts

/-- Settles O39: requests are refused or take their effect; CREATE's registers, keys and entry, and the ends of RESET and REMOVE, are read off
what each leaves. -/
theorem instancesLiveAndEnd : Obligations.InstancesLiveAndEnd := by
  refine ⟨?_, ?_, ?_, ?_, ?_, fun s n st cause c hc hn => State.retireAll_closed hc hn, ?_, ?_, ?_⟩
  · intro s n q cores frames h
    rw [exec_create, execCreate]
    have hsame : (s.dropReq q).sameCreate n q = s.sameCreate n q := rfl
    refine ⟨fun hc => ?_, fun hc h0 => h.refused_with ((if_neg (ne_true_of_eq_false hc)).trans rfl) h0, fun hc h0 hcores hframes => ?_⟩
    · refine (h.runs_of ?_ (if_pos hc)).trans (congrArg (fun t => Host.Outcome.next (s.keep t)) (if_pos hc))
      rw [h.next]
      dsimp only
      rw [hc]
      rfl
    · have heff := createEff_keeps (n := n) (cores := cores) (frames := frames) (s := s.dropReq q) (createCause_prio h0)
      obtain ⟨e, he⟩ : ∃ e, createEff n cores frames (s.dropReq q) q = e := ⟨_, rfl⟩
      rw [he] at heff
      refine ⟨s.keep e, (h.runs_of ?_ ((if_neg (ne_true_of_eq_false hc)).trans h0)).trans
        (congrArg (fun t => Host.Outcome.next (s.keep t)) ((if_neg (ne_true_of_eq_false hc)).trans he)), heff⟩
      rw [h.next]
      dsimp only
      rw [hcores, hframes]
      exact Bool.or_true _
  · intro s n w hs hw hop hr
    obtain ⟨v, hv⟩ : ∃ v, (s.modInst n fun x => { x with work := none }) = v := ⟨_, rfl⟩
    have hx : exec (.createComplete n) s = .next (s.keep ((v.setInstState n stQUIESCED).mgmtReply w.ridx w.tag 1 0)) := by
      rw [exec_createComplete, execCreateComplete, hw, ← hv]
      dsimp only
      exact State.when_of hs (by rw [hop, hr]; rfl)
    have hinst : (v.setInstState n stQUIESCED).inst n = { s.inst n with work := none } := by
      rw [State.inst_setInstState, ← hv, State.inst_modInst_self]
    exact ⟨_, hx, v.instState_setInstState n (by decide), by rw [hinst], by rw [hinst]⟩
  · intro s n q cores frames h
    rw [exec_resize, execResize]
    refine ⟨fun hc => h.refused hc, fun hc hcores hframes => h.runs_of ?_ hc⟩
    rw [h.next]
    dsimp only
    rw [hcores, hframes]
    rfl
  · intro s n q cores h
    rw [exec_fixlease, execFixlease]
    refine ⟨fun hc => ?_, fun hc h0 => h.refused_with ((if_neg (ne_true_of_eq_false hc)).trans rfl) h0, fun hc h0 hcores => ?_⟩
    · refine (h.runs_of ?_ (if_pos hc)).trans (congrArg (fun t => Host.Outcome.next (s.keep t)) (if_pos hc))
      rw [h.next]
      dsimp only
      rw [hc]
      rfl
    · obtain ⟨u, heff, hfix⟩ := fixEff_keeps n cores (s.dropReq q) q
      refine ⟨u, (h.runs_of ?_ ((if_neg (ne_true_of_eq_false hc)).trans h0)).trans
        (congrArg (fun t => Host.Outcome.next (s.keep t)) ((if_neg (ne_true_of_eq_false hc)).trans heff)), hfix⟩
      rw [h.next]
      dsimp only
      rw [hcores]
      exact Bool.or_true _
  · intro s n q h
    rw [exec_reset, execReset]
    exact ⟨fun ha => h.runs (if_neg (ne_false_of_eq_true ha)), fun ha => h.refused_with (if_pos ha) (by decide)⟩
  · intro s n q h
    rw [exec_remove, execRemove]
    refine ⟨fun ha hst => ?_, fun ha hst => ?_⟩
    · exact (h.runs (if_neg (ne_false_of_eq_true ha))).trans (congrArg (fun t => Host.Outcome.next (s.keep t)) (if_pos hst))
    · exact (h.runs (if_neg (ne_false_of_eq_true ha))).trans (congrArg (fun t => Host.Outcome.next (s.keep t)) (if_neg hst))
  · intro s n w hw hop
    refine ⟨State.finishReset_waits hw, fun hr => ⟨_, State.finishReset_ends hw hop hr, State.instState_setInstState _ n (by decide), ?_⟩⟩
    have hrings := State.Posts.foldl (fun (s : State) r => s.posts_resetRing n r) (List.range 64) (s.withoutCmds n)
    obtain ⟨v, hv⟩ : ∃ v, (List.range 64).foldl (fun s r => s.resetRing n r) (s.withoutCmds n) = v := ⟨_, rfl⟩
    rw [hv] at hrings ⊢
    have hinst : ((v.modInst n fun x => { x with work := none }).setInstState n stQUIESCED).inst n = { s.inst n with work := none } := by
      rw [State.inst_setInstState, State.inst_modInst_self, State.inst, hrings.insts]
      rfl
    refine ⟨by rw [hinst], by rw [hinst], fun c hc => State.withoutCmds_inst (s := s) ?_⟩
    rw [(State.posts_setInstState _ n _).cmds] at hc
    rw [← hrings.cmds]
    exact hc
  · intro s n w hw hop
    refine ⟨State.finishRemove_waits hw, fun hr => ?_⟩
    have hend := State.finishRemove_ends hw hop hr
    have hcmds := s.cmds_removed n
    obtain ⟨v, hv⟩ : ∃ v, s.removed n = v := ⟨_, rfl⟩
    rw [hv] at hend hcmds
    refine ⟨_, hend, State.instState_setInstState _ n (by decide), ?_, fun c hc => State.withoutCmds_inst (s := s) ?_⟩
    · rw [State.inst_setInstState, State.inst_setInst_self]
    · rw [(State.posts_setInstState _ n _).cmds] at hc
      rw [← hcmds]
      exact hc

end Sys2Proof.Machine


namespace Sys2Proof.Machine

/-! # Ingress (R388 to R390, R406) -/

theorem exec_ingressFrame (p : Nat) (f : FhRx) (frac : Nat) (s : State) : exec (.ingressFrame p f frac) s = execIngressFrame p f frac s := rfl

/-! ### The counters of a port -/

theorem State.fhCount_self (s : State) (p k n : Nat) :
    (s.fhCount p k n).getF (.fhCnt p k) FH_CNT.VALUE = (s.getF (.fhCnt p k) FH_CNT.VALUE + n) % 2 ^ 64 :=
  State.getF_setF_self _ _ _ _ (by decide) (by decide)

theorem State.fhCount_other (s : State) (p k n : Nat) {r : Reg} (h : r ≠ .fhCnt p k) : (s.fhCount p k n).reg r = s.reg r :=
  State.reg_setF_other _ _ _ h

theorem State.fhCount_frame (s : State) (p k n : Nat) : s.fhCount p k n = { s with regs := (s.fhCount p k n).regs } := rfl

/-- The registers after the head of a discarded frame has been captured (R389). -/
theorem State.reg_fhCapture (s : State) (p : Nat) (f : FhRx) {r : Reg} (h1 : ∀ k, r ≠ .fhExccap p k) (h2 : r ≠ .fhExcsub p) :
    (s.fhCapture p f).reg r = s.reg r := by
  unfold State.fhCapture
  dsimp only
  rw [State.reg_setF_other _ _ _ h2, State.reg_setF_other _ _ _ h2]
  exact foldl_keeps (π := fun s : State => s.reg r) (fun s k => State.reg_setReg_other s _ (h1 k)) _ s

theorem State.excsub_frame {s u : State} (h : u = { s with regs := u.regs }) (p sub : Nat) :
    (u.setF (.fhExcsub p) FH_EXCSUB.VALID 1).setF (.fhExcsub p) FH_EXCSUB.SUB sub =
      { s with regs := ((u.setF (.fhExcsub p) FH_EXCSUB.VALID 1).setF (.fhExcsub p) FH_EXCSUB.SUB sub).regs } :=
  State.regs_trans h rfl

theorem State.fhCapture_frame (s : State) (p : Nat) (f : FhRx) : s.fhCapture p f = { s with regs := (s.fhCapture p f).regs } := by
  have hcap (g : Nat → BitVec 64) (l : List Nat) (u : State) : l.foldl (fun s k => s.setReg (.fhExccap p k) (g k)) u =
      { u with regs := (l.foldl (fun s k => s.setReg (.fhExccap p k) (g k)) u).regs } := by
    induction l generalizing u with
    | nil => rfl
    | cons k l ih => exact State.regs_trans rfl (ih _)
  exact State.excsub_frame (hcap _ _ s) p f.sub

theorem State.excsub_valid (s : State) (p sub : Nat) :
    ((s.setF (.fhExcsub p) FH_EXCSUB.VALID 1).setF (.fhExcsub p) FH_EXCSUB.SUB sub).getF (.fhExcsub p) FH_EXCSUB.VALID = 1 := by
  rw [State.getF_setF_other _ _ _ _ _ (by decide) (by decide) (by decide) (by decide), State.getF_setF_self _ _ _ _ (by decide) (by decide)]
  rfl

theorem State.fhCapture_valid (s : State) (p : Nat) (f : FhRx) : (s.fhCapture p f).getF (.fhExcsub p) FH_EXCSUB.VALID = 1 :=
  State.excsub_valid _ p f.sub

/-! ### The filter -/

/-- The answer to a delay measurement request that arrived at t (R390). -/
def delayResponse (f : FhRx) (t : Rat) : FhFrame :=
  { id := 0, cls := 2, sub := f.sub, flow := 0, len := f.len, earliest := 0, latest := 0, slot := 0, wire := [], tb := 0,
    idle := false, got := some t, sent := none }

section
variable {s : State} {p frac : Nat} {f : FhRx} (hfcs : f.fcs = true) (hlo : 64 ≤ f.len) (hhi : f.len ≤ 9216)
include hfcs hlo hhi

/-- A frame whose FCS and length are good. -/
theorem fhRx_whole : ¬ (f.fcs = false ∨ f.len < 64 ∨ 9216 < f.len) := by
  rintro (h | h | h)
  · exact absurd (hfcs.symm.trans h) Bool.noConfusion
  · omega
  · omega

theorem State.fhReceive_dest (hd : s.fhDest p f = false) : s.fhReceive p f frac = s.fhCount p 2 1 :=
  (if_neg (fhRx_whole hfcs hlo hhi)).trans (if_pos hd)

end

/-- An eCPRI frame of a known header passes the filters of the EtherType and the header. -/
theorem fhRx_ecpri {f : FhRx} (het : f.etype = 0xAEFE) :
    ¬ (f.etype = 0x88F7 ∨ f.etype = 0x8809 ∨ ((f.etype = 0x0800 ∨ f.etype = 0x86DD) ∧ f.ptp.isSome = true)) := by
  rw [het]
  rintro (h | h | ⟨h | h, _⟩)
  · exact absurd h (by decide)
  · exact absurd h (by decide)
  · exact absurd h (by decide)
  · exact absurd h (by decide)

theorem fhRx_header {f : FhRx} (hrev : f.rev = 1) (hsz : f.sized = true) (hmt : f.mtype = 0 ∨ f.mtype = 5) (heb : f.ebit = true) :
    ¬ (f.rev ≠ 1 ∨ f.sized = false ∨ (f.mtype ≠ 0 ∧ f.mtype ≠ 5) ∨ f.ebit = false) := by
  rw [hrev, hsz, heb]
  simp only [ne_eq, not_true, Bool.true_eq_false, false_or, or_false, not_and, Classical.not_not]
  exact hmt.resolve_left

section
variable {s : State} {p frac : Nat} {f : FhRx} (hfcs : f.fcs = true) (hlo : 64 ≤ f.len) (hhi : f.len ≤ 9216) (hd : s.fhDest p f = true)
  (het : f.etype = 0xAEFE) (hrev : f.rev = 1) (hsz : f.sized = true) (heb : f.ebit = true)
include hfcs hlo hhi hd het hrev hsz heb

theorem State.fhReceive_delay (h5 : f.mtype = 5) : ∃ t, s.fhReceive p f frac = s.fhQueue p (delayResponse f t) := by
  unfold State.fhReceive
  dsimp only
  rw [if_neg (fhRx_whole hfcs hlo hhi), if_neg (by rw [hd]; exact Bool.noConfusion), if_neg (fhRx_ecpri het), if_neg (Classical.not_not.2 het),
    if_neg (fhRx_header hrev hsz (.inr h5) heb), if_pos h5]
  exact ⟨_, rfl⟩

theorem State.fhReceive_data (h0 : f.mtype = 0) :
    (s.fhMatch p f = none → s.fhReceive p f frac = (s.fhCount p 3 1).fhCapture p f) ∧
    (∀ k, s.fhMatch p f = some k → ∃ t, s.fhReceive p f frac = s.fhDeliver p k f t) := by
  unfold State.fhReceive
  dsimp only
  rw [if_neg (fhRx_whole hfcs hlo hhi), if_neg (by rw [hd]; exact Bool.noConfusion), if_neg (fhRx_ecpri het), if_neg (Classical.not_not.2 het),
    if_neg (fhRx_header hrev hsz (.inl h0) heb), if_neg (by rw [h0]; decide)]
  refine ⟨fun hm => ?_, fun k hm => ?_⟩
  · rw [hm]
  · rw [hm]
    exact ⟨_, rfl⟩

end

/-! ### Delivery -/

theorem State.fhDeliver_noTokens {s : State} {p k : Nat} {f : FhRx} (t : Rat) (hr : SMap.get 0 (s.fhp p).rates k ≠ 0)
    (ht : SMap.get 0 (s.fhp p).tokens k < (f.len + (s.fhp p).ovh) * 256) : s.fhDeliver p k f t = (s.fhCount p 5 1).flowDrop p k :=
  if_pos ⟨hr, ht⟩

/-- The state of a delivered frame, before its values are told to the cells. -/
def State.fhDelivered (s : State) (p k : Nat) (f : FhRx) (d : List Int × Nat) : State :=
  (((((s.modFhp p fun x => { x with seqs := SMap.put 0 x.seqs k (f.seq % 256 + 1) }).fhCount p 9 d.2).fhCount p 0 1).fhFlits
    (2 * d.1.length)).modFhp p fun x => { x with iq := SMap.put [] x.iq k d.1 })

section
variable {s : State} {p k : Nat} {f : FhRx} {t : Rat} {l : List ((Nat × Nat) × FhSection)} (hr : SMap.get 0 (s.fhp p).rates k = 0)
  (hlo : s.airTime f (FH_FLOW_HI.SCS.get (s.reg (.fhFlowHi p k))) t + ((signed 32 (s.getF (.fhWin p f.sub) FH_WIN.TA4MIN) : Int) : Rat) ≤ t)
  (hhi : t ≤ s.airTime f (FH_FLOW_HI.SCS.get (s.reg (.fhFlowHi p k))) t + ((signed 32 (s.getF (.fhWin p f.sub) FH_WIN.TA4MAX) : Int) : Rat))
  (hseq : SMap.get 0 (s.fhp p).seqs k = 0 ∨ f.seq % 256 = SMap.get 0 (s.fhp p).seqs k % 256) (hl : s.fhSections p k f = some l)
include hr hlo hhi hseq hl

theorem State.fhDeliver_inWindow : s.fhDeliver p k f t = (s.fhDelivered p k f (fhDecompress l)).gotPrbs p k
    (frameSlot f (FH_FLOW_HI.SCS.get (s.reg (.fhFlowHi p k)))) ((f.sections.map fun x => x.prbs.length).sum) := by
  have hsec : (s.modFhp p fun x => { x with seqs := SMap.put 0 x.seqs k (f.seq % 256 + 1) }).fhSections p k f = some l := hl
  have hold : ¬ (SMap.get 0 (s.fhp p).seqs k ≠ 0 ∧ f.seq % 256 ≠ SMap.get 0 (s.fhp p).seqs k % 256) := fun h =>
    hseq.elim h.1 h.2
  unfold State.fhDeliver
  simp only [hr, ne_eq, not_true, false_and, if_false, if_true, hold]
  rw [if_neg (Rat.not_lt.2 hhi), if_neg (Rat.not_lt.2 hlo), hsec]
  rfl

end

theorem State.fhp_fhFlits (s : State) (n q : Nat) : (s.fhFlits n).fhp q = s.fhp q := rfl
theorem State.reg_fhFlits (s : State) (n : Nat) (r : Reg) : (s.fhFlits n).reg r = s.reg r := rfl
theorem State.fhp_fhCount (s : State) (p k n q : Nat) : (s.fhCount p k n).fhp q = s.fhp q := rfl
theorem State.reg_modFhp (s : State) (p : Nat) (f : FhPort → FhPort) (r : Reg) : (s.modFhp p f).reg r = s.reg r := rfl

theorem State.getF_congr {s t : State} {r : Reg} (h : t.reg r = s.reg r) {f : Fld} : t.getF r f = s.getF r f := congrArg f.get h

theorem State.fhDelivered_keeps (s : State) (p k : Nat) (f : FhRx) (d : List Int × Nat) :
    let u := s.fhDelivered p k f d
    SMap.get [] (u.fhp p).iq k = d.1 ∧ SMap.get 0 (u.fhp p).seqs k = f.seq % 256 + 1 ∧
      u.getF (.fhCnt p 0) FH_CNT.VALUE = (s.getF (.fhCnt p 0) FH_CNT.VALUE + 1) % 2 ^ 64 ∧
      u.getF (.fhCnt p 9) FH_CNT.VALUE = (s.getF (.fhCnt p 9) FH_CNT.VALUE + d.2) % 2 ^ 64 ∧
      (∀ r, r ≠ .fhCnt p 0 → r ≠ .fhCnt p 9 → u.reg r = s.reg r) ∧ ∀ q, q ≠ p → u.fhp q = s.fhp q := by
  obtain ⟨v, hv⟩ : ∃ v, (s.modFhp p fun x => { x with seqs := SMap.put 0 x.seqs k (f.seq % 256 + 1) }) = v := ⟨_, rfl⟩
  obtain ⟨u, hu⟩ : ∃ u, ((v.fhCount p 9 d.2).fhCount p 0 1).fhFlits (2 * d.1.length) = u := ⟨_, rfl⟩
  have hvp : (v.fhp p).seqs = SMap.put 0 (s.fhp p).seqs k (f.seq % 256 + 1) := by rw [← hv, State.fhp_modFhp_self]
  have hvreg (r : Reg) : v.reg r = s.reg r := by rw [← hv, State.reg_modFhp]
  have hufh (q : Nat) : u.fhp q = v.fhp q := by rw [← hu, State.fhp_fhFlits, State.fhp_fhCount, State.fhp_fhCount]
  have hureg (r : Reg) : u.reg r = ((v.fhCount p 9 d.2).fhCount p 0 1).reg r := by rw [← hu, State.reg_fhFlits]
  have hself : (s.fhDelivered p k f d).fhp p = { u.fhp p with iq := SMap.put [] (u.fhp p).iq k d.1 } := by
    rw [State.fhDelivered, hv, hu, State.fhp_modFhp_self]
  have hreg (r : Reg) : (s.fhDelivered p k f d).reg r = u.reg r := by
    rw [State.fhDelivered, hv, hu, State.reg_modFhp]
  have hgetF (r : Reg) (g : Fld) : (s.fhDelivered p k f d).getF r g = ((v.fhCount p 9 d.2).fhCount p 0 1).getF r g :=
    State.getF_congr ((hreg r).trans (hureg r))
  have h0 : Reg.fhCnt p 0 ≠ .fhCnt p 9 := fun h => by injection h with _ h; exact Nat.noConfusion h
  refine ⟨?_, ?_, ?_, ?_, fun r hr0 hr9 => ?_, fun q hq => ?_⟩
  · rw [hself]
    exact SMap.get_put_self [] _ k d.1
  · rw [hself]
    show SMap.get 0 (u.fhp p).seqs k = _
    rw [hufh, hvp, SMap.get_put_self]
  · rw [hgetF, State.fhCount_self, State.getF_congr (State.fhCount_other _ _ _ _ h0), State.getF_congr (hvreg _)]
  · rw [hgetF, State.getF_congr (State.fhCount_other _ _ _ _ h0.symm), State.fhCount_self, State.getF_congr (hvreg _)]
  · rw [hreg, hureg, State.fhCount_other _ _ _ _ hr0, State.fhCount_other _ _ _ _ hr9, hvreg]
  · rw [State.fhDelivered, hv, hu, State.fhp_modFhp_other _ _ hq, hufh, ← hv, State.fhp_modFhp_other _ _ hq]

/-- A frame of no flow: its counter, and its head captured (R389). -/
theorem State.fhUnmatched_keeps (s : State) (p : Nat) (f : FhRx) :
    let t := (s.fhCount p 3 1).fhCapture p f
    t = { s with regs := t.regs } ∧ t.getF (.fhCnt p 3) FH_CNT.VALUE = (s.getF (.fhCnt p 3) FH_CNT.VALUE + 1) % 2 ^ 64 ∧
      t.getF (.fhExcsub p) FH_EXCSUB.VALID = 1 ∧ ∀ k, k ≠ 3 → t.reg (.fhCnt p k) = s.reg (.fhCnt p k) := by
  obtain ⟨v, hv⟩ : ∃ v, s.fhCount p 3 1 = v := ⟨_, rfl⟩
  have hcnt (k : Nat) : (v.fhCapture p f).reg (.fhCnt p k) = v.reg (.fhCnt p k) :=
    v.reg_fhCapture p f (fun _ => Reg.noConfusion) Reg.noConfusion
  rw [hv]
  refine ⟨State.regs_trans (by rw [← hv]; rfl) (v.fhCapture_frame p f), ?_, v.fhCapture_valid p f, fun k hk => ?_⟩
  · rw [State.getF_congr (hcnt 3), ← hv, State.fhCount_self]
  · rw [hcnt, ← hv]
    exact State.fhCount_other _ _ _ _ fun h => by injection h with _ h; exact hk h

theorem State.queue_fhQueue (s : State) (p : Nat) (f : FhFrame) :
    ((s.fhQueue p f).fhp p).queue = (s.fhp p).queue ++ [{ f with id := (s.fhp p).nextId }] := by
  rw [State.fhQueue, State.fhp_modFhp_self]

/-- Settles O40: the filters in their order, and what a delivered frame leaves. -/
theorem ingressFramesAreFilteredInOrder : Obligations.IngressFramesAreFilteredInOrder := by
  refine ⟨?_, ?_, fun s p k f t hr ht => State.fhDeliver_noTokens t hr ht, ?_, ?_⟩
  · intro s p frac f hs hp hsub hup hfrac
    have hx : exec (.ingressFrame p f frac) s =
        .next (s.keep (if (s.fhp p).stop.isSome then s.fhCount p 13 1 else s.fhReceive p f frac)) := by
      rw [exec_ingressFrame, execIngressFrame]
      exact State.when_of hs (by rw [decide_eq_true hp, decide_eq_true hsub, hup, decide_eq_true hfrac]; rfl)
    refine ⟨fun w hw => ?_, fun hno => ?_⟩
    · rw [hx, hw]
      rfl
    · rw [hx, hno]
      rfl
  · intro s p frac f
    refine ⟨fun h => if_pos h, fun hfcs hlo hhi hd => State.fhReceive_dest hfcs hlo hhi hd, fun hfcs hlo hhi hd het hrev hsz h0 heb => ?_⟩
    obtain ⟨hnone, hsome⟩ := State.fhReceive_data (frac := frac) hfcs hlo hhi hd het hrev hsz heb h0
    exact ⟨fun hm => ⟨_, hnone hm, State.fhUnmatched_keeps s p f⟩, hsome⟩
  · intro s p k f t l air hr hlo hhi hseq hl
    exact ⟨_, State.fhDeliver_inWindow hr hlo hhi hseq hl, State.fhDelivered_keeps s p k f _⟩
  · intro s p frac f hfcs hlo hhi hd het hrev hsz h5 heb
    obtain ⟨t, ht⟩ := State.fhReceive_delay (frac := frac) hfcs hlo hhi hd het hrev hsz heb h5
    rw [ht]
    exact ⟨_, s.queue_fhQueue p _, rfl, rfl, rfl, rfl, rfl⟩

end Sys2Proof.Machine


namespace Sys2Proof.Machine

/-! # Messages to the L2 (R414 to R418)

A message changes the queue pairs, the companion link, and of the registers the states of queue pairs alone. -/

structure State.Tells (s t : State) : Prop where
  rest : t = { s with regs := t.regs, ccl := t.ccl, radio := { s.radio with qps := t.radio.qps } }
  regs : ∀ r, (∀ q, r ≠ .rlQpStatus q) → t.reg r = s.reg r

theorem State.Tells.refl (s : State) : s.Tells s := ⟨rfl, fun _ _ => rfl⟩

theorem State.Tells.trans {s t u : State} (h : s.Tells t) (g : t.Tells u) : s.Tells u := by
  refine ⟨?_, fun r hr => (g.regs r hr).trans (h.regs r hr)⟩
  have hg := g.rest
  rw [h.rest] at hg
  exact hg

theorem State.Tells.of_if {s t u : State} {c : Prop} [Decidable c] (h : s.Tells t) (g : s.Tells u) : s.Tells (if c then t else u) := by
  split
  · exact h
  · exact g

theorem State.Tells.foldl {α : Type} {f : State → α → State} (h : ∀ (s : State) a, s.Tells (f s a)) (l : List α) (s : State) :
    s.Tells (l.foldl f s) := by
  induction l generalizing s with
  | nil => exact .refl s
  | cons a l ih => exact (h s a).trans (ih _)

theorem State.Tells.fh {s t : State} (h : s.Tells t) : t.fh = s.fh := by rw [h.rest]
theorem State.Tells.missed {s t : State} (h : s.Tells t) : t.radio.missed = s.radio.missed := by rw [h.rest]
theorem State.Tells.cells {s t : State} (h : s.Tells t) : t.radio.cells = s.radio.cells := by rw [h.rest]

theorem State.tells_of_ccl {s t : State} (h : t = { s with ccl := t.ccl }) : s.Tells t := by
  rw [h]
  exact ⟨rfl, fun _ _ => rfl⟩

theorem State.tells_cclSend (s : State) (k : CclKind) (a : Nat) (bs : List Byte) (pu : CclPurpose) : s.Tells (s.cclSend k a bs pu) :=
  State.tells_of_ccl (s.cclSend_frame k a bs pu).1

theorem State.tells_qpError (s : State) (q : Nat) : s.Tells (s.qpError q) :=
  ⟨rfl, fun _ h => State.reg_setF_other _ _ _ (h q)⟩

theorem State.tells_qpWrite (s : State) (q ipa : Nat) (bs : List Byte) (pu : CclPurpose) : s.Tells (s.qpWrite q ipa bs pu) := by
  refine State.Tells.foldl (fun s k => ?_) _ s
  split
  · exact s.tells_cclSend ..
  · exact s.tells_qpError q

theorem State.tells_modQp (s : State) (q : Nat) (f : Qp → Qp) : s.Tells (s.modQp q f) := ⟨rfl, fun _ _ => rfl⟩

theorem State.tells_qpPut (s : State) (q : Nat) (m : Fapi) : s.Tells (s.qpPut q m) :=
  (((State.Tells.of_if (.refl s) (s.tells_qpWrite ..)).trans (State.tells_qpWrite ..)).trans (State.tells_modQp ..)).trans
    (State.tells_qpWrite ..)

theorem State.tells_fapi (s : State) (q : Nat) (m : Fapi) : s.Tells (s.fapi q m) :=
  State.Tells.of_if (.refl s) (.of_if (s.tells_qpPut q m) (s.tells_modQp ..))

theorem State.tells_errorInd (s : State) (q phy code : Nat) (more : List Nat) : s.Tells (s.errorInd q phy code more) := s.tells_fapi ..

theorem State.tells_cellError (s : State) (g phy code : Nat) (more : List Nat) : s.Tells (s.cellError g phy code more) :=
  State.Tells.foldl (fun s q => s.tells_errorInd q phy code more) _ s

/-! # Egress (R395 to R398, R405, R406) -/

theorem exec_egressFrameQueue (p cls flow len e l slot : Nat) (prbs : List (List Int)) (s : State) :
    exec (.egressFrameQueue p cls flow len e l slot prbs) s = execEgressFrameQueue p cls flow len e l slot prbs s := rfl
theorem exec_egressFrameStart (p sub : Nat) (s : State) : exec (.egressFrameStart p sub) s = execEgressFrameStart p sub s := rfl
theorem exec_egressFrameEnd (p sub : Nat) (s : State) : exec (.egressFrameEnd p sub) s = execEgressFrameEnd p sub s := rfl
theorem exec_egressFrameLate (p id : Nat) (s : State) : exec (.egressFrameLate p id) s = execEgressFrameLate p id s := rfl
theorem exec_refill (p : Nat) (s : State) : exec (.refill p) s = execRefill p s := rfl
theorem exec_delayReqSend (n : Nat) (s : State) : exec (.delayReqSend n) s = execDelayReqSend n s := rfl

theorem State.fhp_congr {s t : State} (h : t.fh = s.fh) (p : Nat) : t.fhp p = s.fhp p := congrArg (fun m => SMap.get FhPort.reset m p) h

theorem State.flowDrop_keeps (s : State) (p f : Nat) : (s.flowDrop p f) = { s with regs := (s.flowDrop p f).regs } ∧
    ∀ r, r ≠ .fhFlowLo p f → (s.flowDrop p f).reg r = s.reg r :=
  ⟨rfl, fun _ h => State.reg_setF_other _ _ _ h⟩

/-! ### Queueing -/

/-- The frame of a flow that I0 queues, with the word of its flow. -/
def flowFrame (cls flow len e l slot : Nat) (w : BitVec 64) (wire : List (List Byte)) : FhFrame :=
  { id := 0, cls := cls, sub := FH_FLOW_HI.SUB.get w, flow := flow, len := len, earliest := e, latest := l, slot := slot,
    wire := wire, tb := 0, idle := false, got := none, sent := none }

/-- The bytes of the resource blocks of a flow (R395). -/
def flowWire (w : BitVec 64) (prbs : List (List Int)) : List (List Byte) := prbs.map fun x =>
  let wd := flowWidth (FH_FLOW_HI.WIDTH.get w)
  if FH_FLOW_HI.COMP.get w = 1 then prbPack true wd (prbCompress wd x).1 (prbCompress wd x).2 else prbPack false 16 0 x

theorem egressFrameQueue_answers {s : State} {p cls flow len e l slot : Nat} {prbs : List (List Int)} (hs : s.clocksStopped = false)
    (hp : p < 24) (hflow : flow < 1024) (hen : s.fhEn p = true) (hstop : (s.fhp p).stop = none)
    (hdir : FH_FLOW_HI.DIR.get (s.reg (.fhFlowHi p flow)) = 1)
    (hcls : cls = 3 + if FH_FLOW_HI.PLANE.get (s.reg (.fhFlowHi p flow)) = 1 then 0 else 1) (hlo : 64 ≤ len)
    (hhi : len ≤ s.getF (.fhMtu p) FH_MTU.MTU) (hwire : cls = 4 ∨ prbs = [])
    (hprbs : ∀ x ∈ prbs, x.length = 24 ∧ ∀ v ∈ x, -32767 ≤ v ∧ v ≤ 32767) :
    exec (.egressFrameQueue p cls flow len e l slot prbs) s = .next (s.keep ((s.fhFlits len).fhQueue p
      (flowFrame cls flow len e l slot (s.reg (.fhFlowHi p flow)) (flowWire (s.reg (.fhFlowHi p flow)) prbs)))) := by
  have hall : (prbs.all fun x => x.length == 24 && x.all fun v => decide (-32767 ≤ v) && decide (v ≤ 32767)) = true := by
    refine List.all_eq_true.2 fun x hx => ?_
    obtain ⟨h24, hv⟩ := hprbs x hx
    rw [h24]
    exact List.all_eq_true.2 fun v hmem => by rw [decide_eq_true (hv v hmem).1, decide_eq_true (hv v hmem).2]; rfl
  have hc4 : (decide (cls = 4) || prbs.isEmpty) = true := by
    rcases hwire with h | h
    · rw [decide_eq_true h]
      rfl
    · rw [h]
      exact Bool.or_true _
  rw [exec_egressFrameQueue, execEgressFrameQueue]
  refine State.when_of hs ?_
  rw [decide_eq_true hp, decide_eq_true hflow, hen, hstop, decide_eq_true hdir, decide_eq_true hcls, decide_eq_true hlo, decide_eq_true hhi,
    hc4, hall]
  rfl

/-- A queued frame of a flow: the port's queue alone has it at its end. -/
theorem State.queuedFlow_keeps (s : State) (p len : Nat) (f : FhFrame) :
    let t := (s.fhFlits len).fhQueue p f
    (t.fhp p).queue = (s.fhp p).queue ++ [{ f with id := (s.fhp p).nextId }] ∧ t.regs = s.regs ∧ ∀ q, q ≠ p → t.fhp q = s.fhp q := by
  obtain ⟨u, hu⟩ : ∃ u, s.fhFlits len = u := ⟨_, rfl⟩
  have hfh (q : Nat) : u.fhp q = s.fhp q := by rw [← hu, State.fhp_fhFlits]
  have hregs : u.regs = s.regs := by rw [← hu]; rfl
  rw [hu]
  refine ⟨?_, hregs, fun q hq => (State.fhp_modFhp_other _ _ hq).trans (hfh q)⟩
  rw [State.queue_fhQueue, hfh]

theorem State.fh_of_rest {s t : State} (h : t = { s with fh := t.fh }) : t = { s with fh := t.fh, regs := t.regs } := by
  have hregs : t.regs = s.regs := (congrArg State.regs h).trans rfl
  rw [hregs]
  exact h

theorem State.keep_of_fh {s t : State} (h : t = { s with fh := t.fh, regs := t.regs }) : s.keep t = t := by
  rw [h]
  rfl

/-! ### The frame whose turn it is -/

/-- The port without the frame whose turn it is. -/
def State.dequeued (s : State) (p sub : Nat) (f : FhFrame) : State := s.modFhp p fun x =>
  { x with
    queue := x.queue.filter fun y => y.id != f.id
    turn := if f.cls < 3 then x.turn else SMap.put 0 x.turn (8 * sub + f.cls) (f.flow + 1) }

/-- The frame on its line, paid from its credits; one of the first two classes carries its transmit timestamp (R395, R405). -/
def State.onLine (s : State) (p sub : Nat) (f : FhFrame) (n : Int) (sent : Rat) : State := s.modFhp p fun x =>
  { x with
    line := SMap.put none x.line sub (some (if f.cls < 3 then { f with sent := some sent } else f))
    credits := if f.cls < 3 then x.credits else SMap.put 0 x.credits f.flow (SMap.get 0 x.credits f.flow - n)
    subCredits := if f.cls < 3 then x.subCredits else SMap.put 0 x.subCredits sub (SMap.get 0 x.subCredits sub - n) }

/-- The transmit timestamp of a frame. -/
def State.sentAt (s : State) (p sub : Nat) (f : FhFrame) : Rat :=
  subNs ((if f.cls = 1 then (s.tb f.tb).value else s.tbr) + ((signed 32 (s.getF (.fhTscorr p sub) FH_TSCORR.TX) : Int) : Rat) / 65536)

theorem State.fhp_dequeued (s : State) (p sub : Nat) (f : FhFrame) : (s.dequeued p sub f).fhp p =
    { s.fhp p with
      queue := (s.fhp p).queue.filter fun y => y.id != f.id
      turn := if f.cls < 3 then (s.fhp p).turn else SMap.put 0 (s.fhp p).turn (8 * sub + f.cls) (f.flow + 1) } :=
  s.fhp_modFhp_self p _

theorem State.fhp_onLine (s : State) (p sub : Nat) (f : FhFrame) (n : Int) (sent : Rat) : (s.onLine p sub f n sent).fhp p =
    { s.fhp p with
      line := SMap.put none (s.fhp p).line sub (some (if f.cls < 3 then { f with sent := some sent } else f))
      credits := if f.cls < 3 then (s.fhp p).credits else SMap.put 0 (s.fhp p).credits f.flow (SMap.get 0 (s.fhp p).credits f.flow - n)
      subCredits := if f.cls < 3 then (s.fhp p).subCredits
        else SMap.put 0 (s.fhp p).subCredits sub (SMap.get 0 (s.fhp p).subCredits sub - n) } :=
  s.fhp_modFhp_self p _

/-- What sending a frame leaves of its port, and of the other ports. -/
theorem State.sent_keeps (s : State) (p sub : Nat) (f : FhFrame) (n : Int) (sent : Rat) :
    let t := (s.dequeued p sub f).onLine p sub f n sent
    t = { s with fh := t.fh } ∧
      SMap.get none (t.fhp p).line sub = some (if f.cls < 3 then { f with sent := some sent } else f) ∧
      (t.fhp p).queue = (s.fhp p).queue.filter (fun y => y.id != f.id) ∧
      (t.fhp p).credits = (if f.cls < 3 then (s.fhp p).credits
        else SMap.put 0 (s.fhp p).credits f.flow (SMap.get 0 (s.fhp p).credits f.flow - n)) ∧
      (t.fhp p).subCredits = (if f.cls < 3 then (s.fhp p).subCredits
        else SMap.put 0 (s.fhp p).subCredits sub (SMap.get 0 (s.fhp p).subCredits sub - n)) ∧
      ∀ q, q ≠ p → t.fhp q = s.fhp q := by
  have hdq := s.fhp_dequeued p sub f
  obtain ⟨v, hv⟩ : ∃ v, s.dequeued p sub f = v := ⟨_, rfl⟩
  have hrest : v = { s with fh := v.fh } := by rw [← hv]; rfl
  rw [hv] at hdq
  have hline := v.fhp_onLine p sub f n sent
  rw [hdq] at hline
  dsimp only
  rw [hv]
  refine ⟨?_, ?_, congrArg FhPort.queue hline, congrArg FhPort.credits hline, congrArg FhPort.subCredits hline, fun q hq => ?_⟩
  · rw [hrest]
    rfl
  · refine (congrArg (fun y : FhPort => SMap.get none y.line sub) hline).trans ?_
    dsimp only
    rw [SMap.get_put_self]
  · exact (State.fhp_modFhp_other _ _ hq).trans (by rw [← hv]; exact State.fhp_modFhp_other _ _ hq)

section
variable {s : State} {p sub : Nat} {f : FhFrame} (hs : s.clocksStopped = false) (hp : p < 24) (hsub : sub < 4) (ht : s.fhTurn p sub = some f)
  (hen : s.fhEn p = true) (hstop : (s.fhp p).stop = none) (hfree : SMap.get none (s.fhp p).line sub = none)
include hs hp hsub ht hen hstop hfree

theorem egressFrameStart_sends (hup : s.fhUp p sub = true)
    (hvalid : 3 ≤ f.cls → s.getF (.fhFlowHi p f.flow) FH_FLOW_HI.VALID ≠ 0) : exec (.egressFrameStart p sub) s =
      .next (s.keep (let u := (s.dequeued p sub f).onLine p sub f (((f.len + (s.fhp p).ovh) * 256 : Nat) : Int) (s.sentAt p sub f)
        if f.cls = 1 then u.setPtp f.tb { u.ptp f.tb with t3 := some (s.sentAt p sub f) } else u)) := by
  have hgone : (!s.fhUp p sub || (decide (3 ≤ f.cls) && s.getF (.fhFlowHi p f.flow) FH_FLOW_HI.VALID == 0)) = false := by
    rw [hup]
    by_cases h3 : 3 ≤ f.cls
    · rw [beq_false_of_ne (hvalid h3)]
      simp
    · rw [decide_eq_false h3]
      rfl
  rw [exec_egressFrameStart, execEgressFrameStart, ht]
  dsimp only
  rw [hgone]
  exact State.when_of hs (by rw [decide_eq_true hp, decide_eq_true hsub, hen, hstop, hfree]; rfl)

theorem egressFrameStart_drops
    (hgone : s.fhUp p sub = false ∨ 3 ≤ f.cls ∧ s.getF (.fhFlowHi p f.flow) FH_FLOW_HI.VALID = 0) : exec (.egressFrameStart p sub) s =
      .next (s.keep (if f.cls < 3 then (s.dequeued p sub f).fhCount p 12 1 else ((s.dequeued p sub f).fhCount p 12 1).flowDrop p f.flow)) := by
  have hg : (!s.fhUp p sub || (decide (3 ≤ f.cls) && s.getF (.fhFlowHi p f.flow) FH_FLOW_HI.VALID == 0)) = true := by
    rcases hgone with h | ⟨h3, hv⟩
    · rw [h]
      rfl
    · rw [decide_eq_true h3, hv]
      exact Bool.or_true _
  rw [exec_egressFrameStart, execEgressFrameStart, ht]
  dsimp only
  rw [hg]
  exact State.when_of hs (by rw [decide_eq_true hp, decide_eq_true hsub, hen, hstop, hfree]; rfl)

end

theorem State.fh_of_regs {s t u : State} (h : u = { s with fh := u.fh }) (g : t = { u with regs := t.regs }) :
    t = { s with fh := t.fh, regs := t.regs } := by
  have hfh : t.fh = u.fh := (congrArg State.fh g).trans rfl
  rw [h] at g
  rw [hfh]
  exact g

/-- A port whose line is free again, or a dropped frame: a counter of the port and the drops of a flow. -/
theorem State.counted_keeps {s u : State} (hu : u = { s with fh := u.fh }) (p k flow : Nat) :
    let t := (u.fhCount p k 1).flowDrop p flow
    t = { s with fh := t.fh, regs := t.regs } ∧ t.fh = u.fh ∧ t.getF (.fhCnt p k) FH_CNT.VALUE = (s.getF (.fhCnt p k) FH_CNT.VALUE + 1) % 2 ^ 64 := by
  have hreg : u.reg (.fhCnt p k) = s.reg (.fhCnt p k) := by rw [hu]; rfl
  have hframe := State.regs_trans (u.fhCount_frame p k 1) (State.flowDrop_keeps _ p flow).1
  refine ⟨State.fh_of_regs hu hframe, (congrArg State.fh hframe).trans rfl, ?_⟩
  · rw [State.getF_congr ((State.flowDrop_keeps _ p flow).2 _ Reg.noConfusion), State.fhCount_self, State.getF_congr hreg]

theorem State.counted_keeps_regs {s u : State} (hu : u = { s with fh := u.fh }) (p k : Nat) :
    let t := u.fhCount p k 1
    t = { s with fh := t.fh, regs := t.regs } ∧ t.fh = u.fh ∧
      t.getF (.fhCnt p k) FH_CNT.VALUE = (s.getF (.fhCnt p k) FH_CNT.VALUE + 1) % 2 ^ 64 ∧ ∀ r, r ≠ .fhCnt p k → t.reg r = s.reg r := by
  have hreg (r : Reg) : u.reg r = s.reg r := by rw [hu]; rfl
  refine ⟨State.fh_of_regs hu (u.fhCount_frame p k 1), rfl, ?_, fun r hr => (State.fhCount_other _ _ _ _ hr).trans (hreg r)⟩
  · rw [State.fhCount_self, State.getF_congr (hreg _)]

/-! ### A frame that is late -/

/-- The port without the late frame, counted. -/
def State.lateDropped (s : State) (p id flow : Nat) : State :=
  ((s.modFhp p fun x => { x with queue := x.queue.filter fun y => y.id != id }).fhCount p 11 1).flowDrop p flow

section
variable {s : State} {p id : Nat} {f : FhFrame} (hs : s.clocksStopped = false) (hp : p < 24)
  (hf : (s.fhp p).queue.find? (fun f => f.id == id) = some f) (h3 : 3 ≤ f.cls) (hlate : (f.latest : Rat) < s.tbr)
include hs hp hf h3 hlate

theorem egressFrameLate_quiet (htell : f.cls = 4 → SMap.get false s.radio.overrun (s.getF (.fhFlowHi p f.flow) FH_FLOW_HI.CGC) = false) :
    exec (.egressFrameLate p id) s = .next (s.keep (s.lateDropped p id f.flow)) := by
  have ht : (decide (f.cls = 4) && SMap.get false s.radio.overrun (s.getF (.fhFlowHi p f.flow) FH_FLOW_HI.CGC) &&
      !s.radio.missed.contains (s.getF (.fhFlowHi p f.flow) FH_FLOW_HI.CGC, f.slot)) = false := by
    by_cases h4 : f.cls = 4
    · rw [htell h4, Bool.and_false, Bool.false_and]
    · rw [decide_eq_false h4, Bool.false_and, Bool.false_and]
  rw [exec_egressFrameLate, execEgressFrameLate, hf]
  dsimp only
  rw [ht]
  exact State.when_of hs (by rw [decide_eq_true hp, decide_eq_true h3, decide_eq_true hlate]; rfl)

theorem egressFrameLate_tells (h4 : f.cls = 4) (ho : SMap.get false s.radio.overrun (s.getF (.fhFlowHi p f.flow) FH_FLOW_HI.CGC) = true)
    (hm : (s.getF (.fhFlowHi p f.flow) FH_FLOW_HI.CGC, f.slot) ∉ s.radio.missed) :
    ∃ t, exec (.egressFrameLate p id) s = .next (s.keep t) ∧ State.Tells { s.lateDropped p id f.flow with radio :=
      { (s.lateDropped p id f.flow).radio with
        missed := (s.lateDropped p id f.flow).radio.missed ++ [(s.getF (.fhFlowHi p f.flow) FH_FLOW_HI.CGC, f.slot)] } } t := by
  have ht : (decide (f.cls = 4) && SMap.get false s.radio.overrun (s.getF (.fhFlowHi p f.flow) FH_FLOW_HI.CGC) &&
      !s.radio.missed.contains (s.getF (.fhFlowHi p f.flow) FH_FLOW_HI.CGC, f.slot)) = true := by
    rw [decide_eq_true h4, ho, Bool.eq_false_iff.2 fun h => hm (List.contains_iff_mem.1 h)]
    rfl
  rw [exec_egressFrameLate, execEgressFrameLate, hf]
  dsimp only
  rw [ht]
  refine ⟨_, State.when_of hs (by rw [decide_eq_true hp, decide_eq_true h3, decide_eq_true hlate]; rfl), ?_⟩
  exact State.Tells.foldl (fun s x => s.tells_cellError ..) _ _

end

theorem State.lateDropped_keeps (s : State) (p id flow : Nat) :
    let t := s.lateDropped p id flow
    t = { s with fh := t.fh, regs := t.regs } ∧ (t.fhp p).queue = (s.fhp p).queue.filter (fun y => y.id != id) ∧
      t.getF (.fhCnt p 11) FH_CNT.VALUE = (s.getF (.fhCnt p 11) FH_CNT.VALUE + 1) % 2 ^ 64 := by
  have hself := s.fhp_modFhp_self p fun x => { x with queue := x.queue.filter fun y => y.id != id }
  have hcount := State.counted_keeps (s := s) (u := s.modFhp p fun x => { x with queue := x.queue.filter fun y => y.id != id }) rfl p 11 flow
  obtain ⟨v, hv⟩ : ∃ v, (s.modFhp p fun x => { x with queue := x.queue.filter fun y => y.id != id }) = v := ⟨_, rfl⟩
  rw [hv] at hself hcount
  obtain ⟨hrest, hfh, hcnt⟩ := hcount
  rw [State.lateDropped, hv]
  exact ⟨hrest, by rw [State.fhp_congr hfh, hself], hcnt⟩

/-! ### Refill and Delay_Req -/

/-- A table that is built from a list of keys holds the value of each of them. -/
theorem SMap.get_foldl_putFn {α : Type} [DecidableEq α] (d : α) (v : Nat → α) (l : List Nat) (m : SMap α) {k : Nat} (hk : k ∈ l) :
    SMap.get d (l.foldl (fun m x => SMap.put d m x (v x)) m) k = v k := by
  have hstay (l : List Nat) (m : SMap α) (hm : SMap.get d m k = v k) : SMap.get d (l.foldl (fun m x => SMap.put d m x (v x)) m) k = v k := by
    induction l generalizing m with
    | nil => exact hm
    | cons x l ih =>
      refine ih _ ?_
      rw [SMap.get_put]
      split
      · next h => rw [h]
      · exact hm
  induction l generalizing m with
  | nil => exact absurd hk List.not_mem_nil
  | cons x l ih =>
    rcases List.mem_cons.1 hk with rfl | hl
    · exact hstay l _ (SMap.get_put_self d m k _)
    · exact ih _ hl

theorem execRefill_answers {s : State} {p : Nat} (hs : s.clocksStopped = false) (hp : p < 24) (hen : s.fhEn p = true)
    (hcyc : s.gtc % refillCycles (s.fhp p).period = 0) (href : (s.fhp p).refilled ≠ s.gtc + 1) :
    ∃ y : FhPort, exec (.refill p) s = .next (s.keep (s.setFhp p y)) ∧ y.refilled = s.gtc + 1 ∧ y.queue = (s.fhp p).queue ∧
      y.tokens = (((List.range 1024).filter fun f => s.getF (.fhFlowHi p f) FH_FLOW_HI.VALID == 1).filter fun f =>
        !(s.getF (.fhFlowHi p f) FH_FLOW_HI.DIR == 1)).foldl (fun m f => SMap.put 0 m f
          (min (SMap.get 0 (s.fhp p).tokens f + s.getF (.fhFlowLo p f) FH_FLOW_LO.RATE) (256 * s.getF (.fhFlowLo p f) FH_FLOW_LO.BURST))) [] := by
  rw [exec_refill, execRefill]
  dsimp only
  refine ⟨_, State.when_of hs ?_, rfl, rfl, ?_⟩
  · rw [decide_eq_true hp, hen, decide_eq_true hcyc, decide_eq_true href]
    rfl
  · with_reducible rfl

/-- The sync request of a time base whose port is p. -/
def delayReq (n : Nat) : FhFrame :=
  { id := 0, cls := 1, sub := 0, flow := 0, len := 64, earliest := 0, latest := 0, slot := 0, wire := [], tb := n, idle := false,
    got := none, sent := none }

theorem delayReqSend_answers {s : State} {n p : Nat} {t2 : Rat} (hs : s.clocksStopped = false) (hn : n < 2)
    (hport : s.getF (.timeTbCfg n) TIME_TB_CFG.PPORT = p) (hp : p < 24) (hsrc : s.psrc n = 1) (hst : s.tbState n ≠ tbOFF)
    (hen : s.fhEn p = true) (ht2 : (s.ptp n).t2 = some t2) : exec (.delayReqSend n) s = .next (s.keep
      ((s.setPtp n { s.ptp n with reqSeq := ((s.ptp n).reqSeq + 1) % 2 ^ 16, t3 := none }).fhQueue p (delayReq n))) := by
  have hbase : (s.ptpBases p).contains n = true := by
    refine List.contains_iff_mem.2 (List.mem_filter.2 ⟨?_, ?_⟩)
    · exact List.mem_range.2 hn
    · rw [hsrc, hport, decide_eq_true hst, beq_self_eq_true, beq_self_eq_true]
      rfl
  rw [exec_delayReqSend, execDelayReqSend, hport]
  exact State.when_of hs (by rw [decide_eq_true hn, decide_eq_true hp, hbase, hen, ht2]; rfl)

theorem State.ptp_setPtp_self (s : State) (n : Nat) (x : Ptp) : (s.setPtp n x).ptp n = x := SMap.get_put_self Ptp.idle s.time.ptp n x

/-- Settles O41: each command answers one equation, and what its state leaves is read off the port, the counter and the flow it changes. -/
theorem egressFramesFollowTheirCredits : Obligations.EgressFramesFollowTheirCredits := by
  refine ⟨?_, ?_, ?_, ?_, ?_, ?_, ?_, ?_, ?_⟩
  · intro s p cls flow len e l slot hs hp hflow hen hstop hdir hcls hlo hhi
    have hx := egressFrameQueue_answers (cls := cls) (len := len) (e := e) (l := l) (slot := slot) (prbs := []) hs hp hflow hen hstop hdir
      (by rw [hcls]; split <;> rfl) hlo hhi (.inr rfl) nofun
    obtain ⟨hq, hregs, hother⟩ := s.queuedFlow_keeps p len (flowFrame cls flow len e l slot (s.reg (.fhFlowHi p flow))
      (flowWire (s.reg (.fhFlowHi p flow)) []))
    exact ⟨_, _, hx, hq, rfl, rfl, rfl, rfl, rfl, rfl, rfl, hregs, hother⟩
  · intro s p cls flow len e l slot prbs hs hp hflow hen hstop hdir hplane hcls hlo hhi hprbs
    have hx := egressFrameQueue_answers (cls := cls) (len := len) (e := e) (l := l) (slot := slot) (prbs := prbs) hs hp hflow hen hstop hdir
      (by rw [hcls, if_neg hplane]) hlo hhi (.inl hcls) hprbs
    obtain ⟨hq, _, _⟩ := s.queuedFlow_keeps p len (flowFrame cls flow len e l slot (s.reg (.fhFlowHi p flow))
      (flowWire (s.reg (.fhFlowHi p flow)) prbs))
    exact ⟨_, _, hx, hq, rfl⟩
  · intro s p sub f hs hp hsub ht hen hstop hfree hup h3 hvalid
    have hx := egressFrameStart_sends hs hp hsub ht hen hstop hfree hup fun _ h0 => absurd (h0.symm.trans hvalid) (by decide)
    obtain ⟨hrest, hline, hq, hcred, hsubc, hother⟩ := s.sent_keeps p sub f (((f.len + (s.fhp p).ovh) * 256 : Nat) : Int) (s.sentAt p sub f)
    obtain ⟨u, hu⟩ : ∃ u, (s.dequeued p sub f).onLine p sub f (((f.len + (s.fhp p).ovh) * 256 : Nat) : Int) (s.sentAt p sub f) = u := ⟨_, rfl⟩
    have hn : ¬ f.cls < 3 := Nat.not_lt.2 h3
    rw [hu] at hx hrest hline hq hcred hsubc hother
    dsimp only at hx
    rw [if_neg fun h1 => hn (by omega), State.keep_of_fh (State.fh_of_rest hrest)] at hx
    rw [if_neg hn] at hline hcred hsubc
    refine ⟨u, hx, hrest, hline, hq, ?_, ?_, hother⟩
    · rw [hcred, SMap.get_put_self]
    · rw [hsubc, SMap.get_put_self]
  · intro s p sub f hs hp hsub ht hen hstop hfree
    refine ⟨fun hup hcls => ?_, fun hgone => ?_⟩
    · have hx := egressFrameStart_sends hs hp hsub ht hen hstop hfree hup fun h3 => absurd hcls (Nat.not_lt.2 h3)
      obtain ⟨hrest, hline, hq, hcred, hsubc, hother⟩ := s.sent_keeps p sub f (((f.len + (s.fhp p).ovh) * 256 : Nat) : Int) (s.sentAt p sub f)
      obtain ⟨u, hu⟩ : ∃ u, (s.dequeued p sub f).onLine p sub f (((f.len + (s.fhp p).ovh) * 256 : Nat) : Int) (s.sentAt p sub f) = u := ⟨_, rfl⟩
      rw [hu] at hx hrest hline hq hcred hsubc hother
      dsimp only at hx
      rw [if_pos hcls] at hline hcred hsubc
      have hregs : u.regs = s.regs := (congrArg State.regs hrest).trans rfl
      by_cases h1 : f.cls = 1
      · rw [if_pos h1] at hx
        exact ⟨_, _, hx, hline, rfl, rfl, fun _ => congrArg Ptp.t3 (u.ptp_setPtp_self f.tb _), hq, hcred, hsubc, hregs⟩
      · rw [if_neg h1] at hx
        exact ⟨_, _, hx, hline, rfl, rfl, fun h => absurd h h1, hq, hcred, hsubc, hregs⟩
    · have hx := egressFrameStart_drops hs hp hsub ht hen hstop hfree hgone
      have hself := s.fhp_dequeued p sub f
      obtain ⟨v, hv⟩ : ∃ v, s.dequeued p sub f = v := ⟨_, rfl⟩
      have hrest : v = { s with fh := v.fh } := by rw [← hv]; rfl
      rw [hv] at hx hself
      by_cases h3 : f.cls < 3
      · rw [if_pos h3] at hx
        obtain ⟨ht, hfh, hcnt, _⟩ := State.counted_keeps_regs hrest p 12
        rw [State.keep_of_fh ht] at hx
        exact ⟨_, hx, ht, by rw [State.fhp_congr hfh, hself], by rw [State.fhp_congr hfh, hself], hcnt⟩
      · rw [if_neg h3] at hx
        obtain ⟨ht, hfh, hcnt⟩ := State.counted_keeps hrest p 12 f.flow
        rw [State.keep_of_fh ht] at hx
        exact ⟨_, hx, ht, by rw [State.fhp_congr hfh, hself], by rw [State.fhp_congr hfh, hself], hcnt⟩
  · intro s p sub f hs hp hsub hline
    have hself := s.fhp_modFhp_self p fun x => { x with line := SMap.put none x.line sub none }
    obtain ⟨v, hv⟩ : ∃ v, (s.modFhp p fun x => { x with line := SMap.put none x.line sub none }) = v := ⟨_, rfl⟩
    have hrest : v = { s with fh := v.fh } := by rw [← hv]; rfl
    have hx : exec (.egressFrameEnd p sub) s = .next (s.keep (v.fhCount p 10 1)) := by
      rw [exec_egressFrameEnd, execEgressFrameEnd, hv]
      exact State.when_of hs (by rw [decide_eq_true hp, decide_eq_true hsub, hline]; rfl)
    obtain ⟨ht, hfh, hcnt, hregs⟩ := State.counted_keeps_regs hrest p 10
    rw [hv] at hself
    rw [State.keep_of_fh ht] at hx
    refine ⟨_, hx, ht, ?_, hcnt, hregs⟩
    rw [State.fhp_congr hfh, hself]
    exact SMap.get_put_self none _ sub none
  · intro s p id f hs hp hf hcls hlate
    obtain ⟨ht, hq, hcnt⟩ := s.lateDropped_keeps p id f.flow
    have hx : exec (.egressFrameLate p id) s = _ := egressFrameLate_quiet hs hp hf (by omega) hlate fun h4 =>
      hcls.elim (fun h => absurd (h.symm.trans h4) (by decide)) And.right
    rw [State.keep_of_fh ht] at hx
    exact ⟨_, hx, ht, hq, hcnt⟩
  · intro s p id f g hs hp hf h4 hlate ho hm
    obtain ⟨t, hx, htells⟩ := egressFrameLate_tells hs hp hf (by omega) hlate h4 ho hm
    obtain ⟨hrest, hq, _⟩ := s.lateDropped_keeps p id f.flow
    obtain ⟨v, hv⟩ : ∃ v, s.lateDropped p id f.flow = v := ⟨_, rfl⟩
    rw [hv] at htells hq hrest
    refine ⟨_, hx, ?_, ?_⟩
    · exact (congrArg FhPort.queue (State.fhp_congr htells.fh p)).trans hq
    · refine htells.missed.trans ?_
      rw [hrest]
  · intro s p hs hp hen hcyc href
    obtain ⟨y, hx, hyr, hyq, hyt⟩ := execRefill_answers hs hp hen hcyc href
    have hself : (s.setFhp p y).fhp p = y := SMap.get_put_self _ _ _ _
    refine ⟨s.setFhp p y, hx, rfl, ?_, ?_, fun q hq => SMap.get_put_other _ _ _ hq, fun f hf hvalid hdir => ?_⟩
    · rw [hself, hyr]
    · rw [hself, hyq]
    · rw [hself, hyt]
      refine SMap.get_foldl_putFn 0 (fun f => min (SMap.get 0 (s.fhp p).tokens f + s.getF (.fhFlowLo p f) FH_FLOW_LO.RATE)
        (256 * s.getF (.fhFlowLo p f) FH_FLOW_LO.BURST)) _ [] ?_
      refine List.mem_filter.2 ⟨List.mem_filter.2 ⟨List.mem_range.2 hf, beq_iff_eq.2 hvalid⟩, ?_⟩
      rw [beq_false_of_ne hdir]
      rfl
  · intro s n p t2 hs hn hport hp hsrc hst hen ht2
    have hx := delayReqSend_answers hs hn hport hp hsrc hst hen ht2
    have hptp := s.ptp_setPtp_self n { s.ptp n with reqSeq := ((s.ptp n).reqSeq + 1) % 2 ^ 16, t3 := none }
    obtain ⟨v, hv⟩ : ∃ v, s.setPtp n { s.ptp n with reqSeq := ((s.ptp n).reqSeq + 1) % 2 ^ 16, t3 := none } = v := ⟨_, rfl⟩
    have hfhp : v.fhp p = s.fhp p := by rw [← hv]; rfl
    have hregs : v.regs = s.regs := by rw [← hv]; rfl
    rw [hv] at hx hptp
    have hq := v.queue_fhQueue p (delayReq n)
    rw [hfhp] at hq
    refine ⟨_, _, hx, hq, rfl, rfl, rfl, ?_, ?_, hregs⟩
    · exact congrArg Ptp.reqSeq hptp
    · exact congrArg Ptp.t3 hptp

end Sys2Proof.Machine


namespace Sys2Proof.Machine

/-! # Cells and their messages (R408, R409, R417, R424, R425, R427 to R430) -/

theorem exec_paramRequest (q seq len phy : Nat) (s : State) : exec (.paramRequest q seq len phy) s = execParamRequest q seq len phy s := rfl
theorem exec_configRequest (q seq len phy : Nat) (cfg : CellCfg) (s : State) :
    exec (.configRequest q seq len phy cfg) s = execConfigRequest q seq len phy cfg s := rfl
theorem exec_startRequest (q seq len phy : Nat) (s : State) : exec (.startRequest q seq len phy) s = execStartRequest q seq len phy s := rfl
theorem exec_stopRequest (q seq len phy : Nat) (s : State) : exec (.stopRequest q seq len phy) s = execStopRequest q seq len phy s := rfl
theorem exec_modelLoadRequest (q seq len phy no size : Nat) (adders : List Nat) (clean signed : Bool) (s : State) :
    exec (.modelLoadRequest q seq len phy no size adders clean signed) s = execModelLoadRequest q seq len phy no size adders clean signed s := rfl
theorem exec_dpdTrainRequest (q seq len phy chain : Nat) (orders : List Nat) (samples coeffs : Nat) (s : State) :
    exec (.dpdTrainRequest q seq len phy chain orders samples coeffs) s = execDpdTrainRequest q seq len phy chain orders samples coeffs s := rfl
theorem exec_cellStart (phy : Nat) (s : State) : exec (.cellStart phy) s = execCellStart phy s := rfl
theorem exec_dlTtiRequest (q seq len phy slot : Nat) (s : State) : exec (.dlTtiRequest q seq len phy slot) s = execDlTtiRequest q seq len phy slot s := rfl
theorem exec_ulDciRequest (q seq len phy slot : Nat) (s : State) : exec (.ulDciRequest q seq len phy slot) s = execUlDciRequest q seq len phy slot s := rfl
theorem exec_txDataRequest (q seq len phy slot : Nat) (s : State) : exec (.txDataRequest q seq len phy slot) s = execTxDataRequest q seq len phy slot s := rfl
theorem exec_ulTtiRequest (q seq len phy slot pusch uci prbs : Nat) (s : State) :
    exec (.ulTtiRequest q seq len phy slot pusch uci prbs) s = execUlTtiRequest q seq len phy slot pusch uci prbs s := rfl

/-! ### What a read record leaves -/

theorem State.tells_setQp (s : State) (q : Nat) (x : Qp) : s.Tells (s.setQp q x) := ⟨rfl, fun _ _ => rfl⟩

theorem State.tells_qpTake (s : State) (q len : Nat) (above : Bool) : s.Tells (s.qpTake q len above) :=
  (s.tells_setQp q _).trans (State.tells_qpWrite ..)

theorem State.tells_showGroup (s : State) (g : Nat) : s.Tells (s.showGroup g) := by
  refine State.Tells.foldl (fun s q => ?_) _ s
  have hset (u : State) (f : Fld) (x : Nat) : u.Tells (u.setF (.rlQpStatus q) f x) := ⟨rfl, fun _ h => State.reg_setF_other _ _ _ (h q)⟩
  exact ((State.Tells.of_if (.refl s) (hset s _ _)).trans (hset _ _ _)).trans (hset _ _ _)

theorem State.Tells.cell {s t : State} (h : s.Tells t) (phy : Nat) : t.cell phy = s.cell phy :=
  congrArg (fun m => SMap.get none m phy) h.cells

theorem State.Tells.getF {s t : State} (h : s.Tells t) {r : Reg} (f : Fld) (hr : ∀ q, r ≠ .rlQpStatus q) : t.getF r f = s.getF r f :=
  State.getF_congr (h.regs r hr)

theorem State.Tells.beat {s t : State} (h : s.Tells t) : t.beat = s.beat := by rw [h.rest]
theorem State.Tells.gtc {s t : State} (h : s.Tells t) : t.gtc = s.gtc := by rw [h.rest]
theorem State.Tells.boot {s t : State} (h : s.Tells t) : t.boot = s.boot := by rw [h.rest]
theorem State.Tells.p5 {s t : State} (h : s.Tells t) : t.radio.p5 = s.radio.p5 := by rw [h.rest]
theorem State.Tells.models {s t : State} (h : s.Tells t) : t.radio.models = s.radio.models := by rw [h.rest]
theorem State.Tells.cores {s t : State} (h : s.Tells t) : t.cores = s.cores := by rw [h.rest]

theorem State.Tells.mpServes {s t : State} (h : s.Tells t) : t.mpServes = s.mpServes := by
  unfold State.mpServes
  rw [h.boot, h.getF _ fun _ => Reg.noConfusion]

theorem State.Tells.nextFrame {s t : State} (h : s.Tells t) : t.nextFrame = s.nextFrame := by
  unfold State.nextFrame State.perMs
  rw [h.beat, h.gtc, h.getF _ fun _ => Reg.noConfusion]

theorem State.Tells.slotBeats {s t : State} (h : s.Tells t) (mu : Nat) : t.slotBeats mu = s.slotBeats mu := by
  unfold State.slotBeats
  rw [h.beat]

theorem State.Tells.beatsTo {s t : State} (h : s.Tells t) (mu slot : Nat) : t.beatsTo mu slot = s.beatsTo mu slot := by
  unfold State.beatsTo State.perMs
  rw [h.slotBeats, h.beat, h.getF _ fun _ => Reg.noConfusion]

/-! ### Reading a record -/

/-- A good record of a queue pair takes its effect on the state in which it has been read. -/
theorem State.Inbound.takes {s : State} {q seq len phy : Nat} {idle : Bool} (h : s.Inbound q seq len phy idle) {idle' : Bool}
    (hi : idle = true → idle' = true) (eff : State → State) :
    fapiMsg q seq len phy idle' eff s = .next (s.keep (eff (s.qpTake q len false))) := by
  have habove : decide ((s.qp q).inProd < (s.qp q).inCons +
      ringNeed (2 ^ s.getF (.rlQpCtl q) RL_QP_CTL.LIN) (s.qp q).inCons (recordSize len)) = false := decide_eq_false (Nat.not_lt.2 h.whole)
  have hguard : (decide (q < 64) && s.qpLive q && decide ((s.qp q).inCons < (s.qp q).inProd)) = true := by
    rw [decide_eq_true h.pair, h.live, decide_eq_true h.some_]
    rfl
  unfold fapiMsg
  dsimp only
  rw [habove, decide_eq_true h.seq]
  rcases h.cell with ⟨c, hc, hctx⟩ | ⟨hc, hidle, hphy⟩
  · rw [hc]
    refine (congrArg (s.when _) (if_pos ?_)).trans (State.when_of h.clocks hguard)
    exact beq_iff_eq.2 hctx
  · rw [hc]
    refine (congrArg (s.when _) (if_pos ?_)).trans (State.when_of h.clocks hguard)
    rw [hi hidle, decide_eq_true hphy]
    rfl

/-- A record whose PHYID names no cell that can be (R417). -/
theorem fapiMsg_unknown {s : State} {q seq len phy : Nat} {idle : Bool} {eff : State → State} (hs : s.clocksStopped = false) (hq : q < 64)
    (hlive : s.qpLive q = true) (hsome : (s.qp q).inCons < (s.qp q).inProd) (hc : s.cell phy = none) (hphy : 1024 ≤ phy) :
    fapiMsg q seq len phy idle eff s = .next (s.keep ((s.qpTake q len (decide ((s.qp q).inProd < (s.qp q).inCons +
      ringNeed (2 ^ s.getF (.rlQpCtl q) RL_QP_CTL.LIN) (s.qp q).inCons (recordSize len)))).errorInd q phy 0x80 [])) := by
  unfold fapiMsg
  dsimp only
  rw [hc]
  dsimp only
  rw [decide_eq_false (Nat.not_lt.2 hphy), Bool.and_false, Bool.and_false]
  exact State.when_of hs (by rw [decide_eq_true hq, hlive, decide_eq_true hsome]; rfl)

/-! ### Messages for Grizor -/

/-- A message that Grizor can handle at once. -/
theorem State.p5Take_runs {s : State} {w : P5Work} (h0 : s.radio.p5 = []) (hr : s.p5Ready w = true) : s.p5Take w = s.p5Do w := by
  have hback : { s with radio := { s.radio with p5 := [] } } = s := by rw [← h0]
  have hready : State.p5Ready { s with radio := { s.radio with p5 := [w] } } w = true := hr
  simp only [State.p5Take, h0, List.nil_append, List.length_nil, State.p5Run, hready, if_true, hback]

/-- Messages wait in order while Grizor does not serve. -/
theorem State.p5Take_waits {s : State} {w : P5Work} (h : s.mpServes = false) :
    s.p5Take w = { s with radio := { s.radio with p5 := s.radio.p5 ++ [w] } } := by
  obtain ⟨u, hu⟩ : ∃ u : State, { s with radio := { s.radio with p5 := s.radio.p5 ++ [w] } } = u := ⟨_, rfl⟩
  have hready (w : P5Work) : u.p5Ready w = false := by
    rw [← hu]
    exact (congrArg (· && _) h).trans (Bool.false_and _)
  rw [State.p5Take, hu, State.p5Run]
  split
  · rfl
  · next w' rest _ => rw [hready w', if_neg Bool.false_ne_true]

theorem State.Inbound.p5_runs {s : State} {q seq len phy : Nat} {idle : Bool} (h : s.Inbound q seq len phy idle) {idle' : Bool}
    (hi : idle = true → idle' = true) {m : P5Msg} (hg : s.mpServes = true) (h0 : s.radio.p5 = [])
    (hm : m = .start → s.beat.started = true) : fapiMsg q seq len phy idle' (fun s => s.p5Take ⟨q, phy, m⟩) s =
      .next (s.keep ((s.qpTake q len false).p5Do ⟨q, phy, m⟩)) := by
  have ht := s.tells_qpTake q len false
  have hready : (s.qpTake q len false).p5Ready ⟨q, phy, m⟩ = true := by
    unfold State.p5Ready
    rw [ht.mpServes, hg, ht.beat]
    by_cases hs : m = .start
    · rw [hm hs]
      simp
    · rw [bne_iff_ne.2 hs]
      rfl
  rw [h.takes hi, State.p5Take_runs (ht.p5.trans h0) hready]

theorem State.Inbound.p5_waits {s : State} {q seq len phy : Nat} {idle : Bool} (h : s.Inbound q seq len phy idle) {idle' : Bool}
    (hi : idle = true → idle' = true) {m : P5Msg} (hg : s.mpServes = false) : fapiMsg q seq len phy idle' (fun s => s.p5Take ⟨q, phy, m⟩) s =
      .next (s.keep { s.qpTake q len false with radio := { (s.qpTake q len false).radio with
        p5 := (s.qpTake q len false).radio.p5 ++ [⟨q, phy, m⟩] } }) := by
  rw [h.takes hi, State.p5Take_waits ((s.tells_qpTake q len false).mpServes.trans hg)]

/-! ### Configuration, start and stop -/

theorem State.cell_setCell_self (s : State) (phy : Nat) (c : Option Cell) : (s.setCell phy c).cell phy = c := SMap.get_put_self none _ phy c
theorem State.cell_setCell_other (s : State) {phy m : Nat} (c : Option Cell) (h : m ≠ phy) : (s.setCell phy c).cell m = s.cell m :=
  SMap.get_put_other none _ _ h
theorem State.cell_setCell (s : State) (phy : Nat) (c : Option Cell) (m : Nat) :
    (s.setCell phy c).cell m = if m = phy then c else s.cell m := SMap.get_put none _ phy m c
theorem State.cell_modCell_self {s : State} {phy : Nat} {c : Cell} (h : s.cell phy = some c) (f : Cell → Cell) :
    (s.modCell phy f).cell phy = some (f c) := by rw [State.modCell, State.cell_setCell_self, h]; rfl
theorem State.cell_modCell_other (s : State) {phy m : Nat} (f : Cell → Cell) (h : m ≠ phy) : (s.modCell phy f).cell m = s.cell m :=
  s.cell_setCell_other _ h

theorem State.radio_clearFlows (s : State) (phy : Nat) (c : Cell) : (s.clearFlows phy c).radio = s.radio := by
  unfold State.clearFlows
  dsimp only
  refine (foldl_keeps (π := State.radio) (fun _ _ => ?_) _ _).trans ((foldl_keeps (π := State.radio) (fun _ _ => ?_) _ _).trans
    (foldl_keeps (π := State.radio) (fun _ _ => ?_) _ s))
  · rfl
  · rfl
  · rfl

theorem State.radio_writeFlows (s : State) (c : CellCfg) : (s.writeFlows c).radio = s.radio := by
  unfold State.writeFlows
  dsimp only
  refine (foldl_keeps (π := State.radio) (fun _ _ => ?_) _ _).trans ((foldl_keeps (π := State.radio) (fun _ _ => ?_) _ _).trans
    (foldl_keeps (π := State.radio) (fun _ _ => ?_) _ s))
  · rfl
  · rfl
  · rfl

/-- The entry of a configured cell (R417). -/
def configuredCell (g : Nat) (c : CellCfg) (cost : Nat) : Cell :=
  { ctx := g
    phase := .configured
    mu := c.mu
    cost := cost
    pool := c.pool
    model := c.model
    fallback := 0
    flows := c.flows.map fun x => (x.1, x.2.1)
    wins := c.wins.map fun x => (x.1, x.2.1)
    shapers := c.shapers.map fun x => (x.1, x.2.1)
    start := none
    stopping := false
    accepted := [] }

/-- The state in which a cell's context exists and its former flows are cleared. -/
def State.preparedCell (s : State) (phy g : Nat) : State :=
  let u := if s.contexts.contains g then s else s.setRctx g .up
  match u.cell phy with
  | some x => u.clearFlows phy x
  | none => u

theorem State.preparedCell_keeps (s : State) (phy g : Nat) :
    (s.preparedCell phy g).radio.cells = s.radio.cells ∧ (s.preparedCell phy g).radio.models = s.radio.models := by
  have hctx : ∀ u : State, u = (if s.contexts.contains g then s else s.setRctx g .up) →
      u.radio.cells = s.radio.cells ∧ u.radio.models = s.radio.models := by
    rintro u rfl
    split
    · exact ⟨rfl, rfl⟩
    · exact ⟨rfl, rfl⟩
  unfold State.preparedCell
  dsimp only
  split
  · rw [State.radio_clearFlows]
    exact hctx _ rfl
  · exact hctx _ rfl

theorem State.configure_eq (s : State) (phy g : Nat) (c : CellCfg) : s.configure phy g c =
    (((s.preparedCell phy g).setCell phy (some (configuredCell g c (((s.preparedCell phy g).cellCost c).getD 0)))).writeFlows c).showGroup g := by
  unfold State.configure State.preparedCell
  dsimp only
  rfl

theorem State.cell_configure (s : State) (phy g : Nat) (c : CellCfg) (m : Nat) : (s.configure phy g c).cell m =
    if m = phy then some (configuredCell g c ((s.cellCost c).getD 0)) else s.cell m := by
  obtain ⟨hcells, hmodels⟩ := s.preparedCell_keeps phy g
  have hcost : (s.preparedCell phy g).cellCost c = s.cellCost c := by
    unfold State.cellCost
    rw [hmodels]
  rw [State.configure_eq, (State.tells_showGroup _ g).cell, State.cell, State.radio_writeFlows, hcost]
  obtain ⟨v, hv⟩ : ∃ v, s.preparedCell phy g = v := ⟨_, rfl⟩
  rw [hv] at hcells ⊢
  refine (v.cell_setCell phy _ m).trans ?_
  rw [State.cell, hcells]
  rfl

theorem State.configRefusal_cost {s : State} {phy g : Nat} {c : CellCfg} (h : s.configRefusal phy g c = none) :
    ∃ k, s.cellCost c = some k := by
  rcases hk : s.cellCost c with _ | k
  · exfalso
    simp only [State.configRefusal, hk] at h
    repeat' split at h
    all_goals cases h
  · exact ⟨k, rfl⟩

/-! ### Slot requests (R424, R425) -/

theorem State.Inbound.slot {s : State} {q seq len phy : Nat} (h : s.Inbound q seq len phy false) {c : Cell} (hc : s.cell phy = some c)
    (t slot : Nat) (lead : Nat → Nat) (eff : State → Cell → State) : p7 t q seq len phy slot lead eff s = .next (s.keep
      (let u := s.qpTake q len false
      let late := (u.errorInd q phy errSLOT [t, slot]).event srcMp 0 0x72 0xFF c.ctx (phy % 1024 + 1024 * t)
      let late := if t = 0x80 then late.idleSlot c slot else late
      if c.phase ≠ .running ∨ c.stopping = true ∨ s.beat.started = false then u.errorInd q phy errSTATE [t, slot]
      else if hyperSlots c.mu ≤ slot then u.errorInd q phy errSFN [t, slot]
      else match s.beatsTo c.mu slot with
        | none => late
        | some k =>
          if k < lead (s.slotBeats c.mu) ∨ (k = lead (s.slotBeats c.mu) ∧ s.beat.boundary < s.gtc) then late
          else if 64 * s.slotBeats c.mu < k then u.errorInd q phy errSFN [t, slot]
          else eff u c)) := by
  have ht := s.tells_qpTake q len false
  rw [p7, h.takes (fun h => h)]
  have hcell := (ht.cell phy).trans hc
  have hbeat := ht.beat
  have hgtc := ht.gtc
  have hto := ht.beatsTo c.mu slot
  have hsb := ht.slotBeats c.mu
  obtain ⟨u, hu⟩ : ∃ u, s.qpTake q len false = u := ⟨_, rfl⟩
  rw [hu] at hcell hbeat hgtc hto hsb ⊢
  simp only [hcell, hbeat, hgtc, hto, hsb] <;> rfl

theorem running_not_refused {s : State} {c : Cell} (hrun : c.phase = .running) (hstop : c.stopping = false) (hbeat : s.beat.started = true) :
    ¬ (c.phase ≠ .running ∨ c.stopping = true ∨ s.beat.started = false) := by
  rw [hrun, hstop, hbeat]
  simp

theorem slotRequest_holds {row : Nat → Nat → Nat → Nat → Nat → Instr} {t : Nat} {lead : Nat → Nat} {work : Nat → SlotWork}
    (hrow : ∀ q seq len phy slot s, exec (row q seq len phy slot) s = p7 t q seq len phy slot lead (fun s _ => s.acceptSlot phy (work slot)) s) :
    slotRequest row t lead work := by
  intro s q seq len phy slot c h hc
  have hx := (hrow q seq len phy slot s).trans (h.slot hc t slot lead fun s _ => s.acceptSlot phy (work slot))
  dsimp only at hx
  refine ⟨fun hst => ?_, fun hrun hstop hbeat hslot => ?_, fun hrun hstop hbeat hslot k hk => ?_⟩
  · rw [hx, if_pos hst]
  · rw [hx, if_neg (running_not_refused hrun hstop hbeat), if_pos hslot]
  · rw [if_neg (running_not_refused hrun hstop hbeat), if_neg (Nat.not_le.2 hslot), hk] at hx
    dsimp only at hx
    dsimp only
    refine ⟨fun hlead h64 => ?_, fun hlead h64 => ?_, fun hlate => ?_⟩
    · rw [hx, if_neg (by omega), if_neg (by omega)]
    · rw [hx, if_neg (by omega), if_pos h64]
    · rw [hx, if_pos (by omega)]

/-- The state after a START.request of a configured cell, before its group is shown (R417, R436). -/
def State.cellDue (s : State) (phy : Nat) (c : Cell) : State :=
  let u := s.modCell phy fun c => { c with start := some s.nextFrame }
  u.setRctx c.ctx { u.rctx c.ctx with halted := false, recent := if (u.rctx c.ctx).halted then [] else (u.rctx c.ctx).recent }

theorem State.p5Start_configured {s : State} {q phy : Nat} {c : Cell} (hc : s.cell phy = some c) (hp : c.phase = .configured) :
    s.p5Start q phy = (s.cellDue phy c).showGroup c.ctx := by
  simp only [State.p5Start, hc, if_pos hp]
  rfl

theorem State.p5Start_running {s : State} {q phy : Nat} {c : Cell} (hc : s.cell phy = some c) (hp : c.phase = .running) :
    s.p5Start q phy = s.errorInd q phy errSTATE [0x04] := by
  simp only [State.p5Start, hc, hp]
  rfl

theorem State.cell_cellDue {s : State} {phy : Nat} {c : Cell} (hc : s.cell phy = some c) :
    (s.cellDue phy c).cell phy = some { c with start := some s.nextFrame } ∧ (∀ m, m ≠ phy → (s.cellDue phy c).cell m = s.cell m) ∧
      (s.cellDue phy c).cores = s.cores :=
  ⟨State.cell_modCell_self hc _, fun _ hm => s.cell_modCell_other _ hm, rfl⟩

/-- The state after a STOP.request of a configured cell, before STOP.indication. -/
def State.cellGone (s : State) (phy : Nat) (c : Cell) : State := ((s.clearFlows phy c).setCell phy none).showGroup c.ctx

theorem State.p5Stop_configured {s : State} {q phy : Nat} {c : Cell} (hc : s.cell phy = some c) (hp : c.phase = .configured) :
    s.p5Stop q phy = (s.cellGone phy c).fapi q ⟨msgSTOPIND, phy, []⟩ := by
  simp only [State.p5Stop, hc, hp]
  rfl

theorem State.p5Stop_running {s : State} {q phy : Nat} {c : Cell} (hc : s.cell phy = some c) (hp : c.phase = .running) :
    s.p5Stop q phy = if c.accepted.isEmpty then s.cellStopped phy c else s.modCell phy fun c => { c with stopping := true } := by
  simp only [State.p5Stop, hc, hp]
  rfl

theorem State.cell_cellGone (s : State) (phy : Nat) (c : Cell) : (s.cellGone phy c).cell phy = none :=
  ((State.tells_showGroup _ c.ctx).cell phy).trans (State.cell_setCell_self _ phy none)

/-- Settles O43: a read record leaves the cells alone, so that each message acts on the state in which it has been read. -/
theorem cellMessagesAndSlotRequests : Obligations.CellMessagesAndSlotRequests := by
  refine ⟨⟨?_, ?_, ?_, ?_, ?_, ?_, ?_⟩, ?_, ?_, ?_, ?_⟩
  · intro s q seq len phy h hg h0
    exact (exec_paramRequest ..).trans (h.p5_runs (fun _ => rfl) hg h0 nofun)
  · intro s q seq len phy cfg h hg h0 u g
    have ht := s.tells_qpTake q len false
    have hx : exec (.configRequest q seq len phy cfg) s = .next (s.keep (u.p5Config q phy cfg)) :=
      (exec_configRequest ..).trans (h.p5_runs (fun _ => rfl) hg h0 nofun)
    have hctx : u.getF (.rlQpCtl q) RL_QP_CTL.CTX = g := ht.getF _ fun _ => Reg.noConfusion
    rw [State.p5Config, hctx] at hx
    refine ⟨fun l hl => ?_, fun hnone => ?_⟩
    · rw [hx, hl]
    · obtain ⟨k, hk⟩ := State.configRefusal_cost hnone
      rw [hnone] at hx
      refine ⟨_, _, hx, (u.cell_configure phy g cfg phy).trans (if_pos rfl), rfl, rfl, rfl, ?_, rfl, rfl, fun m hm => ?_⟩
      · rw [hk]
        rfl
      · exact ((u.cell_configure phy g cfg m).trans (if_neg hm)).trans (ht.cell m)
  · intro s q seq len phy c h hg hbeat h0 hc
    have ht := s.tells_qpTake q len false
    have hx := (exec_startRequest q seq len phy s).trans (h.p5_runs (m := .start) (fun h => h) hg h0 fun _ => hbeat)
    have hcu := (ht.cell phy).trans hc
    refine ⟨fun hp => ?_, fun hp => ?_⟩
    · have hdue := State.cell_cellDue hcu
      have hstart := State.p5Start_configured (q := q) hcu hp
      have hnext := ht.nextFrame
      obtain ⟨u, hu⟩ : ∃ u, s.qpTake q len false = u := ⟨_, rfl⟩
      rw [hu] at hx hdue hstart hnext ht
      obtain ⟨hself, hother, hcores⟩ := hdue
      have hshow := (u.cellDue phy c).tells_showGroup c.ctx
      rw [hnext] at hself
      exact ⟨_, hx.trans (congrArg (fun t => Host.Outcome.next (s.keep t)) hstart), (hshow.cell phy).trans hself,
        fun m hm => (hshow.cell m).trans ((hother m hm).trans (ht.cell m)), hshow.cores.trans (hcores.trans ht.cores)⟩
    · exact hx.trans (congrArg (fun t => Host.Outcome.next (s.keep t)) (State.p5Start_running hcu hp))
  · intro s phy t0 c hs hc hstart h0
    have hself := State.cell_modCell_self hc fun c => { c with phase := .running, start := none }
    have hother (m : Nat) (hm : m ≠ phy) := s.cell_modCell_other (fun c => { c with phase := .running, start := none }) hm
    obtain ⟨v, hv⟩ : ∃ v, (s.modCell phy fun c => { c with phase := .running, start := none }) = v := ⟨_, rfl⟩
    have hx : exec (.cellStart phy) s = .next (s.keep (v.showGroup c.ctx)) := by
      rw [exec_cellStart, execCellStart, hc, ← hv]
      dsimp only
      exact State.when_of hs (by rw [hstart]; exact decide_eq_true h0)
    have hcores : v.cores = s.cores := by rw [← hv]; rfl
    rw [hv] at hself hother
    have hshow := v.tells_showGroup c.ctx
    exact ⟨_, hx, (hshow.cell phy).trans hself, fun m hm => (hshow.cell m).trans (hother m hm), hshow.cores.trans hcores⟩
  · intro s q seq len phy c h hg h0 hc
    have ht := s.tells_qpTake q len false
    have hx := (exec_stopRequest q seq len phy s).trans (h.p5_runs (m := .stop) (fun h => h) hg h0 nofun)
    have hcu := (ht.cell phy).trans hc
    refine ⟨fun hp hacc => ?_, fun hp hacc => ?_, fun hp => ?_⟩
    · refine hx.trans (congrArg (fun t => Host.Outcome.next (s.keep t)) ((State.p5Stop_running hcu hp).trans (if_pos ?_)))
      rw [hacc]
      rfl
    · refine ⟨_, hx.trans (congrArg (fun t => Host.Outcome.next (s.keep t)) ((State.p5Stop_running hcu hp).trans (if_neg ?_))), ?_⟩
      · exact fun he => hacc (List.isEmpty_iff.1 he)
      · exact State.cell_modCell_self hcu _
    · exact ⟨_, hx.trans (congrArg (fun t => Host.Outcome.next (s.keep t)) (State.p5Stop_configured hcu hp)), State.cell_cellGone ..⟩
  · intro s q seq len phy cfg hs hq hlive hsome hc hphy
    exact ⟨_, (exec_configRequest ..).trans (fapiMsg_unknown hs hq hlive hsome hc hphy),
      (exec_startRequest ..).trans (fapiMsg_unknown hs hq hlive hsome hc hphy)⟩
  · intro s q seq len phy no size chain samples coeffs adders orders clean signed cfg i m h hg hi
    simp only [List.mem_cons, Prod.mk.injEq, List.not_mem_nil, or_false] at hi
    rcases hi with ⟨rfl, rfl⟩ | ⟨rfl, rfl⟩ | ⟨rfl, rfl⟩ | ⟨rfl, rfl⟩ | ⟨rfl, rfl⟩ | ⟨rfl, rfl⟩
    · exact (exec_paramRequest ..).trans (h.p5_waits nofun hg)
    · exact (exec_configRequest ..).trans (h.p5_waits nofun hg)
    · exact (exec_startRequest ..).trans (h.p5_waits nofun hg)
    · exact (exec_stopRequest ..).trans (h.p5_waits nofun hg)
    · exact (exec_modelLoadRequest ..).trans (h.p5_waits nofun hg)
    · exact (exec_dpdTrainRequest ..).trans (h.p5_waits nofun hg)
  · exact slotRequest_holds exec_dlTtiRequest
  · exact slotRequest_holds exec_ulDciRequest
  · exact slotRequest_holds exec_txDataRequest
  · exact fun pusch uci prbs => slotRequest_holds fun q seq len phy slot s => exec_ulTtiRequest q seq len phy slot pusch uci prbs s

end Sys2Proof.Machine


namespace Sys2Proof.Machine

/-! # Remote access (R452 to R459) -/

theorem exec_wr (w : Nat) (h : WyHdr) (data comp : List Nat) (s : State) : exec (.wr w h data comp) s =
    s.wyArrive w h (decide (0 < data.length) && decide (h.addr % 4096 + data.length ≤ 4096)) (fun h => .wr h (data.map (BitVec.ofNat 8)))
      fun s => if s.wySeen h then s else if s.wyWaits h then s.wyStall h else s.wyWrite w h (data.map (BitVec.ofNat 8)) comp := rfl
theorem exec_rd (w : Nat) (h : WyHdr) (len : Nat) (comp data : List Nat) (s : State) : exec (.rd w h len comp data) s =
    s.wyArrive w h (decide (0 < len) && decide (h.addr % 4096 + len ≤ 4096)) (fun h => .rd h len)
      fun s => if s.wySeen h then s else if s.wyWaits h then s.wyStall h else s.wyRead w h len comp data := rfl
theorem exec_rddata (w : Nat) (h : WyHdr) (data : List Nat) (s : State) : exec (.rddata w h data) s =
    s.wyArrive w h (decide (data.length ≤ 4096)) (fun h => .rddata h (data.map (BitVec.ofNat 8))) fun s => match s.wyHeld h.tid with
      | some t => if t.write = false ∧ t.len = data.length then (s.wyFree h.tid).wyDeliver t (data.map (BitVec.ofNat 8)) else s
      | none => s := rfl
theorem exec_ack (w : Nat) (h : WyHdr) (s : State) : exec (.ack w h) s =
    s.wyArrive w h true (fun h => .ack h) fun s => match s.wyHeld h.tid with
      | some t => if t.write then s.wyFree h.tid else s
      | none => s := rfl
theorem exec_nack (w : Nat) (h : WyHdr) (cause : Nat) (s : State) : exec (.nack w h cause) s =
    s.wyArrive w h ([1, 2, 3, 4, 5, 6, 8].contains cause) (fun h => .nack h cause) fun s => match s.wyHeld h.tid with
      | some t => (s.wyFree h.tid).wyNacked t cause
      | none => s := rfl
theorem exec_transactionTimeout (tid : Nat) (s : State) : exec (.transactionTimeout tid) s = execTransactionTimeout tid s := rfl

/-! ### Where a transaction goes -/

/-- A transaction that arrives is dropped, sent on, or handled here (R452, R453). -/
theorem State.Arrives.goes {s : State} {w : Nat} {h : WyHdr} (ha : s.Arrives w h) {fits : Bool} (hf : fits = true) (msg : WyHdr → WyMsg)
    (here : State → State) :
    let u := s.wyGot w (msg h).flits
    (s.wyState w = wyFENCED → s.wyArrive w h fits msg here = .next (s.keep u)) ∧
    (s.wyState w = wyUP → h.dst ≠ s.devid → s.wyArrive w h fits msg here =
      .next (s.keep (u.wySend w h.dst (h.hops + 1) 0x7F (msg { h with hops := h.hops + 1 })))) ∧
    (s.wyState w = wyUP → h.dst = s.devid → s.wyArrive w h fits msg here = .next (s.keep (here u))) := by
  have hup : wyUP ≠ wyFENCED := by decide
  have hgo (t : State) : s.when (decide (w < 16) && wyFits h && fits && (decide (s.wyState w = wyUP) || decide (s.wyState w = wyFENCED))) t =
      .next (s.keep t) := by
    refine State.when_of ha.clocks ?_
    rw [decide_eq_true ha.port, ha.fits, hf]
    rcases ha.link with hl | hl
    · rw [decide_eq_true hl]
      rfl
    · rw [decide_eq_true hl]
      exact Bool.or_true _
  refine ⟨fun hst => ?_, fun hst hdst => ?_, fun hst hdst => ?_⟩
  · exact (hgo _).trans (by rw [if_pos hst])
  · exact (hgo _).trans (by rw [if_neg (by rw [hst]; exact hup), if_neg hdst])
  · exact (hgo _).trans (by rw [if_neg (by rw [hst]; exact hup), if_pos hdst])

/-- The same of a row that runs `wyArrive`, with what it does here rewritten. -/
theorem State.Arrives.routed_of {s : State} {w : Nat} {h : WyHdr} (ha : s.Arrives w h) {row : Instr} {fits : Bool} (hf : fits = true)
    {msg : WyHdr → WyMsg} {here here' : State → State} (hrow : exec row s = s.wyArrive w h fits msg here)
    (hhere : here (s.wyGot w (msg h).flits) = here' (s.wyGot w (msg h).flits)) : s.routed w h row msg here' := by
  obtain ⟨hfenced, hon, hto⟩ := ha.goes hf msg here
  exact ⟨fun hst => hrow.trans (hfenced hst), fun hst hd => hrow.trans (hon hst hd), fun hst hd => by
    rw [hrow, hto hst hd, hhere]⟩

theorem State.wyHeld_wyGot (s : State) (w n tid : Nat) : (s.wyGot w n).wyHeld tid = s.wyHeld tid := rfl

/-! ### What a target leaves -/

/-- An answer leaves the cores, the stacks, and which transactions are completed and held. -/
theorem State.wySend_keeps (s : State) (at_ dst hops inst : Nat) (m : WyMsg) :
    (s.wySend at_ dst hops inst m).cores = s.cores ∧ (s.wySend at_ dst hops inst m).stackSet = s.stackSet ∧
      (s.wySend at_ dst hops inst m).withy.completed = s.withy.completed ∧ (s.wySend at_ dst hops inst m).withy.held = s.withy.held := by
  have hlog (u : State) (h : s.Logged u) : u.cores = s.cores ∧ u.stackSet = s.stackSet ∧ u.withy.completed = s.withy.completed ∧
      u.withy.held = s.withy.held := by
    have hwithy : u.withy = s.withy := (congrArg State.withy h.rest).trans rfl
    exact ⟨(congrArg State.cores h.rest).trans rfl, (congrArg State.stackSet h.rest).trans rfl, by rw [hwithy], by rw [hwithy]⟩
  unfold State.wySend
  split
  · exact ⟨rfl, rfl, rfl, rfl⟩
  · exact hlog _ (s.logged_event ..)

/-- What correcting the words that a store changes in part leaves (R186). -/
structure State.Corrected (s t : State) (p : Nat) : Prop where
  withy : t.withy = s.withy
  stackKept : t.stackSet = s.stackSet
  others : ∀ q, q ≠ p → t.core q = s.core q
  data : (t.core p).sp = (s.core p).sp

theorem State.Corrected.refl (s : State) (p : Nat) : s.Corrected s p := ⟨rfl, rfl, fun _ _ => rfl, rfl⟩

theorem State.Corrected.trans {s t u : State} {p : Nat} (h : s.Corrected t p) (g : t.Corrected u p) : s.Corrected u p :=
  ⟨g.withy.trans h.withy, g.stackKept.trans h.stackKept, fun q hq => (g.others q hq).trans (h.others q hq), g.data.trans h.data⟩

theorem State.corrected_spCorrect (s : State) (p a n : Nat) : s.Corrected (s.spCorrect p a n) p := by
  obtain ⟨hrest, hother, _, _⟩ := s.spCorrect_frame p a n
  exact ⟨(congrArg State.withy hrest).trans rfl, (congrArg State.stackSet hrest).trans rfl, hother, s.spCorrect_sp p a n p⟩

theorem State.corrected_partCorrect (s : State) (p a n : Nat) : s.Corrected (s.partCorrect p a n) p := by
  have hif (u : State) (c : Prop) [Decidable c] (b : Nat) : u.Corrected (if c then u else u.spCorrect p b 1) p := by
    split
    · exact .refl u p
    · exact u.corrected_spCorrect p b 1
  exact (hif s _ a).trans (hif _ _ _)

/-- The bytes of a store into a scratchpad, and all that it leaves. -/
theorem State.spStore_keeps (s : State) (p a : Nat) (bs : List Byte) :
    let t := s.spStore p a bs
    (t.core p).sp.read a bs.length = bs ∧ (∀ b, b < a ∨ a + bs.length ≤ b → t.spByte p b = s.spByte p b) ∧
      (∀ q, q ≠ p → t.core q = s.core q) ∧ t.withy = s.withy ∧ t.stackSet = s.stackSet := by
  have hc := s.corrected_partCorrect p a bs.length
  obtain ⟨v, hv⟩ : ∃ v, s.partCorrect p a bs.length = v := ⟨_, rfl⟩
  rw [hv] at hc
  have hself : ((v.modCore p fun c => c.spWrite a bs).core p).sp = (s.core p).sp.write a bs := by
    rw [State.core_modCore_self, ← hc.data]
    rfl
  dsimp only [State.spStore]
  rw [hv]
  refine ⟨?_, fun b hb => ?_, fun q hq => ?_, hc.withy, hc.stackKept⟩
  · rw [hself, Memory.read_write]
  · unfold State.spByte
    rw [hself, Memory.byte_write_outside _ _ _ _ hb]
  · rw [State.core_modCore_other _ _ hq, hc.others q hq]

theorem State.completed_wyDone (s : State) (h : WyHdr) :
    SMap.get [] (s.wyDone h).withy.completed h.src = (h.tid :: SMap.get [] s.withy.completed h.src).take 4096 := by
  unfold State.wyDone
  dsimp only
  rw [SMap.get_put_self]

/-- The state of a target that acknowledges, after its scratchpad has taken the bytes. -/
theorem State.wyAck_keeps (s : State) (w n len : Nat) (h : WyHdr) (two : Bool) (m : WyMsg) :
    let t := ((s.wyDone h).wyCharge n len two).wySend w h.src 0 n m
    t.cores = s.cores ∧ t.stackSet = s.stackSet ∧ t.wySeen h = true := by
  obtain ⟨v, hv⟩ : ∃ v, (s.wyDone h).wyCharge n len two = v := ⟨_, rfl⟩
  have hcores : v.cores = s.cores := by rw [← hv]; rfl
  have hstack : v.stackSet = s.stackSet := by rw [← hv]; rfl
  have hdone : SMap.get [] v.withy.completed h.src = (h.tid :: SMap.get [] s.withy.completed h.src).take 4096 := by
    rw [← hv]
    exact s.completed_wyDone h
  obtain ⟨hc, hs, hcomp, _⟩ := v.wySend_keeps w h.src 0 n m
  dsimp only
  rw [hv]
  refine ⟨hc.trans hcores, hs.trans hstack, ?_⟩
  unfold State.wySeen
  rw [hcomp, hdone]
  exact List.contains_iff_mem.2 List.mem_cons_self

theorem State.wyWrite_scratch {s : State} {w n p a : Nat} {h : WyHdr} {data : List Byte} {comp : List Nat}
    (hg : s.groupInst h.group = some n) (haddr : h.addr / 2 ^ 47 = 1) (hsc : s.wyScratch n h.addr data.length = some (p, a))
    (hgood : (s.core p).partialBad a data.length = false) : s.wyWrite w h data comp =
      (((s.spStore p a data).wyDone h).wyCharge n data.length false).wySend w h.src 0 n (.ack ((s.spStore p a data).wyAnswer h)) := by
  unfold State.wyWrite
  dsimp only
  rw [hg]
  dsimp only
  rw [if_pos haddr, hsc]
  dsimp only
  rw [if_neg (by rw [hgood]; exact Bool.false_ne_true)]

theorem State.wyWrite_noGroup {s : State} {w : Nat} {h : WyHdr} (hg : s.groupInst h.group = none) (data : List Byte) (comp : List Nat) :
    s.wyWrite w h data comp = s.wyRefuse w h 0x7F 6 := by
  simp only [State.wyWrite, hg]

theorem State.wyRead_noGroup {s : State} {w : Nat} {h : WyHdr} (hg : s.groupInst h.group = none) (len : Nat) (comp bytes : List Nat) :
    s.wyRead w h len comp bytes = s.wyRefuse w h 0x7F 6 := by
  simp only [State.wyRead, hg]

theorem State.wyRead_scratch {s : State} {w n : Nat} {h : WyHdr} (hg : s.groupInst h.group = some n) (haddr : h.addr / 2 ^ 47 = 1)
    (len : Nat) (comp bytes : List Nat) : s.wyRead w h len comp bytes = s.wyRefuse w h n 8 := by
  simp only [State.wyRead, hg, if_pos haddr]

/-! ### Holding and freeing -/

theorem State.wyStall_new {s : State} {h : WyHdr} (hnew : ∀ q ∈ s.withy.stalled, q.src = h.src → q.tid ≠ h.tid) :
    s.wyStall h = { s with withy := { s.withy with stalled := s.withy.stalled ++ [h] } } := by
  refine if_neg fun hany => ?_
  obtain ⟨q, hq, hb⟩ := List.any_eq_true.1 hany
  rw [Bool.and_eq_true, beq_iff_eq, beq_iff_eq] at hb
  exact hnew q hq hb.1 hb.2

/-- The serial distance of the next TID is 1, also past the end of the 32 bits. -/
theorem next_tid_distance {a : Nat} (h : a < 2 ^ 32) : ((a + 1) % 2 ^ 32 + 2 ^ 32 - a) % 2 ^ 32 = 1 := by
  omega

/-- A held ORD transaction holds the next one of its source and group (R454). -/
theorem State.wyWaits_next {s : State} {h g : WyHdr} (hmem : h ∈ s.withy.stalled) (htid : h.tid < 2 ^ 32) (hord : g.ord = true)
    (hsrc : g.src = h.src) (hgroup : g.group = h.group) (hnext : g.tid = (h.tid + 1) % 2 ^ 32) : s.wyWaits g = true := by
  have hd := next_tid_distance htid
  unfold State.wyWaits
  rw [hord, Bool.true_and]
  refine List.any_eq_true.2 ⟨h, hmem, ?_⟩
  rw [hsrc, hgroup, hnext, hd, beq_self_eq_true, beq_self_eq_true]
  rfl

theorem State.wyHeld_wyFree_self (s : State) (tid : Nat) : (s.wyFree tid).wyHeld tid = none := by
  refine List.find?_eq_none.2 fun t ht => ?_
  have hne := (List.mem_filter.1 ht).2
  rw [bne_iff_ne] at hne
  exact fun h => hne (beq_iff_eq.1 h)

theorem State.wyHeld_wyFree_other (s : State) {tid tid' : Nat} (h : tid' ≠ tid) : (s.wyFree tid).wyHeld tid' = s.wyHeld tid' := by
  unfold State.wyHeld State.wyFree
  dsimp only
  rw [List.find?_filter]
  congr 1
  funext t
  by_cases ht : t.tid = tid'
  · rw [ht, beq_self_eq_true, bne_iff_ne.2 h]
    rfl
  · rw [beq_false_of_ne ht]
    simp

/-! ### A transaction that is not answered -/

/-- A held transaction with one more attempt (R459). -/
def txnAgain (t : WyTxn) (now : Nat) : WyTxn := { t with attempts := t.attempts + 1, at_ := now }

/-- The held transactions with one sent again. -/
def State.wyAgain (s : State) (tid : Nat) : State :=
  { s with withy.held := s.withy.held.map fun x => if x.tid = tid then txnAgain x s.gtc else x }

theorem State.wyHeld_wyAgain {s : State} {tid : Nat} {t : WyTxn} (h : s.wyHeld tid = some t) :
    (s.wyAgain tid).wyHeld tid = some (txnAgain t s.gtc) := by
  unfold State.wyHeld State.wyAgain at *
  dsimp only
  generalize s.withy.held = l at h
  induction l with
  | nil => exact absurd h nofun
  | cons x l ih =>
    by_cases hx : x.tid = tid
    · rw [List.find?_cons_of_pos (p := fun t : WyTxn => t.tid == tid) (beq_iff_eq.2 hx)] at h
      rw [List.map_cons, if_pos hx, List.find?_cons_of_pos (p := fun t : WyTxn => t.tid == tid) (a := txnAgain x s.gtc) (beq_iff_eq.2 hx),
        Option.some.inj h]
    · rw [List.find?_cons_of_neg (p := fun t : WyTxn => t.tid == tid) (by rw [beq_iff_eq]; exact hx)] at h
      rw [List.map_cons, if_neg hx, List.find?_cons_of_neg (p := fun t : WyTxn => t.tid == tid) (by rw [beq_iff_eq]; exact hx)]
      exact ih h

theorem transactionTimeout_answers {s : State} {tid : Nat} {t : WyTxn} (hs : s.clocksStopped = false) (ht : s.wyHeld tid = some t)
    (hdue : t.at_ + 3600 * s.getF .wyRto WY_RTO.TIMEOUT ≤ s.gtc) : exec (.transactionTimeout tid) s = .next (s.keep (s.wyResend t)) := by
  rw [exec_transactionTimeout, execTransactionTimeout, ht]
  exact State.when_of hs (decide_eq_true hdue)

/-- Settles O45: the three ways of a transaction, what a target's write leaves, and which transactions are held. -/
theorem remoteTransactionsAreRoutedAndAnswered : Obligations.RemoteTransactionsAreRoutedAndAnswered := by
  refine ⟨?_, ?_, ?_, ?_, ?_, ?_, fun s w len h data comp bytes hg => ⟨State.wyWrite_noGroup hg .., State.wyRead_noGroup hg ..⟩,
    fun s w n len h comp bytes hg ha => State.wyRead_scratch hg ha .., ?_, ?_, ?_, ?_⟩
  · intro s w h data comp ha h0 hfit
    refine ha.routed_of ?_ (exec_wr w h data comp s) rfl
    rw [decide_eq_true h0, decide_eq_true hfit]
    rfl
  · intro s w len h data comp ha h0 hfit
    refine ha.routed_of ?_ (exec_rd w h len comp data s) rfl
    rw [decide_eq_true h0, decide_eq_true hfit]
    rfl
  · intro s w h data t ha hlen ht hw htl
    refine ha.routed_of (decide_eq_true hlen) (exec_rddata w h data s) ?_
    rw [State.wyHeld_wyGot, ht]
    exact if_pos ⟨hw, htl⟩
  · intro s w h t ha ht hw
    refine ha.routed_of rfl (exec_ack w h s) ?_
    rw [State.wyHeld_wyGot, ht]
    exact if_pos hw
  · intro s w cause h t ha hc ht
    refine ha.routed_of (List.contains_iff_mem.2 ?_) (exec_nack w h cause s) ?_
    · simp only [List.mem_cons, List.not_mem_nil, or_false]
      omega
    · rw [State.wyHeld_wyGot, ht]
  · intro s w h data ha hlen ht
    refine ⟨ha.routed_of (decide_eq_true hlen) (exec_rddata w h data s) ?_, ha.routed_of rfl (exec_ack w h s) ?_⟩
    · rw [State.wyHeld_wyGot, ht]
      rfl
    · rw [State.wyHeld_wyGot, ht]
      rfl
  · intro s w n p a h data comp hg haddr hsc hgood t
    have ht : t = _ := State.wyWrite_scratch (comp := comp) hg haddr hsc hgood
    obtain ⟨hread, hout, hother, _, hstack⟩ := s.spStore_keeps p a data
    obtain ⟨v, hv⟩ : ∃ v, s.spStore p a data = v := ⟨_, rfl⟩
    rw [hv] at ht hread hout hother hstack
    obtain ⟨hc, hs, hseen⟩ := v.wyAck_keeps w n data.length h false (.ack (v.wyAnswer h))
    rw [ht]
    refine ⟨?_, fun b hb => ?_, fun q hq => ?_, hseen, hs.trans hstack⟩
    · rw [State.core_congr hc]
      exact hread
    · unfold State.spByte
      rw [State.core_congr hc]
      exact hout b hb
    · rw [State.core_congr hc, hother q hq]
  · intro s h htid hnew
    rw [State.wyStall_new hnew]
    exact ⟨rfl, fun g hord hsrc hgroup hnext =>
      State.wyWaits_next (List.mem_append_right _ (List.mem_singleton.2 rfl)) htid hord hsrc hgroup hnext⟩
  · exact fun s tid tid' t _ => ⟨s.wyHeld_wyFree_self tid, fun h => s.wyHeld_wyFree_other h⟩
  · intro s tid t hs ht hdue
    have htid : t.tid = tid := beq_iff_eq.1 (List.find?_some (p := fun t : WyTxn => t.tid == tid) ht)
    have hx := transactionTimeout_answers hs ht hdue
    refine ⟨fun h4 => ?_, fun h4 => ?_⟩
    · have hagain := State.wyHeld_wyAgain ht
      have hresend : s.wyResend t = (s.wyAgain tid).wyPost t := by
        rw [State.wyResend, if_pos h4, htid]
        rfl
      obtain ⟨v, hv⟩ : ∃ v, s.wyAgain tid = v := ⟨_, rfl⟩
      have hcores : v.cores = s.cores := by rw [← hv]; rfl
      rw [hv] at hagain hresend
      rw [hresend] at hx
      obtain ⟨hc, _, _, hheld⟩ := v.wySend_keeps (v.getF (.wyRoute t.dst) WY_ROUTE.PRI) t.dst 0 t.ctx.inst (t.msg (v.getF .wyDevid WY_DEVID.ID))
      refine ⟨_, hx, ?_, hc.trans hcores⟩
      exact (congrArg (fun l => l.find? fun t : WyTxn => t.tid == tid) hheld).trans hagain
    · rw [hx, State.wyResend, if_neg (Nat.not_lt.2 h4), htid]

end Sys2Proof.Machine


namespace Sys2Proof.Machine

/-! # What the time bases change: registers, the log and the time units (R361 to R376) -/

def State.Times (s t : State) : Prop := t = { s with regs := t.regs, log := t.log, time := t.time }

theorem State.Times.refl (s : State) : s.Times s := rfl

theorem State.Times.trans {s t u : State} (h : s.Times t) (g : t.Times u) : s.Times u := by
  unfold State.Times at h g
  rw [h] at g
  exact g

theorem State.Times.of_if {s t u : State} {c : Prop} [Decidable c] (h : s.Times t) (g : s.Times u) : s.Times (if c then t else u) := by
  split
  · exact h
  · exact g

theorem State.Times.foldl {α : Type} {f : State → α → State} (h : ∀ (s : State) a, s.Times (f s a)) (l : List α) (s : State) :
    s.Times (l.foldl f s) := by
  induction l generalizing s with
  | nil => exact .refl s
  | cons a l ih => exact (h s a).trans (ih _)

theorem State.Times.withy {s t : State} (h : s.Times t) : t.withy = s.withy := by rw [h]

theorem State.Logged.times {s t : State} (h : s.Logged t) : s.Times t := by
  have hrest := h.rest
  have htime : t.time = s.time := (congrArg State.time hrest).trans rfl
  unfold State.Times
  rw [htime]
  exact hrest

theorem State.times_setF (s : State) (r : Reg) (f : Fld) (x : Nat) : s.Times (s.setF r f x) := rfl
theorem State.times_setTb (s : State) (n : Nat) (x : TimeBase) : s.Times (s.setTb n x) := rfl
theorem State.times_showRate (s : State) (n : Nat) : s.Times (s.showRate n) := rfl
theorem State.times_setRate (s : State) (n : Nat) (y : Rat) : s.Times (s.setRate n y) := (s.times_setTb n _).trans (State.times_showRate _ n)
theorem State.times_tbNote (s : State) (n old new : Nat) : s.Times (s.tbNote n old new) := (State.logged_event ..).times

theorem State.times_setTbState (s : State) (n new : Nat) : s.Times (s.setTbState n new) := by
  have hone (u : State) (k : Nat) : u.Times (if u.tbState k = new then u else
      (u.setF (.timeTbStatus k) TIME_TB_STATUS.STATE new).tbNote k (u.tbState k) new) :=
    .of_if (.refl u) ((u.times_setF _ _ _).trans (State.times_tbNote ..))
  exact ((hone s n).trans (.of_if (hone _ 2) (.refl _))).trans (.of_if (hone _ 3) (.refl _))

theorem State.times_setD (s : State) (d : Rat) : s.Times (s.setD d) :=
  State.Times.trans (t := { s with time := { s.time with d := d } }) rfl ((State.times_setF _ _ _ _).trans (State.times_setF _ _ _ _))

theorem State.times_stepTb (s : State) (n : Nat) (e : Rat) : s.Times (s.stepTb n e) :=
  ((s.times_setTb n _).trans (State.logged_event ..).times).trans
    (.of_if ((State.times_setD _ _).trans (State.logged_event ..).times) (.refl _))

theorem State.times_clockSource (s : State) : s.Times s.clockSource := by
  unfold State.clockSource
  split
  · rfl
  · rfl
  · rfl

theorem State.times_measure (s : State) (n : Nat) (e : Rat) : s.Times (s.measure n e) := by
  unfold State.measure
  dsimp only
  refine State.Times.of_if (.refl s) ?_
  refine State.Times.trans ?_ (State.times_clockSource _)
  refine State.Times.trans ?_ (.of_if (State.times_stepTb _ n e) (.refl _))
  refine State.Times.trans ?_ ((State.times_setTb _ n _).trans (State.times_setRate _ n _))
  refine State.Times.trans ?_ (State.times_setF _ _ _ _)
  exact .of_if (s.times_setTbState n tbACQUIRE) (.refl s)

/-! # Bring-up and retry of a Withy port (R443, R444, R450, R461, R462) -/

theorem exec_cableDetected (w : Nat) (s : State) : exec (.cableDetected w) s = execCableDetected w s := rfl
theorem exec_cableIdentityReadComplete (w : Nat) (record : List Nat) (serial mates hours : Nat) (signed : Bool) (s : State) :
    exec (.cableIdentityReadComplete w record serial mates hours signed) s = execCableIdentityReadComplete w record serial mates hours signed s := rfl
theorem exec_linkUp (w peer : Nat) (lr : Bool) (lanes : Nat) (fofs : Int) (s : State) :
    exec (.linkUp w peer lr lanes fofs) s = execLinkUp w peer lr lanes fofs s := rfl
theorem exec_retrain (w : Nat) (lock : Bool) (lanes : Nat) (s : State) : exec (.retrain w lock lanes) s = execRetrain w lock lanes s := rfl
theorem exec_flitCrcError (w after : Nat) (s : State) : exec (.flitCrcError w after) s = execFlitCrcError w after s := rfl
theorem exec_nak (w good credits : Nat) (s : State) : exec (.nak w good credits) s = execNak w good credits s := rfl
theorem exec_laneHourTick (w l : Nat) (s : State) : exec (.laneHourTick w l) s = execLaneHourTick w l s := rfl
theorem exec_ledgerCopy (s : State) : exec .ledgerCopy s = execLedgerCopy s := rfl
theorem exec_ringTimeExchange (w : Nat) (s : State) : exec (.ringTimeExchange w) s = execRingTimeExchange w s := rfl
theorem exec_time (w kind n ts frac : Nat) (s : State) : exec (.time w kind n ts frac) s = execTime w kind n ts frac s := rfl

theorem State.wyPort_setWyPort_self (s : State) (w : Nat) (x : WyPort) : (s.setWyPort w x).wyPort w = x :=
  SMap.get_put_self WyPort.zero s.withy.ports w x
theorem State.wyPort_setWyPort_other (s : State) {w v : Nat} (x : WyPort) (h : v ≠ w) : (s.setWyPort w x).wyPort v = s.wyPort v :=
  SMap.get_put_other _ _ _ h
theorem State.wyPort_modWyPort_self (s : State) (w : Nat) (f : WyPort → WyPort) : (s.modWyPort w f).wyPort w = f (s.wyPort w) :=
  s.wyPort_setWyPort_self w _
theorem State.wyPort_modWyPort_other (s : State) {w v : Nat} (f : WyPort → WyPort) (h : v ≠ w) : (s.modWyPort w f).wyPort v = s.wyPort v :=
  s.wyPort_setWyPort_other _ h

theorem State.reg_modWyPort (s : State) (w : Nat) (f : WyPort → WyPort) (r : Reg) : (s.modWyPort w f).reg r = s.reg r := rfl

/-- A saturating count, for every field. -/
theorem State.getF_satF_self (s : State) (r : Reg) (f : Fld) (n : Nat) (h1 : f.lo ≤ f.hi) (h2 : f.hi < 64) :
    (s.satF r f n).getF r f = min (s.getF r f + n) f.top := by
  rw [State.satF, State.getF_setF_self _ _ _ _ h1 h2]
  refine Nat.mod_eq_of_lt (Nat.lt_of_le_of_lt (Nat.min_le_right _ _) ?_)
  exact Nat.sub_lt (Nat.two_pow_pos _) Nat.one_pos

theorem State.reg_satF_other (s : State) (r : Reg) (f : Fld) (n : Nat) {q : Reg} (h : q ≠ r) : (s.satF r f n).reg q = s.reg q :=
  State.reg_setF_other _ _ _ h

theorem State.wyState_setWyState (s : State) (w : Nat) {st : Nat} (h : st < 8) : (s.setWyState w st).wyState w = st := by
  rw [State.setWyState, State.wyState, State.getF_setF_self _ _ _ _ (by decide) (by decide)]
  exact Nat.mod_eq_of_lt h

theorem State.reg_setWyState_other (s : State) (w st : Nat) {r : Reg} (h : r ≠ .wyStatus w) : (s.setWyState w st).reg r = s.reg r :=
  State.reg_setF_other _ _ _ h

/-- A move of a port with its record: the state, and nothing else but the log (R464). -/
theorem State.logged_wyLink (s : State) (w st : Nat) (mode same : Bool) : (s.setWyState w st).Logged (s.wyLink w st mode same) :=
  State.logged_note ..

theorem State.wyState_wyLink (s : State) (w : Nat) {st : Nat} (h : st < 8) (mode same : Bool) : (s.wyLink w st mode same).wyState w = st :=
  ((s.logged_wyLink w st mode same).getF _ Reg.noConfusion).trans (s.wyState_setWyState w h)

/-- Bring-up of a port with a cable (R443). -/
theorem State.wyStart_state {s : State} {w : Nat} (hc : (s.wyPort w).cable = true) (hd : s.wyState w = wyDOWN) :
    (s.wyStart w).wyState w = (if s.getF (.wyCfg w) WY_CFG.EN = 1 ∧ s.devid ≠ 0xFFFF then wyIDENTITY else wyDOWN) := by
  unfold State.wyStart
  by_cases h : s.getF (.wyCfg w) WY_CFG.EN = 1 ∧ s.devid ≠ 0xFFFF
  · rw [if_pos ⟨h.1, hc, h.2, hd⟩, if_pos h]
    exact s.wyState_setWyState w (by decide)
  · rw [if_neg fun g => h ⟨g.1, g.2.2.1⟩, if_neg h, hd]

theorem State.wyStart_keeps (s : State) (w : Nat) : (s.wyStart w).withy = s.withy ∧ ∀ r, r ≠ .wyStatus w → (s.wyStart w).reg r = s.reg r := by
  unfold State.wyStart
  split
  · exact ⟨rfl, fun r h => s.reg_setWyState_other w _ h⟩
  · exact ⟨rfl, fun _ _ => rfl⟩

/-- The port of a cable that has just been inserted. -/
def insertedPort (x : WyPort) : WyPort := { WyPort.zero with cable := true, fresh := true, exch := x.exch }

theorem cableDetected_answers {s : State} {w : Nat} (hs : s.clocksStopped = false) (hw : w < 16)
    (hst : s.wyState w = wyDOWN ∨ s.wyState w = wyREFUSED) : exec (.cableDetected w) s = .next (s.keep
      ((((s.setWyPort w (insertedPort (s.wyPort w))).satF (.wyLife w) WY_LIFE.MATES 1).setWyState w wyDOWN).wyStart w)) := by
  rw [exec_cableDetected, execCableDetected]
  refine State.when_of hs ?_
  rw [decide_eq_true hw]
  rcases hst with h | h
  · rw [decide_eq_true h]
    rfl
  · rw [decide_eq_true h]
    exact Bool.or_true _

theorem cableDetected_holds {s : State} {w : Nat} (hs : s.clocksStopped = false) (hw : w < 16)
    (hst : s.wyState w = wyDOWN ∨ s.wyState w = wyREFUSED) :
    ∃ t, exec (.cableDetected w) s = .next t ∧ (t.wyPort w).cable = true ∧ (t.wyPort w).fresh = true ∧
      t.getF (.wyLife w) WY_LIFE.MATES = min (s.getF (.wyLife w) WY_LIFE.MATES + 1) WY_LIFE.MATES.top ∧
      t.wyState w = (if s.getF (.wyCfg w) WY_CFG.EN = 1 ∧ s.devid ≠ 0xFFFF then wyIDENTITY else wyDOWN) ∧
      (∀ v, v ≠ w → t.wyPort v = s.wyPort v) ∧ ∀ r, r ≠ .wyLife w → r ≠ .wyStatus w → t.reg r = s.reg r := by
  have hx := cableDetected_answers hs hw hst
  have hself := s.wyPort_setWyPort_self w (insertedPort (s.wyPort w))
  have hother (v : Nat) (hv : v ≠ w) := s.wyPort_setWyPort_other (insertedPort (s.wyPort w)) hv
  obtain ⟨u, hu⟩ : ∃ u, s.setWyPort w (insertedPort (s.wyPort w)) = u := ⟨_, rfl⟩
  have hureg (r : Reg) : u.reg r = s.reg r := by rw [← hu]; rfl
  rw [hu] at hx hself hother
  obtain ⟨v, hv⟩ : ∃ v, (u.satF (.wyLife w) WY_LIFE.MATES 1).setWyState w wyDOWN = v := ⟨_, rfl⟩
  have hvport (k : Nat) : v.wyPort k = u.wyPort k := by rw [← hv]; rfl
  have hvreg (r : Reg) (h1 : r ≠ .wyLife w) (h2 : r ≠ .wyStatus w) : v.reg r = s.reg r := by
    rw [← hv, State.reg_setWyState_other _ _ _ h2, State.reg_satF_other _ _ _ _ h1, hureg]
  have hvdown : v.wyState w = wyDOWN := by rw [← hv]; exact State.wyState_setWyState _ w (by decide)
  have hvmates : v.getF (.wyLife w) WY_LIFE.MATES = min (s.getF (.wyLife w) WY_LIFE.MATES + 1) WY_LIFE.MATES.top := by
    rw [← hv, State.getF_congr (State.reg_setWyState_other _ _ _ Reg.noConfusion), State.getF_satF_self _ _ _ _ (by decide) (by decide),
      State.getF_congr (hureg _)]
  rw [hv] at hx
  obtain ⟨hkport, hkreg⟩ := v.wyStart_keeps w
  have hport (k : Nat) : (v.wyStart w).wyPort k = u.wyPort k := (congrArg (fun x => SMap.get WyPort.zero (WithyState.ports x) k) hkport).trans (hvport k)
  have hen : v.getF (.wyCfg w) WY_CFG.EN = s.getF (.wyCfg w) WY_CFG.EN := State.getF_congr (hvreg _ Reg.noConfusion Reg.noConfusion)
  have hdev : v.devid = s.devid := State.getF_congr (hvreg _ Reg.noConfusion Reg.noConfusion)
  refine ⟨_, hx, ?_, ?_, ?_, ?_, fun k hk => ?_, fun r h1 h2 => ?_⟩
  · exact congrArg WyPort.cable ((hport w).trans hself)
  · exact congrArg WyPort.fresh ((hport w).trans hself)
  · exact (State.getF_congr (hkreg _ Reg.noConfusion)).trans hvmates
  · rw [← hen, ← hdev]
    exact State.wyStart_state (by rw [hvport, hself]; rfl) hvdown
  · exact (hport k).trans (hother k hk)
  · exact (hkreg r h2).trans (hvreg r h1 h2)

/-! ### The cable's identity (R461, R462) -/

/-- t shows the signature and the serial number of port w's cable as s does. -/
def State.SameCable (s t : State) (w : Nat) : Prop :=
  (t.wyPort w).serial = (s.wyPort w).serial ∧ t.getF (.wyLife w) WY_LIFE.SIGOK = s.getF (.wyLife w) WY_LIFE.SIGOK

theorem State.SameCable.trans {s t u : State} {w : Nat} (h : s.SameCable t w) (g : t.SameCable u w) : s.SameCable u w :=
  ⟨g.1.trans h.1, g.2.trans h.2⟩

theorem State.SameCable.of_if {s t u : State} {w : Nat} {c : Prop} [Decidable c] (h : s.SameCable t w) (g : s.SameCable u w) :
    s.SameCable (if c then t else u) w := by
  split
  · exact h
  · exact g

theorem State.SameCable.refl (s : State) (w : Nat) : s.SameCable s w := ⟨rfl, rfl⟩

theorem State.Logged.wyPort {s t : State} (h : s.Logged t) (w : Nat) : t.wyPort w = s.wyPort w := by
  have hwithy : t.withy = s.withy := (congrArg State.withy h.rest).trans rfl
  unfold State.wyPort
  rw [hwithy]

theorem State.Logged.sameCable {s t : State} (h : s.Logged t) (w : Nat) : s.SameCable t w :=
  ⟨congrArg WyPort.serial (h.wyPort w), h.getF _ Reg.noConfusion⟩

theorem State.sameCable_wyLedger (s : State) (w v : Nat) : s.SameCable (s.wyLedger v) w := by
  unfold State.wyLedger
  split
  · exact ⟨rfl, rfl⟩
  · exact .refl s w

theorem State.sameCable_wyCounts (s : State) (w serial : Nat) (fresh : Bool) : s.SameCable (s.wyCounts w serial fresh) w := by
  refine ⟨rfl, ?_⟩
  unfold State.wyCounts
  dsimp only
  rw [State.getF_setF_other _ _ _ _ _ (by decide) (by decide) (by decide) (by decide),
    State.getF_setF_other _ _ _ _ _ (by decide) (by decide) (by decide) (by decide)]

/-- The life note changes the flags of a port, and the log. -/
theorem State.wyLife_logged (s : State) (w : Nat) : ∃ x : WyPort, x.serial = (s.wyPort w).serial ∧ (s.setWyPort w x).Logged (s.wyLife w) := by
  have hif (u : State) (c : Prop) [Decidable c] (d : Nat) : u.Logged (if c then u.wyNote w 1 0x83 d else u) := by
    split
    · exact u.logged_note ..
    · exact .refl u
  unfold State.wyLife
  dsimp only
  constructor
  constructor
  rotate_left
  · exact State.Logged.trans (hif _ _ 1) (hif _ _ 2)
  · rfl

theorem State.sameCable_wyLife (s : State) (w : Nat) : s.SameCable (s.wyLife w) w := by
  obtain ⟨x, hx, hlog⟩ := s.wyLife_logged w
  refine State.SameCable.trans (t := s.setWyPort w x) ⟨?_, rfl⟩ (hlog.sameCable w)
  rw [State.wyPort_setWyPort_self, hx]

/-- The state in which a cable's identity has been read, before the port moves on. -/
def State.identityRead (s : State) (w : Nat) (record : List Nat) (serial mates hours : Nat) (signed : Bool) : State :=
  let there := !record.isEmpty
  let x := s.wyPort w
  let u := (List.range 16).foldl (fun s k => s.setReg (.wyCable w k)
    (BitVec.ofNat 64 (leNat (((record.map (BitVec.ofNat 8)).drop (8 * k)).take 8)))) s
  let u := u.setF (.wyLife w) WY_LIFE.SIGOK (there && signed).toNat
  let u := if there && x.serial.isNone then u.wyCounts w serial x.fresh else u
  let u := u.setWyPort w { x with
    fresh := x.fresh && !there, serial := if there then some serial else none, lifeMates := mates, lifeHours := hours }
  let u := if there && x.fresh && s.boot.grizor then u.wyLedger w else u
  let u := if there then u.wyLife w else u
  if there && signed then u else u.wyNote w 1 0x82 (if there then 2 else 1)

theorem State.identityRead_keeps (s : State) (w : Nat) (record : List Nat) (serial mates hours : Nat) (signed : Bool) :
    let t := s.identityRead w record serial mates hours signed
    t.getF (.wyLife w) WY_LIFE.SIGOK = (!record.isEmpty && signed).toNat ∧
      (t.wyPort w).serial = (if !record.isEmpty then some serial else none) := by
  unfold State.identityRead
  dsimp only
  obtain ⟨a, ha⟩ : ∃ a, (List.range 16).foldl (fun s k => s.setReg (.wyCable w k)
    (BitVec.ofNat 64 (leNat (((record.map (BitVec.ofNat 8)).drop (8 * k)).take 8)))) s = a := ⟨_, rfl⟩
  rw [ha]
  have hsig : (a.setF (.wyLife w) WY_LIFE.SIGOK (!record.isEmpty && signed).toNat).getF (.wyLife w) WY_LIFE.SIGOK =
      (!record.isEmpty && signed).toNat := by
    rw [State.getF_setF_self _ _ _ _ (by decide) (by decide)]
    exact Nat.mod_eq_of_lt (Bool.toNat_lt _)
  obtain ⟨b, hb⟩ : ∃ b, a.setF (.wyLife w) WY_LIFE.SIGOK (!record.isEmpty && signed).toNat = b := ⟨_, rfl⟩
  rw [hb] at hsig ⊢
  have hcount : b.SameCable (if (!record.isEmpty && (s.wyPort w).serial.isNone) = true then b.wyCounts w serial (s.wyPort w).fresh else b) w :=
    .of_if (b.sameCable_wyCounts w serial _) (.refl b w)
  obtain ⟨c, hc⟩ : ∃ c, (if (!record.isEmpty && (s.wyPort w).serial.isNone) = true then b.wyCounts w serial (s.wyPort w).fresh else b) = c :=
    ⟨_, rfl⟩
  rw [hc] at hcount ⊢
  have hport := c.wyPort_setWyPort_self w { s.wyPort w with
    fresh := (s.wyPort w).fresh && !!record.isEmpty, serial := if !record.isEmpty then some serial else none, lifeMates := mates, lifeHours := hours }
  obtain ⟨d, hd⟩ : ∃ d, c.setWyPort w { s.wyPort w with
    fresh := (s.wyPort w).fresh && !!record.isEmpty, serial := if !record.isEmpty then some serial else none, lifeMates := mates,
    lifeHours := hours } = d := ⟨_, rfl⟩
  have hdsig : d.getF (.wyLife w) WY_LIFE.SIGOK = c.getF (.wyLife w) WY_LIFE.SIGOK := by rw [← hd]; rfl
  rw [hd] at hport ⊢
  have hend : d.SameCable (let u := if (!record.isEmpty && (s.wyPort w).fresh && s.boot.grizor) = true then d.wyLedger w else d
      let u := if (!record.isEmpty) = true then u.wyLife w else u
      if (!record.isEmpty && signed) = true then u else u.wyNote w 1 0x82 (if !record.isEmpty then 2 else 1)) w :=
    ((State.SameCable.of_if (d.sameCable_wyLedger w w) (.refl d w)).trans (.of_if (State.sameCable_wyLife _ w) (.refl _ w))).trans
      (.of_if (.refl _ w) ((State.logged_note ..).sameCable w))
  obtain ⟨hserial, hsame⟩ := hend
  exact ⟨hsame.trans (hdsig.trans (hcount.2.trans hsig)), hserial.trans (congrArg WyPort.serial hport)⟩

theorem cableIdentityReadComplete_answers {s : State} {w serial m h : Nat} {record : List Nat} {signed : Bool} (hs : s.clocksStopped = false)
    (hw : w < 16) (hst : s.wyState w = wyIDENTITY) (hrec : record = [] ∨ record.length = 128) :
    exec (.cableIdentityReadComplete w record serial m h signed) s = .next (s.keep
      (let t := s.identityRead w record serial m h signed
      if (!record.isEmpty && signed || s.getF (.wyCfg w) WY_CFG.CABPOL == 1) = true then t.setWyState w wyTRAINING
      else t.wyLink w wyREFUSED false false)) := by
  rw [exec_cableIdentityReadComplete, execCableIdentityReadComplete]
  refine State.when_of hs ?_
  rw [decide_eq_true hw, decide_eq_true hst]
  rcases hrec with rfl | hlen
  · rfl
  · rw [decide_eq_true hlen]
    exact Bool.or_true _

theorem cableIdentityReadComplete_holds {s : State} {w serial m h : Nat} {record : List Nat} {signed : Bool} (hs : s.clocksStopped = false)
    (hw : w < 16) (hst : s.wyState w = wyIDENTITY) (hrec : record = [] ∨ record.length = 128) :
    ∃ t, exec (.cableIdentityReadComplete w record serial m h signed) s = .next t ∧
      t.getF (.wyLife w) WY_LIFE.SIGOK = (if record ≠ [] ∧ signed = true then 1 else 0) ∧
      t.wyState w = (if (record ≠ [] ∧ signed = true) ∨ s.getF (.wyCfg w) WY_CFG.CABPOL = 1 then wyTRAINING else wyREFUSED) ∧
      (t.wyPort w).serial = (if record = [] then none else some serial) := by
  have hx := cableIdentityReadComplete_answers (serial := serial) (m := m) (h := h) (signed := signed) hs hw hst hrec
  obtain ⟨hsig, hserial⟩ := s.identityRead_keeps w record serial m h signed
  obtain ⟨u, hu⟩ : ∃ u, s.identityRead w record serial m h signed = u := ⟨_, rfl⟩
  rw [hu] at hx hsig hserial
  have hgood : (!record.isEmpty && signed) = true ↔ record ≠ [] ∧ signed = true := by
    rw [Bool.and_eq_true, Bool.not_eq_true', ← Bool.not_eq_true, List.isEmpty_iff]
  have hsig' : (!record.isEmpty && signed).toNat = if record ≠ [] ∧ signed = true then 1 else 0 := by
    rcases hb : (!record.isEmpty && signed) with _ | _
    · rw [if_neg fun hg => absurd (hgood.2 hg) (by rw [hb]; exact Bool.false_ne_true)]
      rfl
    · rw [if_pos (hgood.1 hb)]
      rfl
  have hserial' : (if (!record.isEmpty) = true then some serial else none) = if record = [] then none else some serial := by
    rcases record with _ | ⟨b, l⟩
    · rfl
    · rfl
  rw [hsig'] at hsig
  rw [hserial'] at hserial
  dsimp only at hx
  by_cases hgo : (!record.isEmpty && signed || s.getF (.wyCfg w) WY_CFG.CABPOL == 1) = true
  · rw [if_pos hgo] at hx
    have hcond : (record ≠ [] ∧ signed = true) ∨ s.getF (.wyCfg w) WY_CFG.CABPOL = 1 := by
      rw [Bool.or_eq_true, beq_iff_eq, hgood] at hgo
      exact hgo
    refine ⟨_, hx, ?_, ?_, hserial⟩
    · exact (State.getF_congr (u.reg_setWyState_other w _ Reg.noConfusion)).trans hsig
    · rw [if_pos hcond]
      exact u.wyState_setWyState w (by decide)
  · rw [if_neg hgo] at hx
    have hcond : ¬ ((record ≠ [] ∧ signed = true) ∨ s.getF (.wyCfg w) WY_CFG.CABPOL = 1) := by
      rw [Bool.or_eq_true, beq_iff_eq, hgood] at hgo
      exact hgo
    have hlog := u.logged_wyLink w wyREFUSED false false
    refine ⟨_, hx, ?_, ?_, ?_⟩
    · exact (hlog.getF _ Reg.noConfusion).trans ((State.getF_congr (u.reg_setWyState_other w _ Reg.noConfusion)).trans hsig)
    · rw [if_neg hcond]
      exact u.wyState_wyLink w (by decide) false false
    · exact (congrArg WyPort.serial (hlog.wyPort w)).trans hserial

/-! ### The handshake (R443, R446) -/

/-- A port that goes down: no lane is active, and nothing else but the log. -/
theorem State.wyDown_keeps (s : State) (w : Nat) (mode same : Bool) :
    (s.wyDown w mode same).wyState w = wyDOWN ∧ (s.wyDown w mode same).getF (.wyStatus w) WY_STATUS.WIDTH = 0 ∧
      (s.wyDown w mode same).wyPeer w = s.wyPeer w ∧ (s.wyDown w mode same).wyPort w = s.wyPort w ∧
      (s.wyDown w mode same).waling = s.waling ∧
      ∀ r, r ≠ .wyStatus w → r ≠ .gctlElogLost → (s.wyDown w mode same).reg r = s.reg r := by
  obtain ⟨u, hu⟩ : ∃ u, s.setF (.wyStatus w) WY_STATUS.WIDTH 0 = u := ⟨_, rfl⟩
  have hlog := u.logged_wyLink w wyDOWN mode same
  have hwidth : u.getF (.wyStatus w) WY_STATUS.WIDTH = 0 := by
    rw [← hu, State.getF_setF_self _ _ _ _ (by decide) (by decide)]
    rfl
  have hpeer : u.wyPeer w = s.wyPeer w := by
    rw [← hu]
    exact State.getF_setF_other _ _ _ _ _ (by decide) (by decide) (by decide) (by decide)
  have hport : u.wyPort w = s.wyPort w := by rw [← hu]; rfl
  have hwaling : u.waling = s.waling := by rw [← hu]; rfl
  rw [State.wyDown, hu]
  refine ⟨u.wyState_wyLink w (by decide) mode same, ?_, ?_, (hlog.wyPort w).trans hport,
    ((congrArg State.waling hlog.rest).trans rfl).trans hwaling, fun r h1 h2 => ?_⟩
  · rw [hlog.getF _ Reg.noConfusion]
    exact (State.getF_setF_other _ _ _ _ _ (by decide) (by decide) (by decide) (by decide)).trans hwidth
  · refine (hlog.getF _ Reg.noConfusion).trans ?_
    exact (State.getF_setF_other _ _ _ _ _ (by decide) (by decide) (by decide) (by decide)).trans hpeer
  · rw [hlog.regs r h2, State.reg_setWyState_other _ _ _ h1, ← hu, State.reg_setF_other _ _ _ h1]

/-- The source of f_src changes no register. -/
theorem State.wySource_regs (s : State) : s.wySource.regs = s.regs := by
  unfold State.wySource
  dsimp only
  split
  · rfl
  · rfl

/-- The state of a port whose peer is good, before it is UP (R443, R450). -/
def State.linkTrained (s : State) (w peer lanes : Nat) (fofs : Int) : State :=
  (((s.setF (.wyStatus w) WY_STATUS.PEERID peer).setF (.wyStatus w) WY_STATUS.WIDTH lanes).setF (.wyFofs w) WY_FOFS.FOFS
    (satField 32 fofs)).modWyPort w fun x => { x with seq := 0, first := 0, used0 := 0, used1 := 0, got := 0 }

theorem State.linkTrained_keeps (s : State) {w peer lanes : Nat} (fofs : Int) (hp : peer < 65536) (hl : lanes < 8) :
    let t := s.linkTrained w peer lanes fofs
    t.wyPeer w = peer ∧ t.getF (.wyStatus w) WY_STATUS.WIDTH = lanes ∧ ∀ r, r ≠ .wyStatus w → r ≠ .wyFofs w → t.reg r = s.reg r := by
  have hreg (r : Reg) : (s.linkTrained w peer lanes fofs).reg r = (((s.setF (.wyStatus w) WY_STATUS.PEERID peer).setF (.wyStatus w)
    WY_STATUS.WIDTH lanes).setF (.wyFofs w) WY_FOFS.FOFS (satField 32 fofs)).reg r := State.reg_modWyPort ..
  refine ⟨?_, ?_, fun r h1 h2 => ?_⟩
  · rw [State.wyPeer, State.getF_congr (hreg _), State.getF_setF_other_reg _ _ _ _ Reg.noConfusion,
      State.getF_setF_other _ _ _ _ _ (by decide) (by decide) (by decide) (by decide), State.getF_setF_self _ _ _ _ (by decide) (by decide)]
    exact Nat.mod_eq_of_lt hp
  · rw [State.getF_congr (hreg _), State.getF_setF_other_reg _ _ _ _ Reg.noConfusion, State.getF_setF_self _ _ _ _ (by decide) (by decide)]
    exact Nat.mod_eq_of_lt hl
  · rw [hreg, State.reg_setF_other _ _ _ h2, State.reg_setF_other _ _ _ h1, State.reg_setF_other _ _ _ h1]

theorem linkUp_answers {s : State} {w peer lanes : Nat} {lr : Bool} {fofs : Int} (hs : s.clocksStopped = false) (hw : w < 16)
    (hp : peer < 65535) (hl : lanes = 2 ∨ lanes = 4) (hst : s.wyState w = wyTRAINING ∨ s.wyState w = wyRETRAIN) :
    exec (.linkUp w peer lr lanes fofs) s = .next (s.keep
      (if (decide (s.getF (.wyCfg w) WY_CFG.MODE ≠ lr.toNat) || decide (peer = s.devid)) = true then
        (s.setF (.wyStatus w) WY_STATUS.PEERID peer).wyDown w (decide (s.getF (.wyCfg w) WY_CFG.MODE ≠ lr.toNat)) (decide (peer = s.devid))
      else ((s.linkTrained w peer lanes fofs).wyLink w (if s.fencedPeer peer then wyFENCED else wyUP) false false).wySource)) := by
  have hlanes : (decide (lanes = 2) || decide (lanes = 4)) = true := by
    rcases hl with h | h
    · rw [decide_eq_true h]
      rfl
    · rw [decide_eq_true h]
      exact Bool.or_true _
  have hstate : (decide (s.wyState w = wyTRAINING) || decide (s.wyState w = wyRETRAIN)) = true := by
    rcases hst with h | h
    · rw [decide_eq_true h]
      rfl
    · rw [decide_eq_true h]
      exact Bool.or_true _
  rw [exec_linkUp, execLinkUp]
  exact State.when_of hs (by rw [decide_eq_true hw, decide_eq_true hp, hlanes, hstate]; rfl)

theorem linkUp_holds {s : State} {w peer lanes : Nat} {lr : Bool} {fofs : Int} (hs : s.clocksStopped = false) (hw : w < 16)
    (hp : peer < 65535) (hl : lanes = 2 ∨ lanes = 4) (hst : s.wyState w = wyTRAINING ∨ s.wyState w = wyRETRAIN) :
    ∃ t, exec (.linkUp w peer lr lanes fofs) s = .next t ∧ t.wyPeer w = peer ∧
      (s.getF (.wyCfg w) WY_CFG.MODE ≠ lr.toNat ∨ peer = s.devid → t.wyState w = wyDOWN ∧ t.getF (.wyStatus w) WY_STATUS.WIDTH = 0) ∧
      (s.getF (.wyCfg w) WY_CFG.MODE = lr.toNat → peer ≠ s.devid → t.getF (.wyStatus w) WY_STATUS.WIDTH = lanes ∧
        t.wyState w = (if s.fencedPeer peer = true then wyFENCED else wyUP)) ∧
      ∀ r, r ≠ .wyStatus w → r ≠ .wyFofs w → r ≠ .gctlElogLost → t.reg r = s.reg r := by
  have hx := linkUp_answers (lr := lr) (fofs := fofs) hs hw hp hl hst
  by_cases hbad : s.getF (.wyCfg w) WY_CFG.MODE ≠ lr.toNat ∨ peer = s.devid
  · rw [if_pos (by rw [Bool.or_eq_true, decide_eq_true_eq, decide_eq_true_eq]; exact hbad)] at hx
    obtain ⟨u, hu⟩ : ∃ u, s.setF (.wyStatus w) WY_STATUS.PEERID peer = u := ⟨_, rfl⟩
    rw [hu] at hx
    obtain ⟨hdown, hwidth, hpeer, _, _, hregs⟩ := u.wyDown_keeps w (decide (s.getF (.wyCfg w) WY_CFG.MODE ≠ lr.toNat)) (decide (peer = s.devid))
    refine ⟨_, hx, hpeer.trans ?_, fun _ => ⟨hdown, hwidth⟩, fun h1 h2 => absurd hbad (not_or.2 ⟨Classical.not_not.2 h1, h2⟩), fun r h1 _ h3 => ?_⟩
    · rw [← hu, State.wyPeer, State.getF_setF_self _ _ _ _ (by decide) (by decide)]
      exact Nat.mod_eq_of_lt (Nat.lt_succ_of_lt hp)
    · exact (hregs r h1 h3).trans (by rw [← hu, State.reg_setF_other _ _ _ h1])
  · rw [if_neg (by rw [Bool.or_eq_true, decide_eq_true_eq, decide_eq_true_eq]; exact hbad)] at hx
    obtain ⟨hpeer, hwidth, hregs⟩ := s.linkTrained_keeps (w := w) (peer := peer) (lanes := lanes) fofs (by omega) (by omega)
    obtain ⟨u, hu⟩ : ∃ u, s.linkTrained w peer lanes fofs = u := ⟨_, rfl⟩
    rw [hu] at hx hpeer hwidth hregs
    have h8 : (if s.fencedPeer peer = true then wyFENCED else wyUP) < 8 := by split <;> decide
    have hlog := u.logged_wyLink w (if s.fencedPeer peer = true then wyFENCED else wyUP) false false
    have hup := u.wyState_wyLink w h8 false false
    obtain ⟨v, hv⟩ : ∃ v, u.wyLink w (if s.fencedPeer peer = true then wyFENCED else wyUP) false false = v := ⟨_, rfl⟩
    rw [hv] at hx hlog hup
    have hreg (r : Reg) : v.wySource.reg r = v.reg r := State.reg_congr v.wySource_regs r
    refine ⟨_, hx, ?_, fun h => absurd h hbad, fun _ _ => ⟨?_, ?_⟩, fun r h1 h2 h3 => ?_⟩
    · refine (State.getF_congr (hreg _)).trans ((hlog.getF _ Reg.noConfusion).trans ?_)
      exact (State.getF_setF_other _ _ _ _ _ (by decide) (by decide) (by decide) (by decide)).trans hpeer
    · refine (State.getF_congr (hreg _)).trans ((hlog.getF _ Reg.noConfusion).trans ?_)
      exact (State.getF_setF_other _ _ _ _ _ (by decide) (by decide) (by decide) (by decide)).trans hwidth
    · exact (State.getF_congr (hreg _)).trans hup
    · exact (hreg r).trans ((hlog.regs r h3).trans ((u.reg_setWyState_other w _ h1).trans (hregs r h1 h2)))

end Sys2Proof.Machine


namespace Sys2Proof.Machine

/-! # Retrains, retries and the ledger (R444, R450, R462) -/

theorem retrain_answers {s : State} {w lanes : Nat} {lock : Bool} (hs : s.clocksStopped = false) (hw : w < 16) (hst : s.wyState w = wyUP)
    (hwhy : lock = true ∨ s.getF (.wyCfg w) WY_CFG.RETHR < (s.wyPort w).crcMs ∨ lanes < 4) (hl : lanes = 0 ∨ lanes = 2 ∨ lanes = 4) :
    ∃ detail, exec (.retrain w lock lanes) s = .next (s.keep
      (let u := (s.wyRetrain w detail).setF (.wyStatus w) WY_STATUS.WIDTH lanes
      if lanes = 0 then u.wyDown w false false else u)) := by
  have hcause : (lock || decide (s.getF (.wyCfg w) WY_CFG.RETHR < (s.wyPort w).crcMs) || decide (lanes < 4)) = true := by
    rcases hwhy with h | h | h
    · rw [h]
      rfl
    · rw [decide_eq_true h, Bool.or_true]
      rfl
    · rw [decide_eq_true h, Bool.or_true]
  have hlanes : [0, 2, 4].contains lanes = true := by
    rw [List.contains_iff_mem, List.mem_cons, List.mem_cons, List.mem_singleton]
    exact hl
  rw [exec_retrain, execRetrain]
  exact ⟨_, State.when_of hs (by rw [decide_eq_true hw, decide_eq_true hst, hcause, hlanes]; rfl)⟩

/-- A retrain with its record and its count toward rt (R444, R480). -/
theorem State.wyRetrain_keeps (s : State) (w detail : Nat) : (s.wyRetrain w detail).wyState w = wyRETRAIN ∧
    ((s.wyRetrain w detail).wyPort w).crcMs = 0 ∧ (s.wyRetrain w detail).waling.rt = sat8 s.waling.rt 64 := by
  obtain ⟨u, hu⟩ : ∃ u, (s.modWyPort w fun x => { x with crcMs := 0 }) = u := ⟨_, rfl⟩
  have hport : (u.wyPort w).crcMs = 0 := by rw [← hu, State.wyPort_modWyPort_self]
  have hwaling : u.waling = s.waling := by rw [← hu]; rfl
  have hlog : (u.setWyState w wyRETRAIN).Logged ((u.setWyState w wyRETRAIN).wyNote w 1 0x81 detail) := State.logged_note ..
  obtain ⟨v, hv⟩ : ∃ v, (u.setWyState w wyRETRAIN).wyNote w 1 0x81 detail = v := ⟨_, rfl⟩
  rw [hv] at hlog
  have hr : s.wyRetrain w detail = v.health 0 64 0 0 := by rw [← hv, ← hu]; rfl
  rw [hr]
  refine ⟨?_, ?_, ?_⟩
  · exact (hlog.getF _ Reg.noConfusion).trans (u.wyState_setWyState w (by decide))
  · exact (congrArg WyPort.crcMs (hlog.wyPort w)).trans hport
  · have hw : v.waling = s.waling := ((congrArg State.waling hlog.rest).trans rfl).trans hwaling
    show sat8 v.waling.rt 64 = sat8 s.waling.rt 64
    rw [hw]

theorem retrain_holds {s : State} {w lanes : Nat} {lock : Bool} (hs : s.clocksStopped = false) (hw : w < 16) (hst : s.wyState w = wyUP)
    (hwhy : lock = true ∨ s.getF (.wyCfg w) WY_CFG.RETHR < (s.wyPort w).crcMs ∨ lanes < 4) (hl : lanes = 0 ∨ lanes = 2 ∨ lanes = 4) :
    ∃ t, exec (.retrain w lock lanes) s = .next t ∧ t.wyState w = (if lanes = 0 then wyDOWN else wyRETRAIN) ∧
      t.getF (.wyStatus w) WY_STATUS.WIDTH = lanes ∧ t.waling.rt = sat8 s.waling.rt 64 ∧ (t.wyPort w).crcMs = 0 := by
  obtain ⟨detail, hx⟩ := retrain_answers hs hw hst hwhy hl
  obtain ⟨hstate, hcrc, hrt⟩ := s.wyRetrain_keeps w detail
  obtain ⟨r, hr⟩ : ∃ r, s.wyRetrain w detail = r := ⟨_, rfl⟩
  rw [hr] at hx hstate hcrc hrt
  obtain ⟨u, hu⟩ : ∃ u, r.setF (.wyStatus w) WY_STATUS.WIDTH lanes = u := ⟨_, rfl⟩
  have hustate : u.wyState w = wyRETRAIN := by
    rw [← hu]
    exact (State.getF_setF_other _ _ _ _ _ (by decide) (by decide) (by decide) (by decide)).trans hstate
  have huwidth : u.getF (.wyStatus w) WY_STATUS.WIDTH = lanes := by
    rw [← hu, State.getF_setF_self _ _ _ _ (by decide) (by decide)]
    exact Nat.mod_eq_of_lt (by show lanes < 8; omega)
  have hurt : u.waling = r.waling := by rw [← hu]; rfl
  have huport : u.wyPort w = r.wyPort w := by rw [← hu]; rfl
  dsimp only at hx
  rw [hu] at hx
  by_cases h0 : lanes = 0
  · rw [if_pos h0] at hx ⊢
    obtain ⟨hdown, hwidth, _, hport, hwaling, _⟩ := u.wyDown_keeps w false false
    exact ⟨_, hx, hdown, hwidth.trans h0.symm, (congrArg WalingState.rt (hwaling.trans hurt)).trans hrt,
      (congrArg WyPort.crcMs (hport.trans huport)).trans hcrc⟩
  · rw [if_neg h0] at hx ⊢
    exact ⟨_, hx, hustate, huwidth, (congrArg WalingState.rt hurt).trans hrt, (congrArg WyPort.crcMs huport).trans hcrc⟩

theorem flitCrcError_holds {s : State} {w after : Nat} (hs : s.clocksStopped = false) (hw : w < 16) (ha : after < 512)
    (hst : s.wyState w = wyUP) : ∃ t, exec (.flitCrcError w after) s = .next t ∧
      t.getF (.wyErr w) WY_ERR.CRC = min (s.getF (.wyErr w) WY_ERR.CRC + 1) WY_ERR.CRC.top ∧
      (t.wyPort w).crcMs = (s.wyPort w).crcMs + 1 ∧ t.withy.out = s.withy.out ++ [(w, .nak (((s.wyPort w).got + 1023) % 1024))] ∧
      ∀ r, r ≠ .wyErr w → t.reg r = s.reg r := by
  obtain ⟨u, hu⟩ : ∃ u, s.satF (.wyErr w) WY_ERR.CRC 1 = u := ⟨_, rfl⟩
  have hcrc : u.getF (.wyErr w) WY_ERR.CRC = min (s.getF (.wyErr w) WY_ERR.CRC + 1) WY_ERR.CRC.top := by
    rw [← hu, State.getF_satF_self _ _ _ _ (by decide) (by decide)]
  have hregs (r : Reg) (h : r ≠ .wyErr w) : u.reg r = s.reg r := by rw [← hu, State.reg_satF_other _ _ _ _ h]
  have hwithy : u.withy = s.withy := by rw [← hu]; rfl
  have hport : u.wyPort w = s.wyPort w := by rw [← hu]; rfl
  have hmod := u.wyPort_modWyPort_self w fun x => { x with crcMs := x.crcMs + 1 }
  have hx : exec (.flitCrcError w after) s = .next (s.keep ((u.modWyPort w fun x => { x with crcMs := x.crcMs + 1 }).wyOut w
      (.nak (((s.wyPort w).got + 1023) % 1024)))) := by
    rw [exec_flitCrcError, execFlitCrcError, hu]
    exact State.when_of hs (by rw [decide_eq_true hw, decide_eq_true ha, decide_eq_true hst]; rfl)
  refine ⟨_, hx, hcrc, ?_, ?_, hregs⟩
  · exact (congrArg WyPort.crcMs hmod).trans (by rw [hport])
  · show u.withy.out ++ _ = _
    rw [hwithy]

/-- The number of flits that a NAK asks for, from the last good one (R450). -/
theorem nak_count {q n : Nat} (h : n < 1024) : (q % 1024 + 2047 - (q + 1023 * (n + 1)) % 1024) % 1024 = n := by
  omega

theorem nak_flit {q n i : Nat} (h : n ≤ q) : ((q + 1023 * (n + 1)) % 1024 + 1 + i) % 1024 = (q - n + i) % 1024 := by
  omega

theorem nak_answers {s : State} {w n credits : Nat} (hs : s.clocksStopped = false) (hw : w < 16) (hst : s.wyState w = wyUP) (h0 : 0 < n)
    (hn : n < 1024) (hc : credits < 256) (hseq : (s.wyPort w).first + n ≤ (s.wyPort w).seq) :
    exec (.nak w (((s.wyPort w).seq + 1023 * (n + 1)) % 1024) credits) s = .next (s.keep
      (((((s.satF (.wyErr w) WY_ERR.RETRY 1).modWyPort w fun x => { x with
        first := x.seq - n, used0 := x.used0 - 4 * (credits % 16), used1 := x.used1 - 4 * (credits / 16) }).wyOut w
      (.replay ((List.range n).map fun i => (((s.wyPort w).seq + 1023 * (n + 1)) % 1024 + 1 + i) % 1024))).health 0 1 0 0))) := by
  have hcount := nak_count (q := (s.wyPort w).seq) hn
  rw [exec_nak, execNak, hcount]
  refine State.when_of hs ?_
  rw [decide_eq_true hw, decide_eq_true hc, decide_eq_true hst, decide_eq_true h0, decide_eq_true hseq,
    decide_eq_true (Nat.mod_lt _ (by decide))]
  rfl

theorem nak_holds {s : State} {w n credits : Nat} (hs : s.clocksStopped = false) (hw : w < 16) (hst : s.wyState w = wyUP) (h0 : 0 < n)
    (hn : n < 1024) (hc : credits < 256) (hseq : (s.wyPort w).first + n ≤ (s.wyPort w).seq) :
    ∃ t l, exec (.nak w (((s.wyPort w).seq + 1023 * (n + 1)) % 1024) credits) s = .next t ∧ t.withy.out = s.withy.out ++ [(w, .replay l)] ∧
      l.length = n ∧ (∀ i, i < n → l[i]? = some (((s.wyPort w).seq - n + i) % 1024)) ∧ (t.wyPort w).first = (s.wyPort w).seq - n ∧
      (t.wyPort w).used0 = (s.wyPort w).used0 - 4 * (credits % 16) ∧ (t.wyPort w).used1 = (s.wyPort w).used1 - 4 * (credits / 16) ∧
      t.getF (.wyErr w) WY_ERR.RETRY = min (s.getF (.wyErr w) WY_ERR.RETRY + 1) WY_ERR.RETRY.top := by
  have hx := nak_answers hs hw hst h0 hn hc hseq
  have hlist : ((List.range n).map fun i => (((s.wyPort w).seq + 1023 * (n + 1)) % 1024 + 1 + i) % 1024) =
      (List.range n).map fun i => ((s.wyPort w).seq - n + i) % 1024 :=
    List.map_congr_left fun i _ => nak_flit (by omega)
  rw [hlist] at hx
  obtain ⟨u, hu⟩ : ∃ u, s.satF (.wyErr w) WY_ERR.RETRY 1 = u := ⟨_, rfl⟩
  have hretry : u.getF (.wyErr w) WY_ERR.RETRY = min (s.getF (.wyErr w) WY_ERR.RETRY + 1) WY_ERR.RETRY.top := by
    rw [← hu, State.getF_satF_self _ _ _ _ (by decide) (by decide)]
  have hwithy : u.withy = s.withy := by rw [← hu]; rfl
  have hport : u.wyPort w = s.wyPort w := by rw [← hu]; rfl
  have hmod := u.wyPort_modWyPort_self w fun x => { x with
    first := x.seq - n, used0 := x.used0 - 4 * (credits % 16), used1 := x.used1 - 4 * (credits / 16) }
  rw [hport] at hmod
  rw [hu] at hx
  refine ⟨_, (List.range n).map fun i => ((s.wyPort w).seq - n + i) % 1024, hx, ?_, by rw [List.length_map, List.length_range],
    fun i hi => ?_, congrArg WyPort.first hmod, congrArg WyPort.used0 hmod,
    congrArg WyPort.used1 hmod, hretry⟩
  · show u.withy.out ++ _ = _
    rw [hwithy]
  · rw [List.getElem?_map, List.getElem?_range hi]
    rfl

theorem laneHourTick_holds {s : State} {w l : Nat} (hs : s.clocksStopped = false) (hw : w < 16)
    (hl : l < s.getF (.wyStatus w) WY_STATUS.WIDTH) (hst : s.wyState w = wyUP) : ∃ t, exec (.laneHourTick w l) s = .next t ∧
      t.getF (.wyLife w) WY_LIFE.LANEHRS = min (s.getF (.wyLife w) WY_LIFE.LANEHRS + 1) WY_LIFE.LANEHRS.top ∧
      ∀ r, r ≠ .wyLife w → r ≠ .gctlElogLost → t.reg r = s.reg r := by
  obtain ⟨u, hu⟩ : ∃ u, s.satF (.wyLife w) WY_LIFE.LANEHRS 1 = u := ⟨_, rfl⟩
  have hhours : u.getF (.wyLife w) WY_LIFE.LANEHRS = min (s.getF (.wyLife w) WY_LIFE.LANEHRS + 1) WY_LIFE.LANEHRS.top := by
    rw [← hu, State.getF_satF_self _ _ _ _ (by decide) (by decide)]
  have hregs (r : Reg) (h : r ≠ .wyLife w) : u.reg r = s.reg r := by rw [← hu, State.reg_satF_other _ _ _ _ h]
  have hx : exec (.laneHourTick w l) s = .next (s.keep (u.wyLife w)) := by
    rw [exec_laneHourTick, execLaneHourTick, hu]
    exact State.when_of hs (by rw [decide_eq_true hw, decide_eq_true hl, decide_eq_true hst]; rfl)
  obtain ⟨x, _, hlog⟩ := u.wyLife_logged w
  have hport (r : Reg) : (u.setWyPort w x).reg r = u.reg r := rfl
  refine ⟨_, hx, ?_, fun r h1 h2 => ?_⟩
  · exact (hlog.getF _ Reg.noConfusion).trans ((State.getF_congr (hport _)).trans hhours)
  · exact (hlog.regs r h2).trans ((hport r).trans (hregs r h1))

/-- The ledger's copy of a port changes the ledger alone. -/
theorem State.wyLedger_frame (s : State) (w : Nat) : s.wyLedger w = { s with withy := { s.withy with ledger := (s.wyLedger w).withy.ledger } } := by
  unfold State.wyLedger
  split
  · rfl
  · rfl

theorem State.wyLedger_self {s : State} {w n : Nat} (h : (s.wyPort w).serial = some n) : SMap.get (0, 0) (s.wyLedger w).withy.ledger n =
    (s.getF (.wyLife w) WY_LIFE.MATES, s.getF (.wyLife w) WY_LIFE.LANEHRS) := by
  unfold State.wyLedger
  rw [h]
  exact SMap.get_put_self ((0, 0) : Nat × Nat) _ _ _

theorem State.wyLedger_other {s : State} {w n : Nat} (h : (s.wyPort w).serial ≠ some n) :
    SMap.get (0, 0) (s.wyLedger w).withy.ledger n = SMap.get (0, 0) s.withy.ledger n := by
  unfold State.wyLedger
  split
  · next m hm => exact SMap.get_put_other ((0, 0) : Nat × Nat) _ _ fun e => h (by rw [hm, e])
  · rfl

theorem State.wyPort_wyLedger (s : State) (w v : Nat) : (s.wyLedger w).wyPort v = s.wyPort v := by
  rw [s.wyLedger_frame w]
  rfl

theorem State.ledgerCopied_keeps (l : List Nat) (s : State) :
    l.foldl State.wyLedger s = { s with withy := { s.withy with ledger := (l.foldl State.wyLedger s).withy.ledger } } ∧
      ∀ n, (∀ w ∈ l, (s.wyPort w).serial ≠ some n) → SMap.get (0, 0) (l.foldl State.wyLedger s).withy.ledger n =
        SMap.get (0, 0) s.withy.ledger n := by
  induction l generalizing s with
  | nil => exact ⟨rfl, fun _ _ => rfl⟩
  | cons w l ih =>
    obtain ⟨hrest, hget⟩ := ih (s.wyLedger w)
    refine ⟨?_, fun n hn => ?_⟩
    · rw [List.foldl_cons]
      refine hrest.trans ?_
      rw [s.wyLedger_frame w]
    · refine (hget n fun v hv => ?_).trans (State.wyLedger_other (hn w List.mem_cons_self))
      rw [State.wyPort_wyLedger]
      exact hn v (List.mem_cons_of_mem _ hv)

/-! # Ring time (R447, R448) -/

theorem time_answers {s : State} {w kind n ts frac : Nat} (hs : s.clocksStopped = false) (hw : w < 16) (hst : s.wyState w = wyUP)
    (hk : kind < 3) (hn : n < 256) (hts : ts < 2 ^ 24) (hf : frac < 256) : exec (.time w kind n ts frac) s = .next (s.keep
      ((s.wyGot w 1).timeMessage w kind n ts (subNs (s.tbValue 2 + s.addend 2 * ((frac : Rat) / 256))))) := by
  rw [exec_time, execTime]
  refine State.when_of hs ?_
  rw [decide_eq_true hw, decide_eq_true hst, decide_eq_true hk, decide_eq_true hn, decide_eq_true hts, decide_eq_true hf]
  rfl

/-- A message counts at the ring-time source's port alone. -/
theorem State.timeMessage_elsewhere {s : State} {w kind n ts : Nat} {t : Rat} (hk : kind ≠ 1) (h : s.ringPort w = false) :
    s.timeMessage w kind n ts t = s := by
  rw [State.timeMessage, if_neg hk, if_pos h]

/-- The hop count of a message, the exchange still open or ended. -/
def State.hopsHeard (s : State) (n : Nat) : State := { s with withy := { s.withy with hops := some n } }
def State.exchangeEnded (s : State) : State := { s with withy := { s.withy with sync := none } }

theorem State.timeMessage_far {s : State} {w kind n ts : Nat} {t : Rat} (hk : kind ≠ 1) (h : s.ringPort w = true) (hn : 32 ≤ n) :
    s.timeMessage w kind n ts t = (s.hopsHeard n).exchangeEnded.wyNote w 1 0x86 n := by
  rw [State.timeMessage, if_neg hk, if_neg (by rw [h]; exact Bool.noConfusion), if_pos hn]
  rfl

theorem State.timeMessage_sync {s : State} {w n ts : Nat} {t : Rat} (h : s.ringPort w = true) (hn : n < 32) :
    (s.timeMessage w 0 n ts t).withy.hops = some n := by
  rw [State.timeMessage, if_neg (by decide), if_neg (by rw [h]; exact Bool.noConfusion), if_neg (Nat.not_le.2 hn)]
  rfl

theorem State.timeMessage_dresp {s : State} {w n ts t1 : Nat} {t t2 t3 : Rat} (h : s.ringPort w = true) (hn : n < 32)
    (hsync : s.withy.sync = some (t1, t2, t3)) : s.timeMessage w 2 n ts t = (s.hopsHeard n).exchangeEnded.measure 2
      (-((wrap24 (t2 * 16 - (t1 : Rat)) - wrap24 ((ts : Rat) - t3 * 16)) / 2 / 16)) := by
  rw [State.timeMessage, if_neg (by decide), if_neg (by rw [h]; exact Bool.noConfusion), if_neg (Nat.not_le.2 hn)]
  simp only [if_neg (show ¬ 2 = 0 by decide), hsync]
  rfl

theorem State.timeMessage_noSync {s : State} {w n ts : Nat} {t : Rat} (h : s.ringPort w = true) (hn : n < 32)
    (hsync : s.withy.sync = none) : s.timeMessage w 2 n ts t = s.hopsHeard n := by
  have hheard : (s.hopsHeard n).withy.sync = none := hsync
  rw [State.timeMessage, if_neg (by decide), if_neg (by rw [h]; exact Bool.noConfusion), if_neg (Nat.not_le.2 hn)]
  dsimp only
  rw [if_neg (by decide)]
  split
  · rfl
  · next hsome => exact absurd (hheard.symm.trans hsome) nofun

theorem ringTimeExchange_answers {s : State} {w n : Nat} (hs : s.clocksStopped = false) (hh : s.ringHops = some n) (hw : w < 16)
    (hst : s.wyState w = wyUP) (htb : s.tbState 2 ≠ tbOFF) (hring : s.ringPort w = false) (hdue : (s.wyPort w).exch + 230400 ≤ s.gtc) :
    exec (.ringTimeExchange w) s = .next (s.keep
      ((s.modWyPort w fun x => { x with exch := s.gtc }).wyControl w 2 [n, 0, stamp24 (s.tbValue 2)])) := by
  rw [exec_ringTimeExchange, execRingTimeExchange, hh]
  exact State.when_of hs (by rw [decide_eq_true hw, decide_eq_true hst, decide_eq_true htb, hring, decide_eq_true hdue]; rfl)

theorem State.wyGot_rest (s : State) (w n : Nat) : (s.wyGot w n).ringPort w = s.ringPort w ∧ (s.wyGot w n).withy.sync = s.withy.sync ∧
    (s.wyGot w n).time = s.time ∧ (s.wyGot w n).regs = s.regs ∧ (s.wyGot w n).ringHops = s.ringHops := ⟨rfl, rfl, rfl, rfl, rfl⟩

/-- Settles O46: the ports' states and counts by their registers, and ring time by the kinds of message. -/
theorem withyPortsComeUpAndExchangeTime : Obligations.WithyPortsComeUpAndExchangeTime := by
  refine ⟨⟨fun s w hs hw hst => cableDetected_holds hs hw hst, fun s w serial m h record signed hs hw hst hrec =>
      cableIdentityReadComplete_holds hs hw hst hrec,
    fun s w peer lanes lr fofs hs hw hp hl hst => linkUp_holds hs hw hp hl hst, fun s w lanes lock hs hw hst hwhy hl =>
      retrain_holds hs hw hst hwhy hl,
    fun s w after hs hw ha hst => flitCrcError_holds hs hw ha hst, fun s w n credits hs hw hst h0 hn hc hseq =>
      nak_holds hs hw hst h0 hn hc hseq,
    fun s w l hs hw hl hst => laneHourTick_holds hs hw hl hst, ?_, fun s w n h => State.wyLedger_self h⟩, ?_, ?_, ?_, ?_, ?_⟩
  · intro s hs hg hl
    obtain ⟨hrest, hget⟩ := s.ledgerCopied_keeps (List.range 16)
    have hx : exec .ledgerCopy s = .next (s.keep ((List.range 16).foldl State.wyLedger s)) := by
      rw [exec_ledgerCopy, execLedgerCopy]
      exact State.when_of hs (by rw [hg, decide_eq_true hl]; rfl)
    obtain ⟨u, hu⟩ : ∃ u, (List.range 16).foldl State.wyLedger s = u := ⟨_, rfl⟩
    rw [hu] at hx hrest hget
    have hkeep : s.keep u = u := by
      rw [hrest]
      rfl
    rw [hkeep] at hx
    exact ⟨u, hx, hrest, fun n hn => hget n fun w hw => hn w (List.mem_range.1 hw)⟩
  · intro s w n hs hh hw hst htb hring hdue
    have hx := ringTimeExchange_answers hs hh hw hst htb hring hdue
    have hself := s.wyPort_modWyPort_self w fun x => { x with exch := s.gtc }
    have hother (v : Nat) (hv : v ≠ w) := s.wyPort_modWyPort_other (fun x => { x with exch := s.gtc }) hv
    obtain ⟨u, hu⟩ : ∃ u, (s.modWyPort w fun x => { x with exch := s.gtc }) = u := ⟨_, rfl⟩
    have hout : u.withy.out = s.withy.out := by rw [← hu]; rfl
    have hregs : u.regs = s.regs := by rw [← hu]; rfl
    rw [hu] at hx hself hother
    refine ⟨_, hx, congrArg WyPort.exch hself, ?_, hregs, hother⟩
    show controlInsert w 2 _ u.withy.out = _
    rw [hout]
  · intro s w n ts frac m hs hw hst hn hts hf hh u
    rw [time_answers hs hw hst (by decide) hn hts hf, State.timeMessage, if_pos rfl, (s.wyGot_rest w 1).2.2.2.2, hh]
    rfl
  · intro s w kind n ts frac hs hw hst hk hn hts hf hring
    have hx := time_answers hs hw hst (by omega : kind < 3) hn hts hf
    obtain ⟨hport, hsync, htime, _, _⟩ := s.wyGot_rest w 1
    obtain ⟨u, hu⟩ : ∃ u, s.wyGot w 1 = u := ⟨_, rfl⟩
    rw [hu] at hx hport hsync htime
    have hringu := hport.trans hring
    refine ⟨fun hfar => ?_, fun hnear => ?_⟩
    · rw [State.timeMessage_far (by omega) hringu hfar] at hx
      have hlog : (u.hopsHeard n).exchangeEnded.Logged ((u.hopsHeard n).exchangeEnded.wyNote w 1 0x86 n) := State.logged_note ..
      have hwithy := (congrArg State.withy hlog.rest).trans rfl
      have ht := (congrArg State.time hlog.rest).trans rfl
      exact ⟨_, hx, congrArg WithyState.hops hwithy, congrArg WithyState.sync hwithy, ht.trans htime⟩
    · rcases hk with rfl | rfl
      · exact ⟨_, hx, State.timeMessage_sync hringu hnear⟩
      · rcases hsy : u.withy.sync with _ | ⟨t1, t2, t3⟩
        · rw [State.timeMessage_noSync hringu hnear hsy] at hx
          exact ⟨_, hx, rfl⟩
        · rw [State.timeMessage_dresp hringu hnear hsy] at hx
          exact ⟨_, hx, congrArg WithyState.hops (State.times_measure _ _ _).withy⟩
  · intro s w kind n ts frac hs hw hst hk hn hts hf hring
    rw [time_answers hs hw hst (by omega : kind < 3) hn hts hf]
    exact congrArg (fun t => Host.Outcome.next (s.keep t)) (State.timeMessage_elsewhere (by omega) ((s.wyGot_rest w 1).1.trans hring))
  · intro s w n ts frac t1 t2 t3 hs hw hst hn hts hf hring hsync
    have hx := time_answers hs hw hst (by decide : 2 < 3) (by omega : n < 256) hts hf
    obtain ⟨hport, hgot, htime, hregs, _⟩ := s.wyGot_rest w 1
    rw [State.timeMessage_dresp (hport.trans hring) hn (hgot.trans hsync)] at hx
    exact ⟨_, hx, htime, rfl, hregs⟩

end Sys2Proof.Machine


namespace Sys2Proof.Machine

/-! # The Waling unit: what its records and messages leave (R465 to R479) -/

theorem exec_heartbeatSend (s : State) : exec .heartbeatSend s = execHeartbeatSend s := rfl
theorem exec_hb (x score : Nat) (s : State) : exec (.hb x score) s = execHb x score s := rfl
theorem exec_heartbeatMissWindow (x : Nat) (s : State) : exec (.heartbeatMissWindow x) s = execHeartbeatMissWindow x s := rfl
theorem exec_suspect (x : Nat) (s : State) : exec (.suspect x) s = execSuspect x s := rfl
theorem exec_death (x : Nat) (m : WlMsg) (s : State) : exec (.death x m) s = execDeath x m s := rfl
theorem exec_probe (w d : Nat) (s : State) : exec (.probe w d) s = execProbe w d s := rfl
theorem exec_probeAck (w d : Nat) (s : State) : exec (.probeAck w d) s = execProbeAck w d s := rfl
theorem exec_witnessProbeTimeout (d : Nat) (s : State) : exec (.witnessProbeTimeout d) s = execWitnessProbeTimeout d s := rfl
theorem exec_dreply (x : Nat) (m : WlMsg) (s : State) : exec (.dreply x m) s = execDreply x m s := rfl
theorem exec_commit (x : Nat) (m : WlMsg) (s : State) : exec (.commit x m) s = execCommit x m s := rfl
theorem exec_fenceNotice (w : Nat) (s : State) : exec (.fenceNotice w) s = execFenceNotice w s := rfl

theorem State.nbr_setNbr_self (s : State) (x : Nat) (n : WlNbr) : (s.setNbr x n).nbr x = n := SMap.get_put_self WlNbr.idle s.waling.nbrs x n
theorem State.nbr_setNbr_other (s : State) {x y : Nat} (n : WlNbr) (h : y ≠ x) : (s.setNbr x n).nbr y = s.nbr y := SMap.get_put_other _ _ _ h

theorem State.nbr_congr {s t : State} (h : t.waling = s.waling) (x : Nat) : t.nbr x = s.nbr x := by
  unfold State.nbr
  rw [h]

theorem State.Logged.waling {s t : State} (h : s.Logged t) : t.waling = s.waling := (congrArg State.waling h.rest).trans rfl

/-! ### The member table (R466) -/

/-- A state whose member table shows the same devices and states has the same members. -/
theorem State.members_congr {s t : State} (hid : ∀ k, t.getF (.wlMember k) WL_MEMBER.ID = s.getF (.wlMember k) WL_MEMBER.ID)
    (hst : ∀ k, t.getF (.wlMember k) WL_MEMBER.STATE = s.getF (.wlMember k) WL_MEMBER.STATE) : t.members = s.members := by
  unfold State.members
  refine congrArg (List.filterMap · _) (funext fun k => ?_)
  dsimp only
  rw [hid, hst]

theorem State.members_of_regs {s t : State} (h : ∀ k, t.reg (.wlMember k) = s.reg (.wlMember k)) : t.members = s.members :=
  State.members_congr (fun k => State.getF_congr (h k)) fun k => State.getF_congr (h k)

/-- An entry of the member table. -/
theorem State.members_find {s : State} {d : Nat} {e : Nat × Nat × Nat} (h : s.members.find? (fun e => e.2.1 == d) = some e) :
    s.getF (.wlMember e.1) WL_MEMBER.ID = d ∧ s.getF (.wlMember e.1) WL_MEMBER.STATE = e.2.2 ∧ e.2.2 ≠ 0 := by
  have hd : e.2.1 = d := beq_iff_eq.1 (List.find?_some (p := fun e : Nat × Nat × Nat => e.2.1 == d) h)
  obtain ⟨k, _, hk⟩ := List.mem_filterMap.1 (List.mem_of_find?_eq_some h)
  by_cases h0 : s.getF (.wlMember k) WL_MEMBER.STATE = 0
  · rw [if_pos h0] at hk
    exact absurd hk nofun
  · rw [if_neg h0, Option.some.injEq] at hk
    subst hk
    exact ⟨hd, rfl, h0⟩

/-- The entry at a place of the member table. -/
def State.memberAt (s : State) (k : Nat) : Option (Nat × Nat × Nat) :=
  if s.getF (.wlMember k) WL_MEMBER.STATE = 0 then none
  else some (k, s.getF (.wlMember k) WL_MEMBER.ID, s.getF (.wlMember k) WL_MEMBER.STATE)

theorem State.members_eq (s : State) : s.members = (List.range 1024).filterMap s.memberAt := rfl

theorem State.memberAt_of {s : State} {k d st : Nat} (hid : s.getF (.wlMember k) WL_MEMBER.ID = d)
    (hst : s.getF (.wlMember k) WL_MEMBER.STATE = st) (h0 : st ≠ 0) : s.memberAt k = some (k, d, st) := by
  unfold State.memberAt
  rw [hst, if_neg h0, hid]

theorem State.memberAt_place {s : State} {j : Nat} {e : Nat × Nat × Nat} (h : s.memberAt j = some e) : e.1 = j := by
  unfold State.memberAt at h
  split at h
  · exact absurd h nofun
  · rw [← Option.some.inj h]

/-- Of two tables that differ at one place, where both show device d, the first entry of d stays at that place. -/
theorem find_filterMap_at {f g : Nat → Option (Nat × Nat × Nat)} {k d old new : Nat} (hf : f k = some (k, d, old)) (hg : g k = some (k, d, new))
    (hother : ∀ j, j ≠ k → g j = f j) (hplace : ∀ j e, f j = some e → e.1 = j) (l : List Nat)
    (h : (l.filterMap f).find? (fun e => e.2.1 == d) = some (k, d, old)) :
    (l.filterMap g).find? (fun e => e.2.1 == d) = some (k, d, new) := by
  induction l with
  | nil => exact absurd h nofun
  | cons j l ih =>
    by_cases hj : j = k
    · subst hj
      rw [List.filterMap_cons_some hg]
      exact List.find?_cons_of_pos (p := fun e : Nat × Nat × Nat => e.2.1 == d) (a := (j, d, new)) (by simp)
    · rcases hfj : f j with _ | e
      · rw [List.filterMap_cons_none hfj] at h
        rw [List.filterMap_cons_none ((hother j hj).trans hfj)]
        exact ih h
      · rw [List.filterMap_cons_some hfj] at h
        rw [List.filterMap_cons_some ((hother j hj).trans hfj)]
        by_cases hp : (e.2.1 == d) = true
        · rw [List.find?_cons_of_pos (p := fun e : Nat × Nat × Nat => e.2.1 == d) hp, Option.some.injEq] at h
          exact absurd ((hplace j e hfj).symm.trans (congrArg Prod.fst h)) hj
        · rw [List.find?_cons_of_neg (p := fun e : Nat × Nat × Nat => e.2.1 == d) hp] at h ⊢
          exact ih h

theorem State.setMember_of {s : State} {d st : Nat} {e : Nat × Nat × Nat} (h : s.members.find? (fun e => e.2.1 == d) = some e) :
    s.setMember d st = s.setF (.wlMember e.1) WL_MEMBER.STATE st := by
  unfold State.setMember
  rw [h]

/-- A member that is found takes its new state (R466). -/
theorem State.find_setMember {s : State} {d st : Nat} {e : Nat × Nat × Nat} (h : s.members.find? (fun e => e.2.1 == d) = some e)
    (h0 : st ≠ 0) (h8 : st < 8) : (s.setMember d st).members.find? (fun e => e.2.1 == d) = some (e.1, d, st) := by
  obtain ⟨hid, hst, hne⟩ := State.members_find h
  obtain ⟨k, d', old⟩ := e
  have hd : d' = d := beq_iff_eq.1 (List.find?_some (p := fun e : Nat × Nat × Nat => e.2.1 == d) h)
  subst hd
  rw [State.setMember_of h]
  have hself : (s.setF (.wlMember k) WL_MEMBER.STATE st).getF (.wlMember k) WL_MEMBER.STATE = st := by
    rw [State.getF_setF_self _ _ _ _ (by decide) (by decide)]
    exact Nat.mod_eq_of_lt h8
  have hkid : (s.setF (.wlMember k) WL_MEMBER.STATE st).getF (.wlMember k) WL_MEMBER.ID = d' :=
    (State.getF_setF_other _ _ _ _ _ (by decide) (by decide) (by decide) (by decide)).trans hid
  refine find_filterMap_at (f := s.memberAt) ?_ ?_ (fun j hj => ?_) (fun j e => State.memberAt_place) _ h
  · exact State.memberAt_of hid hst hne
  · exact State.memberAt_of hkid hself h0
  · have hreg : (s.setF (.wlMember k) WL_MEMBER.STATE st).reg (.wlMember j) = s.reg (.wlMember j) :=
      State.reg_setF_other _ _ _ fun h => hj (by injection h)
    unfold State.memberAt
    rw [State.getF_congr hreg, State.getF_congr hreg]

theorem State.memberState_setMember {s : State} {d st : Nat} (h : s.memberState d ≠ 0) (h0 : st ≠ 0) (h8 : st < 8) :
    (s.setMember d st).memberState d = st := by
  rcases he : s.members.find? (fun e => e.2.1 == d) with _ | e
  · exact absurd (by rw [State.memberState, he]; rfl) h
  · rw [State.memberState, State.find_setMember he h0 h8]
    rfl

/-- What setting a member's state leaves. -/
theorem State.setMember_keeps (s : State) (d st : Nat) : s.setMember d st = { s with regs := (s.setMember d st).regs } ∧
    ∀ r, (∀ k, r ≠ .wlMember k) → (s.setMember d st).reg r = s.reg r := by
  unfold State.setMember
  split
  · next e _ => exact ⟨rfl, fun r hr => State.reg_setF_other _ _ _ (hr _)⟩
  · exact ⟨rfl, fun _ _ => rfl⟩

/-! ### Heartbeats (R469, R470) -/

/-- A heartbeat leaves what has been sent alone changed on the links. -/
theorem State.heartbeats_frame (fields : List Nat) (l : List Nat) (s : State) :
    l.foldl (fun s x => if s.wyState (s.wlPort x) = wyUP then s.wyControl (s.wlPort x) 1 fields else s) s =
      { s with withy := { s.withy with out := (l.foldl (fun s x => if s.wyState (s.wlPort x) = wyUP then
        s.wyControl (s.wlPort x) 1 fields else s) s).withy.out } } := by
  induction l generalizing s with
  | nil => rfl
  | cons x l ih =>
    rw [List.foldl_cons]
    split
    · exact (ih _).trans rfl
    · exact ih s

theorem heartbeatSend_holds {s : State} (hs : s.clocksStopped = false) (ha : s.wlActive = true) (hdue : s.waling.hbAt + 28800 ≤ s.gtc) :
    ∃ t, exec .heartbeatSend s = .next t ∧ t.waling = { s.waling with hbSeq := (s.waling.hbSeq + 1) % 256, hbAt := s.gtc } ∧
      t = { s with waling := t.waling, withy := { s.withy with out := t.withy.out } } := by
  obtain ⟨u, hu⟩ : ∃ u : State, { s with waling := { s.waling with hbSeq := (s.waling.hbSeq + 1) % 256, hbAt := s.gtc } } = u := ⟨_, rfl⟩
  have hx : ∃ fields, exec .heartbeatSend s = .next (s.keep
      ([0, 1].foldl (fun s x => if s.wyState (s.wlPort x) = wyUP then s.wyControl (s.wlPort x) 1 fields else s) u)) := by
    rw [exec_heartbeatSend, execHeartbeatSend, ← hu]
    exact ⟨_, State.when_of hs (by rw [ha, decide_eq_true hdue]; rfl)⟩
  obtain ⟨fields, hx⟩ := hx
  have hframe := State.heartbeats_frame fields [0, 1] u
  obtain ⟨v, hv⟩ : ∃ v, [0, 1].foldl (fun s x => if s.wyState (s.wlPort x) = wyUP then s.wyControl (s.wlPort x) 1 fields else s) u = v :=
    ⟨_, rfl⟩
  rw [hv] at hx hframe
  have hkeep : s.keep v = v := by
    rw [hframe, ← hu]
    rfl
  rw [hkeep] at hx
  refine ⟨v, hx, ?_, ?_⟩
  · rw [hframe, ← hu]
  · rw [hframe, ← hu]

theorem State.probesLive_none {s : State} (h : s.waling.probes = []) (d : Nat) : s.probesLive d = s := by
  rw [State.probesLive, h]
  rfl

/-- The state in which a heartbeat has been heard, before its score is shown (R470). -/
def State.heard (s : State) (x : Nat) : State :=
  let back := (s.nbr x).suspect && !(s.nbr x).token
  let u := s.setNbr x { s.nbr x with
    seen := true, heard := true, misses := if back then 0 else (s.nbr x).misses, suspect := (s.nbr x).suspect && !back }
  if (back && s.memberState (s.nbrId x) == 2) = true then u.setMember (s.nbrId x) 1 else u

/-- The score of a heartbeat, where the neighbour is in the member table. -/
def State.scoreShown (s : State) (e : Option (Nat × Nat × Nat)) (score : Nat) : State :=
  match e with
  | some e => s.setF (.wlMember e.1) WL_MEMBER.SCORE score
  | none => s

theorem State.heard_probes (s : State) (x : Nat) : (s.heard x).waling.probes = s.waling.probes := by
  unfold State.heard
  dsimp only
  split
  · exact (congrArg (fun t => t.waling.probes) (State.setMember_keeps _ (s.nbrId x) 1).1).trans rfl
  · rfl

theorem State.scoreShown_keeps (s : State) (e : Option (Nat × Nat × Nat)) (score : Nat) : (s.scoreShown e score).waling = s.waling := by
  cases e with
  | none => rfl
  | some e => rfl

theorem hb_answers {s : State} {x score : Nat} (hs : s.clocksStopped = false) (hx : x < 2) (hsc : score < 1024) (hon : s.wlOn = true)
    (hup : s.wyState (s.wlPort x) = wyUP) (hp : s.waling.probes = []) {e : Option (Nat × Nat × Nat)}
    (he : s.members.find? (fun e => e.2.1 == s.nbrId x) = e) :
    exec (.hb x score) s = .next (s.keep (((s.heard x).scoreShown e score).wlGot x)) := by
  have hprobes : (((s.heard x).scoreShown e score).wlGot x).waling.probes = [] :=
    (congrArg WalingState.probes ((s.heard x).scoreShown_keeps e score)).trans ((s.heard_probes x).trans hp)
  have hexec : exec (.hb x score) s = .next (s.keep ((((s.heard x).scoreShown e score).wlGot x).probesLive (s.nbrId x))) := by
    rw [exec_hb, execHb, he]
    cases e with
    | none => exact State.when_of hs (by rw [decide_eq_true hx, decide_eq_true hsc, hon, hup]; rfl)
    | some e => exact State.when_of hs (by rw [decide_eq_true hx, decide_eq_true hsc, hon, hup]; rfl)
  rw [hexec, State.probesLive_none hprobes]

theorem State.heard_of_not_suspect {s : State} {x : Nat} (h : (s.nbr x).suspect = false) :
    s.heard x = s.setNbr x { s.nbr x with seen := true, heard := true } := by
  simp [State.heard, h]

theorem State.heard_of_back {s : State} {x : Nat} (hs : (s.nbr x).suspect = true) (ht : (s.nbr x).token = false)
    (hm : s.memberState (s.nbrId x) = 2) : s.heard x =
      (s.setNbr x { s.nbr x with seen := true, heard := true, misses := 0, suspect := false }).setMember (s.nbrId x) 1 := by
  simp [State.heard, hs, ht, hm]

theorem State.members_scoreShown (s : State) (e : Option (Nat × Nat × Nat)) (score : Nat) : (s.scoreShown e score).members = s.members := by
  cases e with
  | none => rfl
  | some e =>
    refine State.members_congr (fun k => ?_) fun k => ?_
    · by_cases hk : k = e.1
      · subst hk
        exact State.getF_setF_other _ _ _ _ _ (by decide) (by decide) (by decide) (by decide)
      · exact State.getF_setF_other_reg _ _ _ _ fun h => hk (by injection h)
    · by_cases hk : k = e.1
      · subst hk
        exact State.getF_setF_other _ _ _ _ _ (by decide) (by decide) (by decide) (by decide)
      · exact State.getF_setF_other_reg _ _ _ _ fun h => hk (by injection h)

theorem State.memberState_congr {s t : State} (h : t.members = s.members) (d : Nat) : t.memberState d = s.memberState d := by
  unfold State.memberState
  rw [h]

/-- A heartbeat from a neighbour that is not suspected (R470). -/
theorem hb_of_not_suspect {s : State} {x score : Nat} (hs : s.clocksStopped = false) (hx : x < 2) (hsc : score < 1024) (hon : s.wlOn = true)
    (hup : s.wyState (s.wlPort x) = wyUP) (hp : s.waling.probes = []) (hsus : (s.nbr x).suspect = false) :
    ∃ t, exec (.hb x score) s = .next t ∧ t.nbr x = { s.nbr x with seen := true, heard := true } ∧ (∀ y, y ≠ x → t.nbr y = s.nbr y) ∧
      (∀ k d st, s.members.find? (fun e => e.2.1 == s.nbrId x) = some (k, d, st) →
        t.getF (.wlMember k) WL_MEMBER.SCORE = score ∧ t.getF (.wlMember k) WL_MEMBER.STATE = st) := by
  obtain ⟨e, he⟩ : ∃ e, s.members.find? (fun e => e.2.1 == s.nbrId x) = e := ⟨_, rfl⟩
  refine ⟨_, hb_answers hs hx hsc hon hup hp he, ?_⟩
  rw [State.heard_of_not_suspect hsus]
  obtain ⟨u, hu⟩ : ∃ u, s.setNbr x { s.nbr x with seen := true, heard := true } = u := ⟨_, rfl⟩
  have hregs : u.regs = s.regs := by rw [← hu]; rfl
  rw [hu]
  have hw : (s.keep ((u.scoreShown e score).wlGot x)).waling = u.waling := u.scoreShown_keeps e score
  refine ⟨?_, fun y hy => ?_, fun k d st hk => ?_⟩
  · rw [State.nbr_congr hw, ← hu, State.nbr_setNbr_self]
  · rw [State.nbr_congr hw, ← hu, State.nbr_setNbr_other _ _ hy]
  · rw [he] at hk
    rw [hk]
    rw [hk] at he
    have hst : s.getF (.wlMember k) WL_MEMBER.STATE = st := (State.members_find he).2.1
    refine ⟨?_, ?_⟩
    · exact (State.getF_setF_self u (.wlMember k) WL_MEMBER.SCORE score (by decide) (by decide)).trans (Nat.mod_eq_of_lt hsc)
    · have hother : (u.setF (.wlMember k) WL_MEMBER.SCORE score).getF (.wlMember k) WL_MEMBER.STATE = u.getF (.wlMember k) WL_MEMBER.STATE :=
        State.getF_setF_other _ _ _ _ _ (by decide) (by decide) (by decide) (by decide)
      refine hother.trans (Eq.trans ?_ hst)
      unfold State.getF State.reg
      rw [hregs]

/-- A heartbeat from a suspect for which no token has started (R470). -/
theorem hb_of_back {s : State} {x score : Nat} (hs : s.clocksStopped = false) (hx : x < 2) (hsc : score < 1024) (hon : s.wlOn = true)
    (hup : s.wyState (s.wlPort x) = wyUP) (hp : s.waling.probes = []) (hsus : (s.nbr x).suspect = true) (htok : (s.nbr x).token = false)
    (hm : s.memberState (s.nbrId x) = 2) :
    ∃ t, exec (.hb x score) s = .next t ∧ t.memberState (s.nbrId x) = 1 ∧
      t.nbr x = { s.nbr x with seen := true, heard := true, misses := 0, suspect := false } := by
  obtain ⟨e, he⟩ : ∃ e, s.members.find? (fun e => e.2.1 == s.nbrId x) = e := ⟨_, rfl⟩
  refine ⟨_, hb_answers hs hx hsc hon hup hp he, ?_⟩
  rw [State.heard_of_back hsus htok hm]
  obtain ⟨n, hn⟩ : ∃ n : WlNbr, { s.nbr x with seen := true, heard := true, misses := 0, suspect := false } = n := ⟨_, rfl⟩
  obtain ⟨d, hd⟩ : ∃ d, s.nbrId x = d := ⟨_, rfl⟩
  rw [hn, hd]
  rw [hd] at hm
  obtain ⟨u, hu⟩ : ∃ u, (s.setNbr x n).setMember d 1 = u := ⟨_, rfl⟩
  have hold : (s.setNbr x n).memberState d = 2 := (State.memberState_congr (State.members_of_regs fun _ => rfl) d).trans hm
  have hnew : u.memberState d = 1 := by
    rw [← hu]
    exact State.memberState_setMember (by omega) (by decide) (by decide)
  have hwal : u.waling = (s.setNbr x n).waling := by
    rw [← hu]
    exact (congrArg State.waling (State.setMember_keeps _ d 1).1).trans rfl
  rw [hu]
  have hmem : (s.keep ((u.scoreShown e score).wlGot x)).members = u.members :=
    (State.members_of_regs fun _ => rfl).trans (u.members_scoreShown e score)
  refine ⟨(State.memberState_congr hmem d).trans hnew, ?_⟩
  have hw : (s.keep ((u.scoreShown e score).wlGot x)).waling = (s.setNbr x n).waling := (u.scoreShown_keeps e score).trans hwal
  exact (State.nbr_congr hw x).trans (State.nbr_setNbr_self s x n)

/-- A window that ends without a heartbeat (R470). -/
theorem missWindow_holds {s : State} {x : Nat} (hs : s.clocksStopped = false) (hx : x < 2) (ha : s.wlActive = true)
    (hm : s.memberState (s.nbrId x) = 1 ∨ s.memberState (s.nbrId x) = 5) (hseen : (s.nbr x).seen = true) (hh : (s.nbr x).heard = false)
    (hw : (s.nbr x).winEnd ≤ s.gtc) :
    ∃ t, exec (.heartbeatMissWindow x) s = .next t ∧ t = { s with waling := t.waling } ∧
      t.nbr x = { s.nbr x with misses := (s.nbr x).misses + 1, winEnd := wlNextWindow s.gtc } ∧ ∀ y, y ≠ x → t.nbr y = s.nbr y := by
  have hmem : (s.memberState (s.nbrId x) == 1 || s.memberState (s.nbrId x) == 5) = true := by
    rw [Bool.or_eq_true, beq_iff_eq, beq_iff_eq]
    exact hm
  refine ⟨s.setNbr x { s.nbr x with misses := (s.nbr x).misses + 1, winEnd := wlNextWindow s.gtc }, ?_, rfl, State.nbr_setNbr_self _ _ _,
    fun y hy => State.nbr_setNbr_other _ _ hy⟩
  rw [exec_heartbeatMissWindow, execHeartbeatMissWindow]
  exact State.when_of hs (by rw [decide_eq_true hx, ha, hmem, hseen, hh, decide_eq_true hw]; rfl)

/-- The state of a suspicion, before its token leaves (R470, R471). -/
def State.suspected (s : State) (x : Nat) : State :=
  ((s.setNbr x { s.nbr x with suspect := true, token := true }).setMember (s.nbrId x) 2).wlNote 0 0x90 (s.nbrId x)

theorem State.suspected_keeps (s : State) (x : Nat) :
    (s.suspected x).nbr x = { s.nbr x with suspect := true, token := true } ∧
      (s.memberState (s.nbrId x) ≠ 0 → (s.suspected x).memberState (s.nbrId x) = 2) := by
  obtain ⟨n, hn⟩ : ∃ n : WlNbr, { s.nbr x with suspect := true, token := true } = n := ⟨_, rfl⟩
  obtain ⟨d, hd⟩ : ∃ d, s.nbrId x = d := ⟨_, rfl⟩
  unfold State.suspected
  rw [hn, hd]
  obtain ⟨u, hu⟩ : ∃ u, (s.setNbr x n).setMember d 2 = u := ⟨_, rfl⟩
  have hlog : u.Logged (u.wlNote 0 0x90 d) := State.logged_note ..
  have hwal : u.waling = (s.setNbr x n).waling := by
    rw [← hu]
    exact (congrArg State.waling (State.setMember_keeps _ d 2).1).trans rfl
  rw [hu]
  refine ⟨?_, fun hm => ?_⟩
  · rw [State.nbr_congr (hlog.waling.trans hwal), State.nbr_setNbr_self]
  · have hold : (s.setNbr x n).memberState d = s.memberState d := State.memberState_congr (State.members_of_regs fun _ => rfl) d
    have hnew : u.memberState d = 2 := by
      rw [← hu]
      exact State.memberState_setMember (by rw [hold]; exact hm) (by decide) (by decide)
    exact (State.memberState_congr (State.members_of_regs fun _ => hlog.regs _ Reg.noConfusion) d).trans hnew

theorem suspect_holds {s : State} {x : Nat} (hs : s.clocksStopped = false) (hx : x < 2) (ha : s.wlActive = true) (h4 : 4 ≤ (s.nbr x).misses)
    (hsus : (s.nbr x).suspect = false) (hm : s.memberState (s.nbrId x) = 1 ∨ s.memberState (s.nbrId x) = 5) :
    ∃ u : State, exec (.suspect x) s = .next (s.keep (u.passToken (1 - x) none
        { WlMsg.blank with origin := s.devid, subject := s.nbrId x, inserv := 1 })) ∧
      u.nbr x = { s.nbr x with suspect := true, token := true } ∧ u.memberState (s.nbrId x) = 2 := by
  have hmem : (s.memberState (s.nbrId x) == 1 || s.memberState (s.nbrId x) == 5) = true := by
    rw [Bool.or_eq_true, beq_iff_eq, beq_iff_eq]
    exact hm
  obtain ⟨hnbr, hst⟩ := s.suspected_keeps x
  refine ⟨s.suspected x, ?_, hnbr, hst (by omega)⟩
  rw [exec_suspect, execSuspect]
  exact State.when_of hs (by rw [decide_eq_true hx, ha, hmem, hsus, decide_eq_true h4]; rfl)

/-! ### Death tokens (R471 to R475) -/

/-- A DEATH message that this device takes, by what it is (R472, R473, R477). -/
theorem death_answers {s : State} {x : Nat} {m : WlMsg} (h : s.Hears x m) : exec (.death x m) s = .next (s.keep
    (if (!s.wlActive || !inService (s.memberState m.subject) || (m.subject :: m.run).contains s.devid) = true then s.wlGot x
     else if (s.waling.tokens.any fun t => t.subject == m.subject && t.side != x) = true then (s.wlGot x).commitDeath m.subject m.run
     else State.passToken { s.wlGot x with waling := { s.waling with
        tokens := s.waling.tokens ++ [⟨m.subject, m.run, m.origin, x, m.inserv⟩] } } (1 - x) (some x) m)) := by
  rw [exec_death, execDeath]
  exact State.when_of h.clocks (by rw [h.takes, h.fits]; rfl)

theorem State.goes_on {s : State} {m : WlMsg} (ha : s.wlActive = true) (hin : inService (s.memberState m.subject) = true)
    (hd : s.devid ∉ m.subject :: m.run) :
    (!s.wlActive || !inService (s.memberState m.subject) || (m.subject :: m.run).contains s.devid) ≠ true := by
  rw [ha, hin, List.contains_eq_mem, decide_eq_false hd]
  decide

theorem death_holds {s : State} {x : Nat} {m : WlMsg} (h : s.Hears x m) :
    (s.wlActive = false ∨ inService (s.memberState m.subject) = false → exec (.death x m) s = .next (s.keep (s.wlGot x))) ∧
    (s.wlActive = true → inService (s.memberState m.subject) = true → s.devid ∉ m.subject :: m.run →
      (∃ t ∈ s.waling.tokens, t.subject = m.subject ∧ t.side ≠ x) →
      exec (.death x m) s = .next (s.keep ((s.wlGot x).commitDeath m.subject m.run))) ∧
    (s.wlActive = true → inService (s.memberState m.subject) = true → s.devid ∉ m.subject :: m.run →
      (∀ t ∈ s.waling.tokens, t.subject = m.subject → t.side = x) →
      ∃ u : State, exec (.death x m) s = .next (s.keep (u.passToken (1 - x) (some x) m)) ∧
        u.waling.tokens = s.waling.tokens ++ [⟨m.subject, m.run, m.origin, x, m.inserv⟩] ∧ u = { s.wlGot x with waling := u.waling }) := by
  refine ⟨fun hno => ?_, fun ha hin hd hboth => ?_, fun ha hin hd hone => ⟨{ s.wlGot x with waling := { s.waling with
        tokens := s.waling.tokens ++ [⟨m.subject, m.run, m.origin, x, m.inserv⟩] } }, ?_, rfl, rfl⟩⟩
  · rw [death_answers h, if_pos]
    rcases hno with hno | hno
    · rw [hno]; rfl
    · rw [hno]; simp
  · have hany : (s.waling.tokens.any fun t => t.subject == m.subject && t.side != x) = true := by
      simpa using hboth
    rw [death_answers h, if_neg (State.goes_on ha hin hd), if_pos hany]
  · have hany : (s.waling.tokens.any fun t => t.subject == m.subject && t.side != x) ≠ true := by
      simpa using hone
    rw [death_answers h, if_neg (State.goes_on ha hin hd), if_neg hany]

/-! ### Probes (R471, R479) -/

theorem probe_answers {s : State} {w d : Nat} (hs : s.clocksStopped = false) (hw : w < 16) (hd : d < 65536) (hup : s.wyState w = wyUP) :
    exec (.probe w d) s = .next (s.keep
      (if s.wlOn = true then (s.wyGot w 1).wyControl w 4 [d % 256, d / 256, 0, 0, 0] else s.wyGot w 1)) := by
  rw [exec_probe, execProbe]
  exact State.when_of hs (by rw [decide_eq_true hw, decide_eq_true hd, hup]; rfl)

theorem probeAck_other {s : State} {w d : Nat} (hs : s.clocksStopped = false) (hw : w < 16) (hd : d < 65536) (hup : s.wyState w = wyUP)
    (hne : d ≠ s.devid) : exec (.probeAck w d) s = .next (s.keep
      ((s.wyRoute d).elim (s.wyGot w 1) fun v => (s.wyGot w 1).wyControl v 4 [d % 256, d / 256, 0, 0, 0])) := by
  rw [exec_probeAck, execProbeAck, if_pos hne]
  cases s.wyRoute d with
  | none => exact State.when_of hs (by rw [decide_eq_true hw, decide_eq_true hd, hup]; rfl)
  | some v => exact State.when_of hs (by rw [decide_eq_true hw, decide_eq_true hd, hup]; rfl)

theorem probeAck_own {s : State} {w : Nat} (hs : s.clocksStopped = false) (hw : w < 16) (hd : s.devid < 65536) (hup : s.wyState w = wyUP)
    (hp : s.waling.probes = []) {b : Bool} (hb : (s.waling.reprobe.isSome && s.wyRoute (s.getF .wlReprobe WL_REPROBE.ID) == some w) = b) :
    exec (.probeAck w s.devid) s = .next (s.keep (if b = true then (s.wyGot w 1).reprobed 1 else s.wyGot w 1)) := by
  have hlive : (s.wyGot w 1).probesLive (s.wyPeer w) = s.wyGot w 1 := State.probesLive_none (s := s.wyGot w 1) hp _
  have hexec : exec (.probeAck w s.devid) s = .next (s.keep
      (if b = true then ((s.wyGot w 1).probesLive (s.wyPeer w)).reprobed 1 else (s.wyGot w 1).probesLive (s.wyPeer w))) := by
    rw [exec_probeAck, execProbeAck, if_neg (fun h : s.devid ≠ s.devid => h rfl), hb]
    exact State.when_of hs (by rw [decide_eq_true hw, decide_eq_true hd, hup]; rfl)
  rw [hexec, hlive]

theorem State.reprobed_shows (s : State) (result : Nat) : (s.reprobed result).getF .wlReprobe WL_REPROBE.BUSY = 0 ∧
    (s.reprobed result).getF .wlReprobe WL_REPROBE.RESULT = result % 4 ∧ (s.reprobed result).waling.reprobe = none := by
  unfold State.reprobed
  dsimp only
  obtain ⟨u, hu⟩ : ∃ u, s.setF .wlReprobe WL_REPROBE.BUSY 0 = u := ⟨_, rfl⟩
  rw [hu]
  obtain ⟨v, hv⟩ : ∃ v, u.setF .wlReprobe WL_REPROBE.RESULT result = v := ⟨_, rfl⟩
  rw [hv]
  obtain ⟨z, hz⟩ : ∃ z : State, { v with waling := { v.waling with reprobe := none } } = z := ⟨_, rfl⟩
  rw [hz]
  have hlog : z.Logged (z.wlNote 0 0x98 (v.getF .wlReprobe WL_REPROBE.ID + 2 ^ 16 * result)) := State.logged_note ..
  have hzv : z.regs = v.regs := by rw [← hz]
  have hreg : z.reg .wlReprobe = v.reg .wlReprobe := by
    unfold State.reg
    rw [hzv]
  refine ⟨?_, ?_, ?_⟩
  · rw [hlog.getF _ Reg.noConfusion, State.getF_congr hreg, ← hv,
      State.getF_setF_other _ _ _ _ _ (by decide) (by decide) (by decide) (by decide), ← hu,
      State.getF_setF_self _ _ _ _ (by decide) (by decide)]
    rfl
  · rw [hlog.getF _ Reg.noConfusion, State.getF_congr hreg, ← hv, State.getF_setF_self _ _ _ _ (by decide) (by decide)]
    rfl
  · rw [hlog.waling, ← hz]

/-! ### Witness probes, answers, commits and FENCE (R471 to R477) -/

theorem witnessProbeTimeout_holds {s : State} {subject : Nat} {q : WlToken × Nat} (hs : s.clocksStopped = false)
    (hq : s.waling.probes.find? (fun q => q.1.subject == subject) = some q) (ht : q.2 + 57600 ≤ s.gtc) :
    ∃ u : State, exec (.witnessProbeTimeout subject) s = .next (s.keep (u.commitDeath subject q.1.run)) ∧
      u.waling.probes = s.waling.probes.filter (fun z => z != q) ∧ u = { s with waling := u.waling } := by
  refine ⟨{ s with waling := { s.waling with probes := s.waling.probes.filter fun z => z != q } }, ?_, rfl, rfl⟩
  rw [exec_witnessProbeTimeout, execWitnessProbeTimeout, hq]
  exact State.when_of hs (decide_eq_true ht)

theorem dreply_holds {s : State} {x : Nat} {m : WlMsg} (h : s.Hears x m) (hr : m.result = 1 ∨ m.result = 2) (ha : s.wlActive = true) :
    ∃ u : State, exec (.dreply x m) s = .next (s.keep (if m.origin = s.devid then u.tokenAnswered m else u.wlSend (1 - x) 2 m)) ∧
      (∀ t ∈ u.waling.tokens, t.subject ≠ m.subject) ∧ u = { s.wlGot x with waling := u.waling } := by
  have hres : (m.result == 1 || m.result == 2) = true := by
    rw [Bool.or_eq_true, beq_iff_eq, beq_iff_eq]
    exact hr
  refine ⟨{ s.wlGot x with waling := { s.waling with tokens := s.waling.tokens.filter fun t => t.subject != m.subject } }, ?_,
    fun t ht => bne_iff_ne.1 (List.mem_filter.1 ht).2, rfl⟩
  rw [exec_dreply, execDreply, if_neg (by rw [ha]; decide)]
  exact State.when_of h.clocks (by rw [h.takes, h.fits, hres]; rfl)

theorem commit_holds {s : State} {x : Nat} {m : WlMsg} (h : s.Hears x m) (h0 : 0 < m.result) (h5 : m.result < 5) :
    (s.wlOn = false ∨ s.applied m = true → exec (.commit x m) s = .next (s.keep (s.wlGot x))) ∧
    (s.wlOn = true → s.applied m = false → s.wlState ≠ wlFENCED →
      exec (.commit x m) s = .next (s.keep (((s.wlGot x).wlSend (1 - x) 3 m).applyCommit m))) ∧
    (s.wlOn = true → s.applied m = false → s.wlState = wlFENCED →
      exec (.commit x m) s = .next (s.keep ((s.wlGot x).applyCommit m))) := by
  have hexec : exec (.commit x m) s = .next (s.keep (if (!s.wlOn || s.applied m) = true then s.wlGot x
     else (if s.wlState = wlFENCED then s.wlGot x else (s.wlGot x).wlSend (1 - x) 3 m).applyCommit m)) := by
    rw [exec_commit, execCommit]
    exact State.when_of h.clocks (by rw [h.takes, h.fits, decide_eq_true h0, decide_eq_true h5]; rfl)
  refine ⟨fun hno => ?_, fun hon happ hst => ?_, fun hon happ hst => ?_⟩
  · have hout : (!s.wlOn || s.applied m) = true := by simpa using hno
    rw [hexec, if_pos hout]
  · rw [hexec, if_neg (by rw [hon, happ]; decide), if_neg hst]
  · rw [hexec, if_neg (by rw [hon, happ]; decide), if_pos hst]

/-- FENCE leaves the state FENCED and no other register but the count of lost records (R477, R493). -/
theorem State.wlFence_shows (s : State) (cause : Nat) : (s.wlFence cause).wlState = wlFENCED ∧
    ∀ r, r ≠ .wlState → r ≠ .gctlElogLost → (s.wlFence cause).reg r = s.reg r := by
  unfold State.wlFence
  by_cases h : s.wlState = wlFENCED
  · rw [if_pos h]
    exact ⟨h, fun _ _ _ => rfl⟩
  · rw [if_neg h]
    obtain ⟨u, hu⟩ : ∃ u, s.setF .wlState WL_STATE.STATE wlFENCED = u := ⟨_, rfl⟩
    rw [hu]
    have hlog : u.Logged (u.wlNote 3 0x93 cause) := State.logged_note ..
    refine ⟨?_, fun r hr hl => ?_⟩
    · rw [State.wlState, hlog.getF _ Reg.noConfusion, ← hu, State.getF_setF_self _ _ _ _ (by decide) (by decide)]
      rfl
    · rw [hlog.regs r hl, ← hu, State.reg_setF_other _ _ _ hr]

theorem fenceNotice_holds {s : State} {w : Nat} (hs : s.clocksStopped = false) (hw : w < 16) (hst : s.wyState w = wyUP ∨ s.wyState w = wyFENCED)
    (hon : s.wlOn = true) :
    ∃ t, exec (.fenceNotice w) s = .next t ∧ t.wlState = wlFENCED ∧ ∀ r, r ≠ .wlState → r ≠ .gctlElogLost → t.reg r = s.reg r := by
  have hup : (s.wyState w == wyUP || s.wyState w == wyFENCED) = true := by
    rw [Bool.or_eq_true, beq_iff_eq, beq_iff_eq]
    exact hst
  refine ⟨s.keep ((s.wyGot w 1).wlFence 1), ?_, (s.wyGot w 1).wlFence_shows 1⟩
  rw [exec_fenceNotice, execFenceNotice, if_pos hon]
  exact State.when_of hs (by rw [decide_eq_true hw, hup]; rfl)

/-- Settles O47: each message of the Waling unit is answered by its own rule, and the member table shows what it leaves. -/
theorem membersAreWatchedAndFenced : Obligations.MembersAreWatchedAndFenced := by
  unfold Obligations.MembersAreWatchedAndFenced
  refine ⟨fun s hs ha hdue => heartbeatSend_holds hs ha hdue,
    fun s x score hs hx hsc hon hup hp hsus => hb_of_not_suspect hs hx hsc hon hup hp hsus,
    fun s x score hs hx hsc hon hup hp hsus htok hm => hb_of_back hs hx hsc hon hup hp hsus htok hm,
    fun s x hs hx ha hm hseen hh hw => missWindow_holds hs hx ha hm hseen hh hw,
    fun s x hs hx ha h4 hsus hm => suspect_holds hs hx ha h4 hsus hm,
    fun s x m h => death_holds h, fun s w d hs hw hd hup => ⟨fun hon => ?_, fun hoff => ?_, fun v hne hr => ?_, fun hne hr => ?_⟩,
    fun s w hs hw hd hup hp => ⟨fun hnone => ?_, fun t0 hsome hroute => ?_⟩,
    fun s subject q hs hq ht => witnessProbeTimeout_holds hs hq ht, fun s x m h hr ha => dreply_holds h hr ha,
    fun s x m h h0 h5 => commit_holds h h0 h5, fun s w hs hw hst hon => fenceNotice_holds hs hw hst hon⟩
  · rw [probe_answers hs hw hd hup, if_pos hon]
  · rw [probe_answers hs hw hd hup, if_neg (ne_true_of_eq_false hoff)]
  · rw [probeAck_other hs hw hd hup hne, hr]
    rfl
  · rw [probeAck_other hs hw hd hup hne, hr]
    rfl
  · exact probeAck_own hs hw hd hup hp (b := false) (by rw [hnone]; rfl)
  · have hb : (s.waling.reprobe.isSome && s.wyRoute (s.getF .wlReprobe WL_REPROBE.ID) == some w) = true := by
      rw [hsome, hroute]
      simp
    exact ⟨_, probeAck_own hs hw hd hup hp hb, (s.wyGot w 1).reprobed_shows 1⟩

end Sys2Proof.Machine


namespace Sys2Proof.Machine

/-! # Health, the expulsion budget, re-probes, claims and admission (R479 to R489) -/

theorem exec_healthUpdate (s : State) : exec .healthUpdate s = execHealthUpdate s := rfl
theorem exec_expulsionCandidate (s : State) : exec .expulsionCandidate s = execExpulsionCandidate s := rfl
theorem exec_budget (x : Nat) (m : WlMsg) (s : State) : exec (.budget x m) s = execBudget x m s := rfl
theorem exec_budgetTokenTimeout (s : State) : exec .budgetTokenTimeout s = execBudgetTokenTimeout s := rfl
theorem exec_reprobe (v : Nat) (s : State) : exec (.reprobe v) s = execReprobe v s := rfl
theorem exec_reprobeTimeout (hops : Nat) (s : State) : exec (.reprobeTimeout hops) s = execReprobeTimeout hops s := rfl
theorem exec_claimSend (v : Nat) (s : State) : exec (.claimSend v) s = execClaimSend v s := rfl
theorem exec_claim (w : Nat) (m : WlMsg) (s : State) : exec (.claim w m) s = execClaim w m s := rfl
theorem exec_claimRes (w : Nat) (m : WlMsg) (s : State) : exec (.claimRes w m) s = execClaimRes w m s := rfl
theorem exec_admission (v : Nat) (s : State) : exec (.admission v) s = execAdmission v s := rfl
theorem exec_admissionPhaseComplete (pass : Bool) (s : State) :
    exec (.admissionPhaseComplete pass) s = execAdmissionPhaseComplete pass s := rfl
theorem exec_admitMessage (x : Nat) (m : WlMsg) (s : State) : exec (.admitMessage x m) s = execAdmit x m s := rfl

/-! ### What sending leaves -/

/-- A message on the ring changes no register and no core. -/
theorem State.wlSend_keeps (s : State) (x type : Nat) (m : WlMsg) : (s.wlSend x type m).regs = s.regs ∧ (s.wlSend x type m).cores = s.cores ∧
    (s.wlSend x type m).waling = s.waling := by
  unfold State.wlSend
  dsimp only
  split
  · exact ⟨rfl, rfl, rfl⟩
  · exact ⟨rfl, rfl, rfl⟩

theorem State.reg_of_regs {s t : State} (h : t.regs = s.regs) (r : Reg) : t.reg r = s.reg r := by
  unfold State.reg
  rw [h]

/-- A routed message, or the record of one that has no way, changes no register but the count of lost records. -/
theorem State.wySend_regs (s : State) (at_ dst hops inst : Nat) (m : WyMsg) {r : Reg} (hr : r ≠ .gctlElogLost) :
    (s.wySend at_ dst hops inst m).reg r = s.reg r := by
  unfold State.wySend
  split
  · rfl
  · exact (State.logged_event ..).regs r hr

/-! ### Health (R480, R481) -/

theorem State.logged_if_note (s : State) (c : Bool) (src sev cls d : Nat) : s.Logged (if c = true then s.note src sev cls d else s) := by
  split
  · exact State.logged_note ..
  · exact State.Logged.refl s

/-- The registers of a health update. -/
theorem State.health_shows (s : State) (score d run : Nat) (hs : score < 1024) (hd : d < 1024) {t : State}
    (ht : t = ((s.setF .wlHealth WL_HEALTH.SCORE score).setF .wlHealth WL_HEALTH.DEMERIT d).setF .wlHealth WL_HEALTH.LOWRUN run) :
    t.getF .wlHealth WL_HEALTH.DEMERIT = d ∧ t.getF .wlHealth WL_HEALTH.SCORE = score ∧ ∀ r, r ≠ .wlHealth → t.reg r = s.reg r := by
  obtain ⟨u, hu⟩ : ∃ u, s.setF .wlHealth WL_HEALTH.SCORE score = u := ⟨_, rfl⟩
  rw [hu] at ht
  obtain ⟨v, hv⟩ : ∃ v, u.setF .wlHealth WL_HEALTH.DEMERIT d = v := ⟨_, rfl⟩
  rw [hv] at ht
  subst ht
  refine ⟨?_, ?_, fun r hr => ?_⟩
  · rw [State.getF_setF_other _ _ _ _ _ (by decide) (by decide) (by decide) (by decide), ← hv,
      State.getF_setF_self _ _ _ _ (by decide) (by decide)]
    exact Nat.mod_eq_of_lt hd
  · rw [State.getF_setF_other _ _ _ _ _ (by decide) (by decide) (by decide) (by decide), ← hv,
      State.getF_setF_other _ _ _ _ _ (by decide) (by decide) (by decide) (by decide), ← hu,
      State.getF_setF_self _ _ _ _ (by decide) (by decide)]
    exact Nat.mod_eq_of_lt hs
  · rw [State.reg_setF_other _ _ _ hr, ← hv, State.reg_setF_other _ _ _ hr, ← hu, State.reg_setF_other _ _ _ hr]

theorem healthUpdate_holds {s : State} (hs : s.clocksStopped = false) (hdue : s.waling.healthAt + 360000000 ≤ s.gtc)
    (hhb : s.wlActive = false ∨ s.gtc < s.waling.hbAt + 28800) {p d : Nat}
    (hp : s.waling.ce * s.getF .wlHweight WL_HWEIGHT.WCE + s.waling.rt * s.getF .wlHweight WL_HWEIGHT.WRT
      + 16 * s.waling.th * s.getF .wlHweight WL_HWEIGHT.WTH + 16 * s.waling.st * s.getF .wlHweight WL_HWEIGHT.WST = p)
    (hd : s.getF .wlHealth WL_HEALTH.DEMERIT = d) :
    ∃ t, exec .healthUpdate s = .next t ∧ t.getF .wlHealth WL_HEALTH.DEMERIT = min (d - (d + 8) / 16 + p) 1023 ∧
      t.getF .wlHealth WL_HEALTH.SCORE = 1023 - min (d - (d + 8) / 16 + p) 1023 ∧ t.waling.ce = 0 ∧ t.waling.rt = 0 ∧ t.waling.th = 0 ∧
      t.waling.st = 0 ∧ t.waling.healthAt = s.gtc ∧ ∀ r, r ≠ .wlHealth → r ≠ .gctlElogLost → t.reg r = s.reg r := by
  have hguard : (decide (s.waling.healthAt + 360000000 ≤ s.gtc) && !(s.wlActive && decide (s.waling.hbAt + 28800 ≤ s.gtc))) = true := by
    rw [decide_eq_true hdue]
    rcases hhb with h | h
    · rw [h]; rfl
    · rw [decide_eq_false (Nat.not_le.2 h), Bool.and_false]; rfl
  obtain ⟨e, he⟩ : ∃ e, min (d - (d + 8) / 16 + p) 1023 = e := ⟨_, rfl⟩
  have hle : e ≤ 1023 := by rw [← he]; exact Nat.min_le_right ..
  have hx : ∃ low run high, exec .healthUpdate s = .next (s.keep (
      let s1 := ((s.setF .wlHealth WL_HEALTH.SCORE (1023 - e)).setF .wlHealth WL_HEALTH.DEMERIT e).setF .wlHealth WL_HEALTH.LOWRUN run
      let s2 := { s1 with waling := { s.waling with ce := 0, rt := 0, th := 0, st := 0, low := low, highRun := high, healthAt := s.gtc } }
      if (low && !s.waling.low) = true then s2.note (srcDie 8) 1 0x94 (1023 - e) else s2)) := by
    rw [exec_healthUpdate, execHealthUpdate, hd, hp, he]
    exact ⟨_, _, _, State.when_of hs hguard⟩
  obtain ⟨low, run, high, hx⟩ := hx
  dsimp only at hx
  obtain ⟨u, hu⟩ : ∃ u, ((s.setF .wlHealth WL_HEALTH.SCORE (1023 - e)).setF .wlHealth WL_HEALTH.DEMERIT e).setF .wlHealth WL_HEALTH.LOWRUN run = u :=
    ⟨_, rfl⟩
  obtain ⟨hdem, hsc, hreg⟩ := State.health_shows s (1023 - e) e run (by omega) (by omega) hu.symm
  obtain ⟨v, hv⟩ : ∃ v : State, { u with waling := { s.waling with
    ce := 0, rt := 0, th := 0, st := 0, low := low, highRun := high, healthAt := s.gtc } } = v :=
    ⟨_, rfl⟩
  have hvu : v.regs = u.regs := by rw [← hv]
  rw [hu, hv] at hx
  have hlog : v.Logged (if (low && !s.waling.low) = true then v.note (srcDie 8) 1 0x94 (1023 - e) else v) := v.logged_if_note ..
  obtain ⟨z, hz⟩ : ∃ z, (if (low && !s.waling.low) = true then v.note (srcDie 8) 1 0x94 (1023 - e) else v) = z := ⟨_, rfl⟩
  rw [hz] at hx hlog
  have hwal : (s.keep z).waling = { s.waling with ce := 0, rt := 0, th := 0, st := 0, low := low, highRun := high, healthAt := s.gtc } :=
    hlog.waling.trans (by rw [← hv])
  rw [he]
  refine ⟨s.keep z, hx, ?_, ?_, ?_, ?_, ?_, ?_, ?_, fun r hr hl => ?_⟩
  · exact (hlog.getF _ Reg.noConfusion).trans ((State.getF_congr (State.reg_of_regs hvu _)).trans hdem)
  · exact (hlog.getF _ Reg.noConfusion).trans ((State.getF_congr (State.reg_of_regs hvu _)).trans hsc)
  · rw [hwal]
  · rw [hwal]
  · rw [hwal]
  · rw [hwal]
  · rw [hwal]
  · exact (hlog.regs r hl).trans ((State.reg_of_regs hvu r).trans (hreg r hr))

theorem expulsionCandidate_holds {s : State} (hs : s.clocksStopped = false) {b : Bool} (hc : s.waling.candidate = b)
    (h : (if b = true then decide (3 ≤ s.waling.highRun) else decide (s.getF .wlHealth WL_HEALTH.LOWRUN = 3)) = true) :
    exec .expulsionCandidate s = .next { s with waling := { s.waling with candidate := !b } } := by
  subst hc
  exact State.when_of hs h

/-! ### The expulsion budget (R482 to R484) -/

/-- Another token that stays: one of a lower device, seen within 8 ms (R484). -/
def State.otherToken (s : State) (m : WlMsg) : Bool :=
  match s.waling.budgetAt with
  | some t => decide (s.gtc < t + 28800000) && decide (s.waling.budgetFrom < m.origin)
  | none => false

/-- A token that does not stay ends here; else a device that is no candidate passes it on (R483, R484). -/
theorem budget_answers {s : State} {x : Nat} {m : WlMsg} (h : s.Hears x m) :
    ((!s.wlActive || s.otherToken m) = true → exec (.budget x m) s = .next (s.keep (s.wlGot x))) ∧
    ((!s.wlActive || s.otherToken m) = false → s.waling.candidate = false → exec (.budget x m) s = .next (s.keep
      (State.wlSend { s.wlGot x with waling := { s.waling with budgetAt := some s.gtc, budgetFrom := m.origin } } (1 - x) 5 (s.budgetMsg m)))) := by
  obtain ⟨u, hu⟩ : ∃ u : State, { s.wlGot x with waling := { s.waling with budgetAt := some s.gtc, budgetFrom := m.origin } } = u := ⟨_, rfl⟩
  obtain ⟨m1, hm⟩ : ∃ m1, s.budgetMsg m = m1 := ⟨_, rfl⟩
  obtain ⟨r, hr⟩ : ∃ r, (if m1.subject = s.devid ∧ s.waling.candidate = true then u.budgetOwn m1 else (m1, u)) = r := ⟨_, rfl⟩
  have hexec : exec (.budget x m) s = .next (s.keep
      (if (!s.wlActive || s.otherToken m) = true then s.wlGot x else r.2.wlSend (1 - x) 5 r.1)) := by
    rw [exec_budget, execBudget, ← hr, ← hm, ← hu]
    exact State.when_of h.clocks (by rw [h.takes, h.fits]; rfl)
  rw [hexec, hm, hu]
  refine ⟨fun ht => by rw [if_pos ht], fun hf hc => ?_⟩
  rw [if_neg (ne_true_of_eq_false hf), ← hr, if_neg (fun hh => absurd (hc.symm.trans hh.2) Bool.false_ne_true)]

theorem budgetTokenTimeout_holds {s : State} (hs : s.clocksStopped = false) (ha : s.wlActive = true)
    (hdue : s.waling.budgetAt.getD 0 + 28800000 ≤ s.gtc) (hlow : ∀ d ∈ s.serving, s.devid ≤ d) :
    ∃ t, exec .budgetTokenTimeout s = .next t ∧ t.waling.budgetAt = some s.gtc ∧ t.waling.budgetFrom = s.devid ∧ t.cores = s.cores := by
  have hall : (s.serving.all fun d => decide (s.devid ≤ d)) = true := List.all_eq_true.2 fun d hd => decide_eq_true (hlow d hd)
  obtain ⟨u, hu⟩ : ∃ u : State, { s with waling := { s.waling with budgetAt := some s.gtc, budgetFrom := s.devid } } = u := ⟨_, rfl⟩
  have hx : ∃ m : WlMsg, exec .budgetTokenTimeout s = .next (s.keep ((u.wlNote 0 0x9B s.waling.budgetAt.isSome.toNat).wlSend 1 5 m)) := by
    rw [exec_budgetTokenTimeout, execBudgetTokenTimeout, ← hu]
    exact ⟨_, State.when_of hs (by rw [ha, decide_eq_true hdue, hall]; rfl)⟩
  obtain ⟨m, hx⟩ := hx
  have hlog : u.Logged (u.wlNote 0 0x9B s.waling.budgetAt.isSome.toNat) := State.logged_note ..
  obtain ⟨v, hv⟩ : ∃ v, u.wlNote 0 0x9B s.waling.budgetAt.isSome.toNat = v := ⟨_, rfl⟩
  rw [hv] at hx hlog
  obtain ⟨_, hcores, hwal⟩ := v.wlSend_keeps 1 5 m
  have hw : (s.keep (v.wlSend 1 5 m)).waling = { s.waling with budgetAt := some s.gtc, budgetFrom := s.devid } :=
    hwal.trans (hlog.waling.trans (by rw [← hu]))
  refine ⟨_, hx, by rw [hw], by rw [hw], ?_⟩
  exact hcores.trans ((congrArg State.cores hlog.rest).trans (by rw [← hu]))

/-! ### Re-probes (R479) -/

/-- The registers and the mark of a re-probe that starts (R479). -/
def State.reprobing (s : State) (id : Nat) : State :=
  let s1 := ((s.setF .wlReprobe WL_REPROBE.ID id).setF .wlReprobe WL_REPROBE.BUSY 1).setF .wlReprobe WL_REPROBE.RESULT 0
  { s1 with waling := { s1.waling with reprobe := some s.gtc } }

theorem State.reprobing_shows (s : State) {id : Nat} (hid : id < 65536) : (s.reprobing id).getF .wlReprobe WL_REPROBE.ID = id ∧
    (s.reprobing id).getF .wlReprobe WL_REPROBE.BUSY = 1 ∧ (s.reprobing id).getF .wlReprobe WL_REPROBE.RESULT = 0 ∧
    (s.reprobing id).waling.reprobe = some s.gtc := by
  unfold State.reprobing
  dsimp only
  obtain ⟨u, hu⟩ : ∃ u, s.setF .wlReprobe WL_REPROBE.ID id = u := ⟨_, rfl⟩
  rw [hu]
  obtain ⟨v, hv⟩ : ∃ v, u.setF .wlReprobe WL_REPROBE.BUSY 1 = v := ⟨_, rfl⟩
  rw [hv]
  obtain ⟨z, hz⟩ : ∃ z, v.setF .wlReprobe WL_REPROBE.RESULT 0 = z := ⟨_, rfl⟩
  rw [hz]
  have hreg (n : Option Nat) : State.reg { z with waling := { z.waling with reprobe := n } } .wlReprobe = z.reg .wlReprobe := rfl
  refine ⟨?_, ?_, ?_, rfl⟩
  · rw [State.getF_congr (hreg _), ← hz, State.getF_setF_other _ _ _ _ _ (by decide) (by decide) (by decide) (by decide), ← hv,
      State.getF_setF_other _ _ _ _ _ (by decide) (by decide) (by decide) (by decide), ← hu,
      State.getF_setF_self _ _ _ _ (by decide) (by decide)]
    exact Nat.mod_eq_of_lt (Nat.lt_of_lt_of_le hid (by decide))
  · rw [State.getF_congr (hreg _), ← hz, State.getF_setF_other _ _ _ _ _ (by decide) (by decide) (by decide) (by decide), ← hv,
      State.getF_setF_self _ _ _ _ (by decide) (by decide)]
    rfl
  · rw [State.getF_congr (hreg _), ← hz, State.getF_setF_self _ _ _ _ (by decide) (by decide)]
    rfl

theorem reprobe_holds {s : State} {v : Nat} (hs : s.clocksStopped = false) (hv : v < 2 ^ 32) (hgo : v / 2 ^ 31 = 1) :
    (s.getF .wlReprobe WL_REPROBE.BUSY = 1 → exec (.reprobe v) s = .next s) ∧
    (s.getF .wlReprobe WL_REPROBE.BUSY ≠ 1 → s.wlOn = true →
      ∃ t, exec (.reprobe v) s = .next t ∧ t.getF .wlReprobe WL_REPROBE.ID = v % 65536 ∧ t.getF .wlReprobe WL_REPROBE.BUSY = 1 ∧
        t.getF .wlReprobe WL_REPROBE.RESULT = 0 ∧ t.waling.reprobe = some s.gtc) := by
  have hguard : (decide (v < 2 ^ 32) && decide (v / 2 ^ 31 = 1)) = true := by rw [decide_eq_true hv, decide_eq_true hgo]; rfl
  refine ⟨fun hb => ?_, fun hb hon => ?_⟩
  · rw [exec_reprobe, execReprobe, if_pos hb]
    exact State.when_of hs hguard
  · obtain ⟨id, hid⟩ : ∃ id, v % 65536 = id := ⟨_, rfl⟩
    have hlt : id < 65536 := by rw [← hid]; exact Nat.mod_lt _ (by decide)
    have hshows := s.reprobing_shows hlt
    obtain ⟨u, hu⟩ : ∃ u, s.reprobing id = u := ⟨_, rfl⟩
    rw [hu] at hshows
    unfold State.reprobing at hu
    dsimp only at hu
    have hx : ∃ out, exec (.reprobe v) s = .next (s.keep { u with withy := out }) := by
      rw [exec_reprobe, execReprobe, hid, if_neg hb, if_neg (by rw [hon]; decide)]
      dsimp only
      rw [hu]
      split
      · split
        · exact ⟨_, State.when_of hs hguard⟩
        · exact ⟨_, State.when_of hs hguard⟩
      · exact ⟨_, State.when_of hs hguard⟩
    obtain ⟨out, hx⟩ := hx
    rw [hid]
    exact ⟨_, hx, hshows⟩

theorem reprobeTimeout_holds {s : State} {hops at_ : Nat} (hs : s.clocksStopped = false) (hr : s.waling.reprobe = some at_) (h0 : 0 < hops)
    (hdue : at_ + 57600 * hops ≤ s.gtc) :
    ∃ t, exec (.reprobeTimeout hops) s = .next t ∧ t.getF .wlReprobe WL_REPROBE.BUSY = 0 ∧ t.waling.reprobe = none ∧
      t.getF .wlReprobe WL_REPROBE.RESULT = (if (s.wyRoute (s.getF .wlReprobe WL_REPROBE.ID)).isSome = true then 2 else 3) := by
  obtain ⟨k, hk⟩ : ∃ k, (if (s.wyRoute (s.getF .wlReprobe WL_REPROBE.ID)).isSome = true then 2 else 3) = k := ⟨_, rfl⟩
  have hx : exec (.reprobeTimeout hops) s = .next (s.keep (s.reprobed k)) := by
    rw [exec_reprobeTimeout, execReprobeTimeout, hr, ← hk]
    exact State.when_of hs (by rw [decide_eq_true h0, decide_eq_true hdue]; rfl)
  obtain ⟨hbusy, hres, hnone⟩ := s.reprobed_shows k
  rw [hk]
  refine ⟨_, hx, hbusy, hnone, hres.trans (Nat.mod_eq_of_lt ?_)⟩
  rw [← hk]
  split
  · decide
  · decide

end Sys2Proof.Machine


namespace Sys2Proof.Machine

/-! ### Claims (R485 to R487) -/

/-- The state of a claim's result: the fields of WL_CLAIM_RES, then BUSY 0 (R486). -/
def State.claimShown (s : State) (status winner : Nat) : State :=
  ((s.setF .wlClaimRes WL_CLAIM_RES.STATUS status).setF .wlClaimRes WL_CLAIM_RES.WINNER winner).setF .wlClaimCtl WL_CLAIM_CTL.BUSY 0

theorem State.claimShown_shows (s : State) (status winner : Nat) :
    (s.claimShown status winner).getF .wlClaimRes WL_CLAIM_RES.STATUS = status % 8 ∧
      (s.claimShown status winner).getF .wlClaimCtl WL_CLAIM_CTL.BUSY = 0 := by
  unfold State.claimShown
  obtain ⟨u, hu⟩ : ∃ u, s.setF .wlClaimRes WL_CLAIM_RES.STATUS status = u := ⟨_, rfl⟩
  rw [hu]
  obtain ⟨v, hv⟩ : ∃ v, u.setF .wlClaimRes WL_CLAIM_RES.WINNER winner = v := ⟨_, rfl⟩
  rw [hv]
  refine ⟨?_, ?_⟩
  · rw [State.getF_setF_other_reg _ _ _ _ Reg.noConfusion, ← hv,
      State.getF_setF_other _ _ _ _ _ (by decide) (by decide) (by decide) (by decide), ← hu,
      State.getF_setF_self _ _ _ _ (by decide) (by decide)]
    rfl
  · rw [State.getF_setF_self _ _ _ _ (by decide) (by decide)]
    rfl

/-- The result of a claim, with its record and its penalty (R480, R486). -/
theorem State.claimResult_eq (s : State) (status winner : Nat) : ∃ w : WalingState,
    s.claimResult status winner = { (s.claimShown status winner).wlNote 0 0x99 (status + 8 * winner) with waling := w } := by
  unfold State.claimResult
  dsimp only
  obtain ⟨u, hu⟩ : ∃ u, ((s.setF .wlClaimRes WL_CLAIM_RES.STATUS status).setF .wlClaimRes WL_CLAIM_RES.WINNER winner).setF .wlClaimCtl
      WL_CLAIM_CTL.BUSY 0 = u := ⟨_, rfl⟩
  have hs : s.claimShown status winner = u := hu
  rw [hs, hu]
  split
  · exact ⟨_, rfl⟩
  · exact ⟨_, rfl⟩

theorem State.claimResult_shows (s : State) (status winner : Nat) :
    (s.claimResult status winner).getF .wlClaimRes WL_CLAIM_RES.STATUS = status % 8 ∧
      (s.claimResult status winner).getF .wlClaimCtl WL_CLAIM_CTL.BUSY = 0 := by
  obtain ⟨hst, hbusy⟩ := s.claimShown_shows status winner
  obtain ⟨w, hw⟩ := s.claimResult_eq status winner
  obtain ⟨u, hu⟩ : ∃ u, s.claimShown status winner = u := ⟨_, rfl⟩
  rw [hw]
  rw [hu] at hst hbusy ⊢
  have hlog : u.Logged (u.wlNote 0 0x99 (status + 8 * winner)) := State.logged_note ..
  exact ⟨(hlog.getF _ Reg.noConfusion).trans hst, (hlog.getF _ Reg.noConfusion).trans hbusy⟩

/-- WL_CLAIM_CTL as a GO leaves it while the claim runs (R486). -/
def State.claiming (s : State) (w : BitVec 64) : State :=
  let s1 := ((s.setF .wlClaimCtl WL_CLAIM_CTL.OP (WL_CLAIM_CTL.OP.get w)).setF .wlClaimCtl WL_CLAIM_CTL.PRIMARY (WL_CLAIM_CTL.PRIMARY.get w)).setF
    .wlClaimCtl WL_CLAIM_CTL.INST (WL_CLAIM_CTL.INST.get w)
  let s2 := s1.setF .wlClaimCtl WL_CLAIM_CTL.BUSY 1
  { s2 with waling := { s2.waling with primary := WL_CLAIM_CTL.PRIMARY.get w == 1 && WL_CLAIM_CTL.OP.get w == 0 } }

theorem State.claiming_shows (s : State) (w : BitVec 64) : (s.claiming w).getF .wlClaimCtl WL_CLAIM_CTL.BUSY = 1 ∧
    (s.claiming w).cores = s.cores := by
  unfold State.claiming
  dsimp only
  obtain ⟨u, hu⟩ : ∃ u, ((s.setF .wlClaimCtl WL_CLAIM_CTL.OP (WL_CLAIM_CTL.OP.get w)).setF .wlClaimCtl WL_CLAIM_CTL.PRIMARY
    (WL_CLAIM_CTL.PRIMARY.get w)).setF .wlClaimCtl WL_CLAIM_CTL.INST (WL_CLAIM_CTL.INST.get w) = u := ⟨_, rfl⟩
  have hcores : u.cores = s.cores := by rw [← hu]; rfl
  rw [hu]
  exact ⟨State.getF_setF_self u .wlClaimCtl WL_CLAIM_CTL.BUSY 1 (by decide) (by decide), hcores⟩

/-- A GO to WL_CLAIM_CTL where none is in progress, by its umpire (R486, R487). -/
theorem claimSend_answers {s : State} {v : Nat} (hs : s.clocksStopped = false) (hv : v < 2 ^ 32) (hgo : v / 2 ^ 31 = 1)
    (hbusy : s.getF .wlClaimCtl WL_CLAIM_CTL.BUSY = 0) (hin : WL_CLAIM_CTL.INST.get (BitVec.ofNat 64 v) ≤ 64) :
    ∃ m : WlMsg, exec (.claimSend v) s = .next (s.keep
      (if s.fencedPeer (s.getF .wlClaimKey WL_CLAIM_KEY.UMPIRE) = true then (s.claiming (BitVec.ofNat 64 v)).claimResult 3 0xFFFF
       else if s.getF .wlClaimKey WL_CLAIM_KEY.UMPIRE = s.devid then
         ((s.claiming (BitVec.ofNat 64 v)).umpire m).2.2.claimResult ((s.claiming (BitVec.ofNat 64 v)).umpire m).1
           ((s.claiming (BitVec.ofNat 64 v)).umpire m).2.1
       else (s.claiming (BitVec.ofNat 64 v)).wySend (s.getF (.wyRoute (s.getF .wlClaimKey WL_CLAIM_KEY.UMPIRE)) WY_ROUTE.PRI)
         (s.getF .wlClaimKey WL_CLAIM_KEY.UMPIRE) 0 (WL_CLAIM_CTL.INST.get (BitVec.ofNat 64 v)) (.link 7 m))) := by
  have hguard : (decide (v < 2 ^ 32) && decide (v / 2 ^ 31 = 1)) = true := by rw [decide_eq_true hv, decide_eq_true hgo]; rfl
  obtain ⟨w, hw⟩ : ∃ w, BitVec.ofNat 64 v = w := ⟨_, rfl⟩
  rw [hw] at hin ⊢
  obtain ⟨c, hc⟩ : ∃ c, s.claiming w = c := ⟨_, rfl⟩
  rw [hc]
  unfold State.claiming at hc
  dsimp only at hc
  rw [exec_claimSend, execClaimSend, hw, if_neg (Nat.not_lt.2 hin), if_neg (by rw [hbusy]; decide)]
  dsimp only
  rw [hc]
  exact ⟨_, State.when_of hs hguard⟩

theorem State.umpire_regs (s : State) (m : WlMsg) : (s.umpire m).2.2.regs = s.regs := by
  unfold State.umpire
  dsimp only
  split
  · rfl
  · split
    · split
      · rfl
      · split
        · rfl
        · rfl
    · split
      · split
        · rfl
        · rfl
      · rfl

/-- The umpire of a group of this device gives a free slot to its claimant, and a taken one stays with its winner (R486). -/
theorem umpire_holds {s : State} {m : WlMsg} {n : Nat} (hg : m.group ≠ 0) (hn : n < 65) (hn' : s.getF (.wyGroup n) WY_GROUP.GROUP = m.group)
    (hop : m.result % 2 = 0) :
    (s.waling.claims.find? (fun c => c.tag == m.group && c.key == m.key) = none → s.waling.claims.length < 4096 →
      s.umpire m = (1, m.origin, { s with waling := { s.waling with claims := s.waling.claims ++ [⟨m.group, m.key, m.origin⟩] } })) ∧
    (∀ c, s.waling.claims.find? (fun c => c.tag == m.group && c.key == m.key) = some c → c.winner ≠ m.origin →
      s.umpire m = (2, c.winner, s)) := by
  have hlocal : (decide (m.group ≠ 0) && (List.range 65).any fun n => s.getF (.wyGroup n) WY_GROUP.GROUP == m.group) = true := by
    rw [decide_eq_true hg, Bool.true_and]
    exact List.any_eq_true.2 ⟨n, List.mem_range.2 hn, beq_iff_eq.2 hn'⟩
  have hnot : ¬(!(decide (m.group ≠ 0) && (List.range 65).any fun n => s.getF (.wyGroup n) WY_GROUP.GROUP == m.group)) = true := by
    rw [hlocal]
    decide
  refine ⟨fun hnone hlen => ?_, fun c hc hw => ?_⟩
  · unfold State.umpire
    dsimp only
    rw [if_neg hnot, hnone]
    dsimp only
    rw [if_neg (by omega), if_neg (by omega)]
  · unfold State.umpire
    dsimp only
    rw [if_neg hnot, hc]
    dsimp only
    rw [if_neg hw]

/-- A CLAIM at a port that is up, by what it is (R468, R477, R486). -/
theorem claim_answers {s : State} {w : Nat} {m : WlMsg} (hs : s.clocksStopped = false) (hw : w < 16) (hf : wlFits m = true)
    (hup : s.wyState w = wyUP) (hon : s.wlOn = true) : exec (.claim w m) s = .next (s.keep
      (if m.subject ≠ s.devid then (s.wyGot w 1).wySend w m.subject (m.hops + 1) 0x7F (.link 7 { m with hops := m.hops + 1 })
       else if s.wlState = wlFENCED then s.wyGot w 1
       else ((s.wyGot w 1).umpire m).2.2.wySend w m.origin 0 0x7F (.link 8 { m with
         hops := 0, result := ((s.wyGot w 1).umpire m).1, winner := ((s.wyGot w 1).umpire m).2.1 }))) := by
  rw [exec_claim, execClaim, if_neg (by rw [hon]; decide)]
  exact State.when_of hs (by rw [decide_eq_true hw, hf, hup]; rfl)

theorem claimRes_answers {s : State} {w : Nat} {m : WlMsg} (hs : s.clocksStopped = false) (hw : w < 16) (hf : wlFits m = true)
    (h8 : m.result < 8) (hup : s.wyState w = wyUP) : exec (.claimRes w m) s = .next (s.keep
      (if m.origin ≠ s.devid then (s.wyGot w 1).wySend w m.origin (m.hops + 1) 0x7F (.link 8 { m with hops := m.hops + 1 })
       else if s.getF .wlClaimCtl WL_CLAIM_CTL.BUSY = 1 then (s.wyGot w 1).claimResult m.result m.winner
       else s.wyGot w 1)) := by
  rw [exec_claimRes, execClaimRes]
  exact State.when_of hs (by rw [decide_eq_true hw, hf, decide_eq_true h8, hup]; rfl)

/-! ### Admission (R488, R489) -/

/-- WL_ADMIT as an admission's phase leaves it, and the state of the unit in a phase that is no refusal. -/
theorem State.admitPhase_shows (s : State) {phase cause : Nat} (hp : phase < 8) (hc : cause < 16) :
    (s.admitPhase phase cause).getF .wlAdmit WL_ADMIT.PHASE = phase ∧ (s.admitPhase phase cause).getF .wlAdmit WL_ADMIT.CAUSE = cause ∧
      (phase ≠ 5 → (s.admitPhase phase cause).wlState = s.wlState) := by
  unfold State.admitPhase
  dsimp only
  obtain ⟨u, hu⟩ : ∃ u, s.setF .wlAdmit WL_ADMIT.PHASE phase = u := ⟨_, rfl⟩
  rw [hu]
  obtain ⟨v, hv⟩ : ∃ v, u.setF .wlAdmit WL_ADMIT.CAUSE cause = v := ⟨_, rfl⟩
  rw [hv]
  obtain ⟨z, hz⟩ : ∃ z, v.wlNote 0 0x97 (phase + 8 * cause) = z := ⟨_, rfl⟩
  have hlog : v.Logged z := by rw [← hz]; exact State.logged_note ..
  have hphase : z.getF .wlAdmit WL_ADMIT.PHASE = phase := by
    rw [hlog.getF _ Reg.noConfusion, ← hv, State.getF_setF_other _ _ _ _ _ (by decide) (by decide) (by decide) (by decide), ← hu,
      State.getF_setF_self _ _ _ _ (by decide) (by decide)]
    exact Nat.mod_eq_of_lt hp
  have hcause : z.getF .wlAdmit WL_ADMIT.CAUSE = cause := by
    rw [hlog.getF _ Reg.noConfusion, ← hv, State.getF_setF_self _ _ _ _ (by decide) (by decide)]
    exact Nat.mod_eq_of_lt hc
  have hstate : z.wlState = s.wlState := by
    unfold State.wlState
    rw [hlog.getF _ Reg.noConfusion, ← hv, State.getF_setF_other_reg _ _ _ _ Reg.noConfusion, ← hu,
      State.getF_setF_other_reg _ _ _ _ Reg.noConfusion]
  rw [hz]
  by_cases h5 : phase = 5 ∧ z.wlState = wlJOINING
  · rw [if_pos h5]
    exact ⟨(State.getF_setF_other_reg _ _ _ _ Reg.noConfusion).trans hphase, (State.getF_setF_other_reg _ _ _ _ Reg.noConfusion).trans hcause,
      fun hne => absurd h5.1 hne⟩
  · rw [if_neg h5]
    exact ⟨hphase, hcause, fun _ => hstate⟩

theorem admission_holds {s : State} {v : Nat} (hs : s.clocksStopped = false) (hv : v < 2 ^ 32) (hgo : v / 2 ^ 31 = 1) (hon : s.wlOn = true)
    (hst : s.wlState = wlOFF ∨ s.wlState = wlFENCED) (hph : s.getF .wlAdmit WL_ADMIT.PHASE = 0 ∨ s.getF .wlAdmit WL_ADMIT.PHASE = 5) :
    ∃ t, exec (.admission v) s = .next t ∧ t.getF .wlAdmit WL_ADMIT.PHASE = 1 ∧ t.getF .wlAdmit WL_ADMIT.CAUSE = 0 ∧
      t.wlState = (if s.wlState = wlOFF then wlJOINING else wlFENCED) := by
  have hguard : (decide (v < 2 ^ 32) && decide (v / 2 ^ 31 = 1)) = true := by rw [decide_eq_true hv, decide_eq_true hgo]; rfl
  have hstate : (s.wlState == wlOFF || s.wlState == wlFENCED) = true := by rw [Bool.or_eq_true, beq_iff_eq, beq_iff_eq]; exact hst
  have hphase : (s.getF .wlAdmit WL_ADMIT.PHASE == 0 || s.getF .wlAdmit WL_ADMIT.PHASE == 5) = true := by
    rw [Bool.or_eq_true, beq_iff_eq, beq_iff_eq]
    exact hph
  obtain ⟨u, hu⟩ : ∃ u, (if s.wlState = wlOFF then s.setF .wlState WL_STATE.STATE wlJOINING else s) = u := ⟨_, rfl⟩
  have hus : u.wlState = (if s.wlState = wlOFF then wlJOINING else wlFENCED) := by
    rw [← hu]
    by_cases hoff : s.wlState = wlOFF
    · rw [if_pos hoff, if_pos hoff]
      exact State.getF_setF_self _ _ _ _ (by decide) (by decide)
    · rw [if_neg hoff, if_neg hoff]
      exact hst.resolve_left hoff
  have hx : exec (.admission v) s = .next (s.keep (u.admitPhase 1 0)) := by
    rw [exec_admission, execAdmission, hon, hstate, hphase, if_pos (by rfl), hu]
    exact State.when_of hs hguard
  obtain ⟨h1, h0, hkeep⟩ := u.admitPhase_shows (phase := 1) (cause := 0) (by decide) (by decide)
  exact ⟨_, hx, h1, h0, (hkeep (by decide)).trans hus⟩

theorem admissionPhaseComplete_holds {s : State} {pass : Bool} (hs : s.clocksStopped = false)
    (hph : s.getF .wlAdmit WL_ADMIT.PHASE = 1 ∨ s.getF .wlAdmit WL_ADMIT.PHASE = 2) :
    ∃ t, exec (.admissionPhaseComplete pass) s = .next t ∧
      t.getF .wlAdmit WL_ADMIT.PHASE = (if pass = true then s.getF .wlAdmit WL_ADMIT.PHASE + 1 else 5) := by
  obtain ⟨ph, hp⟩ : ∃ ph, s.getF .wlAdmit WL_ADMIT.PHASE = ph := ⟨_, rfl⟩
  rw [hp] at hph ⊢
  have hguard : (ph == 1 || ph == 2) = true := by rw [Bool.or_eq_true, beq_iff_eq, beq_iff_eq]; exact hph
  have hx : ∃ m, exec (.admissionPhaseComplete pass) s = .next (s.keep
      (if (!pass) = true then s.admitPhase 5 ph else if ph = 1 then s.admitPhase 2 0 else (s.admitPhase 3 0).wlSend 0 6 m)) := by
    rw [exec_admissionPhaseComplete, execAdmissionPhaseComplete, hp]
    exact ⟨_, State.when_of hs hguard⟩
  obtain ⟨m, hx⟩ := hx
  refine ⟨_, hx, ?_⟩
  cases pass with
  | false => exact (s.admitPhase_shows (phase := 5) (cause := ph) (by decide) (by omega)).1
  | true =>
    by_cases h1 : ph = 1
    · rw [if_neg (by decide), if_pos h1, if_pos rfl, h1]
      exact (s.admitPhase_shows (phase := 2) (cause := 0) (by decide) (by decide)).1
    · rw [if_neg (by decide), if_neg h1, if_pos rfl, hph.resolve_left h1]
      have hregs := ((s.admitPhase 3 0).wlSend_keeps 0 6 m).1
      exact (State.getF_congr (State.reg_of_regs hregs _)).trans (s.admitPhase_shows (phase := 3) (cause := 0) (by decide) (by decide)).1

/-- The message of an ADMIT as it leaves this device: its start names this device, the first refusal stays, and the other neighbour of the
joiner signs as the last (R489). -/
def State.admitOn (s : State) (x : Nat) (m : WlMsg) : WlMsg :=
  let m1 := if decide (m.origin = m.subject) then { m with origin := s.devid } else m
  let m2 := if m.result = 0 then { m1 with result := s.admitCause m } else m1
  if s.nbrId (1 - x) = m.subject then { m2 with witness := s.devid } else m2

theorem State.admitOn_shows (s : State) (x : Nat) {m : WlMsg} (h : m.origin ≠ m.subject) : (s.admitOn x m).subject = m.subject ∧
    (s.admitOn x m).origin = m.origin ∧ (s.admitOn x m).result = (if m.result = 0 then s.admitCause m else m.result) := by
  unfold State.admitOn
  dsimp only
  rw [if_neg (by rw [decide_eq_false h]; exact Bool.false_ne_true : ¬decide (m.origin = m.subject) = true)]
  by_cases h0 : m.result = 0
  · rw [if_pos h0, if_pos h0]
    split
    · exact ⟨rfl, rfl, rfl⟩
    · exact ⟨rfl, rfl, rfl⟩
  · rw [if_neg h0, if_neg h0]
    split
    · exact ⟨rfl, rfl, rfl⟩
    · exact ⟨rfl, rfl, rfl⟩

/-- An ADMIT that this device takes, by what it is (R488, R489). -/
theorem admit_answers {s : State} {x : Nat} {m : WlMsg} (h : s.Hears x m) : exec (.admitMessage x m) s = .next (s.keep
    (if m.subject = s.devid then
       (if s.getF .wlAdmit WL_ADMIT.PHASE ≠ 3 then s.wlGot x
        else if m.result ≠ 0 then (s.wlGot x).admitPhase 5 (m.result % 16)
        else (((s.wlGot x).admitPhase 4 0).commit { m with result := 3 }).setF .wlAdmit WL_ADMIT.PHASE 0)
     else if (!s.wlActive || (decide (m.origin = m.subject) && s.waling.tokens.any fun t => t.subject == m.subject)) = true then s.wlGot x
     else (s.wlGot x).wlSend (1 - x) 6 (s.admitOn x m))) := by
  rw [exec_admitMessage, execAdmit]
  exact State.when_of h.clocks (by rw [h.takes, h.fits]; rfl)

/-- Settles O48: the health unit, the budget token, claims and admissions follow their own rules, one message at a time. -/
theorem healthClaimsAndAdmissionFollowTheirRules : Obligations.HealthClaimsAndAdmissionFollowTheirRules := by
  unfold Obligations.HealthClaimsAndAdmissionFollowTheirRules
  refine ⟨fun s hs hdue hhb => healthUpdate_holds hs hdue hhb rfl rfl, fun s hs => ⟨fun hc h3 => ?_, fun hc h3 => ?_⟩,
    fun s x m h => ⟨fun hoff => ?_, fun t hat hnew hfrom => ?_, fun ha hnone hc => ?_⟩,
    fun s hs ha hdue hlow => budgetTokenTimeout_holds hs ha hdue hlow, fun s v hs hv hgo => reprobe_holds hs hv hgo,
    fun s hops at_ hs hr h0 hdue => reprobeTimeout_holds hs hr h0 hdue, fun s v hs hv hgo hb hin hf => ?_,
    fun s v hs hv hgo hb hin hf hne => ?_, fun s v hs hv hgo hb hin hf hme => ?_,
    fun s w m hs hw hfit hup hon => ⟨fun hne => ?_, fun hme hst => ?_, fun hme hst => ?_⟩,
    fun s m n hg hn hn' hop => umpire_holds hg hn hn' hop, fun s w m hs hw hfit h8 hup => ⟨fun hne => ?_, fun hme hb => ?_⟩,
    fun s v hs hv hgo hon hst hph => admission_holds hs hv hgo hon hst hph, fun s pass hs hph => admissionPhaseComplete_holds hs hph,
    fun s x m h => ⟨fun hne hoff => ?_, fun hme hph => ?_, fun hme hph hr => ?_, fun hme hph hr => ?_, fun hne ha hns => ?_⟩⟩
  · exact expulsionCandidate_holds hs hc (by rw [if_pos rfl]; exact decide_eq_true h3)
  · exact expulsionCandidate_holds hs hc (by rw [if_neg (by decide)]; exact decide_eq_true h3)
  · exact (budget_answers h).1 (by rw [hoff]; rfl)
  · refine (budget_answers h).1 ?_
    rw [State.otherToken, hat]
    dsimp only
    rw [decide_eq_true hnew, decide_eq_true hfrom]
    exact Bool.or_true _
  · refine ⟨_, (budget_answers h).2 ?_ hc, rfl⟩
    rw [State.otherToken, ha, hnone]
    rfl
  · obtain ⟨m, hx⟩ := claimSend_answers hs hv hgo hb hin
    rw [if_pos hf] at hx
    exact ⟨_, hx, (s.claiming (BitVec.ofNat 64 v)).claimResult_shows 3 0xFFFF⟩
  · obtain ⟨m, hx⟩ := claimSend_answers hs hv hgo hb hin
    rw [if_neg (ne_true_of_eq_false hf), if_neg hne] at hx
    obtain ⟨hbusy, hcores⟩ := s.claiming_shows (BitVec.ofNat 64 v)
    obtain ⟨c, hc⟩ : ∃ c, s.claiming (BitVec.ofNat 64 v) = c := ⟨_, rfl⟩
    rw [hc] at hx hbusy hcores
    exact ⟨_, hx, (State.getF_congr (c.wySend_regs _ _ _ _ _ Reg.noConfusion)).trans hbusy, (c.wySend_keeps _ _ _ _ _).1.trans hcores⟩
  · obtain ⟨m, hx⟩ := claimSend_answers hs hv hgo hb hin
    rw [if_neg (ne_true_of_eq_false hf), if_pos hme] at hx
    exact ⟨_, hx, (State.claimResult_shows _ _ _).2⟩
  · rw [claim_answers hs hw hfit hup hon, if_pos hne]
  · rw [claim_answers hs hw hfit hup hon, if_neg (not_not_intro hme), if_pos hst]
  · rw [claim_answers hs hw hfit hup hon, if_neg (not_not_intro hme), if_neg hst]
  · rw [claimRes_answers hs hw hfit h8 hup, if_pos hne]
  · rw [claimRes_answers hs hw hfit h8 hup, if_neg (not_not_intro hme), if_pos hb]
  · rw [admit_answers h, if_neg hne, if_pos (by rw [hoff]; rfl)]
  · rw [admit_answers h, if_pos hme, if_pos hph]
  · rw [admit_answers h, if_pos hme, if_neg (not_not_intro hph), if_pos hr]
  · refine ⟨_, ?_, rfl⟩
    rw [admit_answers h, if_pos hme, if_neg (not_not_intro hph), if_neg (not_not_intro hr)]
  · obtain ⟨hsub, horig, hres⟩ := s.admitOn_shows x hns
    refine ⟨s.admitOn x m, ?_, hsub, horig, hres⟩
    rw [admit_answers h, if_neg hne, if_neg (by rw [ha, decide_eq_false hns]; exact Bool.false_ne_true)]

end Sys2Proof.Machine


namespace Sys2Proof.Machine

/-! # Device requests (R514 to R516, R519, R520) -/

theorem exec_attest (s : State) : exec .attest s = execAttest s := rfl
theorem exec_fwWrite (set : FwSet) (s : State) : exec (.fwWrite set) s = execFwWrite set s := rfl
theorem exec_flashProgramComplete (ok : Bool) (s : State) : exec (.flashProgramComplete ok) s = execFlashProgramComplete ok s := rfl
theorem exec_fwCommit (s : State) : exec .fwCommit s = execFwCommit s := rfl
theorem exec_cfgWrite (img : CfgImage) (ok : Bool) (s : State) : exec (.cfgWrite img ok) s = execCfgWrite img ok s := rfl
theorem exec_cfgCommit (s : State) : exec .cfgCommit s = execCfgCommit s := rfl

/-! ### The request at the head of the device ring (R507, R514, R520) -/

theorem State.devHead_of {s : State} {q : Req} {op : Nat} (hq : s.devQ.head? = some q) (hop : q.op = op) (hw : s.boot.work = none)
    (hact : s.boot.act = none ∨ op = 0x22 ∨ op = 0x26) : s.devHead op = some q := by
  unfold State.devHead
  rcases hl : s.devQ with _ | ⟨x, l⟩
  · rw [hl] at hq
    exact absurd hq nofun
  · rw [hl] at hq
    obtain rfl : x = q := Option.some.inj hq
    exact if_pos ⟨hop, hw, hact⟩

/-- A request at the head that may run, with the cause of its answer (R514). -/
theorem dev_answers {s : State} {q : Req} {op : Nat} (hs : s.clocksStopped = false) (hq : s.devQ.head? = some q) (hop : q.op = op)
    (hserve : s.mpServes = true) (hw : s.boot.work = none) (hact : s.boot.act = none ∨ op = 0x22 ∨ op = 0x26) {cause : State → Req → Nat}
    {eff : State → Req → State} {c : Nat}
    (hc : (if s.boot.act ≠ none ∨ (s.boot.recovery = true ∧ op ≠ 0x22 ∧ op ≠ 0x23) then 0x14 else cause s.dropDev q) = c) :
    dev op cause eff s = .next (s.keep (if c ≠ 0 then s.dropDev.devReply q.ridx q.tag c 0 else eff s.dropDev q)) := by
  subst hc
  rw [dev, State.devHead_of hq hop hw hact]
  exact State.when_of hs hserve

theorem State.DevServes.cause_eq {s : State} {op : Nat} {q : Req} (h : s.DevServes op q)
    (hrec : s.boot.recovery = false ∨ op = 0x22 ∨ op = 0x23) (c : Nat) :
    (if s.boot.act ≠ none ∨ (s.boot.recovery = true ∧ op ≠ 0x22 ∧ op ≠ 0x23) then 0x14 else c) = c := by
  refine if_neg ?_
  rintro (hact | ⟨hr, h22, h23⟩)
  · exact hact h.act
  · rcases hrec with hrec | hrec | hrec
    · exact absurd (hrec.symm.trans hr) nofun
    · exact h22 hrec
    · exact h23 hrec

theorem State.DevServes.refused {s : State} {op : Nat} {q : Req} (h : s.DevServes op q)
    (hrec : s.boot.recovery = false ∨ op = 0x22 ∨ op = 0x23) {cause : State → Req → Nat} {eff : State → Req → State} {c : Nat}
    (hc : cause s.dropDev q = c) (h0 : c ≠ 0) : dev op cause eff s = .next (s.keep (s.dropDev.devReply q.ridx q.tag c 0)) := by
  rw [dev_answers h.clocks h.head h.op_ h.serves h.idle (.inl h.act) ((h.cause_eq hrec _).trans hc), if_pos h0]

theorem State.DevServes.runs {s : State} {op : Nat} {q : Req} (h : s.DevServes op q)
    (hrec : s.boot.recovery = false ∨ op = 0x22 ∨ op = 0x23) {cause : State → Req → Nat} {eff : State → Req → State}
    (hc : cause s.dropDev q = 0) : dev op cause eff s = .next (s.keep (eff s.dropDev q)) := by
  rw [dev_answers h.clocks h.head h.op_ h.serves h.idle (.inl h.act) ((h.cause_eq hrec _).trans hc), if_neg (not_not_intro rfl)]

theorem devRead_up {s : State} (h : s.cclUp = true) (op : Nat) (cause : State → Req → Nat) (eff : State → Req → State) :
    devRead op cause eff s = dev op cause eff s := if_pos h

theorem devRead_down {s : State} (hs : s.clocksStopped = false) (h : s.cclUp = false) (op : Nat) (cause : State → Req → Nat)
    (eff : State → Req → State) : devRead op cause eff s = .next s := by
  rw [devRead, if_neg (ne_true_of_eq_false h), State.when, hs]
  rfl

/-! ### The boot flash (R500, R516) -/

theorem Flash.slot_putSlot_self (f : Flash) (i : Nat) (x : FwSet) : (f.putSlot i x).slot i = x := by
  unfold Flash.putSlot Flash.slot
  by_cases h : i = 0
  · rw [if_pos h, if_pos h]
  · rw [if_neg h, if_neg h]

/-- Writing a slot leaves the other one. -/
theorem Flash.slot_putSlot_other (f : Flash) {a : Nat} (ha : a < 2) (x : FwSet) : (f.putSlot (1 - a) x).slot a = f.slot a := by
  unfold Flash.putSlot Flash.slot
  by_cases h : a = 0
  · subst h
    rfl
  · have h1 : 1 - a = 0 := by omega
    rw [if_neg h, if_neg h, if_pos h1]

/-- Writing a slot leaves the headers. -/
theorem Flash.headers_putSlot (f : Flash) (i : Nat) (x : FwSet) : (f.putSlot i x).h0 = f.h0 ∧ (f.putSlot i x).h1 = f.h1 ∧
    (f.putSlot i x).header = f.header := by
  unfold Flash.putSlot
  split
  · exact ⟨rfl, rfl, rfl⟩
  · exact ⟨rfl, rfl, rfl⟩

/-- A header's write leaves all but the two headers. -/
theorem Flash.writeHeader_keeps (f : Flash) (g : BootHeader → BootHeader) :
    f.writeHeader g = { f with h0 := (f.writeHeader g).h0, h1 := (f.writeHeader g).h1 } := by
  unfold Flash.writeHeader
  split
  · dsimp only
    split
    · rfl
    · rfl
  · rfl

/-- A header's write goes to the copy that is not in force, with the next sequence number (R500). -/
theorem Flash.writeHeader_places {f : Flash} (g : BootHeader → BootHeader) {i : Nat} {h : BootHeader} (hh : f.header = some (i, h)) :
    (if i = 0 then (f.writeHeader g).h1 else (f.writeHeader g).h0) = { g h with good := true, seq := (h.seq + 1) % 2 ^ 32 } ∧
      (if i = 0 then (f.writeHeader g).h0 else (f.writeHeader g).h1) = (if i = 0 then f.h0 else f.h1) := by
  unfold Flash.writeHeader
  rw [hh]
  by_cases hi : i = 0
  · rw [if_pos hi, if_pos hi, if_pos hi]
    dsimp only
    rw [if_pos hi]
    exact ⟨rfl, rfl⟩
  · rw [if_neg hi, if_neg hi, if_neg hi]
    dsimp only
    rw [if_neg hi]
    exact ⟨rfl, rfl⟩

theorem Flash.slot_writeHeader (f : Flash) (g : BootHeader → BootHeader) (i : Nat) : (f.writeHeader g).slot i = f.slot i := by
  rw [Flash.writeHeader_keeps f g]
  rfl

/-! ### ATTEST, FW_WRITE and CFG_WRITE (R511, R515, R516) -/

/-- The state of an ATTEST that has been answered, by its report (R515). -/
def State.attested (s : State) (q : Req) (bs : List Byte) : State :=
  (s.wrlBytes (q.f 16 8) bs (bs.length + 1)).devReply q.ridx q.tag 0 bs.length

theorem exec_attest_eq (s : State) : exec .attest s = dev 0x21 (fun s _ => if s.getF .secStatus SEC_STATUS.IDOK = 0 then 0x14 else 0)
    (fun s q => s.attested q (s.attestReport (q.f 24 9) ((q.bytes.drop 40).take 32))) s := rfl

theorem attest_holds {s : State} {q : Req} (h : s.DevServes 0x21 q) (hrec : s.boot.recovery = false) :
    (s.getF .secStatus SEC_STATUS.IDOK = 0 → exec .attest s = .next (s.keep (s.dropDev.devReply q.ridx q.tag 0x14 0))) ∧
    (s.getF .secStatus SEC_STATUS.IDOK ≠ 0 → ∀ bs, bs = s.dropDev.attestReport (q.f 24 9) ((q.bytes.drop 40).take 32) →
      exec .attest s = .next (s.keep ((s.dropDev.wrlBytes (q.f 16 8) bs (bs.length + 1)).devReply q.ridx q.tag 0 bs.length))) := by
  rw [exec_attest_eq]
  refine ⟨fun h0 => ?_, fun h0 bs hbs => ?_⟩
  · exact h.refused (.inl hrec) (if_pos h0) (by decide)
  · refine (h.runs (.inl hrec) (if_neg h0)).trans ?_
    rw [← hbs, State.attested]

/-- FW_WRITE is refused by the set that companion memory holds (R516). -/
def State.fwCause (s : State) (set : FwSet) : Nat :=
  if set.good = false then 0x10
  else if set.setver < s.boot.running.setver ∨ set.setver < s.boot.flash.floor then 0x11
  else 0

/-- The boot state of a FW_WRITE that has started (R516). -/
def BootState.programming (b : BootState) (slot : Nat) (q : Req) (set : FwSet) : BootState :=
  { b with work := some ⟨0x22, q.ridx, q.tag⟩, staged := some set, flash := b.flash.putSlot slot FwSet.none }

theorem execFwWrite_up {s : State} (h : s.cclUp = true) (set : FwSet) : exec (.fwWrite set) s = dev 0x22 (fun s _ => s.fwCause set)
    (fun s q => { s with boot := s.boot.programming (1 - s.activeSlot) q set }) s := devRead_up h _ _ _

theorem fwWrite_holds {s : State} {q : Req} {set : FwSet} (h : s.DevServes 0x22 q) (hup : s.cclUp = true) :
    (set.good = false → exec (.fwWrite set) s = .next (s.keep (s.dropDev.devReply q.ridx q.tag 0x10 0))) ∧
    (set.good = true → set.setver < s.boot.running.setver →
      exec (.fwWrite set) s = .next (s.keep (s.dropDev.devReply q.ridx q.tag 0x11 0))) ∧
    (set.good = true → s.boot.running.setver ≤ set.setver → s.boot.flash.floor ≤ set.setver →
      ∃ t, exec (.fwWrite set) s = .next t ∧ t.boot.work = some ⟨0x22, q.ridx, q.tag⟩ ∧ t.boot.staged = some set ∧
        t.devQ = s.devQ.tail ∧ t.boot.flash.h0 = s.boot.flash.h0 ∧ t.boot.flash.h1 = s.boot.flash.h1 ∧
        (s.activeSlot < 2 → t.boot.flash.slot s.activeSlot = s.boot.flash.slot s.activeSlot) ∧
        t = { s with devQ := t.devQ, boot := t.boot }) := by
  rw [execFwWrite_up hup]
  refine ⟨fun hg => ?_, fun hg hlt => ?_, fun hg hle hfl => ?_⟩
  · exact h.refused (.inr (.inl rfl)) (if_pos hg) (by decide)
  · exact h.refused (.inr (.inl rfl)) ((if_neg (ne_false_of_eq_true hg)).trans (if_pos (.inl hlt))) (by decide)
  · have hc : s.dropDev.fwCause set = 0 := (if_neg (ne_false_of_eq_true hg)).trans
      (if_neg fun hor => hor.elim (Nat.not_lt.2 hle) (Nat.not_lt.2 hfl))
    obtain ⟨h0, h1, _⟩ := Flash.headers_putSlot s.boot.flash (1 - s.activeSlot) FwSet.none
    exact ⟨_, h.runs (.inr (.inl rfl)) hc, rfl, rfl, rfl, h0, h1, fun hact => Flash.slot_putSlot_other s.boot.flash hact FwSet.none, rfl⟩

/-- CFG_WRITE is refused by the image that companion memory holds, or by the flash (R511). -/
def State.cfgCause (s : State) (img : CfgImage) (ok : Bool) : Nat :=
  if img.good = false then 0x10
  else if img.cseq ≤ s.boot.cfg.cseq ∨ img.cseq < s.boot.flash.mincseq then 0x11
  else if ok = false then 0x15
  else 0

/-- The boot flash with an image in the copy that is not in force (R511). -/
def State.cfgFlash (s : State) (img : CfgImage) : Flash :=
  if s.getF .mpBootstat MP_BOOTSTAT.CFGCOPY = 0 then { s.boot.flash with cfg1 := img } else { s.boot.flash with cfg0 := img }

theorem execCfgWrite_up {s : State} (h : s.cclUp = true) (img : CfgImage) (ok : Bool) : exec (.cfgWrite img ok) s =
    dev 0x26 (fun s _ => s.cfgCause img ok) (fun s q => (s.setFlash (s.cfgFlash img)).devReply q.ridx q.tag 0 img.cseq) s := devRead_up h _ _ _

theorem cfgWrite_holds {s : State} {q : Req} {img : CfgImage} (h : s.DevServes 0x26 q) (hrec : s.boot.recovery = false) (hup : s.cclUp = true) :
    (img.good = false → ∀ ok, exec (.cfgWrite img ok) s = .next (s.keep (s.dropDev.devReply q.ridx q.tag 0x10 0))) ∧
    (img.good = true → img.cseq ≤ s.boot.cfg.cseq →
      ∀ ok, exec (.cfgWrite img ok) s = .next (s.keep (s.dropDev.devReply q.ridx q.tag 0x11 0))) ∧
    (img.good = true → s.boot.cfg.cseq < img.cseq → s.boot.flash.mincseq ≤ img.cseq →
      exec (.cfgWrite img false) s = .next (s.keep (s.dropDev.devReply q.ridx q.tag 0x15 0)) ∧
      ∃ u : State, exec (.cfgWrite img true) s = .next (s.keep (u.devReply q.ridx q.tag 0 img.cseq)) ∧
        (s.getF .mpBootstat MP_BOOTSTAT.CFGCOPY = 0 → u.boot.flash = { s.boot.flash with cfg1 := img }) ∧
        (s.getF .mpBootstat MP_BOOTSTAT.CFGCOPY ≠ 0 → u.boot.flash = { s.boot.flash with cfg0 := img }) ∧
        u.boot.cfg = s.boot.cfg ∧ u.regs = s.regs) := by
  refine ⟨fun hg ok => ?_, fun hg hle ok => ?_, fun hg hlt hmin => ?_⟩
  · rw [execCfgWrite_up hup]
    exact h.refused (.inl hrec) (if_pos hg) (by decide)
  · rw [execCfgWrite_up hup]
    exact h.refused (.inl hrec) ((if_neg (ne_false_of_eq_true hg)).trans (if_pos (.inl hle))) (by decide)
  · have hc (ok : Bool) : s.dropDev.cfgCause img ok = if ok = false then 0x15 else 0 := (if_neg (ne_false_of_eq_true hg)).trans
      (if_neg fun hor => hor.elim (Nat.not_le.2 hlt) (Nat.not_lt.2 hmin))
    refine ⟨?_, s.dropDev.setFlash (s.cfgFlash img), ?_, fun h0 => if_pos h0, fun h0 => if_neg h0, rfl, rfl⟩
    · rw [execCfgWrite_up hup]
      exact h.refused (.inl hrec) (hc false) (by decide)
    · rw [execCfgWrite_up hup]
      exact h.runs (.inl hrec) (hc true)

/-! ### The flash program, the commits and the requests during an activation (R516, R519, R520) -/

theorem flashProgramComplete_holds {s : State} {w : DevWork} {set : FwSet} (hs : s.clocksStopped = false) (hg : s.boot.grizor = true)
    (hw : s.boot.work = some w) (hset : s.boot.staged = some set) (hact : s.activeSlot < 2) :
    (∃ u : State, exec (.flashProgramComplete true) s = .next (s.keep (u.devReply w.ridx w.tag 0 set.setver)) ∧
      u.boot.work = none ∧ u.boot.flash.slot (1 - s.activeSlot) = set ∧
      u.boot.flash.slot s.activeSlot = s.boot.flash.slot s.activeSlot ∧ u = { s with boot := u.boot } ∧
      ∀ i h, s.boot.flash.header = some (i, h) →
        (if i = 0 then u.boot.flash.h1 else u.boot.flash.h0).seq = (h.seq + 1) % 2 ^ 32 ∧
        (if i = 0 then u.boot.flash.h0 else u.boot.flash.h1) = (if i = 0 then s.boot.flash.h0 else s.boot.flash.h1)) ∧
    (∃ u : State, exec (.flashProgramComplete false) s = .next (s.keep (u.devReply w.ridx w.tag 0x15 0)) ∧
      u = { s with boot := { s.boot with work := none, staged := none } }) := by
  obtain ⟨f, hf⟩ : ∃ f, s.boot.flash.putSlot (1 - s.activeSlot) set = f := ⟨_, rfl⟩
  obtain ⟨g, hgh⟩ : ∃ g, headSetver (1 - s.activeSlot) set.setver = g := ⟨_, rfl⟩
  obtain ⟨hh0, hh1, hhead⟩ := Flash.headers_putSlot s.boot.flash (1 - s.activeSlot) set
  rw [hf] at hh0 hh1 hhead
  refine ⟨⟨{ s with boot := { s.boot with work := none, staged := none, flash := f.writeHeader g } }, ?_, rfl, ?_, ?_, rfl, fun i h hh => ?_⟩,
    { s with boot := { s.boot with work := none, staged := none } }, ?_, rfl⟩
  · rw [exec_flashProgramComplete, execFlashProgramComplete, hw, hset]
    dsimp only
    rw [hf, hgh]
    exact State.when_of hs hg
  · refine (Flash.slot_writeHeader f g _).trans ?_
    rw [← hf]
    exact Flash.slot_putSlot_self ..
  · refine (Flash.slot_writeHeader f g _).trans ?_
    rw [← hf]
    exact Flash.slot_putSlot_other s.boot.flash hact set
  · obtain ⟨hnew, hold⟩ := Flash.writeHeader_places g (hhead.trans hh)
    rw [hh0, hh1] at hold
    exact ⟨congrArg BootHeader.seq hnew, hold⟩
  · rw [exec_flashProgramComplete, execFlashProgramComplete, hw, hset]
    exact State.when_of hs hg

/-- The flash after a FW_COMMIT: counter 0 has risen, the trial has ended, superseded records are gone (R513, R519). -/
def State.commitFlash (s : State) : Flash :=
  { s.boot.flash.writeHeader fun h => { h with trial := false } with
    minver := max s.boot.flash.minver s.boot.running.setver
    records := (s.boot.flash.writeHeader fun h => { h with trial := false }).records.filter fun r => decide (s.boot.rver ≤ r.rver) }

theorem State.commitFlash_shows (s : State) : s.commitFlash.minver = max s.boot.flash.minver s.boot.running.setver ∧
    s.commitFlash.slotA = s.boot.flash.slotA ∧ s.commitFlash.slotB = s.boot.flash.slotB ∧
    ∀ r ∈ s.commitFlash.records, r ∈ s.boot.flash.records ∧ s.boot.rver ≤ r.rver := by
  unfold State.commitFlash
  rw [Flash.writeHeader_keeps]
  exact ⟨rfl, rfl, rfl, fun r hr => ⟨(List.mem_filter.1 hr).1, of_decide_eq_true (List.mem_filter.1 hr).2⟩⟩

/-- The state of a FW_COMMIT before its answer (R519). -/
def State.fwCommitted (s : State) : State :=
  (((s.setFlash s.commitFlash).setF .mpBootstat MP_BOOTSTAT.TRIAL 0).setF .mpMinver MP_MINVER.MINVER
    (max s.boot.flash.minver s.boot.running.setver)).note srcMp 0 0xA6 (s.boot.running.setver % 2 ^ 24)

theorem State.fwCommitted_shows (s : State) : s.fwCommitted.boot = { s.boot with flash := s.commitFlash } ∧
    s.fwCommitted.getF .mpBootstat MP_BOOTSTAT.TRIAL = 0 ∧ s.fwCommitted.cores = s.cores ∧ s.fwCommitted.insts = s.insts := by
  unfold State.fwCommitted
  obtain ⟨f, hf⟩ : ∃ f, s.commitFlash = f := ⟨_, rfl⟩
  obtain ⟨k, hk⟩ : ∃ k, max s.boot.flash.minver s.boot.running.setver = k := ⟨_, rfl⟩
  obtain ⟨d, hd⟩ : ∃ d, s.boot.running.setver % 2 ^ 24 = d := ⟨_, rfl⟩
  rw [hf, hk, hd]
  obtain ⟨u, hu⟩ : ∃ u, (s.setFlash f).setF .mpBootstat MP_BOOTSTAT.TRIAL 0 = u := ⟨_, rfl⟩
  have hrest : u = { s with boot := { s.boot with flash := f }, regs := u.regs } := by
    rw [← hu]
    rfl
  have htrial : u.getF .mpBootstat MP_BOOTSTAT.TRIAL = 0 := by
    rw [← hu, State.getF_setF_self _ _ _ _ (by decide) (by decide)]
    rfl
  rw [hu]
  obtain ⟨v, hv⟩ : ∃ v, u.setF .mpMinver MP_MINVER.MINVER k = v := ⟨_, rfl⟩
  rw [hv]
  have hvrest : v = { u with regs := v.regs } := by
    rw [← hv]
    rfl
  have hvtrial : v.getF .mpBootstat MP_BOOTSTAT.TRIAL = 0 := by
    rw [← hv, State.getF_setF_other_reg _ _ _ _ Reg.noConfusion]
    exact htrial
  have hlog : v.Logged (v.note srcMp 0 0xA6 d) := State.logged_note ..
  refine ⟨?_, (hlog.getF _ Reg.noConfusion).trans hvtrial, ?_, ?_⟩
  · exact (congrArg State.boot hlog.rest).trans ((congrArg State.boot hvrest).trans (congrArg State.boot hrest))
  · exact (congrArg State.cores hlog.rest).trans ((congrArg State.cores hvrest).trans ((congrArg State.cores hrest).trans rfl))
  · exact (congrArg State.insts hlog.rest).trans ((congrArg State.insts hvrest).trans ((congrArg State.insts hrest).trans rfl))

theorem exec_fwCommit_eq (s : State) : exec .fwCommit s = dev 0x24 (fun s _ => if s.getF .mpBootstat MP_BOOTSTAT.TRIAL = 0 then 0x14 else 0)
    (fun s q => s.fwCommitted.devReply q.ridx q.tag 0 (max s.boot.flash.minver s.boot.running.setver)) s := rfl

theorem fwCommit_holds {s : State} {q : Req} (h : s.DevServes 0x24 q) (hrec : s.boot.recovery = false) :
    (s.getF .mpBootstat MP_BOOTSTAT.TRIAL = 0 → exec .fwCommit s = .next (s.keep (s.dropDev.devReply q.ridx q.tag 0x14 0))) ∧
    (s.getF .mpBootstat MP_BOOTSTAT.TRIAL ≠ 0 →
      ∃ u : State, exec .fwCommit s =
          .next (s.keep (u.devReply q.ridx q.tag 0 (max s.boot.flash.minver s.boot.running.setver))) ∧
        u.boot.flash.minver = max s.boot.flash.minver s.boot.running.setver ∧ u.getF .mpBootstat MP_BOOTSTAT.TRIAL = 0 ∧
        u.boot.flash.slotA = s.boot.flash.slotA ∧ u.boot.flash.slotB = s.boot.flash.slotB ∧
        (∀ r ∈ u.boot.flash.records, r ∈ s.boot.flash.records ∧ s.boot.rver ≤ r.rver) ∧ u.cores = s.cores ∧ u.insts = s.insts) := by
  rw [exec_fwCommit_eq]
  refine ⟨fun h0 => h.refused (.inl hrec) (if_pos h0) (by decide), fun h0 => ?_⟩
  obtain ⟨hboot, htrial, hcores, hinsts⟩ := s.dropDev.fwCommitted_shows
  obtain ⟨hmin, ha, hb, hrecs⟩ := s.dropDev.commitFlash_shows
  have hflash : s.dropDev.fwCommitted.boot.flash = s.dropDev.commitFlash := congrArg BootState.flash hboot
  refine ⟨s.dropDev.fwCommitted, h.runs (.inl hrec) (if_neg h0), ?_, htrial, ?_, ?_, ?_, hcores, hinsts⟩
  · rw [hflash]; exact hmin
  · rw [hflash]; exact ha
  · rw [hflash]; exact hb
  · rw [hflash]; exact hrecs

theorem exec_cfgCommit_eq (s : State) : exec .cfgCommit s = dev 0x27 (fun s _ => if s.boot.cfg.good = false then 0x14 else 0)
    (fun s q => (s.setFlash { s.boot.flash with mincseq := max s.boot.flash.mincseq s.boot.cfg.cseq }).devReply q.ridx q.tag 0
      (max s.boot.flash.mincseq s.boot.cfg.cseq)) s := rfl

theorem cfgCommit_holds {s : State} {q : Req} (h : s.DevServes 0x27 q) (hrec : s.boot.recovery = false) (hgood : s.boot.cfg.good = true) :
    ∃ u : State, exec .cfgCommit s = .next (s.keep (u.devReply q.ridx q.tag 0 (max s.boot.flash.mincseq s.boot.cfg.cseq))) ∧
      u.boot.flash = { s.boot.flash with mincseq := max s.boot.flash.mincseq s.boot.cfg.cseq } ∧ u.regs = s.regs :=
  ⟨s.dropDev.setFlash { s.boot.flash with mincseq := max s.boot.flash.mincseq s.boot.cfg.cseq },
    (exec_cfgCommit_eq s).trans <| h.runs (.inl hrec) (if_neg (ne_false_of_eq_true hgood)), rfl, rfl⟩

/-- During an activation the writes get cause 0x14 (R520). -/
theorem dev_of_act {s : State} {q : Req} {op : Nat} (hs : s.clocksStopped = false) (hserve : s.mpServes = true) (hq : s.devQ.head? = some q)
    (hw : s.boot.work = none) (hact : s.boot.act ≠ none) (hop : q.op = op) (hwrite : op = 0x22 ∨ op = 0x26) (cause : State → Req → Nat)
    (eff : State → Req → State) : dev op cause eff s = .next (s.keep (s.dropDev.devReply q.ridx q.tag 0x14 0)) :=
  dev_answers hs hq hop hserve hw (.inr hwrite) (if_pos (.inl hact))

/-- Settles O49: every device request is answered by its own cause, and what runs leaves the flash of its own rule. -/
theorem deviceRequestsTakeEffect : Obligations.DeviceRequestsTakeEffect := by
  unfold Obligations.DeviceRequestsTakeEffect
  refine ⟨fun s q h hrec => attest_holds h hrec, fun s set img ok hs hdown => ⟨devRead_down hs hdown _ _ _, devRead_down hs hdown _ _ _⟩,
    fun s q set h hup => fwWrite_holds h hup, fun s w set hs hg hw hset hact => flashProgramComplete_holds hs hg hw hset hact,
    fun s q h hrec => fwCommit_holds h hrec, fun s q img h hrec hup => cfgWrite_holds h hrec hup,
    fun s q h hrec hgood => cfgCommit_holds h hrec hgood, fun s q set img ok hs hserve hq hw hact hup => ⟨fun hop => ?_, fun hop => ?_⟩,
    fun s q h hrec => ?_⟩
  · rw [execFwWrite_up hup]
    exact dev_of_act hs hserve hq hw hact hop (.inl rfl) _ _
  · rw [execCfgWrite_up hup]
    exact dev_of_act hs hserve hq hw hact hop (.inr rfl) _ _
  · rw [exec_fwCommit_eq]
    exact dev_answers h.clocks h.head h.op_ h.serves h.idle (.inl h.act) (if_pos (.inr ⟨hrec, by decide, by decide⟩))

end Sys2Proof.Machine


namespace Sys2Proof.Machine

/-! # Activation of firmware sets (R517 to R521) -/

theorem exec_activationStepComplete (ok : Bool) (s : State) :
    exec (.activationStepComplete ok) s = execActivationStepComplete ok s := rfl

/-! ### The order of the instances (R517) -/

/-- The place of an instance in the order is at or after (step, inst). -/
def atOrAfter (step inst : Nat) (x : Nat × Nat) : Bool := decide (step < x.1) || (decide (step = x.1) && decide (inst ≤ x.2))

theorem State.stepFrom_eq (s : State) (step inst : Nat) : s.stepFrom step inst = stepOrder.find? fun x => atOrAfter step inst x && s.stepHas x := rfl

/-- From step 3 on every instance can be loaded. -/
theorem State.stepHas_late (s : State) {x : Nat × Nat} (h : 3 ≤ x.1) : s.stepHas x = true := by
  rw [State.stepHas, if_neg (by omega), if_neg (by omega)]

/-- From step 3 on the order alone says which instance comes next. -/
theorem State.stepFrom_late (s : State) {step inst : Nat} (h : 3 ≤ step) : s.stepFrom step inst = stepOrder.find? (atOrAfter step inst) := by
  have hp (x : Nat × Nat) : (atOrAfter step inst x && s.stepHas x) = atOrAfter step inst x := by
    by_cases hx : 3 ≤ x.1
    · rw [s.stepHas_late hx, Bool.and_true]
    · have hno : atOrAfter step inst x = false := by
        rw [atOrAfter, decide_eq_false (by omega), decide_eq_false (by omega : ¬step = x.1)]
        rfl
      rw [hno, Bool.false_and]
  rw [State.stepFrom_eq]
  exact congrArg (fun p => stepOrder.find? p) (funext hp)

theorem stepOrder_ends : ∀ x ∈ stepOrder, x.1 ≤ 6 ∧ (x.1 = 6 → x.2 = 0) := by decide

/-- Nothing comes after Grizor's own step. -/
theorem State.stepFrom_end (s : State) (inst : Nat) : s.stepFrom 6 (inst + 1) = none := by
  rw [s.stepFrom_late (by decide)]
  refine List.find?_eq_none.2 fun x hx => ?_
  obtain ⟨h6, h0⟩ := stepOrder_ends x hx
  have hno : atOrAfter 6 (inst + 1) x = false := by
    rw [atOrAfter, decide_eq_false (by omega : ¬6 < x.1), Bool.false_or]
    by_cases he : x.1 = 6
    · rw [decide_eq_false (by rw [h0 he]; omega : ¬inst + 1 ≤ x.2), Bool.and_false]
    · rw [decide_eq_false (fun h : 6 = x.1 => he h.symm)]
      rfl
  rw [hno]
  exact Bool.false_ne_true

theorem stepOrder_four : ∀ i < 15, stepOrder.find? (atOrAfter 4 (i + 1)) = some (4, i + 1) := by decide

theorem State.stepFrom_four (s : State) {i : Nat} (h : i < 15) : s.stepFrom 4 (i + 1) = some (4, i + 1) :=
  (s.stepFrom_late (by decide)).trans (stepOrder_four i h)

theorem State.stepFrom_last (s : State) : s.stepFrom 5 24 = some (6, 0) := (s.stepFrom_late (by decide)).trans (by decide)

/-- The order up to its first instance that can always be loaded. -/
theorem stepOrder_split : ∃ l l', stepOrder = l ++ (3, 0) :: l' ∧ ∀ x ∈ l, x.1 < 3 :=
  ⟨stepOrder.take 20, stepOrder.drop 21, by decide, by decide⟩

/-- The first instance of an activation is one that can be loaded, of the steps 1 to 3 (R517). -/
theorem State.stepFrom_first (s : State) : ∃ x, s.stepFrom 1 0 = some x ∧ x ∈ stepOrder ∧ s.stepHas x = true ∧ x.1 < 4 := by
  obtain ⟨l, l', hsplit, hl⟩ := stepOrder_split
  rcases hf : s.stepFrom 1 0 with _ | x
  · have hno := List.find?_eq_none.1 (hf : stepOrder.find? (fun x => atOrAfter 1 0 x && s.stepHas x) = none) (3, 0) (by rw [hsplit]; simp)
    rw [s.stepHas_late (by decide)] at hno
    exact absurd rfl hno
  · have hx : stepOrder.find? (fun x => atOrAfter 1 0 x && s.stepHas x) = some x := hf
    have hp : (atOrAfter 1 0 x && s.stepHas x) = true := List.find?_some (p := fun x => atOrAfter 1 0 x && s.stepHas x) hx
    refine ⟨x, rfl, List.mem_of_find?_eq_some hx, (Bool.and_eq_true_iff.1 hp).2, ?_⟩
    rw [hsplit, List.find?_append, Option.or_eq_some_iff] at hx
    rcases hx with hx | ⟨_, hx⟩
    · exact Nat.le_trans (hl x (List.mem_of_find?_eq_some hx)) (by decide)
    · have hthree : (atOrAfter 1 0 (3, 0) && s.stepHas (3, 0)) = true := by
        rw [s.stepHas_late (by decide)]
        rfl
      rw [List.find?_cons_of_pos (p := fun x => atOrAfter 1 0 x && s.stepHas x) (a := (3, 0)) hthree, Option.some.injEq] at hx
      rw [← hx]
      decide

/-! ### Starting an instance (R517) -/

/-- What starting an instance of the steps 1 to 4 leaves. -/
theorem State.startStep_early (s : State) (a : Activation) {step : Nat} (inst : Nat) (h : step < 5) :
    s.startStep a step inst = { s with boot := { s.boot with
      act := some { a with step := step, inst := inst, at_ := s.gtc }, update := some (step, inst) } } := by
  unfold State.startStep
  dsimp only
  rw [if_neg (by omega), if_neg (by omega), if_neg (by omega)]

theorem State.stepHas_congr {s t : State} (hms : ∀ i, t.reg (.msStatus i) = s.reg (.msStatus i))
    (hpd : ∀ i, t.reg (.gctlPdstat i) = s.reg (.gctlPdstat i)) (x : Nat × Nat) : t.stepHas x = s.stepHas x := by
  unfold State.stepHas State.domainOn
  rw [State.getF_congr (hms x.2), State.getF_congr (hpd _)]

/-- The state in which an activation's first instance is looked for: MIXED and FWREV are set (R517, R518). -/
def State.mixed (s : State) (set : FwSet) : State :=
  (s.setF .mpBootstat MP_BOOTSTAT.MIXED 1).setF .gctlArithrev GCTL_ARITHREV.FWREV set.fwrev

theorem State.mixed_shows (s : State) (set : FwSet) : s.mixed set = { s with regs := (s.mixed set).regs } ∧
    (s.mixed set).getF .mpBootstat MP_BOOTSTAT.MIXED = 1 ∧ ∀ x, (s.mixed set).stepHas x = s.stepHas x := by
  unfold State.mixed
  obtain ⟨k, hk⟩ : ∃ k, set.fwrev = k := ⟨_, rfl⟩
  obtain ⟨u, hu⟩ : ∃ u, s.setF .mpBootstat MP_BOOTSTAT.MIXED 1 = u := ⟨_, rfl⟩
  rw [hk, hu]
  have hmix : u.getF .mpBootstat MP_BOOTSTAT.MIXED = 1 := by
    rw [← hu, State.getF_setF_self _ _ _ _ (by decide) (by decide)]
    rfl
  have hreg {r : Reg} (hr : r ≠ .mpBootstat) (hg : r ≠ .gctlArithrev) : (u.setF .gctlArithrev GCTL_ARITHREV.FWREV k).reg r = s.reg r := by
    rw [State.reg_setF_other _ _ _ hg, ← hu, State.reg_setF_other _ _ _ hr]
  have hus : u = { s with regs := u.regs } := by
    rw [← hu]
    rfl
  have hvu : u.setF .gctlArithrev GCTL_ARITHREV.FWREV k = { u with regs := (u.setF .gctlArithrev GCTL_ARITHREV.FWREV k).regs } := rfl
  refine ⟨State.regs_trans hus hvu, (State.getF_setF_other_reg _ _ _ _ Reg.noConfusion).trans hmix,
    fun x => State.stepHas_congr (fun _ => hreg Reg.noConfusion Reg.noConfusion) (fun _ => hreg Reg.noConfusion Reg.noConfusion) x⟩

/-- An activation outside recovery mode starts its first instance, with MIXED set (R517). -/
theorem State.activate_starts {s : State} (hrec : s.boot.recovery = false) (set : FwSet) (slot : Nat) (revert : Bool) :
    ∃ a x, (s.activate set slot revert).boot = { s.boot with act := some a, update := some x } ∧ (a.step, a.inst) = x ∧ x ∈ stepOrder ∧
      s.stepHas x = true ∧ a.set = set ∧ a.slot = slot ∧ a.revert = revert ∧
      (s.activate set slot revert).getF .mpBootstat MP_BOOTSTAT.MIXED = 1 := by
  obtain ⟨hrest, hmix, hhas⟩ := s.mixed_shows set
  obtain ⟨x, hx, hmem, hx1, hx4⟩ := (s.mixed set).stepFrom_first
  have hact : s.activate set slot revert = (s.mixed set).goOn ⟨0, 0, set, slot, revert, s.gtc⟩ 1 0 := by
    rw [State.activate, if_neg (ne_true_of_eq_false hrec), State.mixed]
  obtain ⟨u, hu⟩ : ∃ u, s.mixed set = u := ⟨_, rfl⟩
  rw [hu] at hrest hmix hhas hx hx1 hact
  have hboot : u.boot = s.boot := (congrArg State.boot hrest).trans rfl
  rw [State.goOn, hx] at hact
  dsimp only at hact
  rw [State.startStep_early _ _ _ (by omega), hboot] at hact
  refine ⟨⟨x.1, x.2, set, slot, revert, u.gtc⟩, (x.1, x.2), ?_, rfl, hmem, (hhas x).symm.trans hx1, rfl, rfl, rfl, ?_⟩
  · rw [hact]
  · rw [hact]
    exact hmix

/-! ### FW_ACTIVATE and FW_REVERT (R517 to R520) -/

theorem State.levelsOk_true {s : State} {set : FwSet} {ok : Nat → Nat → Bool}
    (h : ∀ c ∈ set.comps, ∀ x ∈ s.boot.comps, x.1 = c.type → ok c.level x.2.2.1 = true) : s.levelsOk set ok = true := by
  refine List.all_eq_true.2 fun c hc => List.all_eq_true.2 fun x hx => ?_
  by_cases ht : x.1 = c.type
  · rw [h c hc x hx ht, Bool.or_true]
  · rw [bne_iff_ne.2 ht, Bool.true_or]

theorem State.levelsOk_false {s : State} {set : FwSet} {ok : Nat → Nat → Bool} {c : FwComp} {x : Nat × Nat × Nat × Nat} (hc : c ∈ set.comps)
    (hx : x ∈ s.boot.comps) (ht : x.1 = c.type) (hno : ok c.level x.2.2.1 = false) : s.levelsOk set ok = false := by
  refine eq_false_of_ne_true fun hall => ?_
  have hcx := List.all_eq_true.1 (List.all_eq_true.1 hall c hc) x hx
  rw [hno, Bool.or_false, bne_iff_ne] at hcx
  exact hcx ht

/-- FW_ACTIVATE is refused by the set of the inactive slot (R517, R518, R520). -/
def State.activateCause (s : State) (q : Req) (set : FwSet) : Nat :=
  if s.boot.flash.valid set = false ∨ set.setver < s.boot.running.setver then 0x14
  else if s.levelsOk set (fun new old => new == old || new == old + 1) = false then 0x12
  else if set.fwrev ≠ s.boot.running.fwrev ∧ q.f 16 1 = 0 then 0x13
  else 0

theorem exec_fwActivate_eq (s : State) : exec .fwActivate s = dev 0x23
    (fun s q => s.activateCause q (s.boot.flash.slot (1 - s.activeSlot)))
    (fun s q => (s.activate (s.boot.flash.slot (1 - s.activeSlot)) (1 - s.activeSlot) false).devReply q.ridx q.tag 0 0) s := rfl

theorem State.activateCause_levels {s : State} {q : Req} {set : FwSet} (hv : s.boot.flash.valid set = true)
    (hle : s.boot.running.setver ≤ set.setver) : s.activateCause q set =
      if s.levelsOk set (fun new old => new == old || new == old + 1) = false then 0x12
      else if set.fwrev ≠ s.boot.running.fwrev ∧ q.f 16 1 = 0 then 0x13 else 0 :=
  if_neg fun h => h.elim (fun h => absurd (hv.symm.trans h) nofun) (Nat.not_lt.2 hle)

theorem State.activateCause_revision {s : State} {q : Req} {set : FwSet} (hv : s.boot.flash.valid set = true)
    (hle : s.boot.running.setver ≤ set.setver)
    (hlev : ∀ c ∈ set.comps, ∀ x ∈ s.boot.comps, x.1 = c.type → c.level = x.2.2.1 ∨ c.level = x.2.2.1 + 1) :
    s.activateCause q set = if set.fwrev ≠ s.boot.running.fwrev ∧ q.f 16 1 = 0 then 0x13 else 0 := by
  have hok : s.levelsOk set (fun new old => new == old || new == old + 1) = true := by
    refine State.levelsOk_true fun c hc x hx ht => ?_
    rw [Bool.or_eq_true, beq_iff_eq, beq_iff_eq]
    exact hlev c hc x hx ht
  rw [State.activateCause_levels hv hle, if_neg (ne_false_of_eq_true hok)]

theorem fwActivate_holds {s : State} {q : Req} (h : s.DevServes 0x23 q) {set : FwSet} (hset : set = s.boot.flash.slot (1 - s.activeSlot)) :
    (s.boot.flash.valid set = false → exec .fwActivate s = .next (s.keep (s.dropDev.devReply q.ridx q.tag 0x14 0))) ∧
    (s.boot.flash.valid set = true → set.setver < s.boot.running.setver →
      exec .fwActivate s = .next (s.keep (s.dropDev.devReply q.ridx q.tag 0x14 0))) ∧
    (s.boot.flash.valid set = true → s.boot.running.setver ≤ set.setver →
      (∃ c ∈ set.comps, ∃ x ∈ s.boot.comps, x.1 = c.type ∧ c.level ≠ x.2.2.1 ∧ c.level ≠ x.2.2.1 + 1) →
      exec .fwActivate s = .next (s.keep (s.dropDev.devReply q.ridx q.tag 0x12 0))) ∧
    (s.boot.flash.valid set = true → s.boot.running.setver ≤ set.setver →
      (∀ c ∈ set.comps, ∀ x ∈ s.boot.comps, x.1 = c.type → c.level = x.2.2.1 ∨ c.level = x.2.2.1 + 1) →
      (set.fwrev ≠ s.boot.running.fwrev → q.f 16 1 = 0 →
        exec .fwActivate s = .next (s.keep (s.dropDev.devReply q.ridx q.tag 0x13 0))) ∧
      (set.fwrev = s.boot.running.fwrev ∨ q.f 16 1 ≠ 0 → s.boot.recovery = false →
        ∃ u : State, exec .fwActivate s = .next (s.keep (u.devReply q.ridx q.tag 0 0)) ∧
          ∃ a x, u.boot.act = some a ∧ u.boot.update = some x ∧ (a.step, a.inst) = x ∧ x ∈ stepOrder ∧ s.dropDev.stepHas x = true ∧
            a.set = set ∧ a.slot = 1 - s.activeSlot ∧ a.revert = false ∧ u.getF .mpBootstat MP_BOOTSTAT.MIXED = 1 ∧
            u.boot.flash = s.boot.flash ∧ u.boot.comps = s.boot.comps)) := by
  have hrefused {c : Nat} (hc : s.dropDev.activateCause q set = c) (h0 : c ≠ 0) :
      exec .fwActivate s = .next (s.keep (s.dropDev.devReply q.ridx q.tag c 0)) := by
    rw [exec_fwActivate_eq]
    exact h.refused (.inr (.inr rfl)) (by subst hset; exact hc) h0
  refine ⟨fun hv => ?_, fun hv hlt => ?_, fun hv hle hlev => ?_, fun hv hle hlev => ⟨fun hrev hq => ?_, fun hrev hrec => ?_⟩⟩
  · exact hrefused (if_pos (.inl hv)) (by decide)
  · exact hrefused (if_pos (.inr hlt)) (by decide)
  · obtain ⟨c, hc, x, hx, ht, hne, hne1⟩ := hlev
    refine hrefused ((State.activateCause_levels hv hle).trans (if_pos ?_)) (by decide)
    exact State.levelsOk_false (s := s.dropDev) (ok := fun new old => new == old || new == old + 1) hc hx ht
      (by rw [beq_false_of_ne hne, beq_false_of_ne hne1]; rfl)
  · exact hrefused ((State.activateCause_revision (s := s.dropDev) hv hle hlev).trans (if_pos ⟨hrev, hq⟩)) (by decide)
  · obtain ⟨a, x, hboot, hx, hmem, hhas, haset, haslot, harev, hmix⟩ := State.activate_starts (s := s.dropDev) hrec set (1 - s.activeSlot) false
    refine ⟨s.dropDev.activate set (1 - s.activeSlot) false, ?_, a, x, by rw [hboot], by rw [hboot], hx, hmem, hhas, haset, haslot, harev, hmix,
      by rw [hboot]; rfl, by rw [hboot]; rfl⟩
    have hzero : s.dropDev.activateCause q set = 0 :=
      (State.activateCause_revision (s := s.dropDev) hv hle hlev).trans (if_neg fun hh => hrev.elim (fun he => hh.1 he) fun he => he hh.2)
    rw [exec_fwActivate_eq]
    subst hset
    exact h.runs (.inr (.inr rfl)) hzero

/-- FW_REVERT is refused by the trial and by the set of its slot (R519, R520). -/
def State.revertCause (s : State) (set : FwSet) : Nat :=
  if s.getF .mpBootstat MP_BOOTSTAT.TRIAL = 0 ∧ s.getF .mpBootstat MP_BOOTSTAT.MIXED = 0 then 0x14
  else if set.good = false then 0x10
  else if set.setver < s.boot.flash.floor then 0x11
  else if s.levelsOk set (fun new old => decide (new ≤ old + 1) && decide (old ≤ new + 1)) = false then 0x12
  else 0

theorem exec_fwRevert_eq (s : State) : exec .fwRevert s = dev 0x25
    (fun s _ => s.revertCause (s.boot.flash.slot s.revertSlot))
    (fun s q => (s.activate (s.boot.flash.slot s.revertSlot) s.revertSlot true).devReply q.ridx q.tag 0 0) s := rfl

theorem fwRevert_holds {s : State} {q : Req} (h : s.DevServes 0x25 q) (hrec : s.boot.recovery = false) :
    (s.getF .mpBootstat MP_BOOTSTAT.TRIAL = 0 → s.getF .mpBootstat MP_BOOTSTAT.MIXED = 0 →
      exec .fwRevert s = .next (s.keep (s.dropDev.devReply q.ridx q.tag 0x14 0))) ∧
    (s.getF .mpBootstat MP_BOOTSTAT.TRIAL = 1 → ∀ set, set = s.boot.flash.slot (1 - s.activeSlot) →
      s.boot.flash.valid set = true →
      (∀ c ∈ set.comps, ∀ x ∈ s.boot.comps, x.1 = c.type → c.level ≤ x.2.2.1 + 1 ∧ x.2.2.1 ≤ c.level + 1) →
      ∃ u : State, exec .fwRevert s = .next (s.keep (u.devReply q.ridx q.tag 0 0)) ∧
        ∃ a, u.boot.act = some a ∧ a.set = set ∧ a.slot = 1 - s.activeSlot ∧ a.revert = true ∧
          u.getF .mpBootstat MP_BOOTSTAT.MIXED = 1 ∧ u.boot.flash = s.boot.flash) := by
  refine ⟨fun ht hm => ?_, fun ht set hset hv hlev => ?_⟩
  · rw [exec_fwRevert_eq]
    exact h.refused (.inl hrec) (if_pos ⟨ht, hm⟩) (by decide)
  · have hslot : s.dropDev.revertSlot = 1 - s.activeSlot := if_pos ht
    have hok : s.dropDev.levelsOk set (fun new old => decide (new ≤ old + 1) && decide (old ≤ new + 1)) = true := by
      refine State.levelsOk_true fun c hc x hx htype => ?_
      obtain ⟨hle, hge⟩ := hlev c hc x hx htype
      rw [decide_eq_true hle, decide_eq_true hge]
      rfl
    obtain ⟨hgood, hfloor⟩ := Bool.and_eq_true_iff.1 hv
    have hcause : s.dropDev.revertCause set = 0 :=
      (if_neg fun hh : _ ∧ _ => absurd (ht.symm.trans hh.1) (by decide)).trans ((if_neg (ne_false_of_eq_true hgood)).trans
        ((if_neg (Nat.not_lt.2 (of_decide_eq_true hfloor))).trans (if_neg (ne_false_of_eq_true hok))))
    obtain ⟨a, x, hboot, _, _, _, haset, haslot, harev, hmix⟩ := State.activate_starts (s := s.dropDev) hrec set (1 - s.activeSlot) true
    refine ⟨s.dropDev.activate set (1 - s.activeSlot) true, ?_, a, by rw [hboot], haset, haslot, harev, hmix, by rw [hboot]; rfl⟩
    have hflash : s.dropDev.boot.flash.slot s.dropDev.revertSlot = set := by rw [hslot, hset]; rfl
    rw [exec_fwRevert_eq]
    refine (h.runs (.inl hrec) ?_).trans ?_
    · rw [hflash, hcause]
    · rw [hflash, hslot]

/-! ### The end of an instance's load (R517, R519, R520) -/

/-- A component of the running instances, as the load of an instance leaves it (R517). -/
def loadedComp (set : FwSet) (step inst : Nat) (x : Nat × Nat × Nat × Nat) : Nat × Nat × Nat × Nat :=
  match (set.comps.filter fun c => (stepTypes step).contains c.type).find? fun c => c.type == x.1 && x.2.1 == inst with
  | some c => (x.1, x.2.1, c.level, c.version)
  | none => x

/-- A load changes the components of its own instance alone. -/
theorem loadedComp_other (set : FwSet) (step inst : Nat) (x : Nat × Nat × Nat × Nat) :
    loadedComp set step inst x = x ∨ (loadedComp set step inst x).2.1 = inst := by
  unfold loadedComp
  split
  · next c hc =>
    have hp := List.find?_some (p := fun c : FwComp => c.type == x.1 && x.2.1 == inst) hc
    rw [Bool.and_eq_true, beq_iff_eq, beq_iff_eq] at hp
    exact .inr hp.2
  · exact .inl rfl

/-- Past the stacks, a load changes the list of components alone. -/
theorem State.loadStep_late (s : State) (set : FwSet) {step : Nat} (inst : Nat) (h : step ≠ 1) :
    s.loadStep set step inst = { s with boot := { s.boot with comps := s.boot.comps.map (loadedComp set step inst) } } := by
  unfold State.loadStep
  dsimp only
  rw [if_neg h]
  rfl

/-- An instance that has been loaded, with its record. -/
theorem State.logged_loaded (s : State) (a : Activation) (h : a.step ≠ 1) :
    State.Logged { s with boot := { s.boot with comps := s.boot.comps.map (loadedComp a.set a.step a.inst) } }
      ((s.loadStep a.set a.step a.inst).note srcMp 0 0xA5 (a.step + 8 * a.inst)) := by
  rw [s.loadStep_late a.set a.inst h]
  exact State.logged_note ..

theorem activationStep_answers {s : State} {a : Activation} (hs : s.clocksStopped = false) (ha : s.boot.act = some a)
    (hr : s.stepReady a = true) :
    exec (.activationStepComplete true) s = .next (s.keep
      (((s.loadStep a.set a.step a.inst).note srcMp 0 0xA5 (a.step + 8 * a.inst)).goOn a a.step (a.inst + 1))) ∧
    exec (.activationStepComplete false) s = .next (s.keep
      (State.note { s with boot := { s.boot with act := none, update := none } } srcMp 3 0xA5 (a.step + 8 * a.inst + 2 ^ 27))) := by
  refine ⟨?_, ?_⟩
  · rw [exec_activationStepComplete, execActivationStepComplete, ha]
    exact State.when_of hs hr
  · rw [exec_activationStepComplete, execActivationStepComplete, ha]
    exact State.when_of hs hr

/-- A load that fails stops the activation and leaves its record alone (R520). -/
theorem activationStep_fails {s : State} {a : Activation} (hs : s.clocksStopped = false) (ha : s.boot.act = some a) (hr : s.stepReady a = true) :
    ∃ t, exec (.activationStepComplete false) s = .next t ∧ t.boot = { s.boot with act := none, update := none } ∧
      t = { s with boot := t.boot, log := t.log, regs := t.regs } ∧ ∀ r, r ≠ .gctlElogLost → t.reg r = s.reg r := by
  obtain ⟨d, hd⟩ : ∃ d, a.step + 8 * a.inst + 2 ^ 27 = d := ⟨_, rfl⟩
  have hx := (activationStep_answers hs ha hr).2
  rw [hd] at hx
  obtain ⟨u, hu⟩ : ∃ u : State, { s with boot := { s.boot with act := none, update := none } } = u := ⟨_, rfl⟩
  rw [hu] at hx
  have hlog : u.Logged (u.note srcMp 3 0xA5 d) := State.logged_note ..
  obtain ⟨v, hv⟩ : ∃ v, u.note srcMp 3 0xA5 d = v := ⟨_, rfl⟩
  rw [hv] at hx hlog
  have hboot : v.boot = { s.boot with act := none, update := none } := (congrArg State.boot hlog.rest).trans (by rw [← hu])
  have hrest : v = { s with boot := v.boot, log := v.log, regs := v.regs } := by
    rw [hboot]
    refine hlog.rest.trans ?_
    rw [← hu]
  have hkeep : s.keep v = v := by
    rw [hrest]
    rfl
  rw [hkeep] at hx
  refine ⟨v, hx, hboot, hrest, fun r hr => (hlog.regs r hr).trans ?_⟩
  rw [← hu]
  rfl

/-- The registers that show the end of an activation (R517, R519). -/
theorem State.endRegs_shows (s : State) (slot : Nat) (trial : Bool) {t : State} (ht : t = ((s.setF .mpBootstat MP_BOOTSTAT.SLOT slot).setF .mpBootstat
      MP_BOOTSTAT.TRIAL trial.toNat).setF .mpBootstat MP_BOOTSTAT.MIXED 0) :
    t = { s with regs := t.regs } ∧ t.getF .mpBootstat MP_BOOTSTAT.MIXED = 0 ∧ (slot < 2 → t.getF .mpBootstat MP_BOOTSTAT.SLOT = slot) ∧
      t.getF .mpBootstat MP_BOOTSTAT.TRIAL = trial.toNat := by
  obtain ⟨u, hu⟩ : ∃ u, s.setF .mpBootstat MP_BOOTSTAT.SLOT slot = u := ⟨_, rfl⟩
  rw [hu] at ht
  obtain ⟨v, hv⟩ : ∃ v, u.setF .mpBootstat MP_BOOTSTAT.TRIAL trial.toNat = v := ⟨_, rfl⟩
  rw [hv] at ht
  subst ht
  have hus : u = { s with regs := u.regs } := by rw [← hu]; rfl
  have hvu : v = { u with regs := v.regs } := by rw [← hv]; rfl
  refine ⟨State.regs_trans (State.regs_trans hus hvu) rfl, ?_, fun hslot => ?_, ?_⟩
  · rw [State.getF_setF_self _ _ _ _ (by decide) (by decide)]
    rfl
  · rw [State.getF_setF_other _ _ _ _ _ (by decide) (by decide) (by decide) (by decide), ← hv,
      State.getF_setF_other _ _ _ _ _ (by decide) (by decide) (by decide) (by decide), ← hu,
      State.getF_setF_self _ _ _ _ (by decide) (by decide)]
    exact Nat.mod_eq_of_lt hslot
  · rw [State.getF_setF_other _ _ _ _ _ (by decide) (by decide) (by decide) (by decide), ← hv,
      State.getF_setF_self _ _ _ _ (by decide) (by decide)]
    cases trial <;> rfl

theorem State.runSet_shows (s : State) (x : FwSet) : (s.runSet x).boot = { s.boot with running := x } ∧
    ∀ r, r ≠ .mpVer → r ≠ .gctlArithrev → (s.runSet x).reg r = s.reg r := by
  unfold State.runSet
  dsimp only
  obtain ⟨u, hu⟩ : ∃ u : State, { s with boot := { s.boot with running := x } } = u := ⟨_, rfl⟩
  rw [hu]
  refine ⟨?_, fun r hv hg => ?_⟩
  · rw [← hu]
    rfl
  · rw [State.reg_setF_other _ _ _ hg, State.reg_setF_other _ _ _ hv, ← hu]
    rfl

/-- The header of the end of an activation: on trial with three tries, or no trial for a revert (R517, R519). -/
def endHeader (a : Activation) (h : BootHeader) : BootHeader :=
  if a.revert then { h with active := a.slot, trial := false, tries := 0 } else { h with active := a.slot, trial := true, tries := 3 }

theorem State.endActivation_shows (s : State) (a : Activation) :
    (s.endActivation a).boot = { s.boot with
        flash := s.boot.flash.writeHeader (endHeader a), act := none, update := none, running := a.set } ∧
      (s.endActivation a).getF .mpBootstat MP_BOOTSTAT.MIXED = 0 ∧
      (a.slot < 2 → (s.endActivation a).getF .mpBootstat MP_BOOTSTAT.SLOT = a.slot) ∧
      (s.endActivation a).getF .mpBootstat MP_BOOTSTAT.TRIAL = (!a.revert).toNat := by
  obtain ⟨f, hf⟩ : ∃ f, s.boot.flash.writeHeader (endHeader a) = f := ⟨_, rfl⟩
  obtain ⟨u, hu⟩ : ∃ u : State, { s with boot := { s.boot with flash := f, act := none, update := none } } = u := ⟨_, rfl⟩
  obtain ⟨v, hv⟩ : ∃ v, ((u.setF .mpBootstat MP_BOOTSTAT.SLOT a.slot).setF .mpBootstat MP_BOOTSTAT.TRIAL (!a.revert).toNat).setF .mpBootstat
    MP_BOOTSTAT.MIXED 0 = v := ⟨_, rfl⟩
  have hend : s.endActivation a = v.runSet a.set := by
    rw [← hv, ← hu, ← hf]
    rfl
  obtain ⟨hvu, hmix, hslot, htrial⟩ := u.endRegs_shows a.slot (!a.revert) hv.symm
  obtain ⟨hboot, hregs⟩ := v.runSet_shows a.set
  have hbs : (v.runSet a.set).reg .mpBootstat = v.reg .mpBootstat := hregs _ Reg.noConfusion Reg.noConfusion
  have hub : v.boot = { s.boot with flash := f, act := none, update := none } :=
    (congrArg State.boot hvu).trans (by rw [← hu])
  rw [hend, hf]
  refine ⟨?_, (State.getF_congr hbs).trans hmix, fun h2 => (State.getF_congr hbs).trans (hslot h2), (State.getF_congr hbs).trans htrial⟩
  rw [hboot, hub]

/-- After Grizor's own step the activation ends (R517, R519). -/
theorem activationStep_ends {s : State} {a : Activation} (hs : s.clocksStopped = false) (ha : s.boot.act = some a) (hr : s.stepReady a = true)
    (h6 : a.step = 6) : ∃ t, exec (.activationStepComplete true) s = .next t ∧ t.boot.act = none ∧ t.boot.update = none ∧
      t.getF .mpBootstat MP_BOOTSTAT.MIXED = 0 ∧ (a.slot < 2 → t.getF .mpBootstat MP_BOOTSTAT.SLOT = a.slot) ∧
      t.getF .mpBootstat MP_BOOTSTAT.TRIAL = (!a.revert).toNat ∧ t.boot.running = a.set ∧
      t.boot.flash = s.boot.flash.writeHeader (endHeader a) := by
  have hx := (activationStep_answers hs ha hr).1
  have hlog := s.logged_loaded a (by omega)
  obtain ⟨u, hu⟩ : ∃ u, (s.loadStep a.set a.step a.inst).note srcMp 0 0xA5 (a.step + 8 * a.inst) = u := ⟨_, rfl⟩
  rw [hu] at hx hlog
  have hflash : u.boot.flash = s.boot.flash := (congrArg (fun t => t.boot.flash) hlog.rest).trans rfl
  rw [State.goOn, h6, u.stepFrom_end a.inst] at hx
  obtain ⟨hboot, hmix, hslot, htrial⟩ := u.endActivation_shows a
  obtain ⟨v, hv⟩ : ∃ v, u.endActivation a = v := ⟨_, rfl⟩
  rw [hv] at hboot hmix hslot htrial
  have hx' : exec (.activationStepComplete true) s = .next (s.keep v) := by
    rw [← hv]
    exact hx
  have hkeep : (s.keep v).boot = v.boot := rfl
  refine ⟨s.keep v, hx', ?_, ?_, hmix, hslot, htrial, ?_, ?_⟩
  · rw [hkeep, hboot]
  · rw [hkeep, hboot]
  · rw [hkeep, hboot]
  · rw [hkeep, hboot, hflash]

/-- After a step of the die controllers the next instance starts (R517). -/
theorem activationStep_four {s : State} {a : Activation} (hs : s.clocksStopped = false) (ha : s.boot.act = some a) (hr : s.stepReady a = true)
    (h4 : a.step = 4) (hi : a.inst < 15) : ∃ t, exec (.activationStepComplete true) s = .next t ∧ t.boot.update = some (4, a.inst + 1) ∧
        t.boot.act = some { a with inst := a.inst + 1, at_ := s.gtc } ∧ t.boot.flash = s.boot.flash ∧
        t.getF .mpBootstat MP_BOOTSTAT.MIXED = s.getF .mpBootstat MP_BOOTSTAT.MIXED ∧
        ∀ x ∈ t.boot.comps, x ∈ s.boot.comps ∨ x.2.1 = a.inst := by
  have hx := (activationStep_answers hs ha hr).1
  have hlog := s.logged_loaded a (by omega)
  obtain ⟨u, hu⟩ : ∃ u, (s.loadStep a.set a.step a.inst).note srcMp 0 0xA5 (a.step + 8 * a.inst) = u := ⟨_, rfl⟩
  rw [hu] at hx hlog
  have hboot : u.boot = { s.boot with comps := s.boot.comps.map (loadedComp a.set a.step a.inst) } := (congrArg State.boot hlog.rest).trans rfl
  have hgtc : u.gtc = s.gtc := (congrArg State.gtc hlog.rest).trans rfl
  have hreg : u.reg .mpBootstat = s.reg .mpBootstat := hlog.regs _ Reg.noConfusion
  have hgo : u.goOn a a.step (a.inst + 1) = { u with boot := { u.boot with
      act := some { a with inst := a.inst + 1, at_ := s.gtc }, update := some (4, a.inst + 1) } } := by
    rw [State.goOn, h4, u.stepFrom_four hi]
    refine (u.startStep_early a (a.inst + 1) (by decide : 4 < 5)).trans ?_
    rw [hgtc, ← h4]
  rw [hgo] at hx
  refine ⟨_, hx, rfl, rfl, ?_, State.getF_congr hreg, fun x hx => ?_⟩
  · exact (congrArg BootState.flash hboot).trans rfl
  · have hcomps : u.boot.comps = s.boot.comps.map (loadedComp a.set a.step a.inst) := congrArg BootState.comps hboot
    obtain ⟨y, hy, hyx⟩ := List.mem_map.1 (hcomps ▸ hx : x ∈ s.boot.comps.map (loadedComp a.set a.step a.inst))
    rcases loadedComp_other a.set a.step a.inst y with h | h
    · exact .inl (by rw [← hyx, h]; exact hy)
    · exact .inr (by rw [← hyx]; exact h)

/-- The plan of the blackout stands before Grizor's own step can begin (R521). -/
theorem State.blackoutPlan_of_ready {s : State} {a : Activation} (h5 : a.step = 5) (h23 : a.inst = 23) (hr : s.stepReady a = true) :
    s.blackoutPlan = true := by
  unfold State.stepReady at hr
  rw [Bool.and_eq_true, h5, h23, s.stepFrom_last] at hr
  exact hr.2

/-- Settles O50: FW_ACTIVATE and FW_REVERT are answered by their causes, and the instances load in the order of R517. -/
theorem activationLoadsInOrder : Obligations.ActivationLoadsInOrder := by
  unfold Obligations.ActivationLoadsInOrder
  refine ⟨fun s q h set hset => fwActivate_holds h hset,
    fun s a hs ha hr => ⟨activationStep_fails hs ha hr, fun h6 hrev => ?_, fun h6 hrev => ?_, fun h4 hi => activationStep_four hs ha hr h4 hi⟩,
    fun s q h hrec => fwRevert_holds h hrec, fun s a h5 h23 hr => State.blackoutPlan_of_ready h5 h23 hr⟩
  · obtain ⟨t, hx, hact, hupd, hmix, hslot, htrial, hrun, hflash⟩ := activationStep_ends hs ha hr h6
    refine ⟨t, hx, hact, hupd, hmix, hslot, by rw [htrial, hrev]; rfl, hrun, fun i h hh => ?_⟩
    rw [hflash, (Flash.writeHeader_places (endHeader a) hh).1, endHeader, hrev]
    rfl
  · obtain ⟨t, hx, hact, _, hmix, _, htrial, hrun, _⟩ := activationStep_ends hs ha hr h6
    exact ⟨t, hx, hact, by rw [htrial, hrev]; rfl, hmix, hrun⟩

end Sys2Proof.Machine


namespace Sys2Proof.Machine

/-! # Sub-ports, modules and packet engines (R383, R401 to R405) -/

theorem exec_subportUp (p sub : Nat) (s : State) : exec (.subportUp p sub) s = execSubportUp p sub s := rfl
theorem exec_subportDown (p sub : Nat) (s : State) : exec (.subportDown p sub) s = execSubportDown p sub s := rfl
theorem exec_moduleInsertion (p ident cmis age : Nat) (pages : ModulePages) (ready : Bool) (s : State) :
    exec (.moduleInsertion p ident cmis age pages ready) s = execModuleInsertion p ident cmis age pages ready s := rfl
theorem exec_moduleReadyTimeout (p : Nat) (s : State) : exec (.moduleReadyTimeout p) s = execModuleReadyTimeout p s := rfl
theorem exec_moduleInterrupt (p st age : Nat) (s : State) : exec (.moduleInterrupt p st age) s = execModuleInterrupt p st age s := rfl
theorem exec_modulePeriodicRead (p : Nat) (read : ModuleRead) (s : State) :
    exec (.modulePeriodicRead p read) s = execModulePeriodicRead p read s := rfl
theorem exec_peWatchdogExpiry (p : Nat) (s : State) : exec (.peWatchdogExpiry p) s = execPeWatchdogExpiry p s := rfl
theorem exec_peRestartComplete (p : Nat) (s : State) : exec (.peRestartComplete p) s = execPeRestartComplete p s := rfl

theorem State.Logged.fhp {s t : State} (h : s.Logged t) (p : Nat) : t.fhp p = s.fhp p :=
  State.fhp_congr ((congrArg State.fh h.rest).trans rfl) p

theorem State.logged_fhNote (s : State) (p sub sev cls ctx d : Nat) : s.Logged (s.fhNote p sub sev cls ctx d) := State.logged_event ..

theorem State.logged_moduleNote (s : State) (p state : Nat) (refused : Bool) : s.Logged (s.moduleNote p state refused) := State.logged_event ..

theorem State.fhp_setF (s : State) (r : Reg) (f : Fld) (v p : Nat) : (s.setF r f v).fhp p = s.fhp p := rfl

/-! ### Links (R383) -/

/-- LINK of a sub-port with its record, before the cells on it are told (R383). -/
def State.linkShown (s : State) (p sub : Nat) (up : Bool) : State :=
  (s.setF (.fhStatus p) ⟨28 + sub, 28 + sub⟩ up.toNat).fhNote p sub (if up then 0 else 3) 0x60 0x7F up.toNat

theorem State.setLink_eq (s : State) (p sub : Nat) (up : Bool) : s.setLink p sub up = (s.linkShown p sub up).fronthaulFault p (some sub) 2 := rfl

theorem State.linkShown_shows (s : State) (p : Nat) {sub : Nat} (hsub : sub < 4) (up : Bool) : (s.linkShown p sub up).fhUp p sub = up ∧
    (∀ r, r ≠ .fhStatus p → r ≠ .gctlElogLost → (s.linkShown p sub up).reg r = s.reg r) ∧
    s.linkShown p sub up = { s with regs := (s.linkShown p sub up).regs, log := (s.linkShown p sub up).log } := by
  unfold State.linkShown
  obtain ⟨u, hu⟩ : ∃ u, s.setF (.fhStatus p) ⟨28 + sub, 28 + sub⟩ up.toNat = u := ⟨_, rfl⟩
  rw [hu]
  have hlog : u.Logged (u.fhNote p sub (if up then 0 else 3) 0x60 0x7F up.toNat) := State.logged_fhNote ..
  have hbit : u.getF (.fhStatus p) ⟨28 + sub, 28 + sub⟩ = up.toNat := by
    rw [← hu, State.getF_setF_self _ _ _ _ (Nat.le_refl _) (by dsimp only; omega)]
    refine Nat.mod_eq_of_lt ?_
    rw [Nat.add_sub_cancel_left]
    cases up <;> decide
  refine ⟨?_, fun r hr hl => ?_, ?_⟩
  · rw [State.fhUp, hlog.getF _ Reg.noConfusion, hbit]
    cases up <;> rfl
  · rw [hlog.regs r hl, ← hu, State.reg_setF_other _ _ _ hr]
  · refine hlog.rest.trans ?_
    rw [← hu]
    rfl

theorem subPorts_le (m : Nat) : subPorts m ≤ 4 := by
  unfold subPorts
  split <;> decide

/-! ### Modules (R401, R402) -/

/-- The laser's age is shown, and nothing but its own mark of the port changes (R402). -/
theorem State.laserAge_shows (s : State) (p : Nat) {age : Nat} (ha : age < 256) : (s.laserAge p age).getF (.fhMod p) FH_MOD.LASERAGE = age ∧
    (s.laserAge p age).getF (.fhMod p) FH_MOD.IDENT = s.getF (.fhMod p) FH_MOD.IDENT ∧
    (s.laserAge p age).getF (.fhMod p) FH_MOD.CMISVER = s.getF (.fhMod p) FH_MOD.CMISVER ∧
    (∀ r, r ≠ .fhMod p → r ≠ .gctlElogLost → (s.laserAge p age).reg r = s.reg r) ∧
    (∃ l, (s.laserAge p age).fhp p = { s.fhp p with laser := l }) ∧ (s.laserAge p age).cores = s.cores := by
  unfold State.laserAge
  dsimp only
  obtain ⟨u, hu⟩ : ∃ u, s.setF (.fhMod p) FH_MOD.LASERAGE age = u := ⟨_, rfl⟩
  have hage : u.getF (.fhMod p) FH_MOD.LASERAGE = age := by
    rw [← hu, State.getF_setF_self _ _ _ _ (by decide) (by decide)]
    exact Nat.mod_eq_of_lt ha
  have hid : u.getF (.fhMod p) FH_MOD.IDENT = s.getF (.fhMod p) FH_MOD.IDENT := by
    rw [← hu, State.getF_setF_other _ _ _ _ _ (by decide) (by decide) (by decide) (by decide)]
  have hver : u.getF (.fhMod p) FH_MOD.CMISVER = s.getF (.fhMod p) FH_MOD.CMISVER := by
    rw [← hu, State.getF_setF_other _ _ _ _ _ (by decide) (by decide) (by decide) (by decide)]
  have hreg {r : Reg} (hr : r ≠ .fhMod p) : u.reg r = s.reg r := by
    rw [← hu, State.reg_setF_other _ _ _ hr]
  have hfhp : u.fhp p = s.fhp p := by
    rw [← hu, State.fhp_setF]
  have hcores : u.cores = s.cores := by
    rw [← hu]
    rfl
  rw [hu]
  split
  · obtain ⟨v, hv⟩ : ∃ v, u.modFhp p (fun x => { x with laser := true }) = v := ⟨_, rfl⟩
    rw [hv]
    have hlog : v.Logged (v.fhNote p 0 1 0x62 0x7F age) := State.logged_fhNote ..
    have hvu (r : Reg) : v.reg r = u.reg r := by
      rw [← hv]
      rfl
    have hvf : v.fhp p = { s.fhp p with laser := true } := by
      rw [← hv, State.fhp_modFhp_self, hfhp]
    have hvc : v.cores = u.cores := by
      rw [← hv]
      rfl
    refine ⟨?_, ?_, ?_, fun r hr hl => ?_, ⟨true, ?_⟩, ?_⟩
    · exact (hlog.getF _ Reg.noConfusion).trans ((State.getF_congr (hvu _)).trans hage)
    · exact (hlog.getF _ Reg.noConfusion).trans ((State.getF_congr (hvu _)).trans hid)
    · exact (hlog.getF _ Reg.noConfusion).trans ((State.getF_congr (hvu _)).trans hver)
    · exact (hlog.regs r hl).trans ((hvu r).trans (hreg hr))
    · exact (hlog.fhp p).trans hvf
    · exact (congrArg State.cores hlog.rest).trans (hvc.trans hcores)
  · exact ⟨hage, hid, hver, fun r hr _ => hreg hr, ⟨(s.fhp p).laser, hfhp⟩, hcores⟩

theorem moduleReadyTimeout_holds {s : State} {p at_ : Nat} (hs : s.clocksStopped = false) (hp : p < 24) (hat : (s.fhp p).inserted = some at_)
    (hdue : at_ + 216000000000 ≤ s.gtc) :
    ∃ t, exec (.moduleReadyTimeout p) s = .next t ∧ (t.fhp p).inserted = none ∧ t.getF (.fhStatus p) FH_STATUS.MODSTATE = 1 ∧
      ∀ r, r ≠ .fhStatus p → r ≠ .gctlElogLost → t.reg r = s.reg r := by
  obtain ⟨u, hu⟩ : ∃ u, s.modFhp p (fun x => { x with inserted := none }) = u := ⟨_, rfl⟩
  have huf : u.fhp p = { s.fhp p with inserted := none } := by rw [← hu, State.fhp_modFhp_self]
  have hur (r : Reg) : u.reg r = s.reg r := by rw [← hu, State.reg_modFhp]
  obtain ⟨v, hv⟩ : ∃ v, u.setF (.fhStatus p) FH_STATUS.MODSTATE 1 = v := ⟨_, rfl⟩
  have hlog : v.Logged (v.moduleNote p 1 true) := State.logged_moduleNote ..
  refine ⟨s.keep (v.moduleNote p 1 true), ?_, ?_, ?_, fun r hr hl => ?_⟩
  · rw [exec_moduleReadyTimeout, execModuleReadyTimeout, ← hv, ← hu, hat]
    exact State.when_of hs (by dsimp only; rw [decide_eq_true hp, decide_eq_true hdue]; rfl)
  · have hf : (v.moduleNote p 1 true).fhp p = { s.fhp p with inserted := none } := by
      rw [hlog.fhp, ← hv, State.fhp_setF, huf]
    exact congrArg FhPort.inserted hf
  · refine (hlog.getF _ Reg.noConfusion).trans ?_
    rw [← hv, State.getF_setF_self _ _ _ _ (by decide) (by decide)]
    rfl
  · refine (hlog.regs r hl).trans ?_
    rw [← hv, State.reg_setF_other _ _ _ hr, hur]

/-- A module that has been read shows its state and its laser's age (R401, R402). -/
theorem State.readModule_shows (s : State) (p : Nat) {st age : Nat} (hst : st < 6) (ha : age < 256) :
    (s.readModule p st age).getF (.fhStatus p) FH_STATUS.MODSTATE = st ∧ (s.readModule p st age).getF (.fhMod p) FH_MOD.LASERAGE = age ∧
      ((s.readModule p st age).fhp p).readAt = (s.fhp p).readAt ∧
      ∀ r, r ≠ .fhStatus p → r ≠ .fhMod p → r ≠ .gctlElogLost → (s.readModule p st age).reg r = s.reg r := by
  unfold State.readModule
  dsimp only
  obtain ⟨u, hu⟩ : ∃ u, s.setF (.fhStatus p) FH_STATUS.MODSTATE st = u := ⟨_, rfl⟩
  have hshow : u.getF (.fhStatus p) FH_STATUS.MODSTATE = st := by
    rw [← hu, State.getF_setF_self _ _ _ _ (by decide) (by decide)]
    exact Nat.mod_eq_of_lt (Nat.lt_of_lt_of_le hst (by decide))
  have hreg {r : Reg} (hr : r ≠ .fhStatus p) : u.reg r = s.reg r := by rw [← hu, State.reg_setF_other _ _ _ hr]
  have huf : u.fhp p = s.fhp p := by rw [← hu, State.fhp_setF]
  rw [hu]
  obtain ⟨v, hv⟩ : ∃ v, u.modFhp p (fun x => { x with inserted := if st = 3 then none else x.inserted }) = v := ⟨_, rfl⟩
  have hvf : (v.fhp p).readAt = (s.fhp p).readAt := by rw [← hv, State.fhp_modFhp_self, huf]
  have hvr (r : Reg) : v.reg r = u.reg r := by rw [← hv, State.reg_modFhp]
  rw [hv]
  obtain ⟨w, hw⟩ : ∃ w, (if s.getF (.fhStatus p) FH_STATUS.MODSTATE = st then v else v.moduleNote p st false) = w := ⟨_, rfl⟩
  have hlog : v.Logged w := by
    rw [← hw]
    split
    · exact State.Logged.refl v
    · exact State.logged_moduleNote ..
  rw [hw]
  obtain ⟨hage, _, _, hregs, ⟨l, hl⟩, _⟩ := w.laserAge_shows p ha
  refine ⟨?_, hage, ?_, fun r hr hm hlost => ?_⟩
  · exact (State.getF_congr (hregs _ Reg.noConfusion Reg.noConfusion)).trans
      ((hlog.getF _ Reg.noConfusion).trans ((State.getF_congr (hvr _)).trans hshow))
  · rw [hl]
    exact (congrArg FhPort.readAt (hlog.fhp p)).trans hvf
  · exact (hregs r hm hlost).trans ((hlog.regs r hlost).trans ((hvr r).trans (hreg hr)))

/-- The pages of a module that has been inserted, in its words (R401). -/
theorem State.moduleWords_keeps (p : Nat) (l : List (Nat × Nat)) (s : State) :
    (l.foldl (fun s x => s.setReg (.fhModid p x.2) (BitVec.ofNat 64 x.1)) s).reg (.fhStatus p) = s.reg (.fhStatus p) ∧
      (l.foldl (fun s x => s.setReg (.fhModid p x.2) (BitVec.ofNat 64 x.1)) s).reg (.fhMod p) = s.reg (.fhMod p) ∧
      (l.foldl (fun s x => s.setReg (.fhModid p x.2) (BitVec.ofNat 64 x.1)) s).cores = s.cores := by
  have hstep {π : State → BitVec 64} (h : ∀ (u : State) (x : Nat × Nat), π (u.setReg (.fhModid p x.2) (BitVec.ofNat 64 x.1)) = π u) :
      π (l.foldl (fun s x => s.setReg (.fhModid p x.2) (BitVec.ofNat 64 x.1)) s) = π s := foldl_keeps h l s
  exact ⟨hstep (π := fun u => u.reg (.fhStatus p)) fun u x => State.reg_setReg_other u _ Reg.noConfusion,
    hstep (π := fun u => u.reg (.fhMod p)) fun u x => State.reg_setReg_other u _ Reg.noConfusion,
    foldl_keeps (π := State.cores) (f := fun s x => s.setReg (.fhModid p x.2) (BitVec.ofNat 64 x.1)) (fun _ _ => rfl) l s⟩

/-- The status and the identity of a module that has been inserted, before its pages are read (R401). -/
def State.moduleShown (s : State) (p ident cmis st : Nat) : State :=
  (((s.setF (.fhStatus p) FH_STATUS.MODPRS 1).setF (.fhStatus p) FH_STATUS.MODSTATE st).setF (.fhMod p) FH_MOD.IDENT ident).setF (.fhMod p)
    FH_MOD.CMISVER cmis

theorem State.moduleShown_shows (s : State) (p : Nat) {ident cmis st : Nat} (hi : ident < 256) (hc : cmis < 256) (hst : st < 8) :
    (s.moduleShown p ident cmis st).getF (.fhStatus p) FH_STATUS.MODPRS = 1 ∧
      (s.moduleShown p ident cmis st).getF (.fhStatus p) FH_STATUS.MODSTATE = st ∧
      (s.moduleShown p ident cmis st).getF (.fhMod p) FH_MOD.IDENT = ident ∧
      (s.moduleShown p ident cmis st).getF (.fhMod p) FH_MOD.CMISVER = cmis ∧ (s.moduleShown p ident cmis st).cores = s.cores := by
  unfold State.moduleShown
  obtain ⟨u, hu⟩ : ∃ u, s.setF (.fhStatus p) FH_STATUS.MODPRS 1 = u := ⟨_, rfl⟩
  have huc : u.cores = s.cores := by rw [← hu]; rfl
  rw [hu]
  obtain ⟨v, hv⟩ : ∃ v, u.setF (.fhStatus p) FH_STATUS.MODSTATE st = v := ⟨_, rfl⟩
  have hvc : v.cores = u.cores := by rw [← hv]; rfl
  rw [hv]
  obtain ⟨w, hw⟩ : ∃ w, v.setF (.fhMod p) FH_MOD.IDENT ident = w := ⟨_, rfl⟩
  have hwc : w.cores = v.cores := by rw [← hw]; rfl
  rw [hw]
  refine ⟨?_, ?_, ?_, ?_, hwc.trans (hvc.trans huc)⟩
  · rw [State.getF_setF_other_reg _ _ _ _ Reg.noConfusion, ← hw, State.getF_setF_other_reg _ _ _ _ Reg.noConfusion, ← hv,
      State.getF_setF_other _ _ _ _ _ (by decide) (by decide) (by decide) (by decide), ← hu,
      State.getF_setF_self _ _ _ _ (by decide) (by decide)]
    rfl
  · rw [State.getF_setF_other_reg _ _ _ _ Reg.noConfusion, ← hw, State.getF_setF_other_reg _ _ _ _ Reg.noConfusion, ← hv,
      State.getF_setF_self _ _ _ _ (by decide) (by decide)]
    exact Nat.mod_eq_of_lt hst
  · rw [State.getF_setF_other _ _ _ _ _ (by decide) (by decide) (by decide) (by decide), ← hw,
      State.getF_setF_self _ _ _ _ (by decide) (by decide)]
    exact Nat.mod_eq_of_lt hi
  · rw [State.getF_setF_self _ _ _ _ (by decide) (by decide)]
    exact Nat.mod_eq_of_lt hc

/-- The state that an inserted module is given (R401). -/
def moduleState (cmis : Nat) (ready : Bool) : Nat := if cmis ≠ 0x40 ∧ cmis / 16 ≠ 5 then 1 else if ready = true then 3 else 2

theorem moduleState_eq (cmis : Nat) (ready : Bool) :
    (if (!(decide (cmis = 0x40) || decide (cmis / 16 = 5))) = true then 1 else if ready = true then 3 else 2) = moduleState cmis ready := by
  unfold moduleState
  by_cases h4 : cmis = 0x40
  · simp [h4]
  · by_cases h5 : cmis / 16 = 5
    · simp [h4, h5]
    · simp [h4, h5]

theorem moduleInsertion_holds {s : State} {p ident cmis age : Nat} {words eq : List Nat} {ready : Bool} (hs : s.clocksStopped = false)
    (hp : p < 24) (hg : s.boot.grizor = true) (hc : cmis < 256) (hi : ident < 256) (ha : age < 256) :
    ∃ t, exec (.moduleInsertion p ident cmis age ⟨words, eq⟩ ready) s = .next t ∧ t.getF (.fhStatus p) FH_STATUS.MODPRS = 1 ∧
      (t.fhp p).txEq = eq.take 4 ∧
      t.getF (.fhStatus p) FH_STATUS.MODSTATE = (if cmis ≠ 0x40 ∧ cmis / 16 ≠ 5 then 1 else if ready = true then 3 else 2) ∧
      t.getF (.fhMod p) FH_MOD.IDENT = ident ∧ t.getF (.fhMod p) FH_MOD.CMISVER = cmis ∧ t.getF (.fhMod p) FH_MOD.LASERAGE = age ∧
      t.cores = s.cores := by
  obtain ⟨st, hst⟩ : ∃ st, moduleState cmis ready = st := ⟨_, rfl⟩
  have hst8 : st < 8 := by
    rw [← hst, moduleState]
    split
    · decide
    · split <;> decide
  obtain ⟨hprs, hstate, hid, hver, hcores⟩ := s.moduleShown_shows p hi hc hst8
  obtain ⟨u, hu⟩ : ∃ u, s.moduleShown p ident cmis st = u := ⟨_, rfl⟩
  rw [hu] at hprs hstate hid hver hcores
  obtain ⟨hfs, hfm, hfc⟩ := State.moduleWords_keeps p (words.take 8).zipIdx u
  obtain ⟨v, hv⟩ : ∃ v, (words.take 8).zipIdx.foldl (fun s x => s.setReg (.fhModid p x.2) (BitVec.ofNat 64 x.1)) u = v := ⟨_, rfl⟩
  rw [hv] at hfs hfm hfc
  obtain ⟨ok, hok⟩ : ∃ ok, (decide (cmis = 0x40) || decide (cmis / 16 = 5)) = ok := ⟨_, rfl⟩
  obtain ⟨w, hw⟩ : ∃ w, v.modFhp p (fun x => { x with
    inserted := if (ok && !ready) = true then some s.gtc else none, laser := false, readAt := s.gtc, txEq := eq.take 4 }) = w := ⟨_, rfl⟩
  have hwr (r : Reg) : w.reg r = v.reg r := by rw [← hw, State.reg_modFhp]
  have hwc : w.cores = v.cores := by rw [← hw]; rfl
  have hweq : (w.fhp p).txEq = eq.take 4 := by rw [← hw, State.fhp_modFhp_self]
  have hlog : w.Logged (w.moduleNote p st (!ok)) := State.logged_moduleNote ..
  obtain ⟨z, hz⟩ : ∃ z, w.moduleNote p st (!ok) = z := ⟨_, rfl⟩
  rw [hz] at hlog
  obtain ⟨hage, hid', hver', hregs, ⟨l, hl⟩, hzc⟩ := z.laserAge_shows p ha
  have hstatus : z.reg (.fhStatus p) = u.reg (.fhStatus p) := (hlog.regs _ Reg.noConfusion).trans ((hwr _).trans hfs)
  have hmod : z.reg (.fhMod p) = u.reg (.fhMod p) := (hlog.regs _ Reg.noConfusion).trans ((hwr _).trans hfm)
  have hx : exec (.moduleInsertion p ident cmis age ⟨words, eq⟩ ready) s = .next (s.keep (z.laserAge p age)) := by
    rw [exec_moduleInsertion, execModuleInsertion, ← hz, ← hw, ← hv, ← hu, ← hst, ← moduleState_eq, hok]
    exact State.when_of hs (by rw [decide_eq_true hp, hg, decide_eq_true hc, decide_eq_true hi, decide_eq_true ha]; rfl)
  refine ⟨_, hx, ?_, ?_, ?_, ?_, ?_, hage, ?_⟩
  · exact (State.getF_congr ((hregs _ Reg.noConfusion Reg.noConfusion).trans hstatus)).trans hprs
  · exact (congrArg FhPort.txEq hl).trans ((congrArg FhPort.txEq (hlog.fhp p)).trans hweq)
  · exact (State.getF_congr ((hregs _ Reg.noConfusion Reg.noConfusion).trans hstatus)).trans (hstate.trans hst.symm)
  · exact hid'.trans ((State.getF_congr hmod).trans hid)
  · exact hver'.trans ((State.getF_congr hmod).trans hver)
  · exact hzc.trans (((congrArg State.cores hlog.rest).trans rfl).trans (hwc.trans (hfc.trans hcores)))

theorem moduleInterrupt_holds {s : State} {p st age : Nat} (hs : s.clocksStopped = false) (hp : p < 24) (hg : s.boot.grizor = true)
    (hprs : s.getF (.fhStatus p) FH_STATUS.MODPRS = 1) (hst : st < 6) (ha : age < 256) :
    ∃ t, exec (.moduleInterrupt p st age) s = .next t ∧ t.getF (.fhStatus p) FH_STATUS.MODSTATE = st ∧
      t.getF (.fhMod p) FH_MOD.LASERAGE = age ∧ ∀ r, r ≠ .fhStatus p → r ≠ .fhMod p → r ≠ .gctlElogLost → t.reg r = s.reg r := by
  obtain ⟨hstate, hage, _, hregs⟩ := s.readModule_shows p hst ha
  refine ⟨s.keep (s.readModule p st age), ?_, hstate, hage, hregs⟩
  rw [exec_moduleInterrupt, execModuleInterrupt]
  exact State.when_of hs (by rw [decide_eq_true hp, hg, decide_eq_true hprs, decide_eq_true hst, decide_eq_true ha]; rfl)

theorem modulePeriodicRead_holds {s : State} {p st age : Nat} (hs : s.clocksStopped = false) (hp : p < 24) (hg : s.boot.grizor = true)
    (hprs : s.getF (.fhStatus p) FH_STATUS.MODPRS = 1) (hst : st < 6) (ha : age < 256) (hdue : (s.fhp p).readAt + 36000000000 ≤ s.gtc)
    (hload : s.getF .mpLoad MP_LOAD.LEVEL = 0) :
    ∃ t, exec (.modulePeriodicRead p ⟨st, age⟩) s = .next t ∧ (t.fhp p).readAt = s.gtc ∧ t.getF (.fhMod p) FH_MOD.LASERAGE = age ∧
      t.getF (.fhStatus p) FH_STATUS.MODSTATE = st ∧ ∀ r, r ≠ .fhMod p → r ≠ .fhStatus p → r ≠ .gctlElogLost → t.reg r = s.reg r := by
  obtain ⟨u, hu⟩ : ∃ u, s.modFhp p (fun x => { x with readAt := s.gtc }) = u := ⟨_, rfl⟩
  have hread : (u.fhp p).readAt = s.gtc := by rw [← hu, State.fhp_modFhp_self]
  have hur (r : Reg) : u.reg r = s.reg r := by rw [← hu, State.reg_modFhp]
  obtain ⟨hstate, hage, hat, hregs⟩ := u.readModule_shows p hst ha
  refine ⟨s.keep (u.readModule p st age), ?_, hat.trans hread, hage, hstate, fun r hm hr hl => (hregs r hr hm hl).trans (hur r)⟩
  rw [exec_modulePeriodicRead, execModulePeriodicRead, ← hu]
  exact State.when_of hs (by
    rw [decide_eq_true hp, hg, decide_eq_true hprs, decide_eq_true hst, decide_eq_true ha, decide_eq_true hdue, decide_eq_true hload]; rfl)

/-! ### The engine's stop and restart (R403 to R405) -/

/-- A frame that is lost leaves its line free; a line that is free stays free, and no core changes. -/
theorem State.loseLine_keeps (s : State) (p k : Nat) : SMap.get none ((s.loseLine p k).fhp p).line k = none ∧
    (∀ j, SMap.get none (s.fhp p).line j = none → SMap.get none ((s.loseLine p k).fhp p).line j = none) ∧
    (s.loseLine p k).cores = s.cores := by
  unfold State.loseLine
  by_cases h : (SMap.get none (s.fhp p).line k).isSome = true
  · rw [if_pos h]
    have hline : (((s.modFhp p fun x => { x with line := SMap.put none x.line k none }).fhCount p 12 1).fhp p).line =
        SMap.put none (s.fhp p).line k none := by
      rw [State.fhp_fhCount, State.fhp_modFhp_self]
    refine ⟨by rw [hline, SMap.get_put_self], fun j hj => ?_, rfl⟩
    rw [hline]
    by_cases hjk : j = k
    · rw [hjk, SMap.get_put_self]
    · rw [SMap.get_put_other _ _ _ hjk, hj]
  · rw [if_neg h]
    exact ⟨Option.not_isSome_iff_eq_none.1 h, fun _ hj => hj, rfl⟩

theorem State.loseLines_free (p : Nat) (l : List Nat) (s : State) :
    (∀ j, j ∈ l ∨ SMap.get none (s.fhp p).line j = none → SMap.get none ((l.foldl (fun s k => s.loseLine p k) s).fhp p).line j = none) ∧
      (l.foldl (fun s k => s.loseLine p k) s).cores = s.cores := by
  induction l generalizing s with
  | nil => exact ⟨fun j hj => hj.resolve_left nofun, rfl⟩
  | cons k l ih =>
    obtain ⟨hself, hkeep, hcores⟩ := s.loseLine_keeps p k
    obtain ⟨hfree, hc⟩ := ih (s.loseLine p k)
    refine ⟨fun j hj => hfree j ?_, hc.trans hcores⟩
    rcases hj with hj | hj
    · rcases List.mem_cons.1 hj with rfl | hj
      · exact .inr hself
      · exact .inl hj
    · exact .inr (hkeep j hj)

theorem State.peStop_shows (s : State) (p : Nat) (why : PeStop) : ((s.peStop p why).fhp p).queue = [] ∧
    ((s.peStop p why).fhp p).stop = some why ∧ (∀ k, k < 4 → SMap.get none ((s.peStop p why).fhp p).line k = none) ∧
    (s.peStop p why).getF (.fhStatus p) FH_STATUS.PESTOP = 1 ∧ (s.peStop p why).cores = s.cores := by
  obtain ⟨hfree, hcores⟩ := State.loseLines_free p [0, 1, 2, 3] s
  obtain ⟨u, hu⟩ : ∃ u, [0, 1, 2, 3].foldl (fun s k => s.loseLine p k) s = u := ⟨_, rfl⟩
  rw [hu] at hfree hcores
  obtain ⟨v, hv⟩ : ∃ v, u.modFhp p (fun x => { x with queue := [], stop := some why }) = v := ⟨_, rfl⟩
  have hvf : v.fhp p = { u.fhp p with queue := [], stop := some why } := by rw [← hv, State.fhp_modFhp_self]
  have hvc : v.cores = u.cores := by rw [← hv]; rfl
  obtain ⟨w, hw⟩ : ∃ w, v.fhCount p 12 (u.fhp p).queue.length = w := ⟨_, rfl⟩
  have hwf : w.fhp p = v.fhp p := by rw [← hw, State.fhp_fhCount]
  have hwc : w.cores = v.cores := by rw [← hw]; rfl
  have heq : s.peStop p why = w.setF (.fhStatus p) FH_STATUS.PESTOP 1 := by
    rw [State.peStop, hu, hv, hw]
  have hfhp : (s.peStop p why).fhp p = { u.fhp p with queue := [], stop := some why } := by
    rw [heq, State.fhp_setF, hwf, hvf]
  refine ⟨by rw [hfhp], by rw [hfhp], fun k hk => ?_, ?_, ?_⟩
  · rw [hfhp]
    refine hfree k (.inl ?_)
    simp only [List.mem_cons, List.not_mem_nil, or_false]
    omega
  · rw [heq, State.getF_setF_self _ _ _ _ (by decide) (by decide)]
    rfl
  · rw [heq]
    exact hwc.trans (hvc.trans hcores)

theorem peWatchdogExpiry_holds {s : State} {p : Nat} (hs : s.clocksStopped = false) (hp : p < 24) (hen : s.fhEn p = true)
    (hstop : (s.fhp p).stop = none) :
    ∃ t, exec (.peWatchdogExpiry p) s = .next t ∧ (t.fhp p).queue = [] ∧ (t.fhp p).stop = some .watchdog ∧
      (∀ k, k < 4 → SMap.get none (t.fhp p).line k = none) ∧ t.getF (.fhStatus p) FH_STATUS.PESTOP = 1 ∧ t.cores = s.cores := by
  have hshows := s.peStop_shows p .watchdog
  obtain ⟨u, hu⟩ : ∃ u, s.peStop p .watchdog = u := ⟨_, rfl⟩
  rw [hu] at hshows
  refine ⟨s.keep u, ?_, hshows⟩
  rw [exec_peWatchdogExpiry, execPeWatchdogExpiry, hu]
  exact State.when_of hs (by rw [decide_eq_true hp, hen, hstop]; rfl)

/-- The port of an engine that has restarted, before its faults are told (R404, R405). -/
def State.peStarted (s : State) (p : Nat) : State :=
  (s.modFhp p fun x => { x with stop := none }).setF (.fhStatus p) FH_STATUS.PESTOP 0

theorem State.peStarted_shows (s : State) (p : Nat) : ((s.peStarted p).fhp p).stop = none ∧
    (s.peStarted p).getF (.fhStatus p) FH_STATUS.PESTOP = 0 ∧ (s.peStarted p).log = s.log := by
  unfold State.peStarted
  obtain ⟨v, hv⟩ : ∃ v, s.modFhp p (fun x => { x with stop := none }) = v := ⟨_, rfl⟩
  have hvf : (v.fhp p).stop = none := by rw [← hv, State.fhp_modFhp_self]
  have hvl : v.log = s.log := by rw [← hv]; rfl
  rw [hv]
  refine ⟨by rw [State.fhp_setF, hvf], ?_, hvl⟩
  rw [State.getF_setF_self _ _ _ _ (by decide) (by decide)]
  rfl

/-- The restart of an engine ends its stop, with the record of its cause where it has one (R404, R405). -/
theorem peRestart_answers {s : State} {p : Nat} (hs : s.clocksStopped = false) (hp : p < 24) {w : PeStop} (hw : (s.fhp p).stop = some w) :
    ∃ u, exec (.peRestartComplete p) s = .next (s.keep (u.fronthaulFault p none 3)) ∧ (s.peStarted p).Logged u ∧
      (w = .reset → u = s.peStarted p) := by
  obtain ⟨v, hv⟩ : ∃ v, s.peStarted p = v := ⟨_, rfl⟩
  have hg : decide (p < 24) = true := decide_eq_true hp
  rw [State.peStarted] at hv
  rw [State.peStarted, hv, exec_peRestartComplete, execPeRestartComplete, hv, hw]
  cases w with
  | watchdog => exact ⟨_, State.when_of hs hg, State.logged_fhNote .., nofun⟩
  | update => exact ⟨_, State.when_of hs hg, State.logged_fhNote .., nofun⟩
  | reset => exact ⟨v, State.when_of hs hg, State.Logged.refl v, fun _ => rfl⟩

/-- Settles O42: LINK, the modules and the packet engines change as their own events say. -/
theorem linksModulesAndEnginesChangeState : Obligations.LinksModulesAndEnginesChangeState := by
  unfold Obligations.LinksModulesAndEnginesChangeState
  refine ⟨fun s p sub hs hp hen hsub hdown => ?_, fun s p sub hs hp hsub hup => ?_,
    fun s p ident cmis age words eq ready hs hp hg hc hi ha => moduleInsertion_holds hs hp hg hc hi ha,
    fun s p at_ hs hp hat hdue => moduleReadyTimeout_holds hs hp hat hdue,
    fun s p st age hs hp hg hprs hst ha => moduleInterrupt_holds hs hp hg hprs hst ha,
    fun s p st age hs hp hg hprs hst ha hdue hload => modulePeriodicRead_holds hs hp hg hprs hst ha hdue hload,
    fun s p hs hp hen hstop => peWatchdogExpiry_holds hs hp hen hstop, fun s p hs hp hstop => ?_,
    fun s p hs hp hstop => ?_⟩
  · refine ⟨s.linkShown p sub true, ?_, s.linkShown_shows p (Nat.lt_of_lt_of_le hsub (subPorts_le _)) true⟩
    rw [exec_subportUp, execSubportUp, State.setLink_eq]
    exact State.when_of hs (by rw [decide_eq_true hp, hen, decide_eq_true hsub, hdown]; rfl)
  · refine ⟨s.linkShown p sub false, ?_, s.linkShown_shows p hsub false⟩
    rw [exec_subportDown, execSubportDown, State.setLink_eq]
    exact State.when_of hs (by rw [decide_eq_true hp, decide_eq_true hsub, hup]; rfl)
  · obtain ⟨u, hx, _, hreset⟩ := peRestart_answers hs hp hstop
    obtain ⟨hnone, hpe, hlog⟩ := s.peStarted_shows p
    rw [hreset rfl] at hx
    exact ⟨_, hx, hnone, hpe, hlog⟩
  · obtain ⟨w, hw⟩ : ∃ w, (s.fhp p).stop = some w := hstop.elim (fun h => ⟨_, h⟩) fun h => ⟨_, h⟩
    obtain ⟨u, hx, hlog, _⟩ := peRestart_answers hs hp hw
    obtain ⟨hnone, hpe, _⟩ := s.peStarted_shows p
    exact ⟨u, hx, (congrArg FhPort.stop (hlog.fhp p)).trans hnone, (hlog.getF _ Reg.noConfusion).trans hpe⟩

end Sys2Proof.Machine


namespace Sys2Proof.Machine

/-! # Tear-down on a malformed list of cores -/

/-- A state whose list of cores names core 0 twice; its second entry holds a running thread of instance 1. -/
def doubledCore : State :=
  { State.reset with
    cores := [(0, { Core.zero with waking := true }),
      (0, { Core.zero with waking := true, threads := [(0, { Thread.idle with ctx := .tenant 1, running := true })] })] }

/-- A core has a running thread of a context. -/
def Core.runs (c : Core) (ctx : Ctx) : Bool := c.threads.any fun x => x.2.ctx == ctx && x.2.running

/-- The tear-down walks the list of cores twice, and what it writes for core 0 at its first pass hides, and then loses to, the stale second
entry. -/
theorem doubledCore_runs : ((doubledCore.tearDown (.tenant 1) 0 0).core 0).runs (.tenant 1) = true := by decide +kernel

/-- Refutes O53: with core 0 twice in the list of cores, the tear-down of instance 1 leaves a running thread of it on core 0. -/
theorem not_faultsTearDownTheirContext : ¬ Obligations.FaultsTearDownTheirContext := by
  unfold Obligations.FaultsTearDownTheirContext
  rintro ⟨htenant, -⟩
  obtain ⟨_, _, _, _, hcores, _⟩ := htenant doubledCore 1 0 0 (by decide) (by decide) (by decide) (by decide)
  obtain ⟨x, hx, hrun⟩ := List.any_eq_true.1 doubledCore_runs
  rw [Bool.and_eq_true, beq_iff_eq] at hrun
  exact absurd ((hcores 0).1 x hx hrun.1) (ne_false_of_eq_true hrun.2)

end Sys2Proof.Machine


namespace Sys2Proof.Machine

/-! # The self-tests on a malformed list of cores (R506, R511) -/

theorem exec_selfTestComplete (slots : List Nat) (rows : List (Nat × Nat)) (stackSet : List Nat) (x0 : Bool) (s : State) :
    exec (.selfTestComplete slots rows stackSet x0) s = execSelfTestComplete slots rows stackSet x0 s := rfl

/-- What the self-tests' counterexample rests on: the cores, the instances, the images and the boot state. -/
def State.holding (s : State) : SMap Core × SMap Instance × SMap (Option Image) × BootState := (s.cores, s.insts, s.images, s.boot)

theorem State.holding_spareRows (s : State) (p : Nat) : (s.spareRows p).holding = s.holding := by
  unfold State.spareRows
  refine foldl_keeps (π := State.holding) (fun u k => ?_) _ s
  split
  · rfl
  · rfl

theorem State.holding_buildMap (s : State) (bad : List Nat) : (s.buildMap bad).holding = s.holding := by
  unfold State.buildMap
  refine foldl_keeps (π := State.holding) (fun u d => ?_) _ s
  refine foldl_keeps (π := State.holding) (fun v k => ?_) _ u
  split
  · exact (State.holding_spareRows _ _).trans rfl
  · rfl

/-- A self-test that finds no repair record in force changes registers alone, past the mark of the failed slots. -/
def State.mapBuilt (s : State) (fresh : List Nat) (lib : Nat) : State :=
  (List.range 12).foldl (fun s m => s.setF (.msStatus m) MS_STATUS.LIBVER lib)
    ((List.range 10).foldl (fun s d => s.setDomain (272 + d) false) (s.buildMap fresh))

theorem State.holding_mapBuilt (s : State) (fresh : List Nat) (lib : Nat) : (s.mapBuilt fresh lib).holding = s.holding :=
  (foldl_keeps (π := State.holding) (f := fun s m => s.setF (.msStatus m) MS_STATUS.LIBVER lib) (fun _ _ => rfl) _ _).trans
    ((foldl_keeps (π := State.holding) (f := fun s d => s.setDomain (272 + d) false) (fun _ _ => rfl) _ _).trans (s.holding_buildMap fresh))

/-- The boot state of the counterexample: Grizor runs, with an empty configuration image and no device record. -/
def testBoot : BootState := { BootState.off with started := true, grizor := true }

/-- The state in which the failed slot 0 has been marked. -/
def State.slotMarked (s : State) : State :=
  State.modCore { s with boot := { testBoot with rows := [], comps := testBoot.running.loaded } } 0 fun c => { c with failed := true }

/-- The self-tests that find slot 0 and stack 0 failed, and no record in force (R506, R511). -/
theorem selfTest_runs {s : State} (hs : s.clocksStopped = false) (hb : s.boot = testBoot) (h3 : s.stage = 3) :
    exec (.selfTestComplete [0] [] [0] false) s =
      .next (s.keep ((((s.slotMarked.mapBuilt [0] 0).systemFrames.ownFrames).stackLost 0).toStage 4)) := by
  have hmap : (testBoot.cfg.rows ++ []).eraseDups = [] := by decide
  have hworn : (List.range 208).filter (fun p => decide (4 < (List.filter (fun x : Nat × Nat => x.1 == p) []).length)) = [] := by decide
  have hrepairs : testBoot.repairs = [] := by decide
  have hrepaired : testBoot.repaired = [] := by rw [BootState.repaired, hrepairs]; rfl
  have hbad : testBoot.cfg.slots ++ [] ++ [0] ++ [] = [0] := by decide
  have hslots : (List.range 208).filter [0].contains = [0] := by decide
  have hfresh : [0].filter (fun p => !([] : List Nat).contains p) = [0] := by decide
  have hlib : ((testBoot.running.comps.find? fun c => c.type == 5).map fun c => c.version).getD 0 = 0 := by decide
  have hstack : [0].eraseDups = [0] := by decide
  have hone : ¬(false || decide (12 ≤ [0].length)) = true := by decide
  rw [exec_selfTestComplete, execSelfTestComplete, hb, h3]
  rw [hmap, hworn, hrepaired, hbad, hslots, hfresh, hrepairs, hlib, hstack, if_neg hone]
  obtain ⟨u, hu⟩ : ∃ u, s.slotMarked = u := ⟨_, rfl⟩
  rw [hu]
  unfold State.slotMarked at hu
  rw [List.foldl_cons, List.foldl_nil, List.foldl_nil, List.foldl_cons, List.foldl_nil]
  dsimp only
  rw [hu]
  exact State.when_of hs (by decide)

/-! ### The frames of an empty image -/

theorem State.holding_systemFrames (s : State) : s.systemFrames.holding = s.holding := by
  unfold State.systemFrames
  dsimp only
  obtain ⟨u, hu⟩ : ∃ u, (s.boot.cfg.journal ++ s.boot.cfg.save ++ s.boot.cfg.firmware).foldl
    (fun s f => s.takeFrame f 0x7F 0 0 false true) s = u := ⟨_, rfl⟩
  have hus : u.holding = s.holding := by
    rw [← hu]
    exact foldl_keeps (π := State.holding) (f := fun s f => s.takeFrame f 0x7F 0 0 false true) (fun _ _ => rfl) _ s
  have hrole (v : State) (f : Option Frame) (r : Nat) : (v.setJrole f r).holding = v.holding := by
    unfold State.setJrole
    split
    · rfl
    · rfl
  rw [hu]
  exact (hrole _ _ _).trans ((hrole _ _ _).trans (Eq.trans rfl hus))

/-- Instance 0 as an empty configuration image makes it (R224). -/
def ownInstance : Instance := { Instance.absent with stackSet := stacksOf 0, mirror := false, quota := 0, frames := (stacksOf 0).map fun _ => [] }

theorem State.takeFrames_nil (s : State) (n : Nat) : s.takeFrames n [] = s.modInst n fun x => { x with frames := [] } := by
  unfold State.takeFrames
  dsimp only
  rw [List.zip_nil_right, List.zipIdx_nil, List.foldl_nil]
  refine congrArg (s.modInst n) (funext fun x => ?_)
  rw [List.zip_nil_right]
  rfl

theorem State.ownFrames_keeps {s : State} (hc : s.boot.cfg = CfgImage.none) : s.ownFrames.cores = s.cores ∧ s.ownFrames.images = s.images ∧
    (s.ownFrames.inst 0).frames = [] ∧ ∀ n, n ≠ 0 → s.ownFrames.inst n = s.inst n := by
  have hframe : s.ownFrames = (((s.setInst 0 ownInstance).modInst 0 fun x => { x with frames := [] }).drawKey (stacksOf 0) 0) := by
    rw [State.ownFrames, hc]
    exact congrArg (fun t => State.drawKey t (stacksOf 0) 0) (State.takeFrames_nil (s.setInst 0 ownInstance) 0)
  rw [hframe]
  refine ⟨rfl, rfl, ?_, fun n hn => ?_⟩
  · refine congrArg Instance.frames (SMap.get_put_self Instance.absent (s.setInst 0 ownInstance).insts 0
      { (s.setInst 0 ownInstance).inst 0 with frames := [] })
  · exact (SMap.get_put_other Instance.absent (s.setInst 0 ownInstance).insts _ hn).trans (SMap.get_put_other Instance.absent s.insts ownInstance hn)

/-! ### The tear-down of the cores' list -/

/-- A core that holds nothing and is being woken. -/
def spareCore (failed : Bool) : Core := { Core.zero with waking := true, failed := failed }

/-- Core 0, marked as failed, and the stale entry of core 0 behind it. -/
def staleCores : SMap Core := [(0, spareCore true), (0, spareCore false)]

/-- A pass over every core that changes no spare core writes the stale entry over the marked one. -/
theorem State.mapCores_stale {s : State} {a : Bool} (h : s.cores = [(0, spareCore a), (0, spareCore false)]) {f : Nat → Core → Core}
    (hf : ∀ b, f 0 (spareCore b) = spareCore b) : (s.mapCores f).cores = [(0, spareCore false), (0, spareCore false)] := by
  have hput (m : SMap Core) (b c : Bool) : SMap.put Core.zero ((0, spareCore c) :: m) 0 (spareCore b) = (0, spareCore b) :: m := by
    cases b <;> rfl
  unfold State.mapCores
  dsimp only
  rw [h, List.foldl_cons, List.foldl_cons, List.foldl_nil]
  dsimp only
  rw [hf, hf, hput, hput]

theorem State.endHeld_spare {s : State} {a : Bool} (h : s.cores = [(0, spareCore a), (0, spareCore false)]) (n : Nat) : s.endHeld n = s := by
  unfold State.endHeld
  rw [h]
  rfl

theorem State.chargeSpills_spare {s : State} {a : Bool} (h : s.cores = [(0, spareCore a), (0, spareCore false)]) (n : Nat) :
    s.chargeSpills n = s := by
  unfold State.chargeSpills
  rw [h]
  rfl

theorem State.core_spare {s : State} {a : Bool} {m : SMap Core} (h : s.cores = (0, spareCore a) :: m) : s.core 0 = spareCore a := by
  unfold State.core
  rw [h]
  rfl

theorem State.notePoisoned_spare {s : State} {a : Bool} {m : SMap Core} (h : s.cores = (0, spareCore a) :: m) (k : Nat) (ctx : Ctx) :
    s.notePoisoned 0 k ctx = s := by
  have hnone : ((spareCore a).side k).mmtsOf ctx = [] := by
    unfold Core.side
    split <;> rfl
  unfold State.notePoisoned
  rw [State.core_spare h, hnone]
  rfl

theorem State.collectFlags_spare {s : State} {a : Bool} {m : SMap Core} (h : s.cores = (0, spareCore a) :: m) (ctx : Ctx) :
    s.collectFlags 0 ctx = s := by
  unfold State.collectFlags
  rw [State.core_spare h]
  rfl

theorem State.unwait_spare {s : State} {a : Bool} (h : s.cores = [(0, spareCore a), (0, spareCore false)]) : s.unwait = s := by
  unfold State.unwait
  have hno (p : Prop) : ¬((spareCore a).t.stop = .regionWait ∧ p) := fun hh => by
    cases a <;> exact absurd hh.1 (by decide)
  rw [h, List.foldl_cons, List.foldl_cons, List.foldl_nil]
  dsimp only
  rw [State.core_spare h, if_neg (hno _), State.core_spare h, if_neg (hno _)]

theorem State.cores_wvPrune (s : State) : s.wvPrune.cores = s.cores := by
  unfold State.wvPrune
  refine foldl_keeps (π := State.cores) (fun u x => ?_) _ s
  dsimp only
  split
  · split
    · split <;> rfl
    · split <;> rfl
  · split <;> rfl

theorem State.cores_dropSeq (s : State) (ctx : Ctx) : (s.dropSeq ctx).cores = s.cores :=
  foldl_keeps (π := State.cores) (f := fun (s : State) (x : Nat × List SeqReq) => s.setSeqQueue x.1 (x.2.filter fun (r : SeqReq) => r.ctx != ctx))
    (fun _ _ => rfl) _ s

theorem spareCore_dropCtx (b : Bool) : (spareCore b).dropCtx (.tenant 1) = spareCore b := by
  cases b <;> decide

theorem spareCore_tenantTorn (b owner : Bool) (n : Nat) : (spareCore b).tenantTorn n owner = spareCore b := by
  cases b <;> cases owner <;> rfl

theorem State.cores_dropCtx {s : State} (h : s.cores = staleCores) :
    (s.dropCtx (.tenant 1)).cores = [(0, spareCore false), (0, spareCore false)] := by
  obtain ⟨u, hu⟩ : ∃ u, s.dropSeq (.tenant 1) = u := ⟨_, rfl⟩
  have hc : u.cores = staleCores := by rw [← hu, s.cores_dropSeq, h]
  have hwalk : u.cores.foldl (fun s x => ((s.notePoisoned x.1 0 (.tenant 1)).notePoisoned x.1 1 (.tenant 1)).collectFlags x.1 (.tenant 1)) u
      = u := by
    rw [hc, staleCores, List.foldl_cons, List.foldl_cons, List.foldl_nil]
    dsimp only
    rw [State.notePoisoned_spare hc, State.notePoisoned_spare hc, State.collectFlags_spare hc, State.notePoisoned_spare hc,
      State.notePoisoned_spare hc, State.collectFlags_spare hc]
  have hon : u.cores.filter (fun x => x.2.residents.any fun r => r.ctx == .tenant 1) = [] := by rw [hc]; rfl
  obtain ⟨v, hv⟩ : ∃ v, u.mapCores (fun _ c => c.dropCtx (.tenant 1)) = v := ⟨_, rfl⟩
  have hvc : v.cores = [(0, spareCore false), (0, spareCore false)] := by
    rw [← hv]
    exact State.mapCores_stale (hc : u.cores = [(0, spareCore true), (0, spareCore false)]) fun b => spareCore_dropCtx b
  obtain ⟨w, hw⟩ : ∃ w : State, { v with regs := breakLocks (Ctx.tenant 1).code v.regs } = w := ⟨_, rfl⟩
  have hwc : w.cores = [(0, spareCore false), (0, spareCore false)] := by
    rw [← hw]
    exact hvc
  unfold State.dropCtx
  dsimp only
  rw [hu, hwalk, hon, hv, List.foldl_nil, hw, State.unwait_spare hwc, State.cores_wvPrune, hwc]

theorem State.cores_dropImages (s : State) (n : Nat) : (s.dropImages n).cores = s.cores := rfl

/-- The tear-down of a tenant leaves the stale entry of core 0. -/
theorem State.cores_stopTenant {s : State} (h : s.cores = staleCores) :
    (s.stopTenant 1).cores = [(0, spareCore false), (0, spareCore false)] := by
  unfold State.stopTenant
  dsimp only
  rw [State.endHeld_spare h, State.chargeSpills_spare h]
  rw [State.cores_dropImages]
  exact State.mapCores_stale (State.cores_dropCtx h) fun b => spareCore_tenantTorn b _ 1

theorem State.cores_retireAll (s : State) (n status cause : Nat) : (s.retireAll n status cause).cores = s.cores := by
  unfold State.retireAll
  dsimp only
  refine (foldl_keeps (π := State.cores) (fun u c => ?_) _ _).trans rfl
  split
  · rfl
  · exact (congrArg State.cores (u.endCommand_frame ..)).trans rfl

theorem State.posts_postCompletion (s : State) (k : CmdKey) (c : Completion) : s.Posts (s.postCompletion k c id) := by
  unfold State.postCompletion
  dsimp only [id]
  refine .of_if ?_ (State.Posts.trans ?_ (State.posts_statusLine ..))
  all_goals
    split
    · exact (s.posts_ringWrite ..).trans rfl
    · exact (s.posts_ringWrite ..).trans rfl

theorem State.posts_mgmtReply (s : State) (ridx tag status cause : Nat) : s.Posts (s.mgmtReply ridx tag status cause) :=
  s.posts_postCompletion ..

theorem State.cores_faultInstance {s : State} (h : s.cores = staleCores) (cls lcore : Nat) :
    (s.faultInstance 1 cls lcore).cores = [(0, spareCore false), (0, spareCore false)] := by
  obtain ⟨u, hu⟩ : ∃ u, s.stopTenant 1 = u := ⟨_, rfl⟩
  have huc : u.cores = [(0, spareCore false), (0, spareCore false)] := by rw [← hu]; exact State.cores_stopTenant h
  obtain ⟨v, hv⟩ : ∃ v, ((u.setF (.iwFault 1) IW_FAULT.VALID 1).setF (.iwFault 1) IW_FAULT.CLASS cls).setF (.iwFault 1) IW_FAULT.CORE lcore = v :=
    ⟨_, rfl⟩
  have hvc : v.cores = u.cores := by rw [← hv]; rfl
  obtain ⟨w, hw⟩ : ∃ w, ((v.setInstState 1 stFAULTED).holdRings 1).retireAll 1 3 cls = w := ⟨_, rfl⟩
  have hwc : w.cores = v.cores := by
    rw [← hw, State.cores_retireAll, ((v.setInstState 1 stFAULTED).posts_holdRings 1).cores, (v.posts_setInstState 1 stFAULTED).cores]
  refine Eq.trans ?_ (hwc.trans (hvc.trans huc))
  unfold State.faultInstance
  dsimp only
  rw [hu, hv, hw]
  split
  · split
    · exact (State.posts_mgmtReply ..).cores.trans rfl
    · rfl
  · rfl

/-! ### The loss of a stack (R253 to R257) -/

/-- What the loss of stack 0 rests on: cores, instances and images. -/
def State.owned (s : State) : SMap Core × SMap Instance × SMap (Option Image) := (s.cores, s.insts, s.images)

theorem State.owned_event (s : State) (src sev cls l n d : Nat) : (s.event src sev cls l n d).owned = s.owned := by
  have hrest := (s.logged_event src sev cls l n d).rest
  exact (congrArg State.owned hrest).trans rfl

/-- With no image and no core in a take-over, the save slots of a lost stack hold nobody's state. -/
theorem State.loseImages_owned {s : State} (hc : s.cores = staleCores) (hi : s.images = []) (m : Nat) :
    (s.loseImages m).cores = staleCores ∧ (s.loseImages m).insts = s.insts := by
  unfold State.loseImages
  dsimp only
  have hspills : staleCores.filterMap (fun x => x.2.takeover.bind fun k => k.slot.map fun _ => k.from_) = [] := rfl
  rw [hi, hc, hspills]
  split
  · exact ⟨rfl, rfl⟩
  · exact ⟨hc, rfl⟩

theorem State.ownersOn_congr {s t : State} (h : ∀ n, (t.inst n).frames = (s.inst n).frames) (m : Nat) : t.ownersOn m = s.ownersOn m := by
  unfold State.ownersOn
  simp only [h]

theorem State.cores_journalNote (s : State) (m d : Nat) : (s.journalNote m d).cores = s.cores := State.event_cores ..

theorem State.cores_setJrole (s : State) (f : Option Frame) (r : Nat) : (s.setJrole f r).cores = s.cores := by
  unfold State.setJrole
  split <;> rfl

theorem State.cores_newMirror (s : State) : s.newMirror.cores = s.cores := by
  unfold State.newMirror
  dsimp only
  split
  · exact (State.cores_journalNote ..).trans ((State.cores_setJrole ..).trans rfl)
  · exact (State.cores_journalNote ..).trans rfl

theorem State.cores_journalLoss (s : State) (m : Nat) : (s.journalLoss m).cores = s.cores := by
  unfold State.journalLoss
  dsimp only
  split
  · rfl
  · split
    · split
      · split
        · exact (State.cores_journalNote ..).trans ((State.cores_setJrole ..).trans rfl)
        · exact (State.cores_newMirror _).trans ((State.cores_setJrole ..).trans ((State.cores_setJrole ..).trans rfl))
      · exact (State.cores_journalNote ..).trans ((State.cores_setJrole ..).trans rfl)
    · split
      · exact (State.cores_newMirror _).trans ((State.cores_setJrole ..).trans rfl)
      · rfl

theorem State.cores_journalBusy (s : State) : s.journalBusy.cores = s.cores := by
  unfold State.journalBusy
  dsimp only
  split
  · split <;> rfl
  · split <;> rfl

/-- The loss of a stack up to its owners changes no core, no instance and no image. -/
theorem State.stackLost_eq (s : State) (m : Nat) : ∃ v : State, v.owned = s.owned ∧
    s.stackLost m = ((((v.loseImages m).tearOwners m).journalLoss m).showBusy m).journalBusy := by
  obtain ⟨u, hu⟩ : ∃ u, (s.setF (.msStatus m) MS_STATUS.STATE 2).setDomain (208 + m) false = u := ⟨_, rfl⟩
  have huo : u.owned = s.owned := by rw [← hu]; rfl
  obtain ⟨v, hv⟩ : ∃ v, (List.range 128).foldl (fun s f => s.setF (.msFrame m f) MS_FRAME.STATE 3) u = v := ⟨_, rfl⟩
  have hvo : v.owned = u.owned := by
    rw [← hv]
    exact foldl_keeps (π := State.owned) (f := fun s f => s.setF (.msFrame m f) MS_FRAME.STATE 3) (fun _ _ => rfl) _ u
  obtain ⟨w, hw⟩ : ∃ w, v.note (srcStack m) 3 0x13 m = w := ⟨_, rfl⟩
  have hwo : w.owned = v.owned := by
    rw [← hw]
    exact State.owned_event ..
  unfold State.stackLost
  dsimp only
  rw [hu, hv, hw]
  refine ⟨_, ?_, rfl⟩
  exact Eq.trans rfl (hwo.trans (hvo.trans huo))

/-- The loss of a stack that instance 1 alone owns tears that instance down, over the stale list of cores. -/
theorem State.cores_stackLost {s : State} (hc : s.cores = staleCores) (hi : s.images = []) {m : Nat} (ho : s.ownersOn m = [1])
    (hm : (s.inst 1).mirror = false) : (s.stackLost m).cores = [(0, spareCore false), (0, spareCore false)] := by
  obtain ⟨v, hv, hlost⟩ := s.stackLost_eq m
  have hvc : v.cores = staleCores := (congrArg Prod.fst hv).trans hc
  have hvi : v.insts = s.insts := congrArg (fun x => x.2.1) hv
  obtain ⟨hwc, hwi⟩ := State.loseImages_owned hvc ((congrArg (fun x => x.2.2) hv).trans hi : v.images = []) m
  obtain ⟨w, hw⟩ : ∃ w, v.loseImages m = w := ⟨_, rfl⟩
  rw [hw] at hwc hwi hlost
  have hinst (n : Nat) : w.inst n = s.inst n := by
    unfold State.inst
    rw [hwi, hvi]
  have htear : w.tearOwners m = w.faultInstance 1 6 0xFF := by
    rw [State.tearOwners, State.ownersOn_congr (fun n => congrArg Instance.frames (hinst n)) m, ho, List.foldl_cons, List.foldl_nil, hinst,
      if_neg (ne_true_of_eq_false hm), if_neg (by decide)]
  rw [hlost, State.cores_journalBusy]
  refine Eq.trans rfl ((State.cores_journalLoss ..).trans ?_)
  rw [htear]
  exact State.cores_faultInstance hwc 6 0xFF

theorem State.cores_toStage (s : State) (n : Nat) : (s.toStage n).cores = s.cores := by
  unfold State.toStage
  split
  · rfl
  · exact State.event_cores ..

/-- A state before the self-tests end, whose list of cores names core 0 twice; instance 1 has a frame of stack 0. -/
def doubledAtTest : State :=
  { State.reset.setF .mpBootstat MP_BOOTSTAT.STAGE 3 with
    boot := testBoot
    cores := [(0, spareCore false), (0, spareCore false)]
    insts := [(1, { Instance.absent with stackSet := [0], frames := [[(0, 5)]] })] }

theorem doubledAtTest_marked : doubledAtTest.slotMarked.cores = staleCores ∧ doubledAtTest.slotMarked.insts = doubledAtTest.insts ∧
    doubledAtTest.slotMarked.images = [] ∧ doubledAtTest.slotMarked.boot.cfg = CfgImage.none := ⟨rfl, rfl, rfl, rfl⟩

/-- The self-tests that find slot 0 and stack 0 failed leave core 0 as its stale entry says: not failed. -/
theorem doubledAtTest_runs : ∃ t, exec (.selfTestComplete [0] [] [0] false) doubledAtTest = .next t ∧ (t.core 0).failed = false := by
  refine ⟨_, selfTest_runs rfl rfl (by decide), ?_⟩
  obtain ⟨hc, hi, him, hcfg⟩ := doubledAtTest_marked
  obtain ⟨u, hu⟩ : ∃ u, (doubledAtTest.slotMarked.mapBuilt [0] 0).systemFrames = u := ⟨_, rfl⟩
  have hhold : u.holding = doubledAtTest.slotMarked.holding := by
    rw [← hu, State.holding_systemFrames, State.holding_mapBuilt]
  obtain ⟨hoc, hoim, hzero, hother⟩ := State.ownFrames_keeps (s := u) ((congrArg (fun x => x.2.2.2.cfg) hhold).trans hcfg)
  have huc : u.cores = staleCores := (congrArg Prod.fst hhold).trans hc
  have hui (n : Nat) : u.inst n = doubledAtTest.inst n := by
    unfold State.inst
    rw [← hi]
    exact congrArg (fun x => SMap.get Instance.absent x.2.1 n) hhold
  have hframes (n : Nat) : (u.ownFrames.inst n).frames = (doubledAtTest.inst n).frames := by
    by_cases hn : n = 0
    · subst hn
      exact hzero
    · rw [hother n hn, hui]
  have howners : u.ownFrames.ownersOn 0 = [1] := (State.ownersOn_congr hframes 0).trans (by decide)
  have hmirror : (u.ownFrames.inst 1).mirror = false := by
    rw [hother 1 (by decide), hui]
    rfl
  have hlost := State.cores_stackLost (hoc.trans huc) (hoim.trans ((congrArg (fun x => x.2.2.1) hhold).trans him)) howners hmirror
  rw [hu]
  have hcores : (doubledAtTest.keep ((u.ownFrames.stackLost 0).toStage 4)).cores = [(0, spareCore false), (0, spareCore false)] :=
    (State.cores_toStage _ 4).trans hlost
  rw [State.core_spare hcores]
  rfl

/-- Refutes O26: with core 0 twice in the list of cores, and a stack lost that an instance owns, the failed slot 0 is not failed after the
self-tests. -/
theorem not_bootStagesFollowTheirOrder : ¬ Obligations.BootStagesFollowTheirOrder := by
  unfold Obligations.BootStagesFollowTheirOrder
  rintro ⟨_, _, _, hself, -⟩
  obtain ⟨hruns, _⟩ := hself doubledAtTest [0] [0] [] rfl rfl (by decide) (by decide) (by decide) (by decide)
  obtain ⟨t, hx, _, hslots, _⟩ := hruns (by decide)
  obtain ⟨t', hx', hno⟩ := doubledAtTest_runs
  rw [hx'] at hx
  obtain rfl := Host.Outcome.next.inj hx
  exact Bool.false_ne_true (hno.symm.trans (hslots 0 (List.mem_singleton_self 0)).1)

end Sys2Proof.Machine


namespace Sys2Proof.Machine

/-! # A cycle that passes (R357, R538)

What a cycle without a command does to the state leaves the GTC, the queue and the clocks alone, past the count itself. -/

/-- What a cycle leaves alone: the GTC, the queue and the clocks. -/
def State.clock (s : State) : Nat × List Instr × Bool := (s.gtc, s.pending, s.clocksStopped)

@[simp] theorem State.clock_ite {c : Prop} [Decidable c] (a b : State) : (if c then a else b).clock = if c then a.clock else b.clock :=
  apply_ite State.clock c a b

theorem State.clock_foldl {α : Type} {f : State → α → State} (h : ∀ s a, (f s a).clock = s.clock) (l : List α) (s : State) :
    (l.foldl f s).clock = s.clock := foldl_keeps (π := State.clock) h l s

theorem State.Logged.clock {s t : State} (h : s.Logged t) : t.clock = s.clock := (congrArg State.clock h.rest).trans rfl
theorem State.Posts.clock {s t : State} (h : s.Posts t) : t.clock = s.clock := (congrArg State.clock h).trans rfl
theorem State.Tells.clock {s t : State} (h : s.Tells t) : t.clock = s.clock := (congrArg State.clock h.rest).trans rfl

/-! ### The operations that change one field of the state -/

@[simp] theorem State.clock_setReg (s : State) (r : Reg) (w : BitVec 64) : (s.setReg r w).clock = s.clock := rfl
@[simp] theorem State.clock_setF (s : State) (r : Reg) (f : Fld) (x : Nat) : (s.setF r f x).clock = s.clock := rfl
@[simp] theorem State.clock_orF (s : State) (r : Reg) (f : Fld) (x : Nat) : (s.orF r f x).clock = s.clock := rfl
@[simp] theorem State.clock_satF (s : State) (r : Reg) (f : Fld) (x : Nat) : (s.satF r f x).clock = s.clock := rfl
@[simp] theorem State.clock_setCore (s : State) (p : Nat) (c : Core) : (s.setCore p c).clock = s.clock := rfl
@[simp] theorem State.clock_modCore (s : State) (p : Nat) (f : Core → Core) : (s.modCore p f).clock = s.clock := rfl
@[simp] theorem State.clock_mapCores (s : State) (f : Nat → Core → Core) : (s.mapCores f).clock = s.clock := rfl
@[simp] theorem State.clock_modInst (s : State) (n : Nat) (f : Instance → Instance) : (s.modInst n f).clock = s.clock := rfl
@[simp] theorem State.clock_charge (s : State) (n : Nat) (f : Acct → Acct) : (s.charge n f).clock = s.clock := rfl
@[simp] theorem State.clock_modCmd (s : State) (no : Nat) (f : Cmd → Cmd) : (s.modCmd no f).clock = s.clock := rfl
@[simp] theorem State.clock_modFhp (s : State) (p : Nat) (f : FhPort → FhPort) : (s.modFhp p f).clock = s.clock := rfl
@[simp] theorem State.clock_fhCount (s : State) (p k n : Nat) : (s.fhCount p k n).clock = s.clock := rfl
@[simp] theorem State.clock_setTb (s : State) (n : Nat) (x : TimeBase) : (s.setTb n x).clock = s.clock := rfl
@[simp] theorem State.clock_setD (s : State) (d : Rat) : (s.setD d).clock = s.clock := rfl
@[simp] theorem State.clock_setNbr (s : State) (x : Nat) (n : WlNbr) : (s.setNbr x n).clock = s.clock := rfl
@[simp] theorem State.clock_setRctx (s : State) (g : Nat) (x : RCtx) : (s.setRctx g x).clock = s.clock := rfl
@[simp] theorem State.clock_setCell (s : State) (phy : Nat) (c : Option Cell) : (s.setCell phy c).clock = s.clock := rfl
@[simp] theorem State.clock_modCell (s : State) (phy : Nat) (f : Cell → Cell) : (s.modCell phy f).clock = s.clock := rfl
@[simp] theorem State.clock_setSeqQueue (s : State) (m : Nat) (q : List SeqReq) : (s.setSeqQueue m q).clock = s.clock := rfl
@[simp] theorem State.clock_setWvPoint (s : State) (pt : Nat) (x : WvPoint) : (s.setWvPoint pt x).clock = s.clock := rfl
@[simp] theorem State.clock_dropImages (s : State) (n : Nat) : (s.dropImages n).clock = s.clock := rfl
@[simp] theorem State.clock_health (s : State) (ce rt th st : Nat) : (s.health ce rt th st).clock = s.clock := rfl
@[simp] theorem State.clock_fhQueue (s : State) (p : Nat) (f : FhFrame) : (s.fhQueue p f).clock = s.clock := rfl
@[simp] theorem State.clock_startSkein (s : State) (p : Nat) (r : Resident) (l : Launch) (g win : Nat) :
    (s.startSkein p r l g win).clock = s.clock := rfl
@[simp] theorem State.clock_radioReturn (s : State) (p : Nat) : (s.radioReturn p).clock = s.clock := rfl
@[simp] theorem State.clock_loadMode (s : State) (p k : Nat) (c : Cmd) : (s.loadMode p k c).clock = s.clock := rfl
@[simp] theorem State.clock_syncFlags (s : State) (p : Nat) : (s.syncFlags p).clock = s.clock := rfl

/-! ### Records and messages -/

@[simp] theorem State.clock_event (s : State) (src sev cls l n d : Nat) : (s.event src sev cls l n d).clock = s.clock :=
  (s.logged_event ..).clock
@[simp] theorem State.clock_fapi (s : State) (q : Nat) (m : Fapi) : (s.fapi q m).clock = s.clock := (s.tells_fapi q m).clock
@[simp] theorem State.clock_errorInd (s : State) (q phy code : Nat) (more : List Nat) : (s.errorInd q phy code more).clock = s.clock :=
  (s.tells_errorInd ..).clock
@[simp] theorem State.clock_cellError (s : State) (g phy code : Nat) (more : List Nat) : (s.cellError g phy code more).clock = s.clock :=
  (s.tells_cellError ..).clock
@[simp] theorem State.clock_showGroup (s : State) (g : Nat) : (s.showGroup g).clock = s.clock := (s.tells_showGroup g).clock
@[simp] theorem State.clock_mgmtReply (s : State) (ridx tag status cause : Nat) : (s.mgmtReply ridx tag status cause).clock = s.clock :=
  (s.posts_mgmtReply ..).clock
@[simp] theorem State.clock_setInstState (s : State) (n st : Nat) : (s.setInstState n st).clock = s.clock := (s.posts_setInstState n st).clock
@[simp] theorem State.clock_holdRings (s : State) (n : Nat) : (s.holdRings n).clock = s.clock := (s.posts_holdRings n).clock

/-! ### Time, the log and the links -/

@[simp] theorem State.clock_switchNote (s : State) (b : Bool) (d : Rat) : (s.switchNote b d).clock = s.clock := s.clock_event ..

@[simp] theorem State.clock_timeTick (s : State) : s.timeTick.clock = s.clock := by
  have hone : ∀ (u : State) (n : Nat), (if u.tbState n = tbOFF ∨ u.psrc n = 5 then u
      else u.setTb n { u.tb n with value := (u.tb n).value + u.addend n, elapsed := (u.tb n).elapsed + u.addend n }).clock = u.clock := by
    simp
  unfold State.timeTick
  dsimp only
  simp only [State.clock_ite, State.clock_switchNote, State.clock_setD, ite_self]
  exact State.clock_foldl hone _ s

@[simp] theorem State.clock_waitTick (s : State) : s.waitTick.clock = s.clock := by
  unfold State.waitTick
  exact State.clock_foldl (fun u (c : Cmd) => u.clock_charge c.inst _) _ s

@[simp] theorem State.clock_loseLine (s : State) (p sub : Nat) : (s.loseLine p sub).clock = s.clock := by
  unfold State.loseLine
  simp

@[simp] theorem State.clock_peStop (s : State) (p : Nat) (why : PeStop) : (s.peStop p why).clock = s.clock := by
  unfold State.peStop
  simp

@[simp] theorem State.clock_engineTick (s : State) : s.engineTick.clock = s.clock := by
  unfold State.engineTick
  split
  · simp [State.stopEngine]
  · rfl

theorem wyLeave_clock (l : List (Nat × WyMsg)) (a : List (Nat × WyMsg) × State) : (l.foldl wyLeave a).2.clock = a.2.clock :=
  foldl_keeps (π := fun a => a.2.clock) (f := wyLeave) (fun a x => by
    unfold wyLeave
    split <;> rfl) l a

@[simp] theorem State.clock_linkTick (s : State) : s.linkTick.clock = s.clock := Eq.trans rfl (wyLeave_clock _ ([], s))

@[simp] theorem State.clock_windowTick (s : State) (x : Nat) : (s.windowTick x).clock = s.clock := by
  unfold State.windowTick
  simp

/-! ### The messages of the L2 (R409, R427 to R430) -/

@[simp] theorem State.clock_clearFlows (s : State) (phy : Nat) (c : Cell) : (s.clearFlows phy c).clock = s.clock := by
  unfold State.clearFlows
  dsimp only
  rw [State.clock_foldl, State.clock_foldl, State.clock_foldl]
  all_goals exact fun _ _ => rfl

@[simp] theorem State.clock_writeFlows (s : State) (c : CellCfg) : (s.writeFlows c).clock = s.clock := by
  unfold State.writeFlows
  dsimp only
  rw [State.clock_foldl, State.clock_foldl, State.clock_foldl]
  all_goals exact fun _ _ => rfl

@[simp] theorem State.clock_configure (s : State) (phy g : Nat) (c : CellCfg) : (s.configure phy g c).clock = s.clock := by
  unfold State.configure
  dsimp only
  split <;> simp

@[simp] theorem State.clock_cellStopped (s : State) (phy : Nat) (c : Cell) : (s.cellStopped phy c).clock = s.clock := by
  unfold State.cellStopped
  dsimp only
  rw [State.clock_showGroup, State.clock_foldl fun u q => u.clock_fapi q _, State.clock_modCell]

theorem State.clock_p5Start (s : State) (q phy : Nat) : (s.p5Start q phy).clock = s.clock := by
  unfold State.p5Start
  split
  · simp
  · rfl

theorem State.clock_p5Stop (s : State) (q phy : Nat) : (s.p5Stop q phy).clock = s.clock := by
  unfold State.p5Stop
  split
  · simp
  · rfl

theorem State.clock_p5Model (s : State) (q phy no size : Nat) (adders : List Nat) (clean signed : Bool) :
    (s.p5Model q phy no size adders clean signed).clock = s.clock := by
  unfold State.p5Model
  split
  · exact (State.clock_fapi ..).trans rfl
  · exact (State.clock_fapi ..).trans rfl

theorem State.clock_p5Dpd (s : State) (q phy chain : Nat) (orders : List Nat) (samples coeffs : Nat) :
    (s.p5Dpd q phy chain orders samples coeffs).clock = s.clock := by
  unfold State.p5Dpd
  split
  · rfl
  · simp [State.dpdAnswer]

theorem State.clock_p5Config (s : State) (q phy : Nat) (cfg : CellCfg) : (s.p5Config q phy cfg).clock = s.clock := by
  unfold State.p5Config
  dsimp only
  split <;> simp

theorem State.clock_p5Do (s : State) (w : P5Work) : (s.p5Do w).clock = s.clock := by
  unfold State.p5Do
  split
  · exact s.clock_fapi ..
  · exact s.clock_p5Config ..
  · exact s.clock_p5Start ..
  · exact s.clock_p5Stop ..
  · exact s.clock_p5Model ..
  · exact s.clock_p5Dpd ..

@[simp] theorem State.clock_p5Run (n : Nat) (s : State) : (State.p5Run n s).clock = s.clock := by
  induction n generalizing s with
  | zero => rfl
  | succ n ih =>
    unfold State.p5Run
    split
    · rfl
    · split
      · exact (ih _).trans ((State.clock_p5Do ..).trans rfl)
      · rfl

theorem State.clock_trelMark (s : State) (c : Cmd) : (s.trelMark c).clock = s.clock := by
  unfold State.trelMark
  split
  · simp
  · rfl

end Sys2Proof.Machine


namespace Sys2Proof.Machine

/-! ### Tear-downs (R34, R150, R320, R435) -/

@[simp] theorem State.clock_chargeSpills (s : State) (n : Nat) : (s.chargeSpills n).clock = s.clock := by
  unfold State.chargeSpills
  refine State.clock_foldl (fun u x => ?_) _ s
  split
  · simp
  · rfl

@[simp] theorem State.clock_endHeld (s : State) (n : Nat) : (s.endHeld n).clock = s.clock := by
  unfold State.endHeld
  refine State.clock_foldl (fun u x => ?_) _ s
  split
  · simp
  · rfl

@[simp] theorem State.clock_dropSeq (s : State) (ctx : Ctx) : (s.dropSeq ctx).clock = s.clock := by
  unfold State.dropSeq
  exact State.clock_foldl (fun u (x : Nat × List SeqReq) => u.clock_setSeqQueue x.1 _) _ s

@[simp] theorem State.clock_collectFlags (s : State) (p : Nat) (ctx : Ctx) : (s.collectFlags p ctx).clock = s.clock := by
  unfold State.collectFlags
  exact State.clock_foldl (fun u (r : Resident) => u.clock_modCmd r.cmd _) _ s

@[simp] theorem State.clock_orFlags (s : State) (p side : Nat) (fl : Flags) : (s.orFlags p side fl).clock = s.clock := by
  unfold State.orFlags
  simp

@[simp] theorem State.clock_flagCmd (s : State) (p side cmd : Nat) (fl : Flags) : (s.flagCmd p side cmd fl).clock = s.clock := by
  unfold State.flagCmd
  simp

@[simp] theorem State.clock_flagMe (s : State) (p side cmd : Nat) (fl : Flags) : (s.flagMe p side cmd fl).clock = s.clock := by
  unfold State.flagMe
  simp

@[simp] theorem State.clock_recordMe (s : State) (p part cause : Nat) (ctx : Ctx) (vec : Nat) :
    (s.recordMe p part cause ctx vec).clock = s.clock := by
  unfold State.recordMe
  simp

@[simp] theorem State.clock_notePoisoned (s : State) (p k : Nat) (ctx : Ctx) : (s.notePoisoned p k ctx).clock = s.clock := by
  unfold State.notePoisoned
  exact State.clock_foldl (fun u y => by simp) _ s

@[simp] theorem State.clock_wvPrune (s : State) : s.wvPrune.clock = s.clock := by
  unfold State.wvPrune
  refine State.clock_foldl (fun u x => ?_) _ s
  dsimp only
  split
  · simp
  · simp

@[simp] theorem State.clock_unwait (s : State) : s.unwait.clock = s.clock := by
  unfold State.unwait
  exact State.clock_foldl (fun u x => by simp) _ s

@[simp] theorem State.clock_dropCtx (s : State) (ctx : Ctx) : (s.dropCtx ctx).clock = s.clock := by
  obtain ⟨u, hu⟩ : ∃ u, (s.dropSeq ctx).cores.foldl (fun s x => ((s.notePoisoned x.1 0 ctx).notePoisoned x.1 1 ctx).collectFlags x.1 ctx)
    (s.dropSeq ctx) = u := ⟨_, rfl⟩
  have huc : u.clock = s.clock := by
    rw [← hu, State.clock_foldl fun v x => by simp, State.clock_dropSeq]
  obtain ⟨v, hv⟩ : ∃ v, (u.cores.filter fun x => x.2.residents.any fun r => r.ctx == ctx).foldl (fun s x => s.syncFlags x.1)
    (u.mapCores fun _ c => c.dropCtx ctx) = v := ⟨_, rfl⟩
  have hvc : v.clock = u.clock := by
    rw [← hv, State.clock_foldl fun w (x : Nat × Core) => w.clock_syncFlags x.1, State.clock_mapCores]
  unfold State.dropCtx
  dsimp only
  rw [hu, hv, State.clock_wvPrune, State.clock_unwait]
  exact Eq.trans rfl (hvc.trans huc)

@[simp] theorem State.clock_stopTenant (s : State) (n : Nat) : (s.stopTenant n).clock = s.clock := by
  unfold State.stopTenant
  simp

theorem State.clock_endCommand (s : State) (no status cause : Nat) : (s.endCommand no status cause).clock = s.clock :=
  (congrArg State.clock (s.endCommand_frame no status cause)).trans rfl

@[simp] theorem State.clock_retireAll (s : State) (n status cause : Nat) : (s.retireAll n status cause).clock = s.clock := by
  unfold State.retireAll
  dsimp only
  rw [State.clock_foldl fun u (c : Cmd) => by simp [State.clock_endCommand]]
  rfl

@[simp] theorem State.clock_faultInstance (s : State) (n cls lcore : Nat) : (s.faultInstance n cls lcore).clock = s.clock := by
  unfold State.faultInstance
  dsimp only
  split
  · simp
  · simp

@[simp] theorem State.clock_startSkeins (n p cmd : Nat) (s : State) : (State.startSkeins n p cmd s).clock = s.clock := by
  induction n generalizing s with
  | zero => rfl
  | succ n ih =>
    unfold State.startSkeins
    split
    · split
      · split
        · simp [ih]
        · rfl
      · rfl
    · rfl

@[simp] theorem State.clock_beginOn (s : State) (p k t : Nat) (c : Cmd) : (s.beginOn p k t c).clock = s.clock := by
  unfold State.beginOn
  dsimp only
  split
  · simp
  · simp

@[simp] theorem State.clock_radioNext (s : State) (p : Nat) : (s.radioNext p).clock = s.clock := by
  unfold State.radioNext
  dsimp only
  split
  · split
    · split
      · split
        · simp
        · simp
      · simp
    · rfl
  · rfl

@[simp] theorem State.clock_idleSlot (s : State) (c : Cell) (slot : Nat) : (s.idleSlot c slot).clock = s.clock := by
  unfold State.idleSlot
  split
  · rfl
  · exact State.clock_foldl (fun u x => by simp) _ s

@[simp] theorem State.clock_dropDl (s : State) (c : Cell) : (s.dropDl c).clock = s.clock := by
  unfold State.dropDl
  dsimp only
  rw [State.clock_foldl fun u n => u.clock_idleSlot c n, State.clock_foldl fun u p => u.clock_modFhp p _]

@[simp] theorem State.clock_fallBack (s : State) (phy : Nat) (c : Cell) : (s.fallBack phy c).clock = s.clock := by
  unfold State.fallBack
  dsimp only
  rw [State.clock_foldl fun u (w : SlotWork) => State.clock_foldl (fun v q => v.clock_fapi q _) _ u]
  simp

@[simp] theorem State.clock_modelHit (s : State) (g : Nat) : (s.modelHit g).clock = s.clock := by
  unfold State.modelHit
  refine State.clock_foldl (fun u x => ?_) _ s
  dsimp only
  split
  · rfl
  · split
    · exact (State.clock_fallBack ..).trans rfl
    · rfl

/-- The commands of a cell-group context that ends are retired (R435, R437). -/
theorem State.clock_contextCmds (s : State) (cause cls : Nat) (l : List Cmd) : (l.foldl (fun s c =>
    if c.silent then { s with cmds := s.cmds.filter fun q => q.key != c.key }
    else if cause = 4 ∨ cause = 5 then s.endCommand c.key.no 4 0 else s.endCommand c.key.no 3 cls) s).clock = s.clock := by
  refine State.clock_foldl (fun u c => ?_) l s
  split
  · rfl
  · simp [State.clock_endCommand]

@[simp] theorem State.clock_contextDown (s : State) (g cause cls : Nat) : (s.contextDown g cause cls).clock = s.clock := by
  unfold State.contextDown
  simp only [State.clock_event, State.clock_ite, State.clock_modelHit, ite_self]
  rw [State.clock_foldl fun u q => u.clock_satF _ _ _, State.clock_showGroup, State.clock_setRctx,
    State.clock_foldl fun u (y : Nat × Cell) => u.clock_dropDl y.2, State.clock_contextCmds,
    State.clock_foldl fun u (y : Nat × Core) => u.clock_radioNext y.1, State.clock_dropCtx]

@[simp] theorem State.clock_tearDown (s : State) (ctx : Ctx) (cls lcore : Nat) : (s.tearDown ctx cls lcore).clock = s.clock := by
  cases ctx with
  | tenant n => exact s.clock_faultInstance n cls lcore
  | cg g => exact s.clock_contextDown g 1 cls

@[simp] theorem State.clock_veFault (s : State) (p cause : Nat) (ctx : Ctx) (i : Issuer) : (s.veFault p cause ctx i).clock = s.clock := by
  unfold State.veFault State.recordVe
  simp

/-! ### The matrix engines and the skeins that a cycle starts -/

@[simp] theorem State.clock_startAll (s : State) (p : Nat) : (s.startAll p).clock = s.clock := by
  unfold State.startAll
  exact State.clock_foldl (fun u c => State.clock_startSkeins 256 p c u) _ s

@[simp] theorem State.clock_spCorrect (s : State) (p a n : Nat) : (s.spCorrect p a n).clock = s.clock := by
  unfold State.spCorrect
  exact State.clock_foldl (fun u w => by simp) _ s

@[simp] theorem State.clock_feedMmt (n p k : Nat) (e : MeEntry) (o : MmtOp) (s : State) : (State.feedMmt n p k e o s).clock = s.clock := by
  induction n generalizing s with
  | zero => rfl
  | succ n ih =>
    unfold State.feedMmt
    simp [ih]

@[simp] theorem State.clock_feedFill (s : State) (p k : Nat) : (s.feedFill p k).clock = s.clock := by
  unfold State.feedFill
  split
  · refine State.clock_foldl (fun u e => ?_) _ s
    split
    · simp
    · rfl
  · rfl

@[simp] theorem State.clock_startPass (s : State) (p k : Nat) : (s.startPass p k).clock = s.clock := by
  unfold State.startPass
  simp

@[simp] theorem State.clock_meIllegal (s : State) (p k : Nat) (e : MeEntry) (cause : Nat) : (s.meIllegal p k e cause).clock = s.clock := by
  unfold State.meIllegal
  simp

@[simp] theorem State.clock_mePoison (s : State) (p k cause : Nat) (e : MeEntry) (o : MmtOp) (vec : Nat) :
    (s.mePoison p k cause e o vec).clock = s.clock := by
  unfold State.mePoison
  simp

@[simp] theorem State.clock_issueMmt (s : State) (p k : Nat) (e : MeEntry) (o : MmtOp) : (s.issueMmt p k e o).clock = s.clock := by
  unfold State.issueMmt
  split
  · rfl
  · dsimp only
    split
    · simp [State.meFault]
    · simp

theorem State.clock_weightWritten (s : State) (p k : Nat) (writer : Ctx) (spans : List (Nat × Nat)) :
    (s.weightWritten p k writer spans).clock = s.clock := by
  unfold State.weightWritten
  dsimp only
  rw [State.clock_foldl fun u c => u.clock_tearDown c 5 _, State.clock_foldl fun u y => u.clock_mePoison p k 4 _ _ _]

@[simp] theorem State.clock_mdrFault (s : State) (p k : Nat) (e : MeEntry) (o : MdrOp) (cause : Nat) :
    (s.mdrFault p k e o cause).clock = s.clock := by
  unfold State.mdrFault
  simp [State.clock_weightWritten]

@[simp] theorem State.clock_meAdvance (n p k : Nat) (s : State) : (State.meAdvance n p k s).clock = s.clock := by
  induction n generalizing s with
  | zero => rfl
  | succ n ih =>
    unfold State.meAdvance
    dsimp only
    split
    · split
      · simp
      · split
        · split <;> simp [ih]
        · split <;> simp [ih]
        · split <;> simp [ih]
    · simp

theorem State.clock_kickCore (s : State) (p : Nat) : (s.kickCore p).clock = s.clock := by
  unfold State.kickCore State.meKick
  simp only [State.clock_startAll, State.clock_feedFill, State.clock_meAdvance]
  exact State.clock_foldl (fun u r => by simp) _ s

theorem State.clock_deliverLog (s : State) : s.deliverLog.clock = s.clock := rfl

/-- What a cycle does once the GTC has counted. -/
def State.passed (s : State) : State :=
  let s := s.deliverLog.timeTick
  let s := (s.mapCores fun _ c => c.holdTick).waitTick
  let s := if s.gtc % 3600000 = 0 then
      { s with withy := { s.withy with ports := s.withy.ports.map fun x => (x.1, { x.2 with crcMs := 0 }) } }
    else s
  let s := (((s.windowTick 0).windowTick 1).linkTick).engineTick
  let s := State.p5Run s.radio.p5.length (s.cmds.foldl State.trelMark s)
  let s := if s.cclUp then { s with ccl := { s.ccl with acks := [] } } else s
  (s.cores.map Prod.fst).foldl State.kickCore s

theorem State.clock_passed (s : State) : s.passed.clock = s.clock := by
  obtain ⟨u, hu⟩ : ∃ u, (s.deliverLog.timeTick.mapCores fun _ c => c.holdTick).waitTick = u := ⟨_, rfl⟩
  have huc : u.clock = s.clock := by
    rw [← hu, State.clock_waitTick, State.clock_mapCores, State.clock_timeTick, State.clock_deliverLog]
  obtain ⟨v, hv⟩ : ∃ v, (if u.gtc % 3600000 = 0 then
      { u with withy := { u.withy with ports := u.withy.ports.map fun x => (x.1, { x.2 with crcMs := 0 }) } } else u) = v := ⟨_, rfl⟩
  have hvc : v.clock = u.clock := by
    rw [← hv]
    split
    · rfl
    · rfl
  obtain ⟨w, hw⟩ : ∃ w, (((v.windowTick 0).windowTick 1).linkTick).engineTick = w := ⟨_, rfl⟩
  have hwc : w.clock = v.clock := by
    rw [← hw, State.clock_engineTick, State.clock_linkTick, State.clock_windowTick, State.clock_windowTick]
  obtain ⟨x, hx⟩ : ∃ x, State.p5Run w.radio.p5.length (w.cmds.foldl State.trelMark w) = x := ⟨_, rfl⟩
  have hxc : x.clock = w.clock := by
    rw [← hx, State.clock_p5Run, State.clock_foldl State.clock_trelMark]
  obtain ⟨y, hy⟩ : ∃ y, (if x.cclUp = true then { x with ccl := { x.ccl with acks := [] } } else x) = y := ⟨_, rfl⟩
  have hyc : y.clock = x.clock := by
    rw [← hy]
    split
    · rfl
    · rfl
  unfold State.passed
  dsimp only
  rw [hu, hv, hw, hx, hy, State.clock_foldl State.clock_kickCore, hyc, hxc, hwc, hvc, huc]

/-- A cycle that passes counts the GTC, and leaves the queue and the clocks (R357). -/
theorem State.clock_tick {s : State} (hstart : s.boot.started = true) (hscan : s.scanMode = false) :
    s.tick.clock = ((s.gtc + 1) % 2 ^ 64, s.pending, s.clocksStopped) := by
  have htick : s.tick = State.passed { s with gtc := (s.gtc + 1) % 2 ^ 64 } := by
    unfold State.tick State.passed
    rw [if_neg (by rw [hstart, hscan]; decide)]
  obtain ⟨n, hn⟩ : ∃ n, (s.gtc + 1) % 2 ^ 64 = n := ⟨_, rfl⟩
  rw [htick, hn, State.clock_passed]
  rfl

/-- Before the start, and in boundary-scan mode, no cycle passes. -/
theorem State.tick_idle {s : State} (h : s.boot.started = false ∨ s.scanMode = true) : s.tick = s := by
  unfold State.tick
  refine if_pos ?_
  rcases h with h | h
  · rw [h]
    rfl
  · rw [h, Bool.or_true]

/-- Settles O56: on an empty queue a cycle counts the GTC alone of the three, or nothing happens. -/
theorem anEmptyQueueLetsACyclePass : Obligations.AnEmptyQueueLetsACyclePass := by
  unfold Obligations.AnEmptyQueueLetsACyclePass
  refine ⟨fun s hq hs hstart hscan => ?_, fun s hq hs => ?_, fun s hq hs hidle => ?_⟩
  · have hclock := State.clock_tick hstart hscan
    rw [hq, hs] at hclock
    refine ⟨s.tick, ?_, congrArg Prod.fst hclock, congrArg (fun x => x.2.1) hclock, congrArg (fun x => x.2.2) hclock⟩
    rw [step, hq]
    exact if_neg (ne_true_of_eq_false hs)
  · rw [step, hq]
    exact if_pos hs
  · rw [step, hq]
    refine (if_neg (ne_true_of_eq_false hs)).trans ?_
    rw [State.tick_idle hidle]

end Sys2Proof.Machine
